-- ==== Sys2Proof/Word.lean ====
section
/-! DEFINITION. The word types of the N6 (02 R72, 02 section 6; 04 R123; 07 R241; 16 R475). -/

namespace Sys2Proof

/-- One byte. -/
abbrev Byte := BitVec 8
/-- A 32-bit register, the width of every management register (16 R475). -/
abbrev Word := BitVec 32
/-- A 64-bit scalar register or epoch count (04 R131, 01 R14). -/
abbrev DWord := BitVec 64
/-- One 512-byte row (02 section 6). -/
abbrev RowData := BitVec 4096
/-- One 64-byte flit (07 R228); byte k is bits [8k+7:8k]. -/
abbrev Flit := BitVec 512
/-- One 128-bit control word of a fabric port (08 R281). -/
abbrev CtrlWord := BitVec 128
/-- A global row address (02 R72). -/
abbrev Gra := BitVec 32
/-- A cluster number (02 R54). -/
abbrev Cl := Fin 72
/-- A core ID, cluster × 8 + logical core (02 R55). -/
abbrev CoreId := Fin 576
/-- A fabric port, in the order of R9 (01 section 4). -/
abbrev Port := Fin 12
/-- A host port, H0 or H1 (02 Table 2.4). -/
abbrev HostPort := Fin 2
/-- A fleet slice ID (08; 07 Table 7.3). -/
abbrev SliceId := BitVec 12
/-- A ring of a core (05 R177). -/
abbrev RingId := Fin 32

end Sys2Proof
end

