-- ==== Sys2Proof/Syntax.lean ====
section
/-! DEFINITION. The commands of the N6: one constructor per row of spec/opcode_table.json, with the operands that the
rows' rules give them. -/

namespace Sys2Proof

/-- The MX.LOAD fields (03 Table 3.8). -/
structure MxLoadFields where
  wfmt : BitVec 4
  afmt : BitVec 4
  trans : Bool
  srcsel : Bool
  sreg : BitVec 5
  roff : BitVec 20
  deriving DecidableEq, Repr

/-- The MX.FEED fields (03 Table 3.9). -/
structure MxFeedFields where
  acc : BitVec 2
  swap : Bool
  half : Bool
  entry : BitVec 8
  count : BitVec 13
  voff : BitVec 3
  srcsel : Bool
  sreg : BitVec 5
  roff : BitVec 20
  deriving DecidableEq, Repr

/-- The general SX fields (04 Table 4.2). -/
structure SxFields where
  pred : BitVec 3
  pneg : Bool
  d : BitVec 5
  a : BitVec 5
  b : BitVec 5
  imm : BitVec 23
  deriving DecidableEq, Repr

/-- The VX fields (04 Table 4.9). -/
structure VxFields where
  pred : BitVec 3
  pneg : Bool
  mreg : BitVec 3
  mz : Bool
  sr : Bool
  ty : BitVec 2
  dst : BitVec 6
  srca : BitVec 6
  srcb : BitVec 6
  srcc : BitVec 6
  fn : BitVec 4
  deriving DecidableEq, Repr

/-- The DX.RUN fields (05 Table 5.5). -/
structure DxFields where
  queue : Fin 4
  desc : BitVec 7
  sreg : BitVec 5
  dreg : BitVec 5
  deriving DecidableEq, Repr

/-- The two networks of the mesh (07 R229). -/
inductive Net where
  | req | rep
  deriving DecidableEq, Repr

/-- A source of express flows: a logical core, or an edge stop for the arrivals of a slice (07 R236). -/
inductive QuotaSrc where
  | core (c : CoreId) | stop (k : Fin 27) (slice : SliceId)
  deriving DecidableEq, Repr

/-- A packet: its header flit and its payload flits (07 R240, R241). -/
structure Packet where
  hdr : Flit
  payload : List Flit
  deriving DecidableEq, Repr

/-- The Ethernet frame of a Teller message: its IEEE 802.1Q tag's VLAN identifier, whether MACsec protects it, and its bytes (12 R376). -/
structure HostFrame where
  vlan : Option (BitVec 12) := none
  macsec : Bool := false
  bytes : BitVec 16 := 0
  deriving DecidableEq, Repr

/-- What a Teller message's header says of it: the host port it arrived on, its session, its SEQ and the host's EC (12 Table 12.2), and the
frame that carried it. Its tag has passed; a message that breaks the protocol is the command PROTOCOL_VIOLATION. With `pipe` it is no message
of a session: it is what the previous device of a pipelined deposit forwards (09 R334). -/
structure MsgHdr where
  hp : HostPort
  session : Word
  seq : BitVec 64
  pipe : Bool := false
  ec : BitVec 64 := 0
  frame : HostFrame := {}
  deriving DecidableEq, Repr

/-- The BEGIN fields of FOLIO_PUT (12 Table 12.6). -/
structure PutBegin where
  kind : BitVec 8
  stack : BitVec 8
  devices : BitVec 8
  key : BitVec 64
  rows : BitVec 32
  digest : BitVec 384
  deriving DecidableEq, Repr

/-- A PIPE record of FOLIO_PUT (12 Table 12.6). -/
structure PipeRec where
  coord : BitVec 16
  rows : BitVec 32
  digest : BitVec 384
  deriving DecidableEq, Repr

/-- A fabric frame as its flits: lead, body and tail (08 R279). -/
structure Frame where
  lead : Flit
  body : List Flit
  tail : Flit
  deriving DecidableEq, Repr

/-- The two reference inputs (01 R15). -/
inductive RefInput where
  | a | b
  deriving DecidableEq, Repr

/-- A PTP message of the selected domain as the client sees it, with its times in ticks (01 R23; IEEE 1588-2019):
Sync with its receive time, Follow_Up, and Delay_Resp with the send time of the request it answers. -/
inductive PtpMsg where
  | sync (seq : BitVec 16) (twoStep : Bool) (origin received : BitVec 64)
  | followUp (seq : BitVec 16) (origin : BitVec 64)
  | delayResp (seq : BitVec 16) (sent received : BitVec 64)
  deriving DecidableEq, Repr

/-- How a PTP message travels (12 R380): over UDP ports 319 and 320 on IPv6 or IPv4, or over Ethertype 0x88F7. -/
inductive PtpTransport where
  | udp6 | udp4 | layer2
  deriving DecidableEq, Repr

/-- The transport of a PTP message, and whether it carries the Teller VLAN tag and MACsec protection (12 R380). -/
structure PtpVia where
  transport : PtpTransport
  vlan : Bool
  macsec : Bool
  deriving DecidableEq, Repr

/-- A PTP message as it arrives. -/
structure PtpRx where
  via : PtpVia
  msg : PtpMsg
  deriving DecidableEq, Repr

/-- A 64-byte block of a library entry that the device code cannot correct (09 R313). -/
structure BadBlock where
  key : BitVec 64
  row : BitVec 32
  block : Fin 8
  deriving DecidableEq, Repr

/-- An uncorrectable block that a read of an entry meets, and the blocks that the copy to the spare pseudo-channel then cannot read
(09 R313, R314). -/
structure VaultFault where
  row : BitVec 32
  block : Fin 8
  copy : List BadBlock
  deriving DecidableEq, Repr

/-- Symbols that the device code corrects in the read of a row of an entry (09 R313). -/
structure FixedRow where
  key : BitVec 64
  row : BitVec 32
  symbols : Nat
  deriving DecidableEq, Repr

/-- An operand together with the cycles in which the operation lost a bank or a port (05 R172). -/
structure WithLost (α : Type) where
  op : α
  lost : Nat
  deriving DecidableEq, Repr

/-- A ring at which a wait ends, and the cycles that a FEED or LOAD waited there (05 R181). -/
structure WaitedRing where
  ring : RingId
  waited : Nat
  deriving DecidableEq, Repr

/-- A turn of a DMA queue that sends packets: how many at most, the cycles in which it lost a bank or a port, and the flits of a
slice channel that left after their owned cycles (05 R172; 07 R233). -/
structure SendTurn where
  n : Nat
  lost : Nat
  late : Nat
  deriving DecidableEq, Repr

/-- A turn of a DMA queue that sends read requests, which read no row: how many at most, and late flits (07 R233, R246). -/
structure RequestTurn where
  n : Nat
  late : Nat
  deriving DecidableEq, Repr

/-- What a packet's way over the mesh took: cycles from injection to delivery, and for each slice-channel flit that was not present at its
delivery cycle of a region crossing, the region that it came to (07 R239; 11 R368). -/
structure Trip where
  latency : Nat
  crossLate : List (Fin 24)
  deriving DecidableEq, Repr

/-- A packet at a stop of its way, and what the way took. -/
structure OnMesh where
  pkt : Packet
  trip : Trip
  deriving DecidableEq, Repr

/-- A read request at its destination, what its way took, and the flits of its reply on a slice channel that leave after their owned
cycles (07 R233, R246). -/
structure Request where
  pkt : Packet
  trip : Trip
  late : Nat
  deriving DecidableEq, Repr

/-- A short packet at its destination, and the cycles its way took. -/
structure OnMeshShort where
  flit : Flit
  latency : Nat
  deriving DecidableEq, Repr

/-- What training detects of a port: its reversal and the polarity of each lane (08 R269). -/
structure LaneSense where
  reversed : Bool
  polarity : BitVec 9
  deriving DecidableEq, Repr

/-- A second of a lane: its FEC symbols and its uncorrectable codewords (08 R270, R282). -/
structure LaneSecond where
  symbols : Nat
  uncorr : Nat
  deriving DecidableEq, Repr

/-- A control flit at a port (08 R281). -/
structure PortFlit where
  port : Port
  flit : Flit
  deriving DecidableEq, Repr

/-- A frame that a port receives, and the slot slack K of its owner where that slice only transits this device (08 R283, R299). -/
structure FrameIn where
  frame : Frame
  k : Nat
  deriving DecidableEq, Repr

/-- What the other devices of a pipelined deposit answer at the commit: the code with which an earlier one refused it, and the first
failing code of the later ones; 0 for none (09 R334). -/
structure PipeCodes where
  earlier : BitVec 16
  later : BitVec 16
  deriving DecidableEq, Repr

/-- What a commit of a deposit meets as it reads the entry: the symbols that the device code corrects and the blocks that it cannot
(09 R313, R332). -/
structure CommitRead where
  fixed : List FixedRow
  bad : List VaultFault
  deriving DecidableEq, Repr

/-- What a mover's turn meets: a block that cannot be corrected, the symbols corrected, and flits of its load channel that left after
their owned cycles (07 R233; 09 R313). -/
structure MoverRead where
  bad : Option VaultFault
  fixed : List FixedRow
  late : Nat
  deriving DecidableEq, Repr

/-- A row of a running slice that has been rewritten from the vault copy of the folio: its GRA, the symbols that the device code corrected
in that copy, and a block that it could not correct (06 R220; 09 R313). -/
structure RewrittenRow where
  gra : BitVec 32
  fixed : List FixedRow
  bad : Option VaultFault
  deriving DecidableEq, Repr

/-- A value of HEALTH.REPAIR_REQ, and the blocks that the copy of a pseudo-channel which it retires cannot read (09 R314; 15 R463). -/
structure RepairOrder where
  value : Word
  copy : List BadBlock
  deriving DecidableEq, Repr

/-- A P-384 public key as its 97 bytes 0x04 ‖ X ‖ Y, the first lowest; a signature as its 96 bytes r ‖ s, the first lowest (10 R340;
15 R460). -/
abbrev PubKey := BitVec 776
abbrev SigBytes := BitVec 768

/-- A certificate (15 R461, Table 15.7), each byte string with its first byte lowest. -/
structure Cert where
  magic : Word := 0x54524543
  format : BitVec 16 := 1
  kind : BitVec 8
  role : BitVec 8
  serial : BitVec 128
  certId : BitVec 128
  issuer : BitVec 384
  key : PubKey
  reserved : BitVec 56 := 0
  sig : SigBytes
  deriving DecidableEq, Repr

/-- A SESSION_OPEN body (12 Table 12.4), each byte string with its first byte lowest, and the public key that the last ISSUER of its
chain names, which the device checks by its digest (15 R461). -/
structure OpenReq where
  minVer : BitVec 8
  maxVer : BitVec 8
  role : BitVec 8
  flags : BitVec 8
  mask : Word
  nonce : BitVec 256
  key : PubKey
  zero : BitVec 24 := 0
  chain : List Cert
  sig : SigBytes
  rootKey : PubKey
  frame : HostFrame := {}
  deriving DecidableEq, Repr

/-- The stop of a slice for repairs, which every device of the slice has confirmed, and whether a repair of another device is a relaunch
repair (14 R433, R435). -/
structure RepairStop where
  slice : SliceId
  relaunch : Bool
  deriving DecidableEq, Repr

/-- A relaunch EC with the coordinate of the repairing device that sends it, and that device's new generation for the slice (14 R435, R436;
08 R296). -/
structure RelaunchEc where
  ec : BitVec 64
  coord : BitVec 12
  gen : BitVec 8
  deriving DecidableEq, Repr

/-- The public keys that a verification finds under the digests it meets: the maker root's, and the previous anchor's of a TRANSFER record
(15 R457, R459). -/
structure StageKeys where
  maker : PubKey
  previous : PubKey
  deriving DecidableEq, Repr

/-- The signature of a debug response and the maker root's public key (15 R471). -/
structure DebugSig where
  maker : PubKey
  sig : SigBytes
  deriving DecidableEq, Repr

/-- The answer of another device of the slice in the start exchange (08 R294, R296; 09 R325; 10 R347): its coordinate, its
own first failing code with the section and the item of a load check, the launch EC it holds, the SET_ID of each named variant, its
generation for the slice, and for each variant the sum of U over its eviction set, none where it cannot host the variant. -/
structure PeerAnswer where
  coord : BitVec 12
  code : BitVec 16
  sec : BitVec 8
  item : Word
  launchEc : BitVec 64
  setIds : List (BitVec 128)
  gen : BitVec 8
  hosts : List (Option (BitVec 64))
  deriving DecidableEq, Repr

/-- What the start exchange over the management class gave: the answers of the other devices whose route entry has
MEMBER = 1, whether the named transit devices hold the slice's entries, and whether the ports join the devices (Table 8.12). -/
structure Exchange where
  peers : List PeerAnswer
  transitsOk : Bool
  joined : Bool
  deriving DecidableEq, Repr

/-- A SLICE_START body (12 Table 12.7), with what the start exchange answered; `none` where the answers have not come. -/
structure StartReq where
  slice : BitVec 16
  t : BitVec 8
  policy : BitVec 8
  launchEc : BitVec 64
  resumeEc : BitVec 64
  keys : List (BitVec 64)
  exchange : Option Exchange
  deriving DecidableEq, Repr

/-- What the devices of a slice tell each other of a load: the ready ECs of the others, to the coordinator; the resume EC that the coordinator
sends; or that the load has failed on another device, with its cause and, for an uncorrectable block, the entry and the row (09 R325, R327,
R329 to R331). -/
inductive LoadNews where
  | ready (peers : List (BitVec 64))
  | resume (ec : BitVec 64)
  | failed (cause : BitVec 8) (key : BitVec 64) (row : BitVec 32)
  deriving DecidableEq, Repr

/-- An INGRESS_DATA message (12 Table 12.8). -/
structure IngressMsg where
  stream : BitVec 16
  frame : BitVec 64
  shardBytes : Word
  offset : Word
  crc : Word
  data : List Byte
  deriving DecidableEq, Repr

/-- The two 48 V blades (13 R404). -/
inductive Blade where
  | a | b
  deriving DecidableEq, Repr

/-- The rails with spare phases (13 Table 13.1). -/
inductive Rail where
  | vcore (r : Fin 24) | vring | vserdes | vvault
  deriving DecidableEq, Repr

/-- The clock generators (16 Table 16.6). -/
inductive Generator where
  | schuss | carve | glide | ring
  deriving DecidableEq, Repr

/-- A firmware image: the fields of its header (15 Table 15.4), the digest of its bytes, and whether its header and its maker
signature hold. -/
structure FwImage where
  version : Word
  svn : Word
  tellerMin : BitVec 8
  tellerMax : BitVec 8
  folioMin : BitVec 16
  folioMax : BitVec 16
  tkMin : Word
  tkMax : Word
  linkver : BitVec 8
  digest : BitVec 384
  ok : Bool
  deriving DecidableEq, Repr

/-- A planned neighbour of one port (08 R288). -/
structure PlanRec where
  port : Port
  coord : BitVec 12
  nbrPort : BitVec 4
  serial : BitVec 128
  deriving DecidableEq, Repr

/-- A configuration section (15 R458, Table 15.5): CONFIG_SEQ, the digests of ANCHOR and of the section, its records, and
whether its form and its signature hold. A slot record is a port, then its entries as register values by offset. -/
structure CfgImage where
  seq : BitVec 64
  anchor : BitVec 384
  digest : BitVec 384
  planId : BitVec 128
  dims : Fin 16 × Fin 16 × Fin 16
  plan : List PlanRec
  slots : List (BitVec 16 × Word)
  routes : List (BitVec 12 × Word × Word × Word × Word)
  regs : List (BitVec 8 × BitVec 16 × Word)
  opKeys : List PubKey
  revoked : List (BitVec 384)
  /-- SAK records: host port, association number, and whether the key unwraps (R462). -/
  saks : List (HostPort × BitVec 8 × Bool)
  /-- The TRANSFER record: the previous anchor's digest and the verdict on its signature. -/
  transfer : Option (BitVec 384 × Bool)
  ok : Bool
  deriving DecidableEq, Repr

/-- What manufacture and the board have put into the fuses and the NVM before this power-up (15 R454, R455, Table 15.3). -/
structure Provision where
  serial : BitVec 128
  /-- The device identity certificate followed by that of the identity CA (15 R461). -/
  identity : List Byte := []
  makerRoot : BitVec 384
  owners : List (BitVec 384)
  svn : Word
  mac : BitVec 48
  siteMap : List (BitVec 4)
  activeFw : Bool
  activeCfg : Bool
  fw0 : Option FwImage
  fw1 : Option FwImage
  cfg0 : Option CfgImage
  cfg1 : Option CfgImage
  deriving DecidableEq, Repr

/-- What a cold reset finds (15 R454; 17 R506): the straps; the references that are valid; the fuses and the NVM where they
were programmed since the last power-up; the boot ROM's self-check; the management cores that pass theirs; the stacks that
train; whether the vault system area is intact (17 R508); the core sites and the rows that fail the margin test, a site as
cluster × 16 + site; the generators that lock; and the offset found at the first lock to the time source, if it locks within
30 s. -/
structure BootEnv where
  posX : BitVec 4
  posY : BitVec 4
  posZ : BitVec 4
  boardSlot : BitVec 3
  refA : Bool
  refB : Bool
  provision : Option Provision
  romOk : Bool
  mcOk : BitVec 3
  stackOk : BitVec 12
  systemArea : Bool
  failingSites : List (BitVec 16)
  failingRows : List Word
  locks : BitVec 4
  lock : Option Int
  deriving DecidableEq, Repr

/-- The path of a debug response (15 R471). -/
inductive DebugVia where
  | jtag | session (h : MsgHdr)
  deriving DecidableEq, Repr

/-- A PMBus access to PAGE (17 Table 17.9). -/
inductive PmAccess where
  | read | write (v : BitVec 8)
  deriving DecidableEq, Repr

/-- An address-configuration message at a host port (12 R376): a lease gained or lost, a solicitation of an address, or what shows that
another node uses or tries an IPv6 address (duplicate address detection). -/
inductive AddrMsg where
  | lease4 (a : BitVec 32) | lost4 | lease6 (a : BitVec 128) | lost6 | solicit4 (a : BitVec 32) | solicit6 (a : BitVec 128)
  | duplicate6 (a : BitVec 128)
  deriving DecidableEq, Repr

/-- A violation of a session's protocol (12 Table 12.11), or a datagram as received, which the device judges. -/
inductive Violation where
  | tag | version | type | role | length | reserved | stream | datagram (bytes : List Byte)
  deriving DecidableEq, Repr

/-- The commands, one constructor per row of the table; each names its row and the rule that gives it. -/
inductive Instr where
  /-- EC_TICK (R14). -/
  | ecTick
  /-- REFERENCE_INVALID (R15). -/
  | referenceInvalid (r : RefInput)
  /-- REFERENCE_VALID (R15). -/
  | referenceValid (r : RefInput)
  /-- REFERENCE_RETURN_TIMER (R15). -/
  | referenceReturnTimer
  /-- EC_BROADCAST (R20). -/
  | ecBroadcast (faultA faultB : Bool)
  /-- TIME_MEASUREMENT (R26). -/
  | timeMeasurement
  /-- SYNC_TIMEOUT (R31). -/
  | syncTimeout
  /-- PTP_MESSAGE (R23). -/
  | ptpMessage (hp : HostPort) (domain : BitVec 8) (m : PtpRx)
  /-- PARENT_TIMEOUT (R25). -/
  | parentTimeout
  /-- FIRST_LOCK_STEP (R28). -/
  | firstLockStep
  /-- PPS_IN_EDGE (R499). -/
  | ppsInEdge
  /-- PPS_MISSING (R499). -/
  | ppsMissing
  /-- PPS_OUT_RISE (R33). -/
  | ppsOutRise
  /-- PPS_OUT_FALL (R33). -/
  | ppsOutFall
  /-- SLICE_LAUNCH (R39). -/
  | sliceLaunch (slice : SliceId)
  /-- NOT_READY_CHECK (R37). -/
  | notReadyCheck (slice : SliceId)
  /-- MX_NOP (R119). -/
  | mxNop (core : CoreId)
  /-- MX_LOAD (R99). -/
  | mxLoad (core : CoreId) (f : MxLoadFields)
  /-- MX_FEED (R102). -/
  | mxFeed (core : CoreId) (f : MxFeedFields)
  /-- MX_LOAD_START (R121). -/
  | mxLoadStart (core : CoreId)
  /-- MX_FEED_START (R121). -/
  | mxFeedStart (core : CoreId)
  /-- MX_LOAD_COMPLETE (R99). -/
  | mxLoadComplete (core : CoreId) (heldCycles : Nat)
  /-- SX_NOP (R124). -/
  | sxNop (core : CoreId)
  /-- SX_ADD (R132). -/
  | sxAdd (core : CoreId) (f : SxFields)
  /-- SX_SUB (R132). -/
  | sxSub (core : CoreId) (f : SxFields)
  /-- SX_ADDI (R132). -/
  | sxAddi (core : CoreId) (f : SxFields)
  /-- SX_MUL (R132). -/
  | sxMul (core : CoreId) (f : SxFields)
  /-- SX_AND (R132). -/
  | sxAnd (core : CoreId) (f : SxFields)
  /-- SX_OR (R132). -/
  | sxOr (core : CoreId) (f : SxFields)
  /-- SX_XOR (R132). -/
  | sxXor (core : CoreId) (f : SxFields)
  /-- SX_SHLI (R132). -/
  | sxShli (core : CoreId) (f : SxFields)
  /-- SX_SHRI (R132). -/
  | sxShri (core : CoreId) (f : SxFields)
  /-- SX_SARI (R132). -/
  | sxSari (core : CoreId) (f : SxFields)
  /-- SX_MIN (R132). -/
  | sxMin (core : CoreId) (f : SxFields)
  /-- SX_MAX (R132). -/
  | sxMax (core : CoreId) (f : SxFields)
  /-- SX_MOVI (R132). -/
  | sxMovi (core : CoreId) (f : SxFields)
  /-- SX_MOVHI (R132). -/
  | sxMovhi (core : CoreId) (f : SxFields)
  /-- SX_CMP (R132). -/
  | sxCmp (core : CoreId) (f : SxFields)
  /-- SX_CMPI (R132). -/
  | sxCmpi (core : CoreId) (f : SxFields)
  /-- SX_MOVLC (R129). -/
  | sxMovlc (core : CoreId) (f : SxFields)
  /-- SX_LDP (R134). -/
  | sxLdp (core : CoreId) (f : WithLost SxFields)
  /-- SX_VGET (R135). -/
  | sxVget (core : CoreId) (f : SxFields)
  /-- SX_LOOP (R129). -/
  | sxLoop (core : CoreId) (lc : BitVec 4) (last : BitVec 13) (count : BitVec 16)
  /-- SX_RESULT_LAND (R136). -/
  | sxResultLand (core : CoreId)
  /-- VX_NOP (R124). -/
  | vxNop (core : CoreId)
  /-- VX_ADD (R153). -/
  | vxAdd (core : CoreId) (f : WithLost VxFields)
  /-- VX_SUB (R153). -/
  | vxSub (core : CoreId) (f : WithLost VxFields)
  /-- VX_MUL (R153). -/
  | vxMul (core : CoreId) (f : WithLost VxFields)
  /-- VX_FMA (R153). -/
  | vxFma (core : CoreId) (f : WithLost VxFields)
  /-- VX_MIN (R153). -/
  | vxMin (core : CoreId) (f : WithLost VxFields)
  /-- VX_MAX (R153). -/
  | vxMax (core : CoreId) (f : WithLost VxFields)
  /-- VX_ABS (R153). -/
  | vxAbs (core : CoreId) (f : WithLost VxFields)
  /-- VX_DIV (R153). -/
  | vxDiv (core : CoreId) (f : WithLost VxFields)
  /-- VX_CVT (R158). -/
  | vxCvt (core : CoreId) (f : WithLost VxFields)
  /-- VX_FUNC (R160). -/
  | vxFunc (core : CoreId) (f : WithLost VxFields)
  /-- VX_CMP (R155). -/
  | vxCmp (core : CoreId) (f : WithLost VxFields)
  /-- VX_SEL (R155). -/
  | vxSel (core : CoreId) (f : WithLost VxFields)
  /-- VX_SPLAT (R154). -/
  | vxSplat (core : CoreId) (f : WithLost VxFields)
  /-- VX_RED (R156). -/
  | vxRed (core : CoreId) (f : WithLost VxFields)
  /-- VX_BSCALE (R157). -/
  | vxBscale (core : CoreId) (f : WithLost VxFields)
  /-- VX_DRAIN (R159). -/
  | vxDrain (core : CoreId) (f : WithLost VxFields)
  /-- VX_START (R152). -/
  | vxStart (core : WithLost CoreId)
  /-- VX_WRITE_LAND (R152). -/
  | vxWriteLand (core : CoreId)
  /-- GX_NOP (R124). -/
  | gxNop (core : CoreId)
  /-- GX_GATE (R354). -/
  | gxGate (core : CoreId)
  /-- GX_KBEGIN (R207). -/
  | gxKbegin (core : CoreId)
  /-- GX_KEND (R209). -/
  | gxKend (core : CoreId)
  /-- GX_SETTLE (R208). -/
  | gxSettle (core : CoreId) (eng : BitVec 4)
  /-- GX_PUBLISH (R210). -/
  | gxPublish (core : CoreId) (ring : RingId)
  /-- GX_RELEASE (R211). -/
  | gxRelease (core : CoreId) (sreg : BitVec 5) (soff : BitVec 12)
  /-- GX_ACQUIRE (R213). -/
  | gxAcquire (core : CoreId) (sreg : BitVec 5) (soff : BitVec 12)
  /-- SETTLE_DONE (R208). -/
  | settleDone (core : CoreId)
  /-- KEND_DONE (R209). -/
  | kendDone (core : CoreId)
  /-- RELEASE_QUEUE_RETIRE (R210). -/
  | releaseQueueRetire (core : CoreId)
  /-- ACQUIRE_SATISFIED (R213). -/
  | acquireSatisfied (core : CoreId) (waited : BitVec 64)
  /-- ACQUIRE_TIMEOUT (R214). -/
  | acquireTimeout (core : CoreId)
  /-- DX_NOP (R184). -/
  | dxNop (core : CoreId)
  /-- DX_RUN (R184). -/
  | dxRun (core : CoreId) (f : DxFields)
  /-- DMA_COPY (R186). -/
  | dmaCopy (core : CoreId) (q : Fin 4) (n : Nat) (meetsRead : WithLost Bool)
  /-- DMA_FILL (R186). -/
  | dmaFill (core : CoreId) (q : Fin 4) (n : Nat) (meetsRead : WithLost Bool)
  /-- DMA_WRITE (R188). -/
  | dmaWrite (core : CoreId) (q : Fin 4) (n : SendTurn)
  /-- DMA_READ (R246). -/
  | dmaRead (core : CoreId) (q : Fin 4) (n : RequestTurn)
  /-- DMA_SUMWRITE (R185). -/
  | dmaSumwrite (core : CoreId) (q : Fin 4) (n : SendTurn)
  /-- DMA_MCAST (R185). -/
  | dmaMcast (core : CoreId) (q : Fin 4) (n : SendTurn)
  /-- DEFERRED_WRITE (R174). -/
  | deferredWrite (core : CoreId)
  /-- RING_WAIT_RESOLVED (R181). -/
  | ringWaitResolved (core : CoreId) (ring : WaitedRing)
  /-- RING_UNDERFLOW (R182). -/
  | ringUnderflow (core : CoreId) (ring : RingId)
  /-- RING_OVERFLOW (R182). -/
  | ringOverflow (core : CoreId) (q : Fin 4)
  /-- QUOTA_WINDOW (R237). -/
  | quotaWindow (src : QuotaSrc) (net : Net)
  /-- PACKET_INVALID_FORM (R240). -/
  | packetInvalidForm (p : Packet)
  /-- PACKET_WRITE (R241). -/
  | packetWrite (p : Packet) (meetsRead : Bool) (trip : Trip)
  /-- PACKET_READ_REQUEST (R246). -/
  | packetReadRequest (p : Request)
  /-- PACKET_READ_REPLY (R246). -/
  | packetReadReply (p : OnMesh) (meetsRead : Bool)
  /-- PACKET_SUM_WRITE (R252). -/
  | packetSumWrite (cl : Cl) (inPort : Fin 12) (p : OnMesh)
  /-- SUM_TIMEOUT (R254). -/
  | sumTimeout (cl : Cl) (slice : SliceId) (rtag : BitVec 12)
  /-- PACKET_MULTICAST_WRITE (R257). -/
  | packetMulticastWrite (cl : Cl) (p : OnMesh)
  /-- PACKET_ACKNOWLEDGEMENT (R244). -/
  | packetAcknowledgement (f : Flit)
  /-- SEMAPHORE_INCREMENT (R212). -/
  | semaphoreIncrement (f : OnMeshShort)
  /-- RING_CREDIT (R178). -/
  | ringCredit (f : Flit)
  /-- N4_SHORT_WRITE (R245). -/
  | n4ShortWrite (f : Flit)
  /-- HOLDOVER_RELEASE (R258). -/
  | holdoverRelease (f : Flit)
  /-- HOLDOVER_HOLD_CHECK (R260). -/
  | holdoverHoldCheck (slice : SliceId)
  /-- ROUTER_FAIL (R248). -/
  | routerFail (cl : Cl)
  /-- ATOMIC_ADD (R278). -/
  | atomicAdd (p : Packet)
  /-- TRANSIT_FORWARD (R264). -/
  | transitForward (inPort outPort : Port) (n : Nat)
  /-- CHAIN_FORWARD (R321). -/
  | chainForward (slice : SliceId) (hop : Fin 16) (p : Packet)
  /-- PORT_SIGNAL_DETECT (R271). -/
  | portSignalDetect (port : Port)
  /-- TRAINING_COMPLETE (R271). -/
  | trainingComplete (port : Port) (sense : LaneSense)
  /-- TRAINING_TIMEOUT (R271). -/
  | trainingTimeout (port : Port)
  /-- ALIGN_COMPLETE (R272). -/
  | alignComplete (port : Port) (skewNs : Nat)
  /-- ALIGN_TIMEOUT (R271). -/
  | alignTimeout (port : Port)
  /-- DISCOVER_TIMEOUT (R271). -/
  | discoverTimeout (port : Port)
  /-- PORT_RETRY (R271). -/
  | portRetry (port : Port)
  /-- LATENCY_FENCE_EXPIRY (R271). -/
  | latencyFenceExpiry (port : Port)
  /-- PORT_MISSING (R290). -/
  | portMissing (port : Port)
  /-- CONTROL_FLIT_TIMEOUT (R273). -/
  | controlFlitTimeout (port : Port)
  /-- LANE_LOSS_OF_LOCK (R270). -/
  | laneLossOfLock (port : Port) (lane : Fin 9)
  /-- LANE_ERROR_CHECK (R270). -/
  | laneErrorCheck (port : Port) (lane : Fin 9) (corrected : Nat) (second : LaneSecond)
  /-- LANE_SWITCH (R270). -/
  | laneSwitch (port : Port)
  /-- CONTROL_FLIT_BAD (R281). -/
  | controlFlitBad (f : PortFlit)
  /-- TIME_WORD (R285). -/
  | timeWord (port : Port) (w : CtrlWord) (t2 t3 : BitVec 64)
  /-- HOLD_WORD (R286). -/
  | holdWord (port : Port) (w : CtrlWord)
  /-- ACK_WORD (R282). -/
  | ackWord (port : Port) (w : CtrlWord)
  /-- LANE_CONTROL_WORD (R270). -/
  | laneControlWord (port : Port) (w : CtrlWord)
  /-- CREDIT_WORD (R278). -/
  | creditWord (port : Port) (w : CtrlWord)
  /-- DISCOVERY_WORD (R290). -/
  | discoveryWord (port : Port) (w0 w1 w2 : CtrlWord)
  /-- FRAME_RECEIVE (R282). -/
  | frameReceive (port : Port) (f : FrameIn)
  /-- REPLAY_TIMEOUT (R282). -/
  | replayTimeout (port : Port) (owner : SliceId) (lclass : BitVec 2) (net : Net)
  /-- FRAME_PRESENT (R283). -/
  | framePresent (port : Port)
  /-- FRAME_ELIGIBLE (R284). -/
  | frameEligible (port : Port)
  /-- GENERATION_BUMP_DEFERRED (R296). -/
  | generationBumpDeferred (cl : Cl)
  /-- FOLIO_PUT_BEGIN (R387). -/
  | folioPutBegin (h : MsgHdr) (b : PutBegin)
  /-- FOLIO_PUT_PIPE (R334). -/
  | folioPutPipe (h : MsgHdr) (key : BitVec 64) (first : BitVec 8) (recs : List PipeRec)
  /-- FOLIO_PUT_DATA (R387). -/
  | folioPutData (h : MsgHdr) (key : BitVec 64) (offset : BitVec 64) (crc : BitVec 32) (data : List Byte)
  /-- FOLIO_COMMIT (R332). -/
  | folioCommit (h : MsgHdr) (key : BitVec 64) (codes : PipeCodes) (read : CommitRead)
  /-- LIBRARY_DELETE (R387). -/
  | libraryDelete (h : MsgHdr) (key : BitVec 64)
  /-- LIBRARY_PIN (R309). -/
  | libraryPin (h : MsgHdr) (key : BitVec 64)
  /-- LIBRARY_UNPIN (R309). -/
  | libraryUnpin (h : MsgHdr) (key : BitVec 64)
  /-- LIBRARY_LIST (R387). -/
  | libraryList (h : MsgHdr) (first : BitVec 64)
  /-- LOAD_BEGIN (R326). -/
  | loadBegin (slice : SliceId)
  /-- MOVER_LOAD (R320). -/
  | moverLoad (slice : SliceId) (mover : Fin 24) (n : Nat) (read : MoverRead)
  /-- MOVER_CHAIN (R321). -/
  | moverChain (slice : SliceId) (mover : Fin 24) (n : Nat) (read : MoverRead)
  /-- LOAD_READY (R326). -/
  | loadReady (slice : SliceId) (news : LoadNews)
  /-- USE_UPDATE (R335). -/
  | useUpdate
  /-- PC_CORRECTION_CHECK (R314). -/
  | pcCorrectionCheck (stack : Fin 12) (pc : Fin 62) (corrected : Nat) (unreadable : List BadBlock)
  /-- START_EXCHANGE_TIMEOUT (R347). -/
  | startExchangeTimeout (slice : SliceId)
  /-- BARRIER_COMPLETE (R354). -/
  | barrierComplete (slice : SliceId)
  /-- GATE_DUE (R355). -/
  | gateDue (slice : SliceId)
  /-- RESUME_SEND (R359). -/
  | resumeSend (slice : SliceId)
  /-- STRETCH (R364). -/
  | stretch (region : Fin 24)
  /-- STEP_EC_REACHED (R369). -/
  | stepEcReached
  /-- VCORE_SETTLED (R418). -/
  | vcoreSettled
  /-- SHARD_DECISION (R393). -/
  | shardDecision (slice : SliceId) (stream : BitVec 16)
  /-- ZERO_SLOT_PUBLISH (R393). -/
  | zeroSlotPublish (slice : SliceId) (stream : BitVec 16)
  /-- SHARD_HOLD_CAP (R357). -/
  | shardHoldCap (slice : SliceId)
  /-- SHARD_WRITE (R392). -/
  | shardWrite (slice : SliceId) (stream : BitVec 16)
  /-- PUSH_SLOT_READ (R394). -/
  | pushSlotRead (slice : SliceId) (stream : BitVec 16)
  /-- SESSION_OPEN (R383). -/
  | sessionOpen (hp : HostPort) (o : OpenReq)
  /-- SESSION_CLOSE (R385). -/
  | sessionClose (h : MsgHdr)
  /-- TELLER_ACK (R384). -/
  | tellerAck (h : MsgHdr) (cum : BitVec 64) (bitmap : BitVec 256)
  /-- SLICE_START (R388). -/
  | sliceStart (h : MsgHdr) (b : StartReq)
  /-- SLICE_STOP (R389). -/
  | sliceStop (h : MsgHdr) (slice : SliceId)
  /-- STOP_AT_FRAME_BOUNDARY (R47). -/
  | stopAtFrameBoundary (slice : SliceId)
  /-- SLICE_KILL (R389). -/
  | sliceKill (h : MsgHdr) (slice : SliceId)
  /-- KILL_EFFECTIVE (R223). -/
  | killEffective (slice : SliceId)
  /-- SCRUB_COMPLETE (R226). -/
  | scrubComplete (slice : SliceId) (failing : List (BitVec 32))
  /-- STREAM_OPEN (R390). -/
  | streamOpen (h : MsgHdr) (slice : SliceId) (index : BitVec 16) (dir : BitVec 8) (shardBytes lead : BitVec 32)
  /-- STREAM_CLOSE (R391). -/
  | streamClose (h : MsgHdr) (stream : BitVec 16)
  /-- INGRESS_DATA (R392). -/
  | ingressData (h : MsgHdr) (b : IngressMsg)
  /-- MGMT_READ (R397). -/
  | mgmtRead (h : MsgHdr) (block : BitVec 8) (count : BitVec 16) (offset : BitVec 32)
  /-- MGMT_WRITE (R397). -/
  | mgmtWrite (h : MsgHdr) (block : BitVec 8) (offset : BitVec 32) (vals : List Word)
  /-- MGMT_COMMIT (R481). -/
  | mgmtCommit (h : MsgHdr) (block : BitVec 8) (target : BitVec 64)
  /-- COMMIT_RUN (R482). -/
  | commitRun (block : BitVec 8)
  /-- RECORD_START (R399). -/
  | recordStart (h : MsgHdr) (recId : BitVec 8) (slice : SliceId)
  /-- RECORD_STOP (R399). -/
  | recordStop (h : MsgHdr) (recId : BitVec 8)
  /-- ARM (R401). -/
  | arm (h : MsgHdr) (recId : BitVec 8) (slice : SliceId)
  /-- DISARM (R401). -/
  | disarm (h : MsgHdr) (recId : BitVec 8) (slice : SliceId)
  /-- RECORDING_DELETE (R399). -/
  | recordingDelete (h : MsgHdr) (recId : BitVec 8)
  /-- RECORDING_LIST (R399). -/
  | recordingList (h : MsgHdr)
  /-- REPLAY_FEED (R401). -/
  | replayFeed (slice : SliceId)
  /-- RETRANSMIT_TIMEOUT (R384). -/
  | retransmitTimeout (session : Word)
  /-- ACK_TIMER (R384). -/
  | ackTimer (session : Word)
  /-- SESSION_IDLE_TIMEOUT (R385). -/
  | sessionIdleTimeout (session : Word)
  /-- OPENING_TIMEOUT (R385). -/
  | openingTimeout (session : Word)
  /-- QUARANTINE_EXPIRY (R398). -/
  | quarantineExpiry (hp : HostPort)
  /-- NON_TELLER_PACKET (R378). -/
  | nonTellerPacket (hp : HostPort)
  /-- ECHO_REQUEST (R378). -/
  | echoRequest (hp : HostPort)
  /-- HOST_LINK_UP (R377). -/
  | hostLinkUp (hp : HostPort) (rate : BitVec 3)
  /-- MEDIA_TIMEOUT (R377). -/
  | mediaTimeout (hp : HostPort)
  /-- HOST_LINK_DOWN (R379). -/
  | hostLinkDown (hp : HostPort)
  /-- FAILOVER (R379). -/
  | failover (hp : HostPort)
  /-- EVENTS_LOST (R396). -/
  | eventsLost (session : Word)
  /-- POWER_SAMPLE (R414). -/
  | powerSample (wattsA wattsB : BitVec 16) (millivoltsA millivoltsB : BitVec 16)
  /-- THERMAL_SAMPLE (R414). -/
  | thermalSample (junction : List (BitVec 8)) (stackTemps : List (BitVec 8))
  /-- BLADE_LOSS (R406). -/
  | bladeLoss (bl : Blade)
  /-- BLADE_OVERVOLTAGE (R497). -/
  | bladeOvervoltage (bl : Blade)
  /-- BLADE_RECONNECT (R497). -/
  | bladeReconnect (bl : Blade)
  /-- PHASE_FAULT (R430). -/
  | phaseFault (rail : Rail)
  /-- THERMAL_TRIP (R425). -/
  | thermalTrip (region : Fin 24)
  /-- SELF_REFRESH_EXIT (R421). -/
  | selfRefreshExit
  /-- GENERATOR_UNLOCK (R486). -/
  | generatorUnlock (g : Generator)
  /-- GENERATOR_RELOCK (R486). -/
  | generatorRelock (g : Generator)
  /-- AGEING_CHECK (R430). -/
  | ageingCheck (cl : Cl) (sites : List (BitVec 16)) (router : BitVec 16)
  /-- SPARE_TEST (R430). -/
  | spareTest (cl : Cl) (siteFails : Bool) (failingRows : List (BitVec 32))
  /-- REPAIR_WINDOW (R431). -/
  | repairWindow
  /-- REPAIR_STOP_CONFIRMED (R433). -/
  | repairStopConfirmed (stop : RepairStop)
  /-- ROW_COPY_COMPLETE (R434). -/
  | rowCopyComplete (slice : SliceId)
  /-- SPARE_MARGIN_TEST_DONE (R435). -/
  | spareMarginTestDone (slice : SliceId) (passes : Bool)
  /-- RELAUNCH_EC_RECEIVED (R436). -/
  | relaunchEcReceived (slice : SliceId) (relaunch : RelaunchEc)
  /-- ROW_REWRITE_COMPLETE (R220). -/
  | rowRewriteComplete (core : CoreId) (row : RewrittenRow)
  /-- MC_CORE_FAULT (R439). -/
  | mcCoreFault (mc : Fin 3)
  /-- MC_TAKEOVER_COMPLETE (R439). -/
  | mcTakeoverComplete
  /-- STANDBY_POWER_VALID (R505). -/
  | standbyPowerValid
  /-- BOARD_SLOT_SAMPLE (R504). -/
  | boardSlotSample (slot : BitVec 3)
  /-- CONVERTER_START (R505). -/
  | converterStart
  /-- RAILS_SETTLED (R506). -/
  | railsSettled
  /-- COLD_RESET (R506). -/
  | coldReset (b : BootEnv)
  /-- TIME_LOCK_TIMEOUT (R454). -/
  | timeLockTimeout
  /-- WARM_RESET (R453). -/
  | warmReset
  /-- CTRL_WARM_RESET (R452). -/
  | ctrlWarmReset
  /-- RESET_N_RISE (R500). -/
  | resetNRise
  /-- WARM_RESET_END (R453). -/
  | warmResetEnd
  /-- STANDBY_UNDERVOLTAGE (R507). -/
  | standbyUndervoltage
  /-- POWER_DOWN (R507). -/
  | powerDown
  /-- STAGE_WIN_WRITE (R466). -/
  | stageWinWrite (h : MsgHdr) (offset : BitVec 32) (vals : List Word)
  /-- STAGE_ERASE (R457). -/
  | stageErase
  /-- STAGE_VERIFY (R459). -/
  | stageVerify (keys : StageKeys)
  /-- STAGE_ACTIVATE (R466). -/
  | stageActivate
  /-- REPAIR_REQ (R463). -/
  | repairReq (h : MsgHdr) (v : RepairOrder)
  /-- ATT_NONCE_WRITE (R470). -/
  | attNonceWrite (h : MsgHdr) (first : Fin 12) (vals : List Word)
  /-- ATTESTATION_READY (R470). -/
  | attestationReady
  /-- DEBUG_RESPONSE (R471). -/
  | debugResponse (via : DebugVia) (scope : BitVec 8) (reserved : BitVec 56) (expiry : BitVec 64) (sig : DebugSig)
  /-- DEBUG_EXPIRY (R472). -/
  | debugExpiry
  /-- HANDOVER_READY_CHECK (R467). -/
  | handoverReadyCheck (ready : Bool)
  /-- HANDOVER_EC (R467). -/
  | handoverEc
  /-- HANDOVER_RESUME (R467). -/
  | handoverResume
  /-- HANDOVER_REVERT (R467). -/
  | handoverRevert
  /-- HANDOVER_CONFIRM (R467). -/
  | handoverConfirm
  /-- LEDGER_FLUSH (R469). -/
  | ledgerFlush
  /-- ROW_WINDOW_WRITE (R489). -/
  | rowWindowWrite (v : Word)
  /-- JTAG_MGMT_ACC (R491). -/
  | jtagMgmtAcc (dr : BitVec 96)
  /-- JTAG_EXTEST (R490). -/
  | jtagExtest
  /-- JTAG_IDCODE (R490). -/
  | jtagIdcode
  /-- JTAG_SAMPLE_PRELOAD (R490). -/
  | jtagSamplePreload
  /-- JTAG_DBG_CHAL (R471). -/
  | jtagDbgChal
  /-- JTAG_BYPASS (R490). -/
  | jtagBypass
  /-- TAP_RESET (R503). -/
  | tapReset
  /-- PAGE (R504). -/
  | pmPage (a : PmAccess)
  /-- CLEAR_FAULTS (R504). -/
  | pmClearFaults
  /-- STATUS_WORD (R504). -/
  | pmStatusWord
  /-- STATUS_INPUT (R504). -/
  | pmStatusInput
  /-- STATUS_TEMPERATURE (R504). -/
  | pmStatusTemperature
  /-- READ_VIN (R504). -/
  | pmReadVin
  /-- READ_IIN (R504). -/
  | pmReadIin
  /-- READ_TEMPERATURE_1 (R504). -/
  | pmReadTemperature1
  /-- READ_TEMPERATURE_2 (R504). -/
  | pmReadTemperature2
  /-- READ_PIN (R504). -/
  | pmReadPin
  /-- PMBUS_REVISION (R504). -/
  | pmRevision
  /-- MFR_ID (R504). -/
  | pmMfrId
  /-- MFR_MODEL (R504). -/
  | pmMfrModel
  /-- MFR_REVISION (R504). -/
  | pmMfrRevision
  /-- MFR_SERIAL (R504). -/
  | pmMfrSerial
  /-- PMBUS_INVALID_MESSAGE (R504). -/
  | pmInvalidMessage
  /-- DMA_DESCRIPTOR_DONE (R183). -/
  | dmaDescriptorDone (core : CoreId) (q : Fin 4)
  /-- SLICE_CHANNEL_CREDIT (R234). -/
  | sliceChannelCredit (slice : SliceId) (net : Net) (channel : BitVec 16)
  /-- DHCP_NDP_ARP_MESSAGE (R376). -/
  | dhcpNdpArpMessage (hp : HostPort) (m : AddrMsg)
  /-- PRIORITY_FLOW_CONTROL_FRAME (R376). -/
  | priorityFlowControlFrame (hp : HostPort) (priorities : BitVec 8) (quanta : BitVec 16)
  /-- PROTOCOL_VIOLATION (R398). -/
  | protocolViolation (h : MsgHdr) (k : Violation)
  /-- VNVM_1V8_CURRENT_LIMIT (R497). -/
  | vnvm1v8CurrentLimit
  deriving DecidableEq, Repr

end Sys2Proof
end

