-- ==== Sys2Proof/Decode.lean ====
section
/-! DEFINITION. Words of the command table. The table gives no row any bits: commands reach the N6 over pins, links, message
bodies and its own timers, and each is named by its row. -/

namespace Sys2Proof

/-- The command that a word spells by the table's bits: no row has bits, so no word spells one. -/
def decodeTableWord (_nbits _w : Nat) : Option Instr := none

end Sys2Proof
end

