-- ==== Sys2Proof/Config.lean ====
section
/-! DEFINITION. The values the spec leaves open, as opaque constants: nothing can be proved of them. -/

namespace Sys2Proof.Config

/-- The result bits of a transcendental function for one input (04 R160: a fixed algorithm within a bound):
sign, exponent field (never all ones, 04 R154) and fraction. Log entry 10. -/
opaque funcResult : BitVec 4 → Word → Bool × Fin 255 × BitVec 23

/-- Which of the values within 1 ulp a divide, reciprocal or reciprocal square root returns, counted modulo their number (04 R160
and Table 4.7). Log entry 11. -/
opaque ulpPick : BitVec 6 → Word → Word → Nat

/-- Fresh values the spec leaves open: session nonces, ephemeral keys and challenges (12 R382, 15 R471), one for each count of
the step counter. Log entry 14. -/
opaque freeValue : Nat → BitVec 384

/-- The identity signature over an attestation digest (15 R470). Log entry 15. -/
opaque identitySignature : BitVec 384 → BitVec 768

/-- The RESULT data of a recording list (12 R399): a fixed layout, which the spec does not give, of the stored recordings'
REC_ID, KEY, DIGEST, SLICE, launch EC and count. Log entry 27. -/
opaque recordingList : List (Nat × Nat × BitVec 384 × Nat × Nat × Nat) → List Byte

/-- SHA-384 of the boot ROM (15 Table 15.12). Log entry 13. -/
opaque romDigest : BitVec 384

/-- The values of the PLAN, SLOTS, ROUTES and SAK records of a configuration section, whose byte layouts the spec does not
give (15 Table 15.5). Log entry 29. -/
opaque planRecord : List Byte → BitVec 128 × (Fin 16 × Fin 16 × Fin 16) × List PlanRec
opaque slotsRecord : List Byte → List (BitVec 16 × Word)
opaque routesRecord : List Byte → BitVec 12 × Word × Word × Word × Word
opaque sakRecord : List Byte → HostPort × BitVec 8 × Bool

end Sys2Proof.Config
end

