-- ==== Sys2Proof/Machine/Bits.lean ====
section
/-! DEFINITION. Bit fields, sign extension and byte order (00 R8), as plain functions on natural numbers. -/

namespace Sys2Proof.Machine

/-- Bits [hi:lo] of a natural number. -/
def bits (n hi lo : Nat) : Nat := (n >>> lo) % 2 ^ (hi + 1 - lo)

/-- `n` with bits [hi:lo] replaced by `v` (taken modulo the field's width). -/
def setBits (n hi lo v : Nat) : Nat :=
  (n >>> (hi + 1)) <<< (hi + 1) + (v % 2 ^ (hi + 1 - lo)) <<< lo + n % 2 ^ lo

/-- One bit of a natural number. -/
def bitAt (n k : Nat) : Bool := n.testBit k

/-- A Boolean as a field value. -/
def b2n (b : Bool) : Nat := if b then 1 else 0

/-- The `w`-bit two's-complement value of a field. -/
def sext (w n : Nat) : Int :=
  let m := n % 2 ^ w
  if m < 2 ^ (w - 1) then (m : Int) else (m : Int) - (2 ^ w : Nat)

/-- An integer as a `w`-bit two's-complement field. -/
def toField (w : Nat) (i : Int) : Nat := (i % ((2 ^ w : Nat) : Int)).toNat

/-- A counter that saturates at 2^w − 1. -/
def satAdd (w a b : Nat) : Nat := if a + b < 2 ^ w then a + b else 2 ^ w - 1

/-- A counter that wraps at 2^w. -/
def wrapAdd (w a b : Nat) : Nat := (a + b) % 2 ^ w

/-- The little-endian value of bytes (00 R8). -/
def leNat : List Nat → Nat
  | [] => 0
  | b :: t => b % 256 + 256 * leNat t

/-- The big-endian value of bytes. -/
def beNat (l : List Nat) : Nat := l.foldl (fun a b => a * 256 + b % 256) 0

/-- `n` little-endian bytes of a value. -/
def toLe : Nat → Nat → List Nat
  | 0, _ => []
  | k + 1, v => v % 256 :: toLe k (v / 256)

/-- Ceiling division. -/
def cdiv (a b : Nat) : Nat := (a + b - 1) / b

/-- The smallest multiple of `q` that is at least `a`. -/
def roundUp (a q : Nat) : Nat := cdiv a q * q

end Sys2Proof.Machine
end

