-- ==== Sys2Proof/Machine/Float.lean ====
section
/-! DEFINITION. Exact dyadic values, the element encodings of 03 Table 3.3 and the roundings of 03 R89, R93 and R94. -/

namespace Sys2Proof.Machine

/-- An exact dyadic value ± mag × 2^ex; the sign of zero is kept. -/
structure Dy where
  neg : Bool
  mag : Nat
  ex : Int
  deriving DecidableEq, Repr

/-- +0. -/
def Dy.zero : Dy := ⟨false, 0, 0⟩

/-- An integer as a dyadic value (zero is +0). -/
def dyOfInt (i : Int) : Dy := ⟨decide (i < 0), i.natAbs, 0⟩

/-- The exact product. -/
def dyMul (a b : Dy) : Dy := ⟨a.neg != b.neg, a.mag * b.mag, a.ex + b.ex⟩

/-- The signed integer of a value scaled to exponent `e` (`e` no larger than its own). -/
def dyScaled (a : Dy) (e : Int) : Int :=
  let m : Int := ((a.mag <<< (a.ex - e).toNat : Nat) : Int)
  if a.neg then -m else m

/-- The exact sum; a zero sum is +0 unless both operands are −0 (IEEE 754 round-to-nearest, 04 R153). -/
def dyAdd (a b : Dy) : Dy :=
  if a.mag = 0 ∧ b.mag = 0 then ⟨a.neg && b.neg, 0, 0⟩
  else
    let e := min a.ex b.ex
    let s := dyScaled a e + dyScaled b e
    ⟨decide (s < 0), s.natAbs, e⟩

/-- Negation. -/
def dyNeg (a : Dy) : Dy := { a with neg := !a.neg }

/-- Whether a < b as values (−0 = +0). -/
def dyLt (a b : Dy) : Bool :=
  let e := min a.ex b.ex
  decide (dyScaled a e < dyScaled b e)

/-- The exponent of the unit in which a magnitude is rounded: precision `p`, smallest unit 2^emin. -/
def unitExp (p : Nat) (emin : Int) (mag : Nat) (ex : Int) : Int := max (ex + (mag.log2 : Int) + 1 - p) emin

/-- Floor of mag × 2^ex in units of 2^u, and the remainder as a fraction (num, den). -/
def floorUnits (mag : Nat) (ex u : Int) : Nat × Nat × Nat :=
  if u ≤ ex then (mag <<< (ex - u).toNat, 0, 1)
  else
    let d := 1 <<< (u - ex).toNat
    (mag / d, mag % d, d)

/-- Round a magnitude to nearest even in units of 2^u. -/
def rneUnits (mag : Nat) (ex u : Int) : Nat :=
  let (q, r, d) := floorUnits mag ex u
  if 2 * r > d ∨ (2 * r = d ∧ q % 2 = 1) then q + 1 else q

/-- A binary floating-point format: exponent bits, fraction bits, bias, and its largest finite magnitude. -/
structure FloatFmt where
  eb : Nat
  mb : Nat
  bias : Nat
  maxMag : Nat
  maxEx : Int
  deriving DecidableEq, Repr

/-- FP32 (03 Table 3.3). -/
def fmtF32 : FloatFmt := ⟨8, 23, 127, 2 ^ 24 - 1, 104⟩
/-- BF16. -/
def fmtBf16 : FloatFmt := ⟨8, 7, 127, 2 ^ 8 - 1, 120⟩
/-- FP16. -/
def fmtF16 : FloatFmt := ⟨5, 10, 15, 2 ^ 11 - 1, 5⟩
/-- FP8 E4M3: largest finite 448. -/
def fmtE4m3 : FloatFmt := ⟨4, 3, 7, 14, 5⟩
/-- FP8 E5M2: largest finite 57,344. -/
def fmtE5m2 : FloatFmt := ⟨5, 2, 15, 7, 13⟩
/-- FP4 E2M1: largest 6. -/
def fmtFp4 : FloatFmt := ⟨2, 1, 1, 3, 1⟩

/-- The exponent of the smallest unit of a format. -/
def fmtEmin (f : FloatFmt) : Int := 1 - (f.bias : Int) - (f.mb : Int)

/-- Width of the format in bits. -/
def fmtWidth (f : FloatFmt) : Nat := 1 + f.eb + f.mb

/-- What an encoded element decodes to: a value, a NaN, or a signed infinity. -/
inductive Decoded where
  | val (d : Dy)
  | nan
  | inf (neg : Bool)
  deriving DecidableEq, Repr

/-- The finite value of an encoding, special codes not considered. -/
def fmtValue (f : FloatFmt) (c : Nat) : Dy :=
  let neg := bitAt c (f.eb + f.mb)
  let e := bits c (f.eb + f.mb - 1) f.mb
  let m := c % 2 ^ f.mb
  if e = 0 then ⟨neg, m, fmtEmin f⟩ else ⟨neg, 2 ^ f.mb + m, fmtEmin f + (e : Int) - 1⟩

/-- Decoding with IEEE infinities and NaNs (E5M2, BF16, FP16, FP32). -/
def decodeIeee (f : FloatFmt) (c : Nat) : Decoded :=
  let e := bits c (f.eb + f.mb - 1) f.mb
  if e = 2 ^ f.eb - 1 then
    if c % 2 ^ f.mb = 0 then .inf (bitAt c (f.eb + f.mb)) else .nan
  else .val (fmtValue f c)

/-- E4M3: S.1111.111 is NaN, no infinity. -/
def decodeE4m3 (c : Nat) : Decoded := if c % 128 = 127 then .nan else .val (fmtValue fmtE4m3 c)

/-- E8M0 scale: 2^(code − 127), 0xFF NaN. -/
def decodeE8m0 (c : Nat) : Decoded := if c % 256 = 255 then .nan else .val ⟨false, 1, (c % 256 : Nat) - (127 : Int)⟩

/-- The largest finite value of a format, with a sign. -/
def fmtMax (f : FloatFmt) (neg : Bool) : Dy := ⟨neg, f.maxMag, f.maxEx⟩

/-- Encoding of sign and a magnitude of q units of 2^u that the format can represent. -/
def fmtEncode (f : FloatFmt) (neg : Bool) (q : Nat) (u : Int) : Nat :=
  let s := b2n neg * 2 ^ (f.eb + f.mb)
  -- q is below 2^(mb+1), or equal to it after a carry
  let (q, u) := if q = 2 ^ (f.mb + 1) then (2 ^ f.mb, u + 1) else (q, u)
  if q < 2 ^ f.mb then s + q
  else s + ((u - fmtEmin f).toNat + 1) * 2 ^ f.mb + (q - 2 ^ f.mb)

/-- Whether q units of 2^u exceed the largest finite magnitude of the format. -/
def overMax (f : FloatFmt) (q : Nat) (u : Int) : Bool :=
  dyLt (fmtMax f false) ⟨false, q, u⟩

/-- Round a value into a format by round-to-nearest-even, saturating: code and whether it saturated (03 R89 rne_sat). -/
def roundFmt (f : FloatFmt) (d : Dy) : Nat × Bool :=
  if d.mag = 0 then (fmtEncode f d.neg 0 (fmtEmin f), false)
  else
    let u := unitExp (f.mb + 1) (fmtEmin f) d.mag d.ex
    let q := rneUnits d.mag d.ex u
    if overMax f q u then (fmtEncode f d.neg f.maxMag f.maxEx, true) else (fmtEncode f d.neg q u, false)

/-- rne_sat into FP32 (03 R89). -/
def rneSat (d : Dy) : Nat × Bool := roundFmt fmtF32 d

/-- The value of an FP32 pattern that holds neither infinity nor NaN. -/
def f32v (c : Nat) : Dy := fmtValue fmtF32 c

/-- BF16 from an FP32 pattern by round-to-nearest-even (04 R153), as an FP32 pattern; and whether it saturated. -/
def f32ToBf16 (c : Nat) : Nat × Bool :=
  let r := roundFmt fmtBf16 (f32v c)
  (r.1 * 65536, r.2)

/-- Rounding of a value to units of 2^u: nearest even, or stochastic with 24 random bits (03 R94). -/
def roundUnits (sr : Option Nat) (d : Dy) (u : Int) : Nat :=
  match sr with
  | none => rneUnits d.mag d.ex u
  | some r =>
    let (q, rem, den) := floorUnits d.mag d.ex u
    if rem = 0 then q
    else
      -- lo is the adjacent value below x: the larger magnitude for a negative x
      let f := if d.neg then (den - rem) * 2 ^ 24 / den else rem * 2 ^ 24 / den
      if d.neg then (if r < f then q else q + 1) else (if r < f then q + 1 else q)

/-- Conversion into a floating-point target by R93 steps 3 and 4: code and whether it clipped. -/
def convFmt (f : FloatFmt) (sr : Option Nat) (d : Dy) : Nat × Bool :=
  if d.mag = 0 then (fmtEncode f d.neg 0 (fmtEmin f), false)
  else
    let u := unitExp (f.mb + 1) (fmtEmin f) d.mag d.ex
    let q := roundUnits sr d u
    if overMax f q u then (fmtEncode f d.neg f.maxMag f.maxEx, true) else (fmtEncode f d.neg q u, false)

/-- Conversion into a two's-complement integer of `w` bits (R93): field and whether it clipped. -/
def convInt (w : Nat) (sr : Option Nat) (d : Dy) : Nat × Bool :=
  let q := roundUnits sr d 0
  let i : Int := if d.neg then -(q : Int) else q
  let hi : Int := (2 ^ (w - 1) : Nat) - 1
  let lo : Int := -((2 ^ (w - 1) : Nat) : Int)
  if i > hi then (toField w hi, true) else if i < lo then (toField w lo, true) else (toField w i, false)

/-- Conversion into an E8M0 scale: the representable set is the powers of two from 2^−127 to 2^127, so that zero and every
negative value round to 2^−127 (R93, R95). A value halfway between two scales takes the one whose code is even (log entry 12). -/
def convE8m0 (sr : Option Nat) (d : Dy) : Nat × Bool :=
  if d.neg ∨ d.mag = 0 then (0, false)
  else
    let k : Int := d.ex + (d.mag.log2 : Int)
    -- units of 2^k: 1 ≤ x / 2^k < 2
    let (_, rem, den) := floorUnits d.mag d.ex k
    let up : Bool := match sr with
      | none => decide (2 * rem > den) || (decide (2 * rem = den) && decide ((k + 127) % 2 = 1))
      | some r => decide (rem ≠ 0) && decide (r < rem * 2 ^ 24 / den)
    let k' := if up then k + 1 else k
    if k' > 127 then (254, true) else if k' < -127 then (0, false) else ((k' + 127).toNat, false)

/-- A quotient as a dyadic value with a sticky low bit, precise enough for one rounding into FP32. -/
def dyDivSticky (a b : Dy) : Dy :=
  let k := 64 + b.mag.log2 - a.mag.log2 + 1
  let n := a.mag <<< k
  let q := n / b.mag
  let st := if n % b.mag = 0 then 0 else 1
  ⟨a.neg != b.neg, 2 * q + st, a.ex - b.ex - k - 1⟩

/-- Integer square root by one bit at a time from bit `i` down. -/
def isqrtFrom : Nat → Nat → Nat → Nat
  | 0, r, _ => r
  | i + 1, r, n =>
    let c := r + 2 ^ i
    if c * c ≤ n then isqrtFrom i c n else isqrtFrom i r n

/-- The integer square root. -/
def isqrt (n : Nat) : Nat := isqrtFrom (n.log2 / 2 + 1) 0 n

/-- A square root as a dyadic value with a sticky low bit. -/
def dySqrtSticky (a : Dy) : Dy :=
  let e0 : Int := if a.ex % 2 = 0 then a.ex else a.ex - 1
  let m0 := if a.ex % 2 = 0 then a.mag else a.mag * 2
  let n := m0 <<< 128
  let r := isqrt n
  let st := if r * r = n then 0 else 1
  ⟨a.neg, 2 * r + st, e0 / 2 - 64 - 1⟩

/-- The FP32 magnitudes within 1 ulp of a value, as counts of a unit 2^u: the two that enclose it, and for one that a pattern holds
exactly its neighbours; the spacing halves below a power of two (04 R160). -/
def ulpNear (d : Dy) : List (Nat × Int) :=
  let u := unitExp 24 (fmtEmin fmtF32) d.mag d.ex
  let (q, rem, den) := floorUnits d.mag d.ex u
  let below : List (Nat × Int) :=
    if q = 2 ^ 23 ∧ fmtEmin fmtF32 < u then
      (if rem = 0 then [(2 ^ 24 - 2, u - 1)] else []) ++ (if 2 * rem ≤ den then [(2 ^ 24 - 1, u - 1)] else [])
    else if rem = 0 ∧ 0 < q then [(q - 1, u)] else []
  below ++ [(q, u), (q + 1, u)]

/-- The FP32 pattern within 1 ulp of a value that `pick` names; it saturates at the largest finite value. -/
def within1Ulp (pick : Nat) (d : Dy) : Nat × Bool :=
  if d.mag = 0 then (fmtEncode fmtF32 d.neg 0 (fmtEmin fmtF32), false)
  else
    let l := ulpNear d
    let (q, u) := l.getD (pick % l.length) (0, 0)
    if overMax fmtF32 q u then (fmtEncode fmtF32 d.neg fmtF32.maxMag fmtF32.maxEx, true)
    else (fmtEncode fmtF32 d.neg q u, false)

end Sys2Proof.Machine
end

