-- ==== Sys2Proof/Machine/CoreTypes.lean ====
section
/-! DEFINITION. The state of one core (03, 04, 05, 06): its engines, queues, registers and counters. -/

namespace Sys2Proof.Machine

/-- One weight plane with the pair and TRANS bit that travel with it (03 R81, R99). -/
structure MxPlane where
  img : List RowData := []
  wfmt : BitVec 4 := 0
  afmt : BitVec 4 := 0
  trans : Bool := false
  deriving DecidableEq, Repr

/-- A queued MX operation, its S register read at issue (03 R121, 04 R126). -/
inductive MxOp where
  | load (f : MxLoadFields) (base : Nat) (seq : Nat)
  | feed (f : MxFeedFields) (base : Nat) (seq : Nat)
  deriving DecidableEq, Repr

/-- One vector of the stream and the position that begins with it (03 R102–R104). -/
structure StreamVec where
  raw : BitVec 2048
  side : DWord
  cls : Nat
  plane : MxPlane
  acc : BitVec 2
  half : Bool
  entry : Nat
  sub : Nat
  seq : Nat
  deriving DecidableEq, Repr

/-- A FEED that has started and waits at a ring (03 R105, 05 R181). -/
structure FeedRun where
  f : MxFeedFields
  base : Nat
  next : Nat
  seq : Nat
  deriving DecidableEq, Repr

/-- A ring-mode LOAD that has started and waits at its ring (03 R121, 05 R181). -/
structure LoadRun where
  f : MxLoadFields
  seq : Nat
  deriving DecidableEq, Repr

/-- Where ring-mode FEEDs stand in a ring's sequence of rows (03 R120): the row from which vectors count, the next vector and its
layout class, the slots released, and whether the next FEED begins at vector 0 of the slot at HEAD, as after a resume or a LOAD. -/
structure RingPos where
  base : Nat := 0
  v : Nat := 0
  cls : Nat := 0
  done : Nat := 0
  restart : Bool := false
  deriving DecidableEq, Repr

/-- An open counted loop (04 R129). -/
structure OpenLoop where
  lc : Nat
  count : Nat
  first : Nat
  last : Nat
  deriving DecidableEq, Repr

/-- A result of LDP or VGET on its way to its register (04 R136). -/
structure SxPending where
  dest : Nat
  value : DWord
  seq : Nat
  landed : Bool
  deriving DecidableEq, Repr

/-- Where a vector write lands. -/
inductive WLoc where
  | mem (gra : Nat)
  | vreg (i : Nat)
  | mreg (i : Nat)
  deriving DecidableEq, Repr

/-- A vector write that has not landed (04 R152). -/
structure PendW where
  loc : WLoc
  data : RowData
  seq : Nat
  deriving DecidableEq, Repr

/-- A queued VX operation with what it read at issue (04 R126, R152). -/
structure VxOp where
  op : Nat
  f : VxFields
  predOk : Bool
  bDst : Nat
  bA : Nat
  bB : Nat
  bC : Nat
  sval : Nat
  seq : Nat
  deriving DecidableEq, Repr

/-- A row held in a staging row: its address and its contents (04 R150, 06 R203). -/
structure Staged where
  gra : Nat
  row : RowData
  deriving DecidableEq, Repr

/-- A DMA descriptor as issued: the descriptor and both offsets are read at issue (05 R184). -/
structure DmaEntry where
  idx : Nat
  d : BitVec 256
  src : Nat
  dst : Nat
  seq : Nat
  deriving DecidableEq, Repr

/-- The progress of the descriptor at the head of a queue (05 R182, R190, R191, R199). -/
structure DmaRun where
  done : Nat := 0
  window : List (Nat × RowData) := []
  wait : Nat := 0
  /-- The next slot is read although it is not published, or written although it is not released, after a wait of G cycles
  (R182). -/
  forcedSrc : Bool := false
  forcedDst : Bool := false
  /-- A row of the slot in progress did not arrive, so the slot is not published (R179). -/
  torn : Bool := false
  /-- The flits of the packet that waits for credit have been counted (07 R234). -/
  heldFlits : Bool := false
  deriving DecidableEq, Repr

/-- A packet sent and not yet acknowledged (05 R189, 07 R246). -/
structure OutPkt where
  queue : Nat
  seq : Nat
  reply : Bool
  tag : Nat
  /-- The local ring that the reply's last row publishes, and the source ring whose slot it releases (05 R179, R180). -/
  pub : Option Nat
  rel : Option Nat
  /-- Its destination device, and its GATE_LO, which an acknowledgement repeats (07 R243). -/
  chip : Nat
  gate : Nat
  /-- The reply was dropped, so the request stays counted and no later reply waits for it (07 R246). -/
  lost : Bool := false
  deriving DecidableEq, Repr

/-- A write that waits: a row of the core's own DMA queue deferred behind an engine read, or the last row of a packet in the core's
inbound buffer (05 R172, R174). -/
structure Deferred where
  gra : Nat
  row : RowData
  queue : Option Nat
  pub : Option Nat
  /-- The header of the packet that is answered when the row lands, with the status. -/
  answer : Option (Flit × Nat)
  deriving DecidableEq, Repr

/-- The wait of the core's GX slot (04 R125; 06 R208, R209, R213; 11 R354). -/
inductive GxWait where
  | none
  | gate
  | settle (eng : BitVec 4) (seq : Nat)
  | kend (seq : Nat)
  /-- `met` once an increment of the row has satisfied the wait. -/
  | acquire (gra : Nat) (want : BitVec 16) (met : Bool)
  deriving DecidableEq, Repr

/-- An entry of the release queue (06 R210). -/
inductive RelEntry where
  | publish (ring : Nat) (seq : Nat)
  | release (gra : Nat) (chip : Nat) (seq : Nat)
  deriving DecidableEq, Repr

/-- The issue counter row, core-state row 0x1_000E (04 Table 4.11). -/
structure IssueCtr where
  bundles : DWord := 0
  vxStall : DWord := 0
  sxWait : DWord := 0
  bankStall : DWord := 0
  predOff : DWord := 0
  deriving DecidableEq, Repr

/-- The tally row, core-state row 0x1_000F (03 Table 3.7), and the events of the current gate interval (R117). -/
structure Tally where
  clip : DWord := 0
  sat : DWord := 0
  nan : DWord := 0
  paired : DWord := 0
  mxStall : DWord := 0
  slots : List (Nat × Nat) := []
  interval : Nat := 0
  deriving DecidableEq, Repr

/-- The DMA and ring counter row, core-state row 0x1_0003 (05 Table 5.12). -/
structure DmaCtr where
  underRings : Word := 0
  overRings : Word := 0
  underflows : Word := 0
  overflows : Word := 0
  rowsMoved : DWord := 0
  bankLoss : DWord := 0
  dxWait : DWord := 0
  emptyWait : List (Nat × Nat) := []
  fullWait : List (Nat × Nat) := []
  deriving DecidableEq, Repr

/-- A store of a core outside row memory, whose check bits or second copy can disagree with it (14 Table 14.6). -/
inductive Cell where
  | sreg (i : Nat)
  | pred (i : Nat)
  | vreg (i : Nat)
  | mreg (i : Nat)
  | plane (b : Bool)
  deriving DecidableEq, Repr

/-- The errors that those stores hold (14 Table 14.6): words that their reads correct and words that no read can; the bits in which the
second copy of a mask register and of the predicates differs; rings whose copies of HEAD or TAIL differ. -/
structure CellErrs where
  soft : List Cell := []
  bad : List Cell := []
  mDiff : List (Nat × BitVec 256) := []
  pDiff : BitVec 8 := 0
  rings : List Nat := []
  deriving DecidableEq, Repr

/-- One core (02 Table 2.8). -/
structure CoreSt where
  -- scalar engine and program (04 sections 2 and 3)
  s : List (Nat × DWord) := []
  p : BitVec 8 := 1
  lc : List (Nat × BitVec 16) := []
  loops : List OpenLoop := []
  pc : Nat := 0
  first : Nat := 0
  last : Nat := 0
  seq : Nat := 0
  /-- A slot of the current bundle has been accepted, so that the bundle issues (R125). -/
  issued : Bool := false
  sxPend : List SxPending := []
  issue : IssueCtr := {}
  -- matrix engine (03)
  planeA : MxPlane := {}
  planeB : MxPlane := {}
  activeB : Bool := false
  mxQ : List MxOp := []
  feedRun : Option FeedRun := none
  /-- The LOAD in the load path, by its bundle; whether it still waits at its ring; whether its image lies in the store (05 R173). -/
  loading : Option Nat := none
  loadRun : Option LoadRun := none
  loadStore : Bool := false
  stream : List StreamVec := []
  tpart : List (List Nat) := []
  swapNext : Bool := false
  /-- The four staging rows of the matrix engine: the feed row being fed and the next one read ahead, and two LOAD image rows read ahead
  (06 R203, R204). -/
  feedStage : Option Staged := none
  feedAhead : Option Staged := none
  loadStageA : Option Staged := none
  loadStageB : Option Staged := none
  ringPos : List (Nat × RingPos) := []
  /-- Per ring: slots a consumer may read although they are not published, after an underflow (05 R182). -/
  ringForced : List (Nat × Nat) := []
  /-- Per ring: rows of the tail slot that multicast copies have written (07 R257). -/
  leafPos : List (Nat × Nat) := []
  tally : Tally := {}
  -- vector engine (04)
  v : List (Nat × RowData) := []
  m : List (Nat × BitVec 256) := []
  vxQ : List VxOp := []
  pendW : List PendW := []
  stageA : Option Staged := none
  stageB : Option Staged := none
  rng : List (Nat × DWord) := []
  -- DMA engine (05)
  q0 : List DmaEntry := []
  q1 : List DmaEntry := []
  q2 : List DmaEntry := []
  q3 : List DmaEntry := []
  r0 : DmaRun := {}
  r1 : DmaRun := {}
  r2 : DmaRun := {}
  r3 : DmaRun := {}
  pktSeq : List (Nat × Nat) := []
  outst : List OutPkt := []
  /-- Read replies that the core has sent and that are not acknowledged yet: requester's device, SEQ and GATE_LO (07 R244). -/
  served : List (Nat × Nat × Nat) := []
  deferred : List Deferred := []
  dctr : DmaCtr := {}
  quotaReq : Nat := 0
  quotaRep : Nat := 0
  -- synchronisation (06)
  wait : GxWait := .none
  relQ : List RelEntry := []
  -- a row that waits for its rewrite (06 R220, 14 R442), and errors in the core's own stores (14 R442)
  rewrite : Option Nat := none
  cells : CellErrs := {}
  deriving DecidableEq, Repr

end Sys2Proof.Machine
end

