-- ==== Sys2Proof/Machine/Operands.lean ====
section
/-! DEFINITION. The operands of the vector engine: element types, tensor descriptors and where their elements lie (04 sections 4
and 5). -/

namespace Sys2Proof.Machine

/-! ### Element types (Table 4.4) -/

/-- Elements per row of a type. -/
def vxPerRow (ty : Nat) : Nat :=
  match ty with
  | 0 | 2 => 128 | 1 | 9 => 256 | 6 | 7 => 1024 | _ => 512

/-- Bits per element. -/
def vxBits (ty : Nat) : Nat := 4096 / vxPerRow ty

/-! ### Tensor descriptors (Table 4.5, R142–R144) -/

/-- A decoded tensor descriptor. -/
structure Td where
  loc : Nat
  ty : Nat
  bsreg : Nat
  roff : Nat
  lane0 : Nat
  n0 : Nat
  n1 : Nat
  n2 : Nat
  n3 : Nat
  r1 : Int
  r2 : Int
  r3 : Int
  l1 : Nat
  l2 : Nat
  l3 : Nat
  resv : Nat
  deriving DecidableEq, Repr

/-- The fields of a descriptor word. -/
def tdOf (n : Nat) : Td :=
  { loc := bits n 255 252, ty := bits n 251 248, bsreg := bits n 247 243, roff := bits n 242 223, lane0 := bits n 222 213,
    n0 := bits n 212 197, n1 := bits n 196 181, n2 := bits n 180 165, n3 := bits n 164 149, r1 := sext 20 (bits n 148 129),
    r2 := sext 20 (bits n 128 109), r3 := sext 20 (bits n 108 89), l1 := bits n 88 79, l2 := bits n 78 69, l3 := bits n 68 59,
    resv := bits n 58 0 }

/-- Row and lane of element (i0, i1, i2, i3) (R144); a dimension of extent 1 ignores its strides because its index is 0. -/
def tdPos (t : Td) (base i0 i1 i2 i3 : Nat) : Nat × Nat :=
  let e := vxPerRow t.ty
  let lane := t.lane0 + i0 + i1 * t.l1 + i2 * t.l2 + i3 * t.l3
  let row : Int := (base : Int) + i1 * t.r1 + i2 * t.r2 + i3 * t.r3 + ((lane / e : Nat) : Int)
  let m : Int := match t.loc with | 2 => 512 | 3 => 32 | _ => 2 ^ 32
  ((row % m).toNat, lane % e)

/-- Lanes of a row that hold elements of the tensor, as a mask (R144): for one outer index the elements lie side by side from
its first lane, over as many rows as they need. -/
def tdCover (t : Td) (base row : Nat) : Nat :=
  let e := vxPerRow t.ty
  let m := match t.loc with | 2 => 512 | 3 => 32 | _ => 2 ^ 32
  (List.range (t.n1 * t.n2 * t.n3)).foldl (fun a o =>
    let (r0, l0) := tdPos t base 0 (o % t.n1) (o / t.n1 % t.n2) (o / t.n1 / t.n2)
    let first := (row + m - r0) % m * e
    if first < l0 + t.n0 then a ||| (2 ^ (min (l0 + t.n0) (first + e) - first) - 2 ^ (l0 - first)) else a) 0

/-- A VX operand field that names a register directly. -/
def vxDirect (o : BitVec 6) : Option Nat := if o.toNat < 32 then some o.toNat else none

end Sys2Proof.Machine
end

