-- ==== Sys2Proof/Machine/Crypto.lean ====
section
/-! DEFINITION. The cryptography that the spec names by its standards, over lists of bytes: SHA-384 (FIPS 180-4), HMAC and HKDF over it,
ECDSA and ECDH on P-384 (FIPS 186-5), and AES-256-GCM (FIPS 197, SP 800-38D) (10 R340; 12 R382, R383; 15 R460). The constants are those
of the standards (log entry 13). -/

namespace Sys2Proof.Machine

/-- The n big-endian bytes of a value. -/
def toBe (n v : Nat) : List Nat := (toLe n v).reverse

/-! ### SHA-384 -/

/-- The constants of the 80 rounds. -/
def shaK : List Nat :=
  [0x428a2f98d728ae22, 0x7137449123ef65cd, 0xb5c0fbcfec4d3b2f, 0xe9b5dba58189dbbc, 0x3956c25bf348b538] ++
  [0x59f111f1b605d019, 0x923f82a4af194f9b, 0xab1c5ed5da6d8118, 0xd807aa98a3030242, 0x12835b0145706fbe] ++
  [0x243185be4ee4b28c, 0x550c7dc3d5ffb4e2, 0x72be5d74f27b896f, 0x80deb1fe3b1696b1, 0x9bdc06a725c71235] ++
  [0xc19bf174cf692694, 0xe49b69c19ef14ad2, 0xefbe4786384f25e3, 0xfc19dc68b8cd5b5, 0x240ca1cc77ac9c65] ++
  [0x2de92c6f592b0275, 0x4a7484aa6ea6e483, 0x5cb0a9dcbd41fbd4, 0x76f988da831153b5, 0x983e5152ee66dfab] ++
  [0xa831c66d2db43210, 0xb00327c898fb213f, 0xbf597fc7beef0ee4, 0xc6e00bf33da88fc2, 0xd5a79147930aa725] ++
  [0x6ca6351e003826f, 0x142929670a0e6e70, 0x27b70a8546d22ffc, 0x2e1b21385c26c926, 0x4d2c6dfc5ac42aed] ++
  [0x53380d139d95b3df, 0x650a73548baf63de, 0x766a0abb3c77b2a8, 0x81c2c92e47edaee6, 0x92722c851482353b] ++
  [0xa2bfe8a14cf10364, 0xa81a664bbc423001, 0xc24b8b70d0f89791, 0xc76c51a30654be30, 0xd192e819d6ef5218] ++
  [0xd69906245565a910, 0xf40e35855771202a, 0x106aa07032bbd1b8, 0x19a4c116b8d2d0c8, 0x1e376c085141ab53] ++
  [0x2748774cdf8eeb99, 0x34b0bcb5e19b48a8, 0x391c0cb3c5c95a63, 0x4ed8aa4ae3418acb, 0x5b9cca4f7763e373] ++
  [0x682e6ff3d6b2b8a3, 0x748f82ee5defb2fc, 0x78a5636f43172f60, 0x84c87814a1f0ab72, 0x8cc702081a6439ec] ++
  [0x90befffa23631e28, 0xa4506cebde82bde9, 0xbef9a3f7b2c67915, 0xc67178f2e372532b, 0xca273eceea26619c] ++
  [0xd186b8c721c0c207, 0xeada7dd6cde0eb1e, 0xf57d4f7fee6ed178, 0x6f067aa72176fba, 0xa637dc5a2c898a6] ++
  [0x113f9804bef90dae, 0x1b710b35131c471b, 0x28db77f523047d84, 0x32caab7b40c72493, 0x3c9ebe0a15c9bebc] ++
  [0x431d67c49c100d4c, 0x4cc5d4becb3e42b6, 0x597f299cfc657e2a, 0x5fcb6fab3ad6faec, 0x6c44198c4a475817]

/-- The eight working words. -/
structure Sha where
  a : Nat
  b : Nat
  c : Nat
  d : Nat
  e : Nat
  f : Nat
  g : Nat
  h : Nat
  deriving DecidableEq, Repr

def shaStart : Sha :=
  ⟨0xcbbb9d5dc1059ed8, 0x629a292a367cd507, 0x9159015a3070dd17, 0x152fecd8f70e5939,
   0x67332667ffc00b31, 0x8eb44a8768581511, 0xdb0c2e0d64f98fa7, 0x47b5481dbefa4fa4⟩

/-- A 64-bit word rotated right. -/
def rotr64 (x n : Nat) : Nat := (x >>> n) ||| ((x <<< (64 - n)) % 2 ^ 64)

/-- One round; `kw` is the round's constant plus its message word. -/
def shaRound (s : Sha) (kw : Nat) : Sha :=
  let t1 := s.h + (rotr64 s.e 14 ^^^ rotr64 s.e 18 ^^^ rotr64 s.e 41) + ((s.e &&& s.f) ^^^ ((2 ^ 64 - 1 - s.e) &&& s.g)) + kw
  let t2 := (rotr64 s.a 28 ^^^ rotr64 s.a 34 ^^^ rotr64 s.a 39) + ((s.a &&& s.b) ^^^ (s.a &&& s.c) ^^^ (s.b &&& s.c))
  ⟨(t1 + t2) % 2 ^ 64, s.a, s.b, s.c, (s.d + t1) % 2 ^ 64, s.e, s.f, s.g⟩

/-- The next word of the message schedule from the last 16. -/
def shaNext (w : List Nat) : Nat :=
  let x := w.getD 1 0
  let y := w.getD 14 0
  (w.getD 0 0 + (rotr64 x 1 ^^^ rotr64 x 8 ^^^ (x >>> 7)) + w.getD 9 0 + (rotr64 y 19 ^^^ rotr64 y 61 ^^^ (y >>> 6))) % 2 ^ 64

def shaRounds : List Nat → List Nat → Sha → Sha
  | k :: ks, w, s => shaRounds ks (w.drop 1 ++ [shaNext w]) (shaRound s (k + w.getD 0 0))
  | [], _, s => s

/-- The 64-bit words of a block. -/
def shaWords : Nat → List Nat → List Nat
  | 0, _ => []
  | n + 1, l => beNat (l.take 8) :: shaWords n (l.drop 8)

def shaBlock (s : Sha) (block : List Nat) : Sha :=
  let t := shaRounds shaK (shaWords 16 block) s
  let p := fun (x y : Nat) => (x + y) % 2 ^ 64
  ⟨p s.a t.a, p s.b t.b, p s.c t.c, p s.d t.d, p s.e t.e, p s.f t.f, p s.g t.g, p s.h t.h⟩

def shaBlocks : Nat → List Nat → Sha → Sha
  | 0, _, s => s
  | n + 1, l, s => shaBlocks n (l.drop 128) (shaBlock s (l.take 128))

/-- The message with its padding: a one bit, zeros, and the length in bits. -/
def shaPad (l : List Nat) : List Nat :=
  l ++ 128 :: (List.replicate ((239 - l.length % 128) % 128) 0 ++ toBe 16 (8 * l.length))

/-- The 48 bytes of SHA-384. -/
def sha384Bytes (l : List Nat) : List Nat :=
  let m := shaPad l
  let s := shaBlocks (m.length / 128) m shaStart
  [s.a, s.b, s.c, s.d, s.e, s.f].flatMap (toBe 8)

/-- SHA-384 of bytes as a digest, its first byte lowest. -/
@[irreducible] def sha384 (l : List Byte) : BitVec 384 := BitVec.ofNat 384 (leNat (sha384Bytes (l.map (fun b => b.toNat))))

/-! ### HMAC and HKDF over SHA-384 -/

def hmac384 (key msg : List Nat) : List Nat :=
  let k := if 128 < key.length then sha384Bytes key else key
  let k := k ++ List.replicate (128 - k.length) 0
  sha384Bytes (k.map (fun b => b ^^^ 0x5C) ++ sha384Bytes (k.map (fun b => b ^^^ 0x36) ++ msg))

/-- The blocks T(i), T(i + 1), … of HKDF-Expand, `n` of them. -/
def hkdfBlocks (prk info : List Nat) : Nat → Nat → List Nat → List Nat
  | 0, _, _ => []
  | n + 1, i, prev => let t := hmac384 prk (prev ++ info ++ [i]); t ++ hkdfBlocks prk info n (i + 1) t
def hkdfExtract (salt ikm : List Nat) : List Nat := hmac384 salt ikm
def hkdfExpand (prk info : List Nat) (n : Nat) : List Nat := (hkdfBlocks prk info (cdiv n 48) 1 []).take n

/-! ### P-384 -/

def ecP : Nat := 2 ^ 384 - 2 ^ 128 - 2 ^ 96 + 2 ^ 32 - 1
def ecB : Nat := 0xb3312fa7e23ee7e4988e056be3f82d19181d9c6efe8141120314088f5013875ac656398d8a2ed19d2a85c8edd3ec2aef
/-- The order of the base point. -/
def ecN : Nat := 0xffffffffffffffffffffffffffffffffffffffffffffffffc7634d81f4372ddf581a0db248b0a77aecec196accc52973

/-- A point in Jacobian coordinates; z = 0 is the point at infinity. -/
structure EcPoint where
  x : Nat
  y : Nat
  z : Nat
  deriving DecidableEq, Repr

def ecG : EcPoint :=
  ⟨0xaa87ca22be8b05378eb1c71ef320ad746e1d3b628ba79b9859f741e082542a385502f25dbf55296c3a545e3872760ab7,
   0x3617de4a96262c6f5d9e98bf9292dc29f8f41dbd289a147ce9da3113b5f0b8c00a60b1ce1d7e819d7a431d7c90ea0e5f, 1⟩

/-- a − b modulo a prime that exceeds both. -/
def subMod (p a b : Nat) : Nat := (a + p - b) % p

/-- b to the power whose bits are listed, the lowest first, modulo p. -/
def powBits (p : Nat) : List Bool → Nat → Nat
  | [], _ => 1
  | c :: t, b => let r := powBits p t (b * b % p); if c then r * b % p else r

/-- The bits of a 384-bit number, the lowest first. -/
def bits384 (n : Nat) : List Bool := (List.range 384).map (fun i => bitAt n i)

/-- The inverse modulo a prime (Fermat). -/
def invMod (p a : Nat) : Nat := powBits p (bits384 (p - 2)) (a % p)

def ecDouble (q : EcPoint) : EcPoint :=
  let p := ecP
  let d := q.z * q.z % p
  let g := q.y * q.y % p
  let b := q.x * g % p
  let a := 3 * (subMod p q.x d * ((q.x + d) % p)) % p
  let x := subMod p (a * a % p) (8 * b % p)
  let s := (q.y + q.z) % p
  let z := subMod p (subMod p (s * s % p) g) d
  let y := subMod p (a * subMod p (4 * b % p) x % p) (8 * (g * g) % p)
  ⟨x, y, z⟩

def ecAdd (q r : EcPoint) : EcPoint :=
  let p := ecP
  if q.z = 0 then r
  else if r.z = 0 then q
  else
    let zq := q.z * q.z % p
    let zr := r.z * r.z % p
    let u := q.x * zr % p
    let v := r.x * zq % p
    let s := q.y * (zr * r.z % p) % p
    let t := r.y * (zq * q.z % p) % p
    if u = v then (if s = t then ecDouble q else ⟨1, 1, 0⟩)
    else
      let h := subMod p v u
      let w := subMod p t s
      let h2 := h * h % p
      let h3 := h2 * h % p
      let k := u * h2 % p
      let x := subMod p (subMod p (w * w % p) h3) (2 * k % p)
      let y := subMod p (w * subMod p k x % p) (s * h3 % p)
      ⟨x, y, q.z * r.z % p * h % p⟩

/-- Σ of two multiples, by their bits, the highest first: `sum` is the sum of the two points. -/
def ecTwo (q r sum : EcPoint) : List (Bool × Bool) → EcPoint → EcPoint
  | [], a => a
  | (c, d) :: t, a =>
    let a := ecDouble a
    ecTwo q r sum t (match c, d with
      | true, true => ecAdd a sum
      | true, false => ecAdd a q
      | false, true => ecAdd a r
      | false, false => a)

/-- m × q + n × r. -/
def ecMul2 (m : Nat) (q : EcPoint) (n : Nat) (r : EcPoint) : EcPoint :=
  ecTwo q r (ecAdd q r) ((bits384 m).zip (bits384 n)).reverse ⟨1, 1, 0⟩
def ecMul (m : Nat) (q : EcPoint) : EcPoint := ecMul2 m q 0 ⟨1, 1, 0⟩

/-- The affine coordinates of a point that is not at infinity. -/
def EcPoint.affine (q : EcPoint) : Nat × Nat :=
  let i := invMod ecP q.z
  let i2 := i * i % ecP
  (q.x * i2 % ecP, q.y * (i2 * i % ecP) % ecP)

/-- A public key 0x04 ‖ X ‖ Y, if it is a valid point of the curve. -/
def ecKey (key : List Nat) : Option EcPoint :=
  let x := beNat ((key.drop 1).take 48)
  let y := beNat ((key.drop 49).take 48)
  if key.length = 97 ∧ key.getD 0 0 = 4 ∧ x < ecP ∧ y < ecP ∧ y * y % ecP = (x * x * x + (ecP - 3) * x + ecB) % ecP then some ⟨x, y, 1⟩ else none
/-- The bytes of a public key. -/
def EcPoint.bytes (q : EcPoint) : List Nat := let a := q.affine; 4 :: (toBe 48 a.1 ++ toBe 48 a.2)

/-- The digest of a public key. -/
def keyDigest (k : BitVec 776) : BitVec 384 := sha384 ((toLe 97 k.toNat).map (BitVec.ofNat 8))

/-- Whether r and s are an ECDSA signature of a message's SHA-384 under a public key. -/
@[irreducible] def ecdsaOk (key msg : List Nat) (r s : Nat) : Bool :=
  match ecKey key with
  | some q =>
    if r = 0 ∨ s = 0 ∨ ecN ≤ r ∨ ecN ≤ s then false
    else
      let w := invMod ecN s
      let t := ecMul2 (beNat (sha384Bytes msg) * w % ecN) ecG (r * w % ecN) q
      t.z != 0 && t.affine.1 % ecN == r
  | none => false
/-- The same of a key and of a signature r ‖ s, big-endian, as byte strings with the first byte lowest. -/
def signedBy (key : BitVec 776) (msg : List Nat) (sig : BitVec 768) : Bool :=
  let s := toLe 96 sig.toNat
  ecdsaOk (toLe 97 key.toNat) msg (beNat (s.take 48)) (beNat (s.drop 48))

/-- The shared secret of a private key and a point: the 48-byte x-coordinate. -/
def ecdh (d : Nat) (q : EcPoint) : List Nat := toBe 48 (ecMul d q).affine.1

/-! ### AES-256 -/

/-- The substitution box, 32 entries a number, the first lowest. -/
def aesSboxes : List Nat :=
  [0xc072a49cafa2d4adf04759fa7dc982ca76abd7fe2b670130c56f6bf27b777c63,
   0x75b227ebe28012079a059618c323c7041531d871f1e5a534ccf73f362693fdb7,
   0xcf584c4a39becb6a5bb1fc20ed00d153842fe329b3d63b52a05a6e1b1a2c8309,
   0xd2f3ff1021dab6bcf5389d928f40a351a89f3c507f02f94585334d43fbaaefd0,
   0xdb0b5ede14b8ee4688902a22dc4f816073195d643d7ea7c41744975fec130ccd,
   0x8ae7a65eaf4566ca94ed58d6d37c8e779e4959162acd3c25c2406490a3a32e0,
   0x9e1dc186b95735610ef6034866b53e708a8bbd4b1f74dde8c6b4a61c2e2578ba,
   0x16bb54b00f2d99416842e6bf0d89a18cdf2855cee9871e9b948ed9691198f8e1]
def aesSbox (x : Nat) : Nat := aesSboxes.getD (x / 32) 0 >>> (8 * (x % 32)) % 256

/-- Doubling in the field of 2^8. -/
def aesDbl (x : Nat) : Nat := if x < 128 then 2 * x else (2 * x) % 256 ^^^ 0x1B

/-- The words of the key schedule after eight of them, the newest first. -/
def aesExpand : Nat → Nat → Nat → List (List Nat) → List (List Nat)
  | 0, _, _, ws => ws
  | n + 1, i, rc, ws =>
    let prev := ws.getD 0 []
    let t := if i % 8 = 0 then
        (match (prev.drop 1 ++ prev.take 1).map aesSbox with | a :: r => (a ^^^ rc) :: r | [] => [])
      else if i % 8 = 4 then prev.map aesSbox else prev
    let w := List.zipWith (fun a b => a ^^^ b) (ws.getD 7 []) t
    aesExpand n (i + 1) (if i % 8 = 0 then aesDbl rc else rc) (w :: ws)

/-- The 15 round keys of 16 bytes each. -/
def aesKeys (key : List Nat) : List (List Nat) :=
  let ws := (aesExpand 52 8 1 (((List.range 8).map (fun i => (key.drop (4 * i)).take 4)).reverse)).reverse
  (List.range 15).map (fun r => ((ws.drop (4 * r)).take 4).flatten)

/-- One column of the state mixed. -/
def aesMix : List Nat → List Nat
  | [a, b, c, d] =>
    [aesDbl a ^^^ (aesDbl b ^^^ b) ^^^ c ^^^ d, a ^^^ aesDbl b ^^^ (aesDbl c ^^^ c) ^^^ d,
     a ^^^ b ^^^ aesDbl c ^^^ (aesDbl d ^^^ d), (aesDbl a ^^^ a) ^^^ b ^^^ c ^^^ aesDbl d]
  | l => l

def xorBytes (a b : List Nat) : List Nat := List.zipWith (fun x y => x ^^^ y) a b

/-- Bytes substituted and rows shifted; the state is 16 bytes, column by column. -/
def aesSub (s : List Nat) : List Nat := (List.range 16).map (fun i => aesSbox (s.getD ((i + 4 * (i % 4)) % 16) 0))

def aesRounds : List (List Nat) → List Nat → List Nat
  | [], s => s
  | [k], s => xorBytes (aesSub s) k
  | k :: ks, s =>
    let t := aesSub s
    aesRounds ks (xorBytes ((List.range 4).flatMap (fun c => aesMix ((t.drop (4 * c)).take 4))) k)

/-- One block under expanded keys. -/
def aesBlock (keys : List (List Nat)) (b : List Nat) : List Nat :=
  match keys with
  | k :: ks => aesRounds ks (xorBytes b k)
  | [] => b

/-! ### GCM -/

/-- Multiplication in the field of 2^128, with the bits of a block numbered from its first byte's highest. -/
def ghMul : Nat → Nat → Nat → Nat → Nat
  | 0, _, _, z => z
  | n + 1, x, v, z =>
    ghMul n x (if v % 2 = 1 then (v >>> 1) ^^^ (0xE1 <<< 120) else v >>> 1) (if bitAt x n then z ^^^ v else z)

/-- GHASH over 16-byte blocks. -/
def ghash (h : Nat) (blocks : List (List Nat)) : Nat := blocks.foldl (fun y b => ghMul 128 (y ^^^ beNat b) h 0) 0

/-- Bytes as blocks of 16, the last padded with zeros. -/
def padBlocks (l : List Nat) : List (List Nat) :=
  (List.range (cdiv l.length 16)).map (fun i => let b := (l.drop (16 * i)).take 16; b ++ List.replicate (16 - b.length) 0)

/-- The key stream of counter blocks from 2 on, over the bytes. -/
def gcmStream (keys : List (List Nat)) (iv l : List Nat) : List Nat :=
  xorBytes l ((List.range (cdiv l.length 16)).flatMap (fun i => aesBlock keys (iv ++ toBe 4 (i + 2))))

/-- The tag of a ciphertext with its additional data, under a 12-byte nonce. -/
def gcmTag (keys : List (List Nat)) (iv aad ct : List Nat) : List Nat :=
  let h := beNat (aesBlock keys (List.replicate 16 0))
  let s := ghash h (padBlocks aad ++ padBlocks ct ++ [toBe 8 (8 * aad.length) ++ toBe 8 (8 * ct.length)])
  xorBytes (toBe 16 s) (aesBlock keys (iv ++ [0, 0, 0, 1]))

/-- AES-256-GCM: the ciphertext and the tag. -/
def gcmSeal (key iv aad pt : List Nat) : List Nat × List Nat :=
  let keys := aesKeys key
  let ct := gcmStream keys iv pt
  (ct, gcmTag keys iv aad ct)
/-- The plaintext of a ciphertext whose tag is right. -/
def gcmOpen (key iv aad ct tag : List Nat) : Option (List Nat) :=
  let keys := aesKeys key
  if gcmTag keys iv aad ct = tag then some (gcmStream keys iv ct) else none

end Sys2Proof.Machine
end

