-- ==== Sys2Proof/Machine/Maps.lean ====
section
/-! DEFINITION. Sparse maps by natural-number key: memory (02 section 6), registers (16 R475), cores and ports. -/

namespace Sys2Proof.Machine

/-- The value at a key; an unlisted key holds its default. -/
def mapGet {α : Type} (d : Nat → α) : List (Nat × α) → Nat → α
  | [], k => d k
  | (a, v) :: t, k => if a = k then v else mapGet d t k

/-- The map without a key. -/
def mapErase {α : Type} (l : List (Nat × α)) (k : Nat) : List (Nat × α) := l.filter (fun x => x.1 != k)

/-- The map with one key's value replaced; keys strictly rising, no entry equal to its default. -/
def mapSet {α : Type} [DecidableEq α] (d : Nat → α) : List (Nat × α) → Nat → α → List (Nat × α)
  | [], k, v => if v = d k then [] else [(k, v)]
  | (a, w) :: t, k, v =>
    if k < a then (if v = d k then (a, w) :: mapErase t k else (k, v) :: (a, w) :: t)
    else if a = k then (if v = d k then mapErase t k else (k, v) :: t)
    else (a, w) :: mapSet d t k v

/-- The map with one key's value replaced, kept in rising order of keys, defaults listed. -/
def mapPut {α : Type} : List (Nat × α) → Nat → α → List (Nat × α)
  | [], k, v => [(k, v)]
  | (a, w) :: t, k, v =>
    if k < a then (k, v) :: (a, w) :: t
    else if a = k then (k, v) :: t
    else (a, w) :: mapPut t k v

/-- Keys strictly rising from a bound, with no entry at its default. -/
def mapWfFrom {α : Type} [DecidableEq α] (d : Nat → α) : Nat → List (Nat × α) → Bool
  | _, [] => true
  | b, (a, v) :: t => decide (b ≤ a) && decide (v ≠ d a) && mapWfFrom d (a + 1) t

/-- The canonical form of a sparse map. -/
def mapWf {α : Type} [DecidableEq α] (d : Nat → α) (m : List (Nat × α)) : Bool := mapWfFrom d 0 m

/-- A list of length `n` with the element at `i` replaced. -/
def listSet {α : Type} : List α → Nat → α → List α
  | [], _, _ => []
  | _ :: t, 0, v => v :: t
  | a :: t, i + 1, v => a :: listSet t i v

/-- The list without its first element that satisfies `p`. -/
def eraseFirst {α : Type} (p : α → Bool) : List α → List α
  | [] => []
  | a :: t => if p a then t else a :: eraseFirst p t

/-- The list with every element that satisfies `p` changed by `f`. -/
def mapIf {α : Type} (p : α → Bool) (f : α → α) (l : List α) : List α :=
  l.map (fun a => if p a then f a else a)

end Sys2Proof.Machine
end

