-- ==== Sys2Proof/Machine/Regs.lean ====
section
/-! DEFINITION. The register map: every register of the eleven blocks with its fields' access and reset value
(16 R475, R476 and the field maps of each owning chapter). -/

namespace Sys2Proof.Machine

/-- One row of a block's field map: `count` registers `stride` bytes apart; masks of its RO, W1C, CW, RW and WO bits;
its reset value; the roles that may write its CW, RW and WO fields (1 operator, 2 installer, 4 maker). -/
structure RegRow where
  off : Nat
  count : Nat
  stride : Nat
  ro : Nat
  w1c : Nat
  cw : Nat
  rw : Nat
  wo : Nat
  reset : Nat
  writers : Nat
  deriving DecidableEq, Repr

/-- EPOCH block rows. -/
def regsEpoch : List RegRow := [
  -- EPOCH.NOW_LO (01 Table 1.3)
  ⟨0, 1, 4, 0xFFFFFFFF, 0, 0, 0, 0, 0, 0⟩,
  -- EPOCH.NOW_HI (01 Table 1.3)
  ⟨4, 1, 4, 0xFFFFFFFF, 0, 0, 0, 0, 0, 0⟩,
  -- EPOCH.CTRL (01 Table 1.4)
  ⟨8, 1, 4, 0, 0, 0xFFFFFF7F, 0, 0, 0x2710FF00, 2⟩,
  -- EPOCH.SYNC_CFG (01 Table 1.5)
  ⟨0xC, 1, 4, 0, 0, 0x3FFFFFF, 0, 0, 0x64, 2⟩,
  -- EPOCH.SET_LO (01 Table 1.3)
  ⟨0x10, 1, 4, 0, 0, 0xFFFFFFFF, 0, 0, 0, 2⟩,
  -- EPOCH.SET_HI (01 Table 1.3)
  ⟨0x14, 1, 4, 0, 0, 0xFFFFFFFF, 0, 0, 0, 2⟩,
  -- EPOCH.STATUS (01 Table 1.7)
  ⟨0x18, 1, 4, 0x3FFF, 0, 0, 0, 0, 0x3C60, 0⟩,
  -- EPOCH.EVENTS (01 Table 1.8)
  ⟨0x1C, 1, 4, 0, 0x1FF, 0, 0, 0, 0, 3⟩,
  -- EPOCH.OFFSET (01 Table 1.3)
  ⟨0x20, 1, 4, 0xFFFFFFFF, 0, 0, 0, 0, 0, 0⟩,
  -- EPOCH.STEER (01 Table 1.3)
  ⟨0x24, 1, 4, 0xFFFFFFFF, 0, 0, 0, 0, 0, 0⟩,
  -- EPOCH.LATE_COUNT (01 Table 1.3)
  ⟨0x28, 1, 4, 0xFFFFFFFF, 0, 0, 0, 0, 0, 0⟩,
  -- EPOCH.SKIP_COUNT (01 Table 1.3)
  ⟨0x2C, 1, 4, 0xFFFFFFFF, 0, 0, 0, 0, 0, 0⟩,
  -- COMMIT_LO (16 Table 16.3)
  ⟨0xF00, 1, 4, 0, 0, 0, 0, 0xFFFFFFFF, 0, 7⟩,
  -- COMMIT_HI (16 Table 16.3)
  ⟨0xF04, 1, 4, 0, 0, 0, 0, 0xFFFFFFFF, 0, 7⟩,
  -- COMMIT_STATUS (16 Table 16.4)
  ⟨0xF08, 1, 4, 0xF007FFFF, 0, 0, 0, 0, 0, 0⟩,
  -- COMMIT_EC (16 Table 16.3)
  ⟨0xF0C, 1, 4, 0xFFFFFFFF, 0, 0, 0, 0, 0, 0⟩
  ]

/-- CLK block rows. -/
def regsClk : List RegRow := [
  -- CLK.STATUS (16 Table 16.6)
  ⟨0, 1, 4, 0xFC, 0, 0, 0, 0, 8, 0⟩,
  -- CLK.CTRL (16 Table 16.7)
  ⟨4, 1, 4, 0, 0, 0xFF, 0, 0, 0, 2⟩,
  -- CLK.EVENTS (16 Table 16.8)
  ⟨8, 1, 4, 0, 7, 0, 0, 0, 0, 3⟩,
  -- CLK.REGIONS (16 Table 16.5)
  ⟨0xC, 1, 4, 0xFFFFFF, 0, 0, 0, 0, 0, 0⟩,
  -- CLK.UNLOCKS (16 Table 16.5)
  ⟨0x10, 1, 4, 0xFFFFFFFF, 0, 0, 0, 0, 0, 0⟩,
  -- COMMIT_LO (16 Table 16.3)
  ⟨0xF00, 1, 4, 0, 0, 0, 0, 0xFFFFFFFF, 0, 7⟩,
  -- COMMIT_HI (16 Table 16.3)
  ⟨0xF04, 1, 4, 0, 0, 0, 0, 0xFFFFFFFF, 0, 7⟩,
  -- COMMIT_STATUS (16 Table 16.4)
  ⟨0xF08, 1, 4, 0xF007FFFF, 0, 0, 0, 0, 0, 0⟩,
  -- COMMIT_EC (16 Table 16.3)
  ⟨0xF0C, 1, 4, 0xFFFFFFFF, 0, 0, 0, 0, 0, 0⟩
  ]

/-- MESH block rows. -/
def regsMesh : List RegRow := [
  -- MESH.FAIL_LO (07 Table 7.8)
  ⟨0, 1, 4, 0xFFFFFFFF, 0, 0, 0, 0, 0, 0⟩,
  -- MESH.FAIL_MID (07 Table 7.8)
  ⟨4, 1, 4, 0xFFFFFFFF, 0, 0, 0, 0, 0, 0⟩,
  -- MESH.FAIL_HI (07 Table 7.8)
  ⟨8, 1, 4, 0xFF, 0, 0, 0, 0, 0, 0⟩,
  -- MESH.CRC_FAIL (07 Table 7.8)
  ⟨0xC, 1, 4, 0xFFFFFFFF, 0, 0, 0, 0, 0, 0⟩,
  -- MESH.UNREACH_DROP (07 Table 7.8)
  ⟨0x10, 1, 4, 0xFFFFFFFF, 0, 0, 0, 0, 0, 0⟩,
  -- MESH.SUM_MISMATCH (07 Table 7.8)
  ⟨0x14, 1, 4, 0xFFFFFFFF, 0, 0, 0, 0, 0, 0⟩,
  -- MESH.SUM_NOTAG (07 Table 7.8)
  ⟨0x18, 1, 4, 0xFFFFFFFF, 0, 0, 0, 0, 0, 0⟩,
  -- MESH.SUM_TIMEOUT (07 Table 7.8)
  ⟨0x1C, 1, 4, 0xFFFFFFFF, 0, 0, 0, 0, 0, 0⟩,
  -- MESH.HOLDOVER_USE (07 Table 7.8)
  ⟨0x20, 1, 4, 0xFFFFFFFF, 0, 0, 0, 0, 0, 0⟩,
  -- MESH.HOLDOVER_FULL (07 Table 7.8)
  ⟨0x24, 1, 4, 0xFFFFFFFF, 0, 0, 0, 0, 0, 0⟩,
  -- MESH.SHORT_REJECT (07 Table 7.8)
  ⟨0x28, 1, 4, 0xFFFFFFFF, 0, 0, 0, 0, 0, 0⟩,
  -- MESH.QUOTA_WAIT (07 Table 7.8)
  ⟨0x2C, 1, 4, 0xFFFFFFFF, 0, 0, 0, 0, 0, 0⟩,
  -- MESH.CHAN_DEFER (07 Table 7.8)
  ⟨0x30, 1, 4, 0xFFFFFFFF, 0, 0, 0, 0, 0, 0⟩,
  -- MESH.EXPRESS_MAX (07 Table 7.8)
  ⟨0x34, 1, 4, 0xFFFFFFFF, 0, 0, 0, 0, 0, 0⟩,
  -- MESH.TRANSIT (07 Table 7.8)
  ⟨0x38, 1, 4, 0xFFFFFFFF, 0, 0, 0, 0, 0, 0⟩,
  -- MESH.EVENTS (07 Table 7.9)
  ⟨0x3C, 1, 4, 0, 0x3F, 0, 0, 0, 0, 3⟩,
  -- COMMIT_LO (16 Table 16.3)
  ⟨0xF00, 1, 4, 0, 0, 0, 0, 0xFFFFFFFF, 0, 7⟩,
  -- COMMIT_HI (16 Table 16.3)
  ⟨0xF04, 1, 4, 0, 0, 0, 0, 0xFFFFFFFF, 0, 7⟩,
  -- COMMIT_STATUS (16 Table 16.4)
  ⟨0xF08, 1, 4, 0xF007FFFF, 0, 0, 0, 0, 0, 0⟩,
  -- COMMIT_EC (16 Table 16.3)
  ⟨0xF0C, 1, 4, 0xFFFFFFFF, 0, 0, 0, 0, 0, 0⟩
  ]

/-- FAB block rows, part 0. -/
def regsFabP0 : List RegRow := [
  -- FAB.POSITION (08 Table 8.16)
  ⟨0, 1, 4, 0xFFF07FFF, 0, 0, 0, 0, 0, 0⟩,
  -- FAB.STATUS (08 Table 8.17)
  ⟨4, 1, 4, 3, 0, 0, 0, 0, 0, 0⟩,
  -- FAB.CTRL (08 Table 8.18)
  ⟨8, 1, 4, 0, 0, 0xF1FFF, 0, 0, 0x51FFF, 2⟩,
  -- FAB.EVENTS (08 Table 8.21)
  ⟨0xC, 1, 4, 0, 0x7FF, 0, 0, 0, 0, 3⟩,
  -- FAB.OWNER_DROP (08 Table 8.15)
  ⟨0x10, 1, 4, 0xFFFFFFFF, 0, 0, 0, 0, 0, 0⟩,
  -- FAB.GEN_DROP (08 Table 8.15)
  ⟨0x14, 1, 4, 0xFFFFFFFF, 0, 0, 0, 0, 0, 0⟩,
  -- FAB.NOROUTE (08 Table 8.15)
  ⟨0x18, 1, 4, 0xFFFFFFFF, 0, 0, 0, 0, 0, 0⟩,
  -- FAB.SCHED_OVERRUN (08 Table 8.15)
  ⟨0x1C, 1, 4, 0xFFFFFFFF, 0, 0, 0, 0, 0, 0⟩,
  -- FAB.AGE_DROP (08 Table 8.15)
  ⟨0x20, 1, 4, 0xFFFFFFFF, 0, 0, 0, 0, 0, 0⟩,
  -- FAB.LATE_PRESENT (08 Table 8.15)
  ⟨0x24, 1, 4, 0xFFFFFFFF, 0, 0, 0, 0, 0, 0⟩,
  -- FAB.CTRL_BAD (08 Table 8.15)
  ⟨0x28, 1, 4, 0xFFFFFFFF, 0, 0, 0, 0, 0, 0⟩,
  -- FAB.FRAME_BAD (08 Table 8.15)
  ⟨0x2C, 1, 4, 0xFFFFFFFF, 0, 0, 0, 0, 0, 0⟩,
  -- FAB.PORTn (08 Table 8.19)
  ⟨0x40, 0xC, 4, 0xFFFFFFF0, 0, 0, 0, 0, 0x1E000000, 0⟩,
  -- FAB.PORTn_REPLAY (08 Table 8.15)
  ⟨0x80, 0xC, 8, 0xFFFFFFFF, 0, 0, 0, 0, 0, 0⟩,
  -- FAB.PORTn_UNCORR (08 Table 8.15)
  ⟨0x84, 0xC, 8, 0xFFFFFFFF, 0, 0, 0, 0, 0, 0⟩,
  -- FAB.CLSLICEn (08 Table 8.20)
  ⟨0x200, 0x48, 4, 0xCFF00FFF, 0, 0, 0, 0, 0, 0⟩,
  -- FAB.TX0.w0 (08 Table 8.4)
  ⟨0x4000, 0x40, 8, 0, 0, 0xE0FFFFFF, 0, 0, 0, 2⟩,
  -- FAB.TX0.w1 (08 Table 8.4)
  ⟨0x4004, 0x40, 8, 0, 0, 0x1FFFFFF, 0, 0, 0, 2⟩,
  -- FAB.RX0.w0 (08 Table 8.4)
  ⟨0x4200, 0x40, 8, 0, 0, 0xE0FFFFFF, 0, 0, 0, 2⟩,
  -- FAB.RX0.w1 (08 Table 8.4)
  ⟨0x4204, 0x40, 8, 0, 0, 0x1FFFFFF, 0, 0, 0, 2⟩,
  -- FAB.TX1.w0 (08 Table 8.4)
  ⟨0x4400, 0x40, 8, 0, 0, 0xE0FFFFFF, 0, 0, 0, 2⟩,
  -- FAB.TX1.w1 (08 Table 8.4)
  ⟨0x4404, 0x40, 8, 0, 0, 0x1FFFFFF, 0, 0, 0, 2⟩,
  -- FAB.RX1.w0 (08 Table 8.4)
  ⟨0x4600, 0x40, 8, 0, 0, 0xE0FFFFFF, 0, 0, 0, 2⟩,
  -- FAB.RX1.w1 (08 Table 8.4)
  ⟨0x4604, 0x40, 8, 0, 0, 0x1FFFFFF, 0, 0, 0, 2⟩,
  -- FAB.TX2.w0 (08 Table 8.4)
  ⟨0x4800, 0x40, 8, 0, 0, 0xE0FFFFFF, 0, 0, 0, 2⟩,
  -- FAB.TX2.w1 (08 Table 8.4)
  ⟨0x4804, 0x40, 8, 0, 0, 0x1FFFFFF, 0, 0, 0, 2⟩,
  -- FAB.RX2.w0 (08 Table 8.4)
  ⟨0x4A00, 0x40, 8, 0, 0, 0xE0FFFFFF, 0, 0, 0, 2⟩,
  -- FAB.RX2.w1 (08 Table 8.4)
  ⟨0x4A04, 0x40, 8, 0, 0, 0x1FFFFFF, 0, 0, 0, 2⟩,
  -- FAB.TX3.w0 (08 Table 8.4)
  ⟨0x4C00, 0x40, 8, 0, 0, 0xE0FFFFFF, 0, 0, 0, 2⟩,
  -- FAB.TX3.w1 (08 Table 8.4)
  ⟨0x4C04, 0x40, 8, 0, 0, 0x1FFFFFF, 0, 0, 0, 2⟩,
  -- FAB.RX3.w0 (08 Table 8.4)
  ⟨0x4E00, 0x40, 8, 0, 0, 0xE0FFFFFF, 0, 0, 0, 2⟩,
  -- FAB.RX3.w1 (08 Table 8.4)
  ⟨0x4E04, 0x40, 8, 0, 0, 0x1FFFFFF, 0, 0, 0, 2⟩,
  -- FAB.TX4.w0 (08 Table 8.4)
  ⟨0x5000, 0x40, 8, 0, 0, 0xE0FFFFFF, 0, 0, 0, 2⟩,
  -- FAB.TX4.w1 (08 Table 8.4)
  ⟨0x5004, 0x40, 8, 0, 0, 0x1FFFFFF, 0, 0, 0, 2⟩,
  -- FAB.RX4.w0 (08 Table 8.4)
  ⟨0x5200, 0x40, 8, 0, 0, 0xE0FFFFFF, 0, 0, 0, 2⟩,
  -- FAB.RX4.w1 (08 Table 8.4)
  ⟨0x5204, 0x40, 8, 0, 0, 0x1FFFFFF, 0, 0, 0, 2⟩,
  -- FAB.TX5.w0 (08 Table 8.4)
  ⟨0x5400, 0x40, 8, 0, 0, 0xE0FFFFFF, 0, 0, 0, 2⟩,
  -- FAB.TX5.w1 (08 Table 8.4)
  ⟨0x5404, 0x40, 8, 0, 0, 0x1FFFFFF, 0, 0, 0, 2⟩,
  -- FAB.RX5.w0 (08 Table 8.4)
  ⟨0x5600, 0x40, 8, 0, 0, 0xE0FFFFFF, 0, 0, 0, 2⟩,
  -- FAB.RX5.w1 (08 Table 8.4)
  ⟨0x5604, 0x40, 8, 0, 0, 0x1FFFFFF, 0, 0, 0, 2⟩
  ]

/-- FAB block rows, part 1. -/
def regsFabP1 : List RegRow := [
  -- FAB.TX6.w0 (08 Table 8.4)
  ⟨0x5800, 0x40, 8, 0, 0, 0xE0FFFFFF, 0, 0, 0, 2⟩,
  -- FAB.TX6.w1 (08 Table 8.4)
  ⟨0x5804, 0x40, 8, 0, 0, 0x1FFFFFF, 0, 0, 0, 2⟩,
  -- FAB.RX6.w0 (08 Table 8.4)
  ⟨0x5A00, 0x40, 8, 0, 0, 0xE0FFFFFF, 0, 0, 0, 2⟩,
  -- FAB.RX6.w1 (08 Table 8.4)
  ⟨0x5A04, 0x40, 8, 0, 0, 0x1FFFFFF, 0, 0, 0, 2⟩,
  -- FAB.TX7.w0 (08 Table 8.4)
  ⟨0x5C00, 0x40, 8, 0, 0, 0xE0FFFFFF, 0, 0, 0, 2⟩,
  -- FAB.TX7.w1 (08 Table 8.4)
  ⟨0x5C04, 0x40, 8, 0, 0, 0x1FFFFFF, 0, 0, 0, 2⟩,
  -- FAB.RX7.w0 (08 Table 8.4)
  ⟨0x5E00, 0x40, 8, 0, 0, 0xE0FFFFFF, 0, 0, 0, 2⟩,
  -- FAB.RX7.w1 (08 Table 8.4)
  ⟨0x5E04, 0x40, 8, 0, 0, 0x1FFFFFF, 0, 0, 0, 2⟩,
  -- FAB.TX8.w0 (08 Table 8.4)
  ⟨0x6000, 0x40, 8, 0, 0, 0xE0FFFFFF, 0, 0, 0, 2⟩,
  -- FAB.TX8.w1 (08 Table 8.4)
  ⟨0x6004, 0x40, 8, 0, 0, 0x1FFFFFF, 0, 0, 0, 2⟩,
  -- FAB.RX8.w0 (08 Table 8.4)
  ⟨0x6200, 0x40, 8, 0, 0, 0xE0FFFFFF, 0, 0, 0, 2⟩,
  -- FAB.RX8.w1 (08 Table 8.4)
  ⟨0x6204, 0x40, 8, 0, 0, 0x1FFFFFF, 0, 0, 0, 2⟩,
  -- FAB.TX9.w0 (08 Table 8.4)
  ⟨0x6400, 0x40, 8, 0, 0, 0xE0FFFFFF, 0, 0, 0, 2⟩,
  -- FAB.TX9.w1 (08 Table 8.4)
  ⟨0x6404, 0x40, 8, 0, 0, 0x1FFFFFF, 0, 0, 0, 2⟩,
  -- FAB.RX9.w0 (08 Table 8.4)
  ⟨0x6600, 0x40, 8, 0, 0, 0xE0FFFFFF, 0, 0, 0, 2⟩,
  -- FAB.RX9.w1 (08 Table 8.4)
  ⟨0x6604, 0x40, 8, 0, 0, 0x1FFFFFF, 0, 0, 0, 2⟩,
  -- FAB.TX10.w0 (08 Table 8.4)
  ⟨0x6800, 0x40, 8, 0, 0, 0xE0FFFFFF, 0, 0, 0, 2⟩,
  -- FAB.TX10.w1 (08 Table 8.4)
  ⟨0x6804, 0x40, 8, 0, 0, 0x1FFFFFF, 0, 0, 0, 2⟩,
  -- FAB.RX10.w0 (08 Table 8.4)
  ⟨0x6A00, 0x40, 8, 0, 0, 0xE0FFFFFF, 0, 0, 0, 2⟩,
  -- FAB.RX10.w1 (08 Table 8.4)
  ⟨0x6A04, 0x40, 8, 0, 0, 0x1FFFFFF, 0, 0, 0, 2⟩,
  -- FAB.TX11.w0 (08 Table 8.4)
  ⟨0x6C00, 0x40, 8, 0, 0, 0xE0FFFFFF, 0, 0, 0, 2⟩,
  -- FAB.TX11.w1 (08 Table 8.4)
  ⟨0x6C04, 0x40, 8, 0, 0, 0x1FFFFFF, 0, 0, 0, 2⟩,
  -- FAB.RX11.w0 (08 Table 8.4)
  ⟨0x6E00, 0x40, 8, 0, 0, 0xE0FFFFFF, 0, 0, 0, 2⟩,
  -- FAB.RX11.w1 (08 Table 8.4)
  ⟨0x6E04, 0x40, 8, 0, 0, 0x1FFFFFF, 0, 0, 0, 2⟩,
  -- FAB.ROUTEi.XDIR (08 Table 8.15)
  ⟨0x10000, 0x1000, 0x10, 0, 0, 0xFFFFFFFF, 0, 0, 0, 2⟩,
  -- FAB.ROUTEi.YDIR (08 Table 8.15)
  ⟨0x10004, 0x1000, 0x10, 0, 0, 0xFFFFFFFF, 0, 0, 0, 2⟩,
  -- FAB.ROUTEi.ZDIR (08 Table 8.15)
  ⟨0x10008, 0x1000, 0x10, 0, 0, 0xFFFFFFFF, 0, 0, 0, 2⟩,
  -- FAB.ROUTEi.RSEL (08 section 10)
  ⟨0x1000C, 0x1000, 0x10, 0, 0, 0xC0000007, 0, 0, 0, 2⟩,
  -- COMMIT_LO (16 Table 16.3)
  ⟨0xF00, 1, 4, 0, 0, 0, 0, 0xFFFFFFFF, 0, 7⟩,
  -- COMMIT_HI (16 Table 16.3)
  ⟨0xF04, 1, 4, 0, 0, 0, 0, 0xFFFFFFFF, 0, 7⟩,
  -- COMMIT_STATUS (16 Table 16.4)
  ⟨0xF08, 1, 4, 0xF007FFFF, 0, 0, 0, 0, 0, 0⟩,
  -- COMMIT_EC (16 Table 16.3)
  ⟨0xF0C, 1, 4, 0xFFFFFFFF, 0, 0, 0, 0, 0, 0⟩
  ]

/-- The FAB block. -/
def regsFab : List RegRow := regsFabP0 ++ regsFabP1

/-- VAULT block rows. -/
def regsVault : List RegRow := [
  -- VAULT.STATUS (09 Table 9.10)
  ⟨0, 1, 4, 0xFF, 0, 0, 0, 0, 0, 0⟩,
  -- VAULT.RES_CFG (09 Table 9.11)
  ⟨4, 1, 4, 0, 0, 0xFFFFFFFC, 0, 0, 0x43E83C2C, 1⟩,
  -- VAULT.PIN_CAP (09 Table 9.9)
  ⟨8, 1, 4, 0, 0, 0xFFFFFFFF, 0, 0, 0, 2⟩,
  -- VAULT.EVENTS (09 Table 9.13)
  ⟨0xC, 1, 4, 0, 0x1FF, 0, 0, 0, 0, 3⟩,
  -- VAULT.LIB_FREE (09 Table 9.9)
  ⟨0x10, 1, 4, 0xFFFFFFFF, 0, 0, 0, 0, 0, 0⟩,
  -- VAULT.LIB_PINNED (09 Table 9.9)
  ⟨0x14, 1, 4, 0xFFFFFFFF, 0, 0, 0, 0, 0, 0⟩,
  -- VAULT.ENTRIES (09 Table 9.9)
  ⟨0x18, 1, 4, 0xFFFFFFFF, 0, 0, 0, 0, 0, 0⟩,
  -- VAULT.CORR (09 Table 9.9)
  ⟨0x1C, 1, 4, 0xFFFFFFFF, 0, 0, 0, 0, 0, 0⟩,
  -- VAULT.UNCORR (09 Table 9.9)
  ⟨0x20, 1, 4, 0xFFFFFFFF, 0, 0, 0, 0, 0, 0⟩,
  -- VAULT.LOADS (09 Table 9.9)
  ⟨0x24, 1, 4, 0xFFFFFFFF, 0, 0, 0, 0, 0, 0⟩,
  -- VAULT.LOAD_FAIL (09 Table 9.9)
  ⟨0x28, 1, 4, 0xFFFFFFFF, 0, 0, 0, 0, 0, 0⟩,
  -- VAULT.SRAM_EVICT (09 Table 9.9)
  ⟨0x2C, 1, 4, 0xFFFFFFFF, 0, 0, 0, 0, 0, 0⟩,
  -- VAULT.VAULT_EVICT (09 Table 9.9)
  ⟨0x30, 1, 4, 0xFFFFFFFF, 0, 0, 0, 0, 0, 0⟩,
  -- VAULT.LOAD_MAX (09 Table 9.9)
  ⟨0x34, 1, 4, 0xFFFFFFFF, 0, 0, 0, 0, 0, 0⟩,
  -- VAULT.STACKk (09 Table 9.12)
  ⟨0x40, 0xC, 4, 0xFFFFFF00, 0, 0, 0, 0, 0x20500000, 0⟩,
  -- COMMIT_LO (16 Table 16.3)
  ⟨0xF00, 1, 4, 0, 0, 0, 0, 0xFFFFFFFF, 0, 7⟩,
  -- COMMIT_HI (16 Table 16.3)
  ⟨0xF04, 1, 4, 0, 0, 0, 0, 0xFFFFFFFF, 0, 7⟩,
  -- COMMIT_STATUS (16 Table 16.4)
  ⟨0xF08, 1, 4, 0xF007FFFF, 0, 0, 0, 0, 0, 0⟩,
  -- COMMIT_EC (16 Table 16.3)
  ⟨0xF0C, 1, 4, 0xFFFFFFFF, 0, 0, 0, 0, 0, 0⟩
  ]

/-- CFG block rows. -/
def regsCfg : List RegRow := [
  -- CFG.ID (16 Table 16.11)
  ⟨0, 1, 4, 0xFFFFFFFF, 0, 0, 0, 0, 0x4E06C101, 0⟩,
  -- CFG.ROW_GRA (16 Table 16.10)
  ⟨4, 1, 4, 0, 0, 0, 0xFFFFFFFF, 0, 0, 0⟩,
  -- CFG.ROW_CTRL (16 Table 16.10)
  ⟨8, 1, 4, 0, 0, 0, 0, 1, 0, 0⟩,
  -- CFG.SITE_MAPn (02 Table 2.2)
  ⟨0x100, 9, 4, 0xFFFFFFFF, 0, 0, 0, 0, 0xFFFFFFFF, 0⟩,
  -- CFG.OOA_COUNT (10 Table 10.13)
  ⟨0x200, 1, 4, 0xFFFFFFFF, 0, 0, 0, 0, 0, 0⟩,
  -- CFG.OOA_FIRST (10 Table 10.13)
  ⟨0x204, 1, 4, 0xF00003FF, 0, 0, 0, 0, 0, 0⟩,
  -- CFG.OOA_GRA (10 Table 10.13)
  ⟨0x208, 1, 4, 0xFFFFFFFF, 0, 0, 0, 0, 0, 0⟩,
  -- CFG.LOAD_REFUSALS (10 Table 10.13)
  ⟨0x20C, 1, 4, 0xFFFFFFFF, 0, 0, 0, 0, 0, 0⟩,
  -- CFG.LAST_REFUSAL (10 Table 10.13)
  ⟨0x210, 1, 4, 0xFFFFFF00, 0, 0, 0, 0, 0xFF00, 0⟩,
  -- CFG.LAST_ITEM (10 Table 10.13)
  ⟨0x214, 1, 4, 0xFFFFFFFF, 0, 0, 0, 0, 0, 0⟩,
  -- CFG.CONTRACT_EVENTS (10 Table 10.16)
  ⟨0x218, 1, 4, 0, 3, 0, 0, 0, 0, 3⟩,
  -- CFG.ROW_WIN (16 Table 16.10)
  ⟨0x400, 0x80, 4, 0, 0, 0, 0xFFFFFFFF, 0, 0, 0⟩,
  -- COMMIT_LO (16 Table 16.3)
  ⟨0xF00, 1, 4, 0, 0, 0, 0, 0xFFFFFFFF, 0, 7⟩,
  -- COMMIT_HI (16 Table 16.3)
  ⟨0xF04, 1, 4, 0, 0, 0, 0, 0xFFFFFFFF, 0, 7⟩,
  -- COMMIT_STATUS (16 Table 16.4)
  ⟨0xF08, 1, 4, 0xF007FFFF, 0, 0, 0, 0, 0, 0⟩,
  -- COMMIT_EC (16 Table 16.3)
  ⟨0xF0C, 1, 4, 0xFFFFFFFF, 0, 0, 0, 0, 0, 0⟩
  ]

/-- HOLD block rows. -/
def regsHold : List RegRow := [
  -- HOLD.STATUS (11 Table 11.8)
  ⟨0, 1, 4, 0xFFFF03, 0, 0, 0, 0, 0, 0⟩,
  -- HOLD.EVENTS (11 Table 11.11)
  ⟨4, 1, 4, 0, 0xFF, 0, 0, 0, 0, 3⟩,
  -- HOLD.RAISED (11 Table 11.7)
  ⟨8, 1, 4, 0xFFFFFFFF, 0, 0, 0, 0, 0, 0⟩,
  -- HOLD.RECEIVED (11 Table 11.7)
  ⟨0xC, 1, 4, 0xFFFFFFFF, 0, 0, 0, 0, 0, 0⟩,
  -- HOLD.CANCELLED (11 Table 11.7)
  ⟨0x10, 1, 4, 0xFFFFFFFF, 0, 0, 0, 0, 0, 0⟩,
  -- HOLD.LEAD_MISSED (11 Table 11.7)
  ⟨0x14, 1, 4, 0xFFFFFFFF, 0, 0, 0, 0, 0, 0⟩,
  -- HOLD.OVER_BUDGET (11 Table 11.7)
  ⟨0x18, 1, 4, 0xFFFFFFFF, 0, 0, 0, 0, 0, 0⟩,
  -- HOLD.FENCE_DROP (11 Table 11.7)
  ⟨0x1C, 1, 4, 0xFFFFFFFF, 0, 0, 0, 0, 0, 0⟩,
  -- HOLD.CROSS_LATE (11 Table 11.7)
  ⟨0x20, 1, 4, 0xFFFFFFFF, 0, 0, 0, 0, 0, 0⟩,
  -- HOLD.LAST_RAISE (11 Table 11.7)
  ⟨0x24, 1, 4, 0xFFFFFFFF, 0, 0, 0, 0, 0, 0⟩,
  -- HOLD.STRETCHr (11 Table 11.7)
  ⟨0x80, 0x18, 4, 0xFFFFFFFF, 0, 0, 0, 0, 0, 0⟩,
  -- HOLD.SLICEn (11 Table 11.10)
  ⟨0x100, 0x48, 4, 0xC1FFFFFF, 0, 0, 0, 0, 0, 0⟩,
  -- COMMIT_LO (16 Table 16.3)
  ⟨0xF00, 1, 4, 0, 0, 0, 0, 0xFFFFFFFF, 0, 7⟩,
  -- COMMIT_HI (16 Table 16.3)
  ⟨0xF04, 1, 4, 0, 0, 0, 0, 0xFFFFFFFF, 0, 7⟩,
  -- COMMIT_STATUS (16 Table 16.4)
  ⟨0xF08, 1, 4, 0xF007FFFF, 0, 0, 0, 0, 0, 0⟩,
  -- COMMIT_EC (16 Table 16.3)
  ⟨0xF0C, 1, 4, 0xFFFFFFFF, 0, 0, 0, 0, 0, 0⟩
  ]

/-- TELLER block rows. -/
def regsTeller : List RegRow := [
  -- TELLER.STATUS (12 Table 12.14)
  ⟨0, 1, 4, 0xFFFF0F, 0, 0, 0, 0, 0, 0⟩,
  -- TELLER.CFG (12 Table 12.15)
  ⟨4, 1, 4, 0, 0, 0xFFFFFFFF, 0, 0, 0xA0A8204, 2⟩,
  -- TELLER.NET_CFG (12 Table 12.16)
  ⟨8, 1, 4, 0, 0, 0xFFFFEFFF, 0, 0, 0xC5440000, 2⟩,
  -- TELLER.ADDR_CFG (12 Table 12.17)
  ⟨0xC, 1, 4, 0, 0, 0xFFFF0003, 0, 0, 0xC0000003, 2⟩,
  -- TELLER.IPV4 (12 Table 12.13)
  ⟨0x10, 1, 4, 0, 0, 0xFFFFFFFF, 0, 0, 0, 2⟩,
  -- TELLER.LIMITS (12 Table 12.18)
  ⟨0x14, 1, 4, 0, 0, 0xFFFFFFFF, 0, 0, 0x4010103C, 2⟩,
  -- TELLER.REC_CTRL (12 Table 12.19)
  ⟨0x18, 1, 4, 0, 0, 0x8FFF0000, 0, 0, 0, 2⟩,
  -- TELLER.EVENTS (12 Table 12.21)
  ⟨0x1C, 1, 4, 0, 0xFFF, 0, 0, 0, 0, 3⟩,
  -- TELLER.PORTn (12 Table 12.20)
  ⟨0x20, 2, 4, 0xFE00FFFF, 0, 0, 0, 0, 0x38000000, 0⟩,
  -- TELLER.MAC_LO (12 Table 12.13)
  ⟨0x28, 1, 4, 0xFFFFFFFF, 0, 0, 0, 0, 0, 0⟩,
  -- TELLER.MAC_HI (12 Table 12.13)
  ⟨0x2C, 1, 4, 0xFFFF, 0, 0, 0, 0, 0, 0⟩,
  -- TELLER.IPV6_k (12 Table 12.13)
  ⟨0x30, 4, 4, 0, 0, 0xFFFFFFFF, 0, 0, 0, 2⟩,
  -- TELLER.RX_NOT_TELLER (12 Table 12.13)
  ⟨0x40, 1, 4, 0xFFFFFFFF, 0, 0, 0, 0, 0, 0⟩,
  -- TELLER.TAG_FAIL (12 Table 12.13)
  ⟨0x44, 1, 4, 0xFFFFFFFF, 0, 0, 0, 0, 0, 0⟩,
  -- TELLER.NO_SESSION (12 Table 12.13)
  ⟨0x48, 1, 4, 0xFFFFFFFF, 0, 0, 0, 0, 0, 0⟩,
  -- TELLER.OUT_OF_WINDOW (12 Table 12.13)
  ⟨0x4C, 1, 4, 0xFFFFFFFF, 0, 0, 0, 0, 0, 0⟩,
  -- TELLER.VIOLATIONS (12 Table 12.13)
  ⟨0x50, 1, 4, 0xFFFFFFFF, 0, 0, 0, 0, 0, 0⟩,
  -- TELLER.SESSIONS_CLOSED (12 Table 12.13)
  ⟨0x54, 1, 4, 0xFFFFFFFF, 0, 0, 0, 0, 0, 0⟩,
  -- TELLER.QUARANTINES (12 Table 12.13)
  ⟨0x58, 1, 4, 0xFFFFFFFF, 0, 0, 0, 0, 0, 0⟩,
  -- TELLER.SHARD_LATE (12 Table 12.13)
  ⟨0x5C, 1, 4, 0xFFFFFFFF, 0, 0, 0, 0, 0, 0⟩,
  -- TELLER.SHARD_EARLY (12 Table 12.13)
  ⟨0x60, 1, 4, 0xFFFFFFFF, 0, 0, 0, 0, 0, 0⟩,
  -- TELLER.SHARD_CRC (12 Table 12.13)
  ⟨0x64, 1, 4, 0xFFFFFFFF, 0, 0, 0, 0, 0, 0⟩,
  -- TELLER.SHARD_ABSENT (12 Table 12.13)
  ⟨0x68, 1, 4, 0xFFFFFFFF, 0, 0, 0, 0, 0, 0⟩,
  -- TELLER.EGRESS_DROP (12 Table 12.13)
  ⟨0x6C, 1, 4, 0xFFFFFFFF, 0, 0, 0, 0, 0, 0⟩,
  -- TELLER.LEDGER_DROP (12 Table 12.13)
  ⟨0x70, 1, 4, 0xFFFFFFFF, 0, 0, 0, 0, 0, 0⟩,
  -- TELLER.EVENT_LOST (12 Table 12.13)
  ⟨0x74, 1, 4, 0xFFFFFFFF, 0, 0, 0, 0, 0, 0⟩,
  -- TELLER.ERR_SUPPRESSED (12 Table 12.13)
  ⟨0x78, 1, 4, 0xFFFFFFFF, 0, 0, 0, 0, 0, 0⟩,
  -- TELLER.DEPOSIT_CRC (12 Table 12.13)
  ⟨0x7C, 1, 4, 0xFFFFFFFF, 0, 0, 0, 0, 0, 0⟩,
  -- TELLER.RETRANSMITS (12 Table 12.13)
  ⟨0x80, 1, 4, 0xFFFFFFFF, 0, 0, 0, 0, 0, 0⟩,
  -- COMMIT_LO (16 Table 16.3)
  ⟨0xF00, 1, 4, 0, 0, 0, 0, 0xFFFFFFFF, 0, 7⟩,
  -- COMMIT_HI (16 Table 16.3)
  ⟨0xF04, 1, 4, 0, 0, 0, 0, 0xFFFFFFFF, 0, 7⟩,
  -- COMMIT_STATUS (16 Table 16.4)
  ⟨0xF08, 1, 4, 0xF007FFFF, 0, 0, 0, 0, 0, 0⟩,
  -- COMMIT_EC (16 Table 16.3)
  ⟨0xF0C, 1, 4, 0xFFFFFFFF, 0, 0, 0, 0, 0, 0⟩
  ]

/-- PWR block rows. -/
def regsPwr : List RegRow := [
  -- PWR.STATUS (13 Table 13.9)
  ⟨0, 1, 4, 0x3FFC, 0, 0, 0, 0, 0x980, 0⟩,
  -- PWR.CAP (13 Table 13.10)
  ⟨4, 1, 4, 0, 0, 0xDFFFFFC0, 0, 0, 0x86A45FC0, 2⟩,
  -- PWR.REQ (13 Table 13.11)
  ⟨8, 1, 4, 0, 0, 0xFC000000, 0, 0, 0xAC000000, 1⟩,
  -- PWR.LOOP (13 Table 13.12)
  ⟨0xC, 1, 4, 0, 0, 0xFFFFFFFF, 0, 0, 0xA0A1064, 2⟩,
  -- PWR.EVENTS (13 Table 13.13)
  ⟨0x10, 1, 4, 0, 0xFF, 0, 0, 0, 0, 3⟩,
  -- PWR.IN_POWER (13 Table 13.8)
  ⟨0x14, 1, 4, 0xFFFFFFFF, 0, 0, 0, 0, 0, 0⟩,
  -- PWR.IN_VOLT (13 Table 13.8)
  ⟨0x18, 1, 4, 0xFFFFFFFF, 0, 0, 0, 0, 0, 0⟩,
  -- PWR.ENERGY_LO (13 Table 13.8)
  ⟨0x1C, 1, 4, 0xFFFFFFFF, 0, 0, 0, 0, 0, 0⟩,
  -- PWR.ENERGY_HI (13 Table 13.8)
  ⟨0x20, 1, 4, 0xFFFFFFFF, 0, 0, 0, 0, 0, 0⟩,
  -- PWR.NEXT_STEP_LO (13 Table 13.8)
  ⟨0x24, 1, 4, 0xFFFFFFFF, 0, 0, 0, 0, 0, 0⟩,
  -- PWR.NEXT_STEP_HI (13 Table 13.8)
  ⟨0x28, 1, 4, 0xFFFFFFFF, 0, 0, 0, 0, 0, 0⟩,
  -- PWR.STEPS (13 Table 13.8)
  ⟨0x2C, 1, 4, 0xFFFFFFFF, 0, 0, 0, 0, 0, 0⟩,
  -- PWR.TEMPk (13 Table 13.8)
  ⟨0x30, 6, 4, 0xFFFFFFFF, 0, 0, 0, 0, 0, 0⟩,
  -- PWR.T_MAX (13 Table 13.8)
  ⟨0x48, 1, 4, 0xFF1FFF, 0, 0, 0, 0, 0, 0⟩,
  -- PWR.THROTTLE_MS (13 Table 13.8)
  ⟨0x4C, 1, 4, 0xFFFFFFFF, 0, 0, 0, 0, 0, 0⟩,
  -- COMMIT_LO (16 Table 16.3)
  ⟨0xF00, 1, 4, 0, 0, 0, 0, 0xFFFFFFFF, 0, 7⟩,
  -- COMMIT_HI (16 Table 16.3)
  ⟨0xF04, 1, 4, 0, 0, 0, 0, 0xFFFFFFFF, 0, 7⟩,
  -- COMMIT_STATUS (16 Table 16.4)
  ⟨0xF08, 1, 4, 0xF007FFFF, 0, 0, 0, 0, 0, 0⟩,
  -- COMMIT_EC (16 Table 16.3)
  ⟨0xF0C, 1, 4, 0xFFFFFFFF, 0, 0, 0, 0, 0, 0⟩
  ]

/-- HEALTH block rows. -/
def regsHealth : List RegRow := [
  -- HEALTH.STATUS (14 Table 14.9)
  ⟨0, 1, 4, 0x73C, 0, 0, 0, 0, 0x700, 0⟩,
  -- HEALTH.CFG (14 Table 14.10)
  ⟨4, 1, 4, 0, 0, 0xFFFFFFFF, 0, 0, 0x3C081032, 2⟩,
  -- HEALTH.TRACE (14 Table 14.11)
  ⟨8, 1, 4, 0, 0, 0x8FFF0FFF, 0, 0, 0, 1⟩,
  -- HEALTH.EVENTS (14 Table 14.13)
  ⟨0xC, 1, 4, 0, 0xFFF, 0, 0, 0, 0, 3⟩,
  -- HEALTH.PENDING (14 Table 14.12)
  ⟨0x10, 1, 4, 0xFFFFFF00, 0, 0, 0, 0, 0, 0⟩,
  -- HEALTH.SRAM_CORR (14 Table 14.8)
  ⟨0x14, 1, 4, 0xFFFFFFFF, 0, 0, 0, 0, 0, 0⟩,
  -- HEALTH.SRAM_UNCORR (14 Table 14.8)
  ⟨0x18, 1, 4, 0xFFFFFFFF, 0, 0, 0, 0, 0, 0⟩,
  -- HEALTH.ROWS_RETIRED (14 Table 14.8)
  ⟨0x1C, 1, 4, 0xFFFFFFFF, 0, 0, 0, 0, 0, 0⟩,
  -- HEALTH.SITES_RETIRED (14 Table 14.8)
  ⟨0x20, 1, 4, 0xFFFFFFFF, 0, 0, 0, 0, 0, 0⟩,
  -- HEALTH.WITHDRAWN (14 Table 14.8)
  ⟨0x24, 1, 4, 0xFFFFFFFF, 0, 0, 0, 0, 0, 0⟩,
  -- HEALTH.REPAIRS (14 Table 14.8)
  ⟨0x28, 1, 4, 0xFFFFFFFF, 0, 0, 0, 0, 0, 0⟩,
  -- HEALTH.RELAUNCHES (14 Table 14.8)
  ⟨0x2C, 1, 4, 0xFFFFFFFF, 0, 0, 0, 0, 0, 0⟩,
  -- HEALTH.REPAIR_MAX (14 Table 14.8)
  ⟨0x30, 1, 4, 0xFFFFFFFF, 0, 0, 0, 0, 0, 0⟩,
  -- HEALTH.REPAIR_MS (14 Table 14.8)
  ⟨0x34, 1, 4, 0xFFFFFFFF, 0, 0, 0, 0, 0, 0⟩,
  -- HEALTH.PHASES_LOST (14 Table 14.8)
  ⟨0x38, 1, 4, 0xFFFFFFFF, 0, 0, 0, 0, 0, 0⟩,
  -- HEALTH.AGEr (14 Table 14.8)
  ⟨0x40, 0x18, 4, 0xFFFF, 0, 0, 0, 0, 0, 0⟩,
  -- COMMIT_LO (16 Table 16.3)
  ⟨0xF00, 1, 4, 0, 0, 0, 0, 0xFFFFFFFF, 0, 7⟩,
  -- COMMIT_HI (16 Table 16.3)
  ⟨0xF04, 1, 4, 0, 0, 0, 0, 0xFFFFFFFF, 0, 7⟩,
  -- COMMIT_STATUS (16 Table 16.4)
  ⟨0xF08, 1, 4, 0xF007FFFF, 0, 0, 0, 0, 0, 0⟩,
  -- COMMIT_EC (16 Table 16.3)
  ⟨0xF0C, 1, 4, 0xFFFFFFFF, 0, 0, 0, 0, 0, 0⟩
  ]

/-- SEC block rows. -/
def regsSec : List RegRow := [
  -- SEC.STATUS (15 Table 15.14)
  ⟨0, 1, 4, 0xFFFF0000, 0, 0, 0, 0, 0, 0⟩,
  -- SEC.CTRL (15 Table 15.15)
  ⟨4, 1, 4, 0, 0, 0xC0000000, 0, 0, 0, 2⟩,
  -- SEC.STAGE_CTRL (15 Table 15.16)
  ⟨8, 1, 4, 0, 0, 0xF8000000, 0, 0, 0, 6⟩,
  -- SEC.STAGE_ADDR (15 Table 15.13)
  ⟨0xC, 1, 4, 0, 0, 0, 0xFFFFFFFF, 0, 0, 6⟩,
  -- SEC.STAGE_STATUS (15 Table 15.17)
  ⟨0x10, 1, 4, 0xC000FFFF, 0, 0, 0, 0, 0, 0⟩,
  -- SEC.EVENTS (15 Table 15.18)
  ⟨0x14, 1, 4, 0, 0xFF, 0, 0, 0, 0, 3⟩,
  -- SEC.REPAIR_REQ (15 Table 15.13)
  ⟨0x18, 1, 4, 0, 0, 0, 0, 0xFFFFFFFF, 0, 4⟩,
  -- SEC.LEDGER_IDX (15 Table 15.13)
  ⟨0x1C, 1, 4, 0, 0, 0, 0xFFFFFFFF, 0, 0, 7⟩,
  -- SEC.LEDGER_SEQ_LO (15 Table 15.13)
  ⟨0x20, 1, 4, 0xFFFFFFFF, 0, 0, 0, 0, 0, 0⟩,
  -- SEC.LEDGER_SEQ_HI (15 Table 15.13)
  ⟨0x24, 1, 4, 0xFFFFFFFF, 0, 0, 0, 0, 0, 0⟩,
  -- SEC.FW_VERSION (15 Table 15.13)
  ⟨0x28, 1, 4, 0xFFFFFFFF, 0, 0, 0, 0, 0, 0⟩,
  -- SEC.SVN (15 Table 15.13)
  ⟨0x2C, 1, 4, 0xFFFFFFFF, 0, 0, 0, 0, 0, 0⟩,
  -- SEC.REFUSED (15 Table 15.13)
  ⟨0x30, 1, 4, 0xFFFFFFFF, 0, 0, 0, 0, 0, 0⟩,
  -- SEC.SERIALk (15 Table 15.13)
  ⟨0x100, 4, 4, 0xFFFFFFFF, 0, 0, 0, 0, 0, 0⟩,
  -- SEC.ATT_NONCEk (15 Table 15.13)
  ⟨0x200, 0xC, 4, 0, 0, 0, 0, 0xFFFFFFFF, 0, 7⟩,
  -- SEC.ATT_WIN (15 Table 15.13)
  ⟨0x400, 0x80, 4, 0xFFFFFFFF, 0, 0, 0, 0, 0, 0⟩,
  -- SEC.LEDGER_WIN (15 Table 15.13)
  ⟨0x800, 0x40, 4, 0xFFFFFFFF, 0, 0, 0, 0, 0, 0⟩,
  -- SEC.STAGE_WIN (15 Table 15.13)
  ⟨0x1000, 0x100, 4, 0, 0, 0, 0, 0xFFFFFFFF, 0, 6⟩,
  -- SEC.DBG_CHAL (15 Table 15.13)
  ⟨0x2000, 0x10, 4, 0xFFFFFFFF, 0, 0, 0, 0, 0, 0⟩,
  -- SEC.DBG_RESP (15 Table 15.13)
  ⟨0x2100, 0x1C, 4, 0, 0, 0, 0, 0xFFFFFFFF, 0, 4⟩,
  -- COMMIT_LO (16 Table 16.3)
  ⟨0xF00, 1, 4, 0, 0, 0, 0, 0xFFFFFFFF, 0, 7⟩,
  -- COMMIT_HI (16 Table 16.3)
  ⟨0xF04, 1, 4, 0, 0, 0, 0, 0xFFFFFFFF, 0, 7⟩,
  -- COMMIT_STATUS (16 Table 16.4)
  ⟨0xF08, 1, 4, 0xF007FFFF, 0, 0, 0, 0, 0, 0⟩,
  -- COMMIT_EC (16 Table 16.3)
  ⟨0xF0C, 1, 4, 0xFFFFFFFF, 0, 0, 0, 0, 0, 0⟩
  ]

/-- The field map of a block; other numbers name no block (16 R475). -/
def blockRegs (b : Nat) : List RegRow :=
  match b with
  | 1 => regsEpoch
  | 2 => regsClk
  | 7 => regsMesh
  | 8 => regsFab
  | 9 => regsVault
  | 10 => regsCfg
  | 11 => regsHold
  | 12 => regsTeller
  | 13 => regsPwr
  | 14 => regsHealth
  | 15 => regsSec
  | _ => []

/-- Whether an offset lies in a row. -/
def RegRow.has (r : RegRow) (off : Nat) : Bool :=
  decide (r.off ≤ off) && decide ((off - r.off) % r.stride = 0) && decide ((off - r.off) / r.stride < r.count)

/-- The row of a register, none where the offset names no register (16 R476). -/
def regRow (b off : Nat) : Option RegRow := (blockRegs b).find? (fun r => r.has off)

/-- The management address of a register (16 R475). -/
def regAddr (b off : Nat) : Nat := b * 0x40000 + off

/-- The reset value at a management address. -/
def regReset (a : Nat) : BitVec 32 :=
  match regRow (a / 0x40000) (a % 0x40000) with
  | some r => BitVec.ofNat 32 r.reset
  | none => 0

/-- A field of a register: its management address and bits [hi:lo]. -/
structure Fld where
  addr : Nat
  hi : Nat
  lo : Nat
  deriving DecidableEq, Repr

end Sys2Proof.Machine
end

