-- ==== Sys2Proof/Machine/SliceTypes.lean ====
section
/-! DEFINITION. The decoded folio (10 section 1) and the state of a slice on this device (01, 10, 11). -/

namespace Sys2Proof.Machine

/-- A CORE record (10 Table 10.5). -/
structure CoreRec where
  core : Nat := 0
  first : Nat := 0
  last : Nat := 0
  codeRows : Nat := 0
  codeRow : Nat := 0
  stateRow : Nat := 0
  sInit : List Nat := []
  resv : Nat := 0
  deriving DecidableEq, Repr

/-- A NET record (10 Table 10.6). -/
inductive NetRec where
  | resv (load : Bool) (net cl port chan offset period len : Nat)
  | chan (net chan src dst credit : Nat)
  | flow (net src dst qx : Nat)
  | sum (cl rtag mask out fmt : Nat)
  | tree (cl tree out leaf : Nat) (rings : List Nat)
  | bad
  deriving DecidableEq, Repr

/-- A SLOTS record (10 Table 10.7). -/
inductive SlotRec where
  | demand (port net kind slots : Nat)
  | transit (dev pin pout net : Nat)
  | bad
  deriving DecidableEq, Repr

/-- A SEQMAP record (10 Table 10.7). -/
inductive SeqRec where
  | coreSeq (core mask : Nat)
  | pull (seq stream core ring gate : Nat)
  | push (seq stream core ring gate : Nat)
  | bad
  deriving DecidableEq, Repr

/-- An ENTRIES record (10 Table 10.7). -/
structure EntryRec where
  key : Nat
  digest : BitVec 384
  rows : Nat
  resv : Nat
  deriving DecidableEq, Repr

/-- A mover descriptor of the load plan (09 Table 9.4). -/
structure MoverDesc where
  raw : BitVec 256
  deriving DecidableEq, Repr

/-- A CHAINS record (10 Table 10.7). -/
structure ChainRec where
  ctab : Nat
  hop : Nat
  core : Nat
  chan : Nat
  resv : Nat
  deriving DecidableEq, Repr

/-- A decoded folio (10 Table 10.1 and its sections). -/
structure Folio where
  flags : Nat := 0
  total : Nat := 0
  sigOff : Nat := 0
  setId : Nat := 0
  device : Nat := 0
  devCount : Nat := 1
  holdHops : Nat := 0
  rated : Nat := 0
  log2G : Nat := 9
  holdLead : Nat := 1
  overlapD : Nat := 1
  slotK : Nat := 0
  sSchuss : Nat := 0
  sCarve : Nat := 0
  sGlide : Nat := 0
  f : Nat := 1
  period : Nat := 0
  e : Nat := 1
  sequences : Nat := 1
  srSeed : Nat := 0
  satThr : Nat := 0
  clusters : List Nat := []
  cores : List CoreRec := []
  nets : List NetRec := []
  slots : List SlotRec := []
  semas : List Nat := []
  seqmap : List SeqRec := []
  entries : List EntryRec := []
  plan : List MoverDesc := []
  chains : List ChainRec := []
  deriving DecidableEq, Repr

/-- A frame in flight and its ledger words (01 R43, R48, Table 1.10). -/
structure FrameFl where
  n : Nat
  firstGate : Nat
  lastGate : Nat
  flags : List Nat
  heldNum : Nat
  heldDen : Nat
  deriving DecidableEq, Repr

/-- A raise known for a slice (11 R358, R359). -/
structure Raise where
  origin : Nat
  holdId : Nat
  /-- The cause of the raise word, and the causes that are open. -/
  cause : Nat
  causes : List Nat
  raiseEc : Nat
  /-- The held gate, and for a missed lead the difference of the two due ECs (R360). -/
  gate : Nat
  extra : Nat := 0
  /-- The resume EC and its send EC, once known. -/
  resume : Option Nat := none
  sendEc : Option Nat := none
  /-- The EC at which the causes of an own raise cleared (R359). -/
  clearEc : Nat := 0
  sent : Bool := false
  /-- Raised by this device. -/
  own : Bool
  deriving DecidableEq, Repr

end Sys2Proof.Machine
end

