-- ==== Sys2Proof/Machine/DevTypes.lean ====
section
/-! DEFINITION. The state of the device outside its cores and its row memory: time, network, fabric, slices, vault,
Teller, power, health, security and pins. -/

namespace Sys2Proof.Machine

/-- A Delay_Req that the client has sent: its sequence, the host port, and how it travels (01 R23; 12 R380). -/
structure PtpReq where
  seq : Nat
  hp : Nat
  via : PtpVia
  deriving DecidableEq, Repr

/-- A PTP exchange in progress: the times known so far, in ticks, and the Delay_Req sent (01 R23). -/
structure PtpRun where
  seq : Nat := 0
  t1 : Option Nat := none
  t2 : Option Nat := none
  req : Option PtpReq := none
  deriving DecidableEq, Repr

/-- EC and its discipline (01). Registers of the EPOCH block hold what the host can read. -/
structure TimeSt where
  ec : DWord := 0
  /-- Ticks elapsed since the cold reset; never set, it times the device's own timers (log entry 6). -/
  ticks : Nat := 0
  /-- The tick from which REFA has been valid (R15). -/
  refASince : Nat := 0
  /-- Whether the first lock to the time source has stepped EC, and whether that step waits (R27, R28). -/
  stepDone : Bool := false
  stepWaits : Bool := false
  /-- The last measured offset and its tick (R31). -/
  measured : Option Int := none
  measTick : Nat := 0
  /-- The PTP exchange, and steering frozen by a failover until a valid exchange (R23). -/
  ptp : PtpRun := {}
  ptpOffset : Option Int := none
  ptpFrozen : Bool := false
  /-- The sequence of the next Delay_Req. -/
  ptpSeq : Nat := 0
  /-- The tick from which the absence of PPS_IN counts, the tick of the last edge used, its offset, and its absence reported
  (17 R499, Table 1.8). -/
  ppsTick : Nat := 0
  ppsUsed : Option Nat := none
  ppsOffset : Option Int := none
  ppsMissed : Bool := false
  deriving DecidableEq, Repr

/-- An armed commit: its block, role, target EC, and its copy of the shadow (16 R481). -/
structure Armed where
  block : Nat
  role : Nat
  target : Nat
  shadow : List (Nat × Word)
  actor : BitVec 128
  /-- It runs in this tick, after a set with the same target (01 R30). -/
  due : Bool := false
  /-- A SEC commit whose target EC is less than 2 s after its receipt (15 Table 15.19). -/
  early : Bool := false
  deriving DecidableEq, Repr

/-- The management path's own state (16): the shadows, as (role, address, value); the armed commits. -/
structure MgmtSt where
  shadow : List (Nat × Nat × Word) := []
  armed : List Armed := []
  deriving DecidableEq, Repr

/-- Contributions held for one sum at one router (07 R252). -/
structure SumBuf where
  cl : Nat
  slice : Nat
  rtag : Nat
  parts : List (Nat × Packet)
  deriving DecidableEq, Repr

/-- A multicast copy held at a branch router: the router's cluster, the leaf core and its ring, and the packet (07 R258). -/
structure HeldCopy where
  cl : Nat
  /-- The branch router's output towards the leaf (4 for a leaf of its own). -/
  port : Nat
  core : Nat
  ring : Nat
  pkt : Packet
  deriving DecidableEq, Repr

/-- A packet of a sum or multicast tree between two routers, or stalled at one: the router it comes to and the input; the nearest
branch router that it has passed, with its output; leaves already served or held for; and the router whose tree input it stalls
(07 R252, R257–R259). -/
structure TreeHop where
  cl : Nat
  inPort : Nat
  pkt : Packet
  branch : Option (Nat × Nat) := none
  took : List Nat := []
  stalls : Option Nat := none
  deriving DecidableEq, Repr

/-- Contributors of a combined packet: the lead's header, and the headers of the others (07 R255). -/
structure SumLink where
  lead : Flit
  others : List Flit
  deriving DecidableEq, Repr

/-- A multicast packet whose copies have not all acknowledged: copies left, and the largest STATUS so far (07 R261). -/
structure McastAck where
  hdr : Flit
  left : Nat
  worst : Nat
  deriving DecidableEq, Repr

/-- The on-die network (07). -/
structure NetSt where
  /-- Packets on the mesh, on either network, oldest first. -/
  flight : List Packet := []
  /-- Packets of trees past their first router, oldest first. -/
  hops : List TreeHop := []
  /-- Express flits used in the window at an edge stop: (stop, slice, network, flits); arrivals that wait there, with their stop
  (07 R236). -/
  stopUsed : List (Nat × Nat × Nat × Nat) := []
  atStop : List (Nat × Packet) := []
  /-- The failed routers that the express route tables in force go round, and the tick at which a rewrite is complete (07 R248). -/
  around : List Nat := []
  rewriteAt : Option Nat := none
  /-- Request headers whose read reply waits for credit and whose flits have been counted (07 R234). -/
  replyHeld : List Flit := []
  sums : List SumBuf := []
  held : List HeldCopy := []
  links : List SumLink := []
  mcast : List McastAck := []
  deriving DecidableEq, Repr

/-- A frame sent on a port and not yet acknowledged, with the absolute slots of its lead and its tail (08 R280, R282). -/
structure SentFrame where
  fr : Frame
  first : Nat
  last : Nat
  /-- It comes from this device's mesh (R279); it is being resent (R277, R283). -/
  own : Bool := false
  again : Bool := false
  deriving DecidableEq, Repr

/-- A frame received and not yet presented: its presentation slot, and whether a hold was raised at its NAK (08 R283;
11 R362). -/
structure RxFrame where
  fr : Frame
  slot : Nat
  late : Bool
  deriving DecidableEq, Repr

/-- One fabric port (08). Its state and lane fields are in FAB.PORTn. -/
structure PortSt where
  signal : Bool := false
  /-- Successive failed trainings, the tick at which the state was entered, and a retry after 1 s (R271). -/
  fails : Nat := 0
  since : Nat := 0
  retry : Bool := false
  /-- The tick of the last valid control flit (R273). -/
  lastCtrl : Nat := 0
  /-- Control words waiting for control slots, and the words of the last control flit sent (R281). -/
  ctrlQ : List CtrlWord := []
  ctrlSent : List CtrlWord := []
  /-- The last control flit sent, with its CRC (R281). -/
  ctrlOut : Flit := 0
  /-- Receive time of the peer's last time word in units of 2^-16 ns, its hop count, and the measured offset in the same
  units (R285; 01 R24, R25). -/
  rxTime : Nat := 0
  hops : Nat := 0
  timeTick : Nat := 0
  timeOk : Bool := false
  offset : Option Int := none
  /-- The measured one-way latency, in the same units (R272, R285). -/
  latency : Option Int := none
  /-- The detected polarity of each physical lane; whether DISCOVER has been reached since boot (R269, R290). -/
  polarity : BitVec 9 := 0
  reached : Bool := false
  /-- An agreed lane switch: the lane to retire and the wheel of the switch (R270). -/
  laneSwitch : Option (Nat × Nat) := none
  /-- Next LSEQ to send and next expected, and next free slot, per key (R282, R284). -/
  txSeq : List (Nat × Nat) := []
  rxSeq : List (Nat × Nat) := []
  nextSlot : List (Nat × Nat) := []
  replay : List SentFrame := []
  rx : List RxFrame := []
  /-- Frames whose NAK raised a replay hold: key and LSEQ (11 R362). -/
  nakHeld : List (Nat × Nat) := []
  /-- Open credits held, and owed: request set 0, request set 1, reply set 0, reply set 1 (R278). -/
  credits : List (Nat × Nat) := []
  owed : List (Nat × Nat) := []
  /-- Whether discovery matched the tables, and whether it has done so since the cold reset (R290, R303). -/
  matched : Bool := false
  everMatched : Bool := false
  rediscover : Bool := false
  /-- The discovery words last sent in the management class on a port that is UP (R289; Table 8.5). -/
  discOut : List CtrlWord := []
  nbrSerial : BitVec 128 := 0
  missing : Bool := false
  deriving DecidableEq, Repr

/-- A frame that waits at a ring stop for an output: the arrival port, or 12 for the mesh, and the slot at which it becomes
eligible (08 R284). -/
structure WaitFrame where
  inPort : Nat
  slot : Nat
  fr : Frame
  /-- Its direction on the edge ring, clockwise or not, once it has gone to its output's stop (07 R264). -/
  way : Option Bool := none
  deriving DecidableEq, Repr

/-- An atomic add that waits in the open buffer of its port: the port, the network and buffer set of its credit (2 × network + set), its
flits, and the packet (08 R278). -/
structure AddWait where
  port : Nat
  set : Nat
  flits : Nat
  pkt : Packet
  deriving DecidableEq, Repr

/-- A neighbour of the fabric plan (08 R288). -/
structure PlanPort where
  coord : Nat
  port : Nat
  serial : BitVec 128
  deriving DecidableEq, Repr

/-- An open hold of this device on a slice that only transits it: the cause of the raise word, and the causes that are open (08 R301; 11
R357). -/
structure TransitHold where
  slice : Nat
  cause : Nat
  causes : List Nat
  deriving DecidableEq, Repr

/-- The chip fabric (08). -/
structure FabSt where
  /-- Packets that left the mesh for another device, with the slot of their frame's eligibility, oldest first. -/
  out : List (Nat × Packet) := []
  ports : List (Nat × PortSt) := []
  wait : List WaitFrame := []
  adds : List AddWait := []
  /-- Hold words already forwarded: ORIGIN, SLICE, HOLD_ID (R286), and this device's next HOLD_ID. -/
  seen : List (Nat × Nat × Nat) := []
  holdId : Nat := 0
  /-- The plan in force (R288). -/
  planId : BitVec 128 := 0
  plan : List (Nat × PlanPort) := []
  /-- Generations held and left, with the tick at which each was left, per cluster, and bumps that wait (R296). -/
  genPast : List (Nat × Nat × Nat) := []
  genWait : List Nat := []
  /-- Slot slacks of slices that only transit this device, as their launch exchange gave them (R283, R299). -/
  transitK : List (Nat × Nat) := []
  /-- Its open holds on slices that only transit this device (R301). -/
  transitHolds : List TransitHold := []
  deriving DecidableEq, Repr

/-- A pull point of a slice as it runs (12 R392, R393). -/
structure PullRun where
  stream : Nat
  seq : Nat
  core : Nat
  ring : Nat
  gate : Nat
  /-- The next iteration whose shard is to be decided, the next frame whose slot is to be published, frames whose slots are
  written or passed over ahead of it, zero slots decided and not yet published with their gates, a frame held for with the
  EC of its cap, and skipped frames whose slots are released when HEAD comes to them. -/
  iter : Nat := 0
  publish : Nat := 0
  ready : List Nat := []
  zeros : List (Nat × Nat) := []
  hold : Option (Nat × Nat) := none
  skip : List Nat := []
  /-- The frame whose shard is on its way to its slot, and the rows granted so far (R392). -/
  going : Option (Nat × Nat) := none
  deriving DecidableEq, Repr

/-- A slice on this device (01, 10, 11). -/
structure Slice where
  id : Nat := 0
  fo : Folio := {}
  /-- Launched in the sense of 01 R29, and past gate 0's release of its cores. -/
  launched : Bool := false
  /-- Its cores run their programs. -/
  running : Bool := false
  launchEc : Nat := 0
  /-- The next gate to pass; its due EC by R355 before any hold; the due ECs of the gates passed, newest first. -/
  gate : Nat := 0
  due : Nat := 0
  dues : List Nat := []
  /-- The first spacing s0 of the interval, and the steps taken since the due EC that began it: EC, mode before, mode after
  (R355). -/
  s0 : Nat := 0
  modes : List (Nat × Nat × Nat) := []
  arrived : List Nat := []
  barrier : Bool := false
  /-- The due EC of the next gate has been reached; the due EC for which a late-gate hold was raised. -/
  dueSeen : Bool := false
  lateAt : Option Nat := none
  raises : List Raise := []
  /-- A repair of the slice on another device is a relaunch repair, as that device has said (14 R433, R435). -/
  peerRelaunch : Bool := false
  /-- Raises that concern gate 0 of the next launch, before that launch is armed here (01 R37). -/
  early : List Raise := []
  /-- Stretches in the current interval (R365), and the last hold's shift in units of S. -/
  stretches : Nat := 0
  lastSpan : Nat := 0
  frames : List FrameFl := []
  /-- Frames skipped so far (01 R40). -/
  kSkip : Nat := 0
  /-- Skip threshold T (01 R42). -/
  skipT : Nat := 0
  /-- Missing-shard policy: 0 zeros, 1 hold (12 Table 12.7). -/
  policy : Nat := 0
  /-- The accepted start whose T and POLICY the next launch takes, and whose variants are chosen among where its relaunch becomes a load
  (09 R323; 12 R388). -/
  start : Option StartReq := none
  /-- The last load of the slice ran a second time (09 R331). -/
  reloaded : Bool := false
  /-- The folio key held in SRAM, 0 for none; the requests that wait for the stop, and for the kill: session and SEQ. -/
  key : Nat := 0
  stopReq : List (Nat × Nat) := []
  /-- A stop at the next frame boundary, with what follows it: 0 stop, 1 relaunch, 2 load, 3 eviction. -/
  stopping : Option Nat := none
  /-- The frame boundary of that stop has come: no further frame begins. -/
  boundary : Bool := false
  /-- The EC at which a kill takes effect. -/
  killAt : Option Nat := none
  killReq : List (Nat × Nat) := []
  /-- A relaunch or launch that waits for its EC: the launch EC (09 R323). -/
  launchAt : Option Nat := none
  /-- Frames whose words went out (01 R47). -/
  framesDone : List Nat := []
  /-- Input bits decided before their frame began: frame, sequence, bit (12 R393). -/
  premarks : List (Nat × Nat × Nat) := []
  pulls : List PullRun := []
  /-- The last close of an ingress stream, or launch (09 R324). -/
  idleSince : Nat := 0
  /-- Results read from each push ring, core × 32 + ring, and the rows read of the slot in progress (12 R394). -/
  pushed : List (Nat × Nat) := []
  pushRows : List (Nat × Nat) := []
  /-- Frames that were not skipped, in order, per launch (12 R394). -/
  unskipped : List Nat := []
  /-- The sequences fed from a recording in this launch, one bit each (12 R401). -/
  replayMask : Nat := 0
  /-- The slice's generation on each device of the slice (08 R296). -/
  gens : List (Nat × Nat) := []
  /-- Rows of inbound buffer in use: (network, channel, rows) (07 R234). -/
  chanUsed : List (Nat × Nat × Nat) := []
  /-- Rows granted whose credit has not returned to the sender yet: (network, channel, rows). -/
  chanOwed : List (Nat × Nat × Nat) := []
  deriving DecidableEq, Repr

/-- A part of a library entry: stack, first library row, rows (09 Table 9.1), and the lost channels whose rows it passes over (R314). -/
structure Part where
  stack : Nat
  first : Nat
  rows : Nat
  past : List Nat := []
  deriving DecidableEq, Repr

/-- The state of a library entry (09 R307). -/
inductive EntryState where
  | arriving | stored | suspect
  deriving DecidableEq, Repr

/-- The part of one device of a pipelined deposit: its coordinate, its rows and their digest (09 R334; 12 Table 12.6). -/
structure PipePart where
  coord : Nat
  rows : Nat
  digest : BitVec 384
  deriving DecidableEq, Repr

/-- A message of a pipelined deposit to the next device of its list, in the fabric's open class: the entry's KIND, STACK, devices left and
KEY; devices from one on; data; the commit, or the code with which an earlier device refused it (09 R334). -/
inductive PipeMsg where
  | begin (folio : Bool) (stack : Option Nat) (devices key : Nat)
  | pipe (key first : Nat) (recs : List PipePart)
  | data (key offset crc : Nat) (data : List Byte)
  | commit (key code : Nat)
  deriving DecidableEq, Repr

/-- A library entry (09 Table 9.1) with its rows; a row that nothing has written is zero (R332). -/
structure Entry where
  key : Nat
  index : Nat
  folio : Bool
  state : EntryState
  pin : Bool := false
  parts : List Part
  rows : Nat
  digest : BitVec 384
  use : Nat := 0
  lastUse : Nat := 0
  /-- Frames completed by slices using the folio since the last update of U (R335). -/
  fresh : Nat := 0
  /-- Whether an open BEGIN stands on it. -/
  depositing : Bool := false
  data : List (Nat × RowData) := []
  /-- Rows whose block the device code cannot correct (R313). -/
  bad : List Nat := []
  /-- The stack that its BEGIN names (R308). -/
  stack : Option Nat := none
  /-- The pipeline's devices by their place in the list, which this device begins, and how many there are (R334). -/
  pipe : List (Nat × PipePart) := []
  pipeLen : Nat := 0
  /-- The decoded folio, once committed. -/
  fo : Option Folio := none
  deriving DecidableEq, Repr

/-- The steps of a load on this device (09 Table 9.6); a load that is ready waits for the resume EC of the slice's coordinator (R327). -/
inductive LoadPhase where
  | queued | moving | ready
  deriving DecidableEq, Repr

/-- A load (09 R326–R331). -/
structure Load where
  slice : Nat
  key : Nat
  fo : Folio
  phase : LoadPhase := .queued
  resumeEc : Nat
  t0 : Nat := 0
  /-- Per mover: rows moved of the descriptors that name it; packets sent and not acknowledged: (mover, SEQ). -/
  done : List (Nat × Nat) := []
  sent : List (Nat × Nat) := []
  seq : List (Nat × Nat) := []
  retried : Bool := false
  deriving DecidableEq, Repr

/-- A chain packet that goes on from hop `hop` of `hops`: on its way there, or held in a chain buffer of that hop's router (09 R321). -/
structure ChainHold where
  slice : Nat
  ctab : Nat
  hop : Nat
  hops : Nat
  pkt : Packet
  /-- Every row of the packet has been granted at this hop. -/
  granted : Bool := false
  deriving DecidableEq, Repr

/-- The vault (09). -/
structure VaultSt where
  lib : List Entry := []
  /-- Pseudo-channels whose share is lost: (stack, logical channel) (R314). -/
  lost : List (Nat × Nat) := []
  /-- Corrected symbols in the running hour: (stack × 64 + channel, count, tick of its start) (R314). -/
  corr : List (Nat × Nat × Nat) := []
  loads : List Load := []
  chain : List ChainHold := []
  /-- The mirror of the runtime slot and route tables in the system area: offset in the FAB block, value (08 R302; R310, R315). -/
  mirror : List (Nat × Word) := []
  /-- Messages of pipelined deposits for the next device, with its coordinate; codes for the previous one, by key (R334). -/
  pipeOut : List (Nat × PipeMsg) := []
  pipeUp : List (Nat × Nat) := []
  useTick : Nat := 0
  deriving DecidableEq, Repr

/-- A Teller event: code, EC and arguments; its part and whether more parts follow (12 R396). -/
structure EventMsg where
  code : Nat
  ec : Nat
  args : List Nat
  part : Nat := 0
  more : Bool := false
  deriving DecidableEq, Repr

/-- The body of a message that the device sends (12 sections 2 to 7). -/
inductive OutBody where
  | accept (version role flags mask : Nat) (nonce : BitVec 256) (key : PubKey) (cert : List Byte) (sig : SigBytes)
  | refuse (code lo hi : Nat)
  | close (code : Nat)
  | ack (cum bitmap : Nat)
  | error (refSeq code item : Nat)
  | result (refSeq code item : Nat) (data : List Byte)
  | egress (stream frame seq flags bytes offset crc : Nat) (word : DWord) (data : List Byte)
  | event (e : EventMsg)
  deriving DecidableEq, Repr

/-- A message sent and not yet acknowledged, with the EC of its last sending (12 R381, R384). -/
structure SentMsg where
  seq : Nat
  body : OutBody
  tick : Nat
  tries : Nat := 0
  ec : Nat := 0
  deriving DecidableEq, Repr

/-- A message sent outside the window: its SEQ, its body and the EC of its sending (12 R381). -/
structure LooseMsg where
  seq : Nat
  body : OutBody
  ec : Nat
  deriving DecidableEq, Repr

/-- A message sent outside any session that stands: a refusal, or the last message of a session that is closed, with the session's ID, its
version and its keys (12 R382, R383; Table 12.5). -/
structure LastMsg where
  hp : Nat
  msg : LooseMsg
  session : Nat := 0
  version : Nat := 1
  keys : BitVec 704 := 0
  deriving DecidableEq, Repr

/-- A message that waits for its turn: the command that brought it, or one that breaks the protocol (12 R385, R398). -/
inductive Held where
  | cmd (i : Instr)
  | bad (h : MsgHdr) (k : Violation)
  deriving DecidableEq, Repr

/-- A Teller session (12 section 3). -/
structure Session where
  id : Nat := 0
  /-- OPEN; otherwise OPENING. -/
  open_ : Bool := false
  /-- The host port that carries it, and the one whose addresses it is bound to (R379). -/
  hp : Nat := 0
  home : Nat := 0
  role : Nat := 0
  /-- An installer session on an unclaimed device, and its chain's root (15 R464). -/
  claimant : Bool := false
  root : BitVec 384 := 0
  keyDigest : BitVec 384 := 0
  version : Nat := 1
  jumbo : Bool := false
  mask : Nat := 0
  /-- k_hd, k_dh, iv_hd and iv_dh, the first byte lowest (R383). -/
  keys : BitVec 704 := 0
  /-- The open body it answers, so that the same open is answered by the same accept (Table 12.5). -/
  openDigest : BitVec 384 := 0
  since : Nat := 0
  lastTick : Nat := 0
  /-- Every SEQ up to `cum` has been received, and those of `got` above it; messages not yet acknowledged, and the tick of
  the first (R384). -/
  cum : Nat := 0
  got : List Nat := []
  /-- Messages received that wait for their turn in SEQ order, with their SEQ (R385; 15 Table 15.10). -/
  ahead : List (Nat × Held) := []
  /-- The EC of the host's last message: recorded and never acted on (R381). -/
  hostEc : BitVec 64 := 0
  unacked : Nat := 0
  ackTick : Nat := 0
  /-- The next SEQ to send, messages in the window, messages that wait for it, and events that wait. -/
  txSeq : Nat := 1
  sent : List SentMsg := []
  waitQ : List OutBody := []
  evq : List EventMsg := []
  evLost : Nat := 0
  /-- Messages sent outside the window: the accept and the ACKs (R382: no SEQ is used twice). -/
  loose : List LooseMsg := []
  /-- Ticks of tag failures, of counted errors and of ERROR messages in the last second (R398). -/
  tagFails : List Nat := []
  errs : List Nat := []
  errSent : List Nat := []
  /-- COMMIT_LO last written, per block (16 R485), and the latches that reads fill (16 R479). -/
  commitLo : List (Nat × Nat) := []
  latches : List (Nat × Nat) := []
  deriving DecidableEq, Repr

/-- One copy of an ingress shard in staging, known by its frame and its SHARD_CRC; `corrupt` once a copy with that CRC has failed
(12 R392, R393). -/
structure Shard where
  frame : Nat
  crc : Nat
  frags : List (Nat × List Byte) := []
  complete : Bool := false
  corrupt : Bool := false
  deriving DecidableEq, Repr

/-- A Teller stream (12 R390); `dir` 0 ingress, 1 egress, 2 ledger. -/
structure Stream where
  id : Nat
  session : Nat
  slice : Nat
  index : Nat
  dir : Nat
  shardBytes : Nat := 0
  lead : Nat := 0
  shards : List Shard := []
  /-- Messages formed that wait for a ledger word of an earlier frame, as a stream's messages leave in frame order (R395). -/
  later : List OutBody := []
  deriving DecidableEq, Repr

/-- A recorded INGRESS_DATA message (12 Table 12.12, Table 12.8). -/
structure RecMsg where
  arrival : Nat
  index : Nat
  frame : Nat
  shardBytes : Nat
  offset : Nat
  crc : Nat
  data : List Byte
  deriving DecidableEq, Repr

/-- A recording (12 R399, R400). -/
structure Recording where
  id : Nat
  slice : Nat
  key : Nat
  digest : BitVec 384
  launchEc : Nat
  running : Bool
  /-- The launch that `launchEc` names has come (12 R400). -/
  launched : Bool := false
  records : List RecMsg := []
  deriving DecidableEq, Repr

/-- A host port (12 R376–R379, R398). -/
structure HostSt where
  /-- The attempt in the order of R377, and the tick at which it began. -/
  attempt : Nat := 0
  attemptTick : Nat := 0
  downTick : Nat := 0
  failed : Bool := false
  /-- Addresses held: its own, and the other port's taken over (R379); a DHCP lease held for IPv4 and IPv6. -/
  own : Bool := true
  taken : Bool := false
  lease4 : Option (BitVec 32) := none
  lease6 : Option (BitVec 128) := none
  announced : Nat := 0
  /-- The tick since which its IPv6 addresses have been probed, and those that another node uses (duplicate address detection, R376). -/
  v6Since : Nat := 0
  dup6 : List (BitVec 128) := []
  /-- Ticks of echo answers and of unauthenticated drops in the last second, and the tick at which a quarantine ends. -/
  echoes : List Nat := []
  drops : List Nat := []
  quarEnd : Nat := 0
  /-- Echo answers and address answers sent. -/
  answered : Nat := 0
  /-- Priority flow control: priorities paused, and the tick at which each pause ends (R376). -/
  paused : List (Nat × Nat) := []
  deriving DecidableEq, Repr

/-- The Teller engine (12). -/
structure TellerSt where
  opened : Bool := false
  sessions : List Session := []
  nextSession : Nat := 1
  /-- Messages sent outside any session that stands. -/
  refused : List LastMsg := []
  streams : List Stream := []
  ports : List (Nat × HostSt) := []
  recs : List Recording := []
  armed : List (Nat × Nat) := []
  /-- Start exchanges that wait for answers: slice, tick, and the request's session and SEQ (09 R325). -/
  starts : List (Nat × Nat × Nat × Nat) := []
  /-- A replay in progress: slice, recording, next record. -/
  replays : List (Nat × Nat × Nat) := []
  deriving DecidableEq, Repr

/-- A step that has been set (11 R369): its EC, the clock mode and park state it takes effect with, and its cause bits. -/
structure StepRec where
  ec : Nat
  mode : Nat
  park : Nat := 0
  causes : Nat := 0
  /-- The blade step of 13 R406, exempt from the notice and the separation. -/
  blade : Bool := false
  /-- The tick of the decision that set it (13 R416). -/
  decided : Nat := 0
  deriving DecidableEq, Repr

/-- The rail of a region: it left `mv` at a tick for `goal`, in mV, at 2 mV/µs; 0 is off (13 R405, R418, Table 13.2). -/
structure VRail where
  mv : Nat
  goal : Nat
  since : Nat
  deriving DecidableEq, Repr

/-- Power and operating modes (13). -/
structure PwrSt where
  /-- Steps set and not yet reached, in order of EC. -/
  steps : List StepRec := []
  /-- A step up or an unpark decided, whose rails have not settled: mode, park, causes and the tick of the decision (R418). -/
  rising : Option (Nat × Nat × Nat × Nat) := none
  /-- The tick at which the last step was taken. -/
  lastTick : Option Nat := none
  /-- Blades connected and in range, disconnected by overvoltage, and their readings in mV and W (R404, R406, R497). -/
  bladeA : Bool := false
  bladeB : Bool := false
  ovA : Bool := false
  ovB : Bool := false
  wattsA : Nat := 0
  wattsB : Nat := 0
  /-- Power samples of the last windows: tick and W, newest first (R414, R415). -/
  samples : List (Nat × Nat) := []
  /-- Input energy in units of 100 µJ (PWR.ENERGY), and milliseconds below the requested mode in samples of 100 µs. -/
  energy : Nat := 0
  throttle : Nat := 0
  /-- The tick of the last firing of the power loop while its condition has held since (R414). -/
  powerFired : Option Nat := none
  /-- The counts STRETCHr at the samples of the last 10 ms with their ticks, newest first, and the last firing of the stretch loop for each
  region in which its condition has held since (R414). -/
  stretchLog : List (Nat × List Nat) := []
  stretchFired : List (Nat × Nat) := []
  /-- The core rails by region; one that is not listed stands at 620 mV (R405, R418). -/
  vcore : List (Nat × VRail) := []
  /-- The ceiling as the first decision of the running sample found it, with that decision's tick (R416). -/
  sampleBase : Option (Nat × Nat) := none
  /-- Cause bits of loop decisions that an MC handover defers, bit 5 a converter loss; and rails that reported their settling meanwhile
  (R417). -/
  deferred : Nat := 0
  settled : Bool := false
  /-- Successive 1 ms samples above T_TARGET, and samples since the thermal loop last fired while its condition holds. -/
  hotRun : Nat := 0
  hotFired : Option Nat := none
  /-- COOLING has been reported while its condition lasts (R424). -/
  cooling : Bool := false
  /-- The tick since which the hottest junction has stayed above T_TARGET at Glide, and since which it has stayed at least
  5 °C below (R424, R415). -/
  hotSince : Option Nat := none
  coolSince : Option Nat := none
  /-- Phases lost per rail, the rails numbered VCORE0–23, VRING, VSERDES, VVAULT (R405). -/
  phases : List (Nat × Nat) := []
  /-- Clusters whose scrub an unpark waits for before its fences lift (11 R374). -/
  unparking : List Nat := []
  /-- The regions are clocked in full park for a scrub (R409); the wait for the stacks to leave self-refresh (R421). -/
  scrubClock : Bool := false
  waking : Option Nat := none
  deriving DecidableEq, Repr

/-- A held or relaunch repair of one slice (14 R432–R438). -/
structure Repair where
  slice : Nat
  relaunch : Bool
  rows : List Nat := []
  sites : List (Nat × Nat) := []
  /-- EC of due(h) once every local core has stopped there, and whether every device has confirmed. -/
  raiseEc : Nat
  stopEc : Option Nat := none
  confirmed : Bool := false
  tested : Bool := false
  scrubbed : Bool := false
  deriving DecidableEq, Repr

/-- Health and spares (14). -/
structure HealthSt where
  /-- Rows that hold an uncorrectable word, and rows that hold a correctable error (05 R197). -/
  bad : List Nat := []
  soft : List Nat := []
  /-- Rows and sites (cluster, site) to retire at their repair window, and the tick at which each became pending (R431):
  a row by its GRA, a site as 2^32 + cluster × 16 + site. -/
  rowsPending : List Nat := []
  sitesPending : List (Nat × Nat) := []
  since : List (Nat × Nat) := []
  /-- The ticks of a row's corrections within 24 h (R430). -/
  corrections : List (Nat × List Nat) := []
  /-- Rows served by spare rows, and failed spare rows, each named by a row of its bank. -/
  rowsRetired : List Nat := []
  /-- The sites that the health record holds for a start that has not read the fuses yet: cluster and field value (02 R64). -/
  mapRec : List (Nat × Nat) := []
  /-- Lanes retired: port, physical lane (08 R270). -/
  lanesRetired : List (Nat × Nat) := []
  sparesDead : List Nat := []
  repairs : List Repair := []
  /-- A takeover in progress, and the management core that is the spare (R439). -/
  takeover : Bool := false
  /-- A takeover that waits for the end of a handover (15 R468). -/
  takeoverWaits : Bool := false
  mcSpare : Option Nat := some 2
  /-- Slice stop for repair, summed, in ticks (Table 14.8). -/
  stopTicks : Nat := 0
  /-- The trace: digest per core since the last gate, bytes of records kept (R449). -/
  digests : List (Nat × Nat) := []
  trace : List Byte := []
  deriving DecidableEq, Repr

/-- An audit record (15 Table 15.11), its digest chain and signature taken when it is read. -/
structure AuditRec where
  seq : Nat
  ec : Nat
  kind : Nat
  role : Nat
  result : Nat
  actor : BitVec 128
  detail : BitVec 384
  prev : BitVec 384
  deriving DecidableEq, Repr

/-- An armed handover: its EC h, the image, and its phase 1 armed, 2 in progress, 3 confirmation window (15 R467). -/
structure Handover where
  h : Nat
  phase : Nat
  image : FwImage
  /-- The spare core that runs or will run the new image, and its report of readiness. -/
  core : Nat
  /-- The image that runs until the handover. -/
  old : Option FwImage
  ready : Bool := false
  deriving DecidableEq, Repr

/-- Boot, firmware and security (15). -/
structure SecSt where
  /-- Fuses (R454, R459). -/
  serial : BitVec 128 := 0
  makerRoot : BitVec 384 := 0
  identity : List Byte := []
  owners : List (BitVec 384) := []
  svn : Word := 0
  siteMap : List (BitVec 4) := []
  /-- The NVM (Table 15.3): header fields and slots; bytes staged in the inactive slot, by offset. -/
  activeFw : Bool := false
  activeCfg : Bool := false
  fw0 : Option FwImage := none
  fw1 : Option FwImage := none
  cfg0 : Option CfgImage := none
  cfg1 : Option CfgImage := none
  stageFw : List (Nat × Byte) := []
  stageCfg : List (Nat × Byte) := []
  stagedFw : Option FwImage := none
  stagedCfg : Option CfgImage := none
  /-- The claimant session that holds the staging window (R464). -/
  holder : Nat := 0
  /-- The image that runs and the configuration in force; keys and revocations in force. -/
  fw : Option FwImage := none
  cfg : Option CfgImage := none
  /-- The OPKEY records in force, with their whole keys, and the digests of REVOKE records. -/
  opKeys : List PubKey := []
  revoked : List (BitVec 384) := []
  saks : Nat := 0
  lastSeq : BitVec 64 := 0
  /-- Staging commands that a commit ordered and that wait: erase and verify with their TARGET, activate with its target EC
  and TARGET; the role and the key of the commit. -/
  erase : Option Nat := none
  verify : Option Nat := none
  activate : Option (Nat × Nat) := none
  stageRole : Nat := 0
  stageActor : BitVec 128 := 0
  handover : Option Handover := none
  /-- Debug (R471, R472): expiry of the scope, whether any scope has been unlocked since the cold reset, the nonce, and the
  words of DBG_RESP. -/
  expiry : Nat := 0
  unlocked : Bool := false
  nonce : BitVec 384 := 0
  resp : List (Nat × Word) := []
  /-- Attestation (R470): nonce words written, the nonce of a report in formation, and the report that stands. -/
  attNonce : List (Nat × Word) := []
  attRun : Option (BitVec 384) := none
  report : List Byte := []
  /-- Boot: step 8 waits for RESET_N, step 9 for the time source. -/
  holdBoot : Option BootEnv := none
  lockWait : Bool := false
  /-- The SEQ of the first audit record lost with the system area (17 R508). -/
  lostSeq : Option Nat := none
  /-- A warm reset in progress: the tick of its start; a warm reset ordered by SEC.CTRL. -/
  warm : Option Nat := none
  warmReq : Bool := false
  /-- The audit ledger: records, newest first; the SEQ of the next; records not yet in the NVM area (R469). -/
  ledger : List AuditRec := []
  nextSeq : Nat := 0
  unflushed : Nat := 0
  /-- JTAG: the result of the last access (CODE, value) and its latches (16 R479, R491). -/
  jtagCode : Nat := 0
  jtagVal : Nat := 0
  jtagLatch : List (Nat × Nat) := []
  jtagCommitLo : List (Nat × Nat) := []
  tdo : List Byte := []
  ir : Nat := 1
  deriving DecidableEq, Repr

/-- Pins and the standby domain (17). -/
structure PinSt where
  /-- Standby power valid; BOARD_SLOT as sampled for the PMBus address (R504). -/
  standby : Bool := true
  slot : Option (BitVec 3) := none
  /-- Converters started, rails settled, PWROK high (R505, R506). -/
  converters : Bool := true
  rails : Bool := true
  pwrok : Bool := true
  resetN : Bool := true
  thermtrip : Bool := false
  ppsOut : Bool := false
  vnvm : Bool := true
  /-- VSTBY3V3 was lost since stack 0 last trained, and the vault system area with it (R508). -/
  areaLost : Bool := false
  /-- ALERT_N pulled low (13 R424; 15 R456). -/
  alert : Bool := false
  /-- PMBus: PAGE, CML, the latched status bits of STATUS_INPUT per blade and of STATUS_TEMPERATURE; the last answer. -/
  page : BitVec 8 := 0xFF
  cml : Bool := false
  inputA : BitVec 8 := 0
  inputB : BitVec 8 := 0
  tempStat : BitVec 8 := 0
  answer : List Byte := []
  deriving DecidableEq, Repr

end Sys2Proof.Machine
end

