-- ==== Sys2Proof/Machine/State.lean ====
section
/-! DEFINITION. The state of the N6: the device, its memory, and the queue of commands that wait. -/

namespace Sys2Proof.Machine

/-- Reasons the block stops with a fault. No command of the spec stops the block (log entry 2); the one constructor is
raised by nobody and is safe. -/
inductive Fault where
  /-- Raised by nobody; safe. -/
  | none
  deriving DecidableEq, Repr

/-- Reasons a command has no meaning. -/
inductive Refusal where
  /-- A command whose meaning is not written; raised by an arm of `exec` only; safe. -/
  | notModelled (mnemonic : String)
  /-- A slot operation in an encoding that the spec refuses at load and gives no effect at run time
  (03 R122, 04 R137, R163, 05 R195, R196); raised by the meaning of that operation; safe. -/
  | invalidBundle (code : Nat)
  deriving DecidableEq, Repr

/-- Everything the spec gives the machine but its row memory and the queue. -/
structure Dev where
  time : TimeSt := {}
  regs : List (Nat × Word) := []
  mg : MgmtSt := {}
  cores : List (Nat × CoreSt) := []
  net : NetSt := {}
  fab : FabSt := {}
  slices : List Slice := []
  vault : VaultSt := {}
  tel : TellerSt := {}
  pwr : PwrSt := {}
  hlth : HealthSt := {}
  sec : SecSt := {}
  pins : PinSt := {}
  /-- The model's own counter of free values drawn (log entry 14). -/
  fresh : Nat := 0
  deriving DecidableEq, Repr

/-- The state of the block. -/
structure State where
  /-- Commands that wait, first in, first out. -/
  pending : List Instr
  /-- Row memory: (byte address, byte), strictly rising, no zero byte listed. -/
  mem : List Host.Cell
  dev : Dev
  deriving DecidableEq, Repr

/-- The machine as PWROK rises, before its boot runs: EC 0, every register at its reset value, both blades in range, the standby
domain awake, nothing listed in memory and no command waiting (17 R506; 01 R18; 16 R475). -/
def State.reset : State :=
  { pending := [], mem := [], dev := { pwr := { bladeA := true, bladeB := true }, pins := { slot := some 0 } } }

/-- The outcome of a command. -/
abbrev Res := Host.Outcome State Fault Refusal

end Sys2Proof.Machine
end

