-- ==== Sys2Proof/Machine/Ops.lean ====
section
/-! DEFINITION. The named operations over memory, registers, cores, slices, events and ledger words. -/

namespace Sys2Proof.Machine

/-! ### Row memory (02 section 6) -/

/-- The byte at a byte address; an unlisted byte reads 0 (06 R225: every row is filled with 0 before use). -/
def memByte (m : List Host.Cell) (a : Nat) : Byte := mapGet (fun _ => 0) m a

/-- The canonical form: addresses strictly rising and no zero byte listed. -/
def memWf (m : List Host.Cell) : Bool := mapWf (fun _ => 0) m

/-- The cells of a value's little-endian bytes from address `a`, zero bytes left out. -/
def cellsFrom : Nat → Nat → Nat → List Host.Cell
  | 0, _, _ => []
  | k + 1, a, v =>
    if v = 0 then []
    else if v % 256 = 0 then cellsFrom k (a + 1) (v / 256)
    else (a, BitVec.ofNat 8 v) :: cellsFrom k (a + 1) (v / 256)

/-- The row at a row address; byte k of the row is its bits [8k+7:8k] (00 R8). -/
def readRow (m : List Host.Cell) (g : Nat) : RowData :=
  let b := g * 512
  let w := (m.dropWhile (fun c => decide (c.1 < b))).takeWhile (fun c => decide (c.1 < b + 512))
  BitVec.ofNat 4096 (w.foldl (fun acc c => acc + c.2.toNat <<< (8 * (c.1 - b))) 0)

/-- The memory with one whole row written (05 R165). -/
def writeRow (m : List Host.Cell) (g : Nat) (r : RowData) : List Host.Cell :=
  let b := g * 512
  m.takeWhile (fun c => decide (c.1 < b)) ++ cellsFrom 512 b r.toNat ++ m.dropWhile (fun c => decide (c.1 < b + 512))

/-- Rows [lo, hi) filled with 0 (06 R225). -/
def clearRows (m : List Host.Cell) (lo hi : Nat) : List Host.Cell :=
  m.takeWhile (fun c => decide (c.1 < lo * 512)) ++ m.dropWhile (fun c => decide (c.1 < hi * 512))

/-! ### Global row addresses (02 R72, R73, Table 2.6) -/

def graSpace (g : Nat) : Nat := bits g 31 30
def graCluster (g : Nat) : Nat := bits g 29 23
def graCore (g : Nat) : Nat := bits g 22 20
def graRow (g : Nat) : Nat := bits g 19 0
/-- The core ID a pad, accumulator or special GRA names. -/
def graCoreId (g : Nat) : Nat := graCluster g * 8 + graCore g
/-- A GRA from its fields. -/
def mkGra (space cl core row : Nat) : Nat := space <<< 30 + cl <<< 23 + core <<< 20 + row

/-- Whether a GRA is valid (R73). -/
def graValid (g : Nat) : Bool :=
  decide (g < 2 ^ 32) && decide (graCluster g < 72) &&
  match graSpace g with
  | 0 => decide (graRow g < 0x2000)
  | 1 => decide (graCore g = 0) && decide (graRow g < 0x18000)
  | 2 => decide (graRow g < 0x200)
  | _ => decide (graRow g < 0x200) || (decide (0x10000 ≤ graRow g) && decide (graRow g < 0x10010))

/-- The GRA of core-state row k of a core. -/
def coreStateGra (core k : Nat) : Nat := mkGra 3 (core / 8) (core % 8) (0x10000 + k)
/-- The GRA of accumulator entry e of a core (03 R106). -/
def accGra (core e : Nat) : Nat := mkGra 2 (core / 8) (core % 8) (e % 512)

/-! ### Registers (16 R475; 00 R10–R13) -/

/-- The value held at a management address. -/
def Dev.reg (d : Dev) (a : Nat) : Nat := (mapGet regReset d.regs a).toNat
/-- A register set by hardware. -/
def Dev.setReg (d : Dev) (a v : Nat) : Dev := { d with regs := mapSet regReset d.regs a (BitVec.ofNat 32 v) }
/-- A field read. -/
def Dev.fld (d : Dev) (f : Fld) : Nat := bits (d.reg f.addr) f.hi f.lo
/-- A field set by hardware. -/
def Dev.put (d : Dev) (f : Fld) (v : Nat) : Dev := d.setReg f.addr (setBits (d.reg f.addr) f.hi f.lo v)
/-- A counter register that saturates at 0xFFFF_FFFF. -/
def Dev.bump (d : Dev) (a n : Nat) : Dev := d.setReg a (satAdd 32 (d.reg a) n)
/-- A counter register that wraps at 2^32. -/
def Dev.bumpWrap (d : Dev) (a n : Nat) : Dev := d.setReg a (wrapAdd 32 (d.reg a) n)

/-! ### Time -/

/-- EC as a number. -/
def Dev.now (d : Dev) : Nat := d.time.ec.toNat

/-! ### Events (01 R35, 12 R396, and the owning chapters) -/

/-- The offset of a block's EVENTS register and the code of its bit 0. -/
def eventReg (b : Nat) : Nat × Nat :=
  match b with
  | 1 => (0x1C, 0x0100) | 2 => (0x08, 0x0200) | 7 => (0x3C, 0x0700) | 8 => (0x0C, 0x0800) | 9 => (0x0C, 0x0900)
  | 10 => (0x218, 0x0A80) | 11 => (0x04, 0x0B00) | 12 => (0x1C, 0x0C80) | 13 => (0x10, 0x0D00) | 14 => (0x0C, 0x0E00)
  | _ => (0x14, 0x0F00)

/-- A moment of sending: its tick and EC, and the host ports whose Teller priority is paused (12 R376, R381). -/
structure SendAt where
  tick : Nat
  ec : Nat
  paused : List Nat
  deriving DecidableEq, Repr

/-- This moment. -/
def Dev.sendAt (d : Dev) : SendAt :=
  let pcp := d.fld ⟨regAddr 12 8, 15, 13⟩
  ⟨d.time.ticks, d.now,
    (d.tel.ports.filter (fun p => p.2.paused.any (fun q => q.1 == pcp && decide (d.time.ticks < q.2)))).map (fun p => p.1)⟩

/-- Messages and events that wait enter the window of 256 while it has room, their port is not paused and SEQ lies below 2^48 (12 R376, R384,
R396; Table 12.5). -/
def Session.pump (x : Session) (at_ : SendAt) : Session :=
  let room := if at_.paused.contains x.hp then 0 else min (256 - x.sent.length) (2 ^ 48 - x.txSeq)
  let a := x.waitQ.take room
  let b := x.evq.take (room - a.length)
  let ms := (a ++ b.map OutBody.event).zipIdx.map (fun (m, i) => SentMsg.mk (x.txSeq + i) m at_.tick 0 at_.ec)
  { x with
    sent := x.sent ++ ms, txSeq := x.txSeq + ms.length, waitQ := x.waitQ.drop a.length, evq := x.evq.drop b.length }

/-- An event queued to one session: a full queue of 4,096 drops it and counts it lost (12 R396). -/
def queueEvent (at_ : SendAt) (e : EventMsg) (x : Session) : Session :=
  if x.evq.length < 4096 then { x with evq := x.evq ++ [e] }.pump at_ else { x with evLost := x.evLost + 1 }

/-- Whether a session takes events of a block: it is open and its EVENT_MASK subscribes the block. -/
def Session.takes (x : Session) (block : Nat) : Bool := x.open_ && bitAt x.mask block

/-- An event sent to every session that subscribes its block; EVENT_LOST counts the full queues (12 R396). -/
def Dev.sendMsg (d : Dev) (e : EventMsg) : Dev :=
  let aims := fun (x : Session) => x.takes (e.code / 256)
  let lost := (d.tel.sessions.filter (fun x => aims x && decide (4096 ≤ x.evq.length))).length
  let d := d.bump (regAddr 12 0x74) lost
  { d with tel := { d.tel with sessions := mapIf aims (queueEvent d.sendAt e) d.tel.sessions } }

/-- A Teller event with its code and arguments, at this EC. -/
def Dev.sendEvent (d : Dev) (code : Nat) (args : List Nat) : Dev := d.sendMsg { code := code, ec := d.now, args := args }

/-- The N6 sets bit `bit` of a block's EVENTS register, and sends its Teller event. -/
def Dev.event (d : Dev) (b bit : Nat) (args : List Nat) : Dev :=
  let (off, code) := eventReg b
  (d.put ⟨regAddr b off, bit, bit⟩ 1).sendEvent (code + bit) args

/-! ### Cores -/

/-- A core's state. -/
def Dev.core (d : Dev) (k : Nat) : CoreSt := mapGet (fun _ => {}) d.cores k
/-- A core's state replaced. -/
def Dev.setCore (d : Dev) (k : Nat) (c : CoreSt) : Dev := { d with cores := mapPut d.cores k c }
/-- A core's state changed. -/
def Dev.updCore (d : Dev) (k : Nat) (f : CoreSt → CoreSt) : Dev := d.setCore k (f (d.core k))

/-- The state with its device changed. -/
def State.onDev (s : State) (f : Dev → Dev) : State := { s with dev := f s.dev }
/-- The state with one core changed. -/
def State.onCore (s : State) (k : Nat) (f : CoreSt → CoreSt) : State := { s with dev := s.dev.updCore k f }
/-- The state with one row of memory written. -/
def State.putRow (s : State) (g : Nat) (r : RowData) : State := { s with mem := writeRow s.mem g r }

/-! ### Clusters and slices (02 R56, 08 R296, Table 8.20) -/

def fClState (c : Nat) : Fld := ⟨regAddr 8 (0x200 + 4 * c), 31, 30⟩
def fClGen (c : Nat) : Fld := ⟨regAddr 8 (0x200 + 4 * c), 27, 20⟩
def fClSlice (c : Nat) : Fld := ⟨regAddr 8 (0x200 + 4 * c), 11, 0⟩

/-- The slice with a fleet slice ID, if this device holds it. -/
def Dev.slice? (d : Dev) (id : Nat) : Option Slice := d.slices.find? (fun s => s.id == id)
/-- The slice a cluster is assigned to. -/
def Dev.sliceOf (d : Dev) (cl : Nat) : Option Slice :=
  if d.fld (fClState cl) = 1 then d.slice? (d.fld (fClSlice cl)) else none
/-- One slice changed. -/
def Dev.updSlice (d : Dev) (id : Nat) (f : Slice → Slice) : Dev :=
  { d with slices := mapIf (fun s => s.id == id) f d.slices }
/-- The slice's clusters on this device. -/
def Slice.clusters (s : Slice) : List Nat := s.fo.clusters
/-- The slice's cores on this device: the eight logical cores of each cluster it holds (02 R56). -/
def Slice.coresOf (s : Slice) : List Nat := s.fo.clusters.flatMap (fun c => (List.range 8).map (fun k => c * 8 + k))
/-- The cores that run a program: those with a CORE record (10 Table 10.5). -/
def Slice.progCores (s : Slice) : List Nat := s.fo.cores.map (fun r => r.core)
/-- The gate interval G in cycles (10 Table 10.1). -/
def Slice.gCycles (s : Slice) : Nat := 2 ^ s.fo.log2G

/-! ### Ledger words (01 R48, R49) -/

/-- Bit numbers of the ledger word (01 Table 1.10). -/
def lwIncomplete : Nat := 0
def lwCorrupt : Nat := 1
def lwSatOver : Nat := 2
def lwMemFault : Nat := 3
def lwMisdelivery : Nat := 4
def lwUnreachable : Nat := 5
def lwHeld : Nat := 6
def lwLate : Nat := 7
def lwReplay : Nat := 8
def lwSkipped : Nat := 9

/-- Flags of one frame with a bit set for the sequences of a mask. -/
def markFlags (mask bit : Nat) (fr : FrameFl) : FrameFl :=
  { fr with flags := fr.flags.zipIdx.map (fun (w, q) => if bitAt mask q then w ||| 2 ^ bit else w) }

/-- The sequences that a core's events mark (R49): those the map assigns it, or every sequence. -/
def coreSeqMask (fo : Folio) (core : Nat) : Nat :=
  let m := fo.seqmap.foldl (fun a r => match r with | .coreSeq c k => if c = core then a ||| k else a | _ => a) 0
  if m = 0 then 2 ^ fo.sequences - 1 else m

/-- A bit set in every frame in flight, for the sequences of a mask. -/
def Slice.mark (s : Slice) (mask bit : Nat) : Slice := { s with frames := s.frames.map (markFlags mask bit) }

/-- A core event sets a bit (R49). -/
def Dev.markCore (d : Dev) (core bit : Nat) : Dev :=
  match d.sliceOf (core / 8) with
  | some s => d.updSlice s.id (fun s => s.mark (coreSeqMask s.fo core) bit)
  | none => d

/-- A slice event sets a bit in every sequence's word (R49). -/
def Dev.markSlice (d : Dev) (id bit : Nat) : Dev := d.updSlice id (fun s => s.mark (2 ^ s.fo.sequences - 1) bit)

/-- A nonzero STATUS sets a bit in every frame that was in flight at gate `g` modulo 2^16 (07 R244). -/
def Dev.markAtGate (d : Dev) (id g bit : Nat) : Dev :=
  d.updSlice id (fun s => { s with frames := s.frames.map (fun fr =>
    if (g + 65536 - fr.firstGate % 65536) % 65536 ≤ fr.lastGate - fr.firstGate
    then markFlags (2 ^ s.fo.sequences - 1) bit fr else fr) })

/-! ### Out-of-allocation row accesses (10 R348, R352, Table 10.14) -/

/-- Kinds of OOA_FIRST.KIND. -/
def ooaRead : Nat := 0
def ooaWrite : Nat := 1
def ooaDma : Nat := 2
def ooaPacket : Nat := 3
def ooaMover : Nat := 4

/-- One offending row: counted, and captured while OOA is clear (R352). -/
def Dev.ooa (d : Dev) (kind core gra : Nat) : Dev :=
  let d := d.bump (regAddr 10 0x200) 1
  if bitAt (d.reg (regAddr 10 0x218)) 1 then d
  else
    let d := d.setReg (regAddr 10 0x204) (2 ^ 31 + kind <<< 28 + core % 1024)
    let d := d.setReg (regAddr 10 0x208) gra
    d.event 10 1 [kind, core, gra]

/-- An out-of-allocation access detected at the issuing core: MEM_FAULT as a core event (10 Table 10.10). -/
def Dev.ooaCore (d : Dev) (kind core gra : Nat) : Dev := (d.ooa kind core gra).markCore core lwMemFault

/-- Whether a row of this device lies in a slice's allocation (10 R344). -/
def inAlloc (s : Slice) (g : Nat) : Bool := graValid g && s.fo.clusters.contains (graCluster g)

/-- A draw of a free value (log entry 14): the counter advances. -/
def Dev.draw (d : Dev) : Nat × Dev := (d.fresh, { d with fresh := d.fresh + 1 })

/-- The device's own coordinate, x in [11:8], y in [7:4], z in [3:0] (08 R287). -/
def Dev.coord (d : Dev) : Nat :=
  let p := d.reg (regAddr 8 0)
  bits p 3 0 <<< 8 + bits p 7 4 <<< 4 + bits p 11 8

/-! ### Reads by the engines of a core (05 R197; 14 R442) -/

/-- A row retirement becomes pending, with the tick from which its deferral counts (14 R430, R431). -/
def Dev.pendRow (d : Dev) (g : Nat) : Dev :=
  if d.hlth.rowsPending.contains g then d
  else { d with hlth := { d.hlth with rowsPending := d.hlth.rowsPending ++ [g], since := d.hlth.since ++ [(g, d.time.ticks)] } }

/-- One correction of a row; more than CORR_LIMIT of them within 24 h make its retirement pending (14 R430). -/
def Dev.corrected (d : Dev) (g : Nat) : Dev :=
  let d := d.bump (regAddr 14 0x14) 1
  let old := mapGet (fun _ => []) d.hlth.corrections g
  let l := old.filter (fun t => decide (d.time.ticks < t + 86400000000000)) ++ [d.time.ticks]
  let d : Dev := { d with hlth := { d.hlth with corrections := mapPut d.hlth.corrections g l } }
  if d.fld ⟨regAddr 14 4, 23, 16⟩ < l.length then d.pendRow g else d

/-- The ECC effects of one row read by an engine of a core: a single-bit error is corrected and counted; an uncorrectable
word is counted and reported, sets MEM_FAULT as a core event and makes the row's retirement pending (05 R197; 14 R442). A row of the
accumulator file only counts its correction, or sets MEM_FAULT (14 Table 14.6). -/
def Dev.eccRead (d : Dev) (core g : Nat) : Dev :=
  let array := graSpace g == 2
  let d := if d.hlth.soft.contains g then (if array then d.bump (regAddr 14 0x14) 1 else d.corrected g) else d
  if d.hlth.bad.contains g then
    (if array then d.markCore core lwMemFault
     else (((d.bump (regAddr 14 0x18) 1).event 14 11 [g]).markCore core lwMemFault).pendRow g)
  else d

/-- A row written anew holds no error. -/
def Dev.mendRow (d : Dev) (g : Nat) : Dev :=
  { d with hlth := { d.hlth with bad := d.hlth.bad.filter (fun x => x != g), soft := d.hlth.soft.filter (fun x => x != g) } }

/-- A store of a core written anew holds no error. -/
def CellErrs.mend (e : CellErrs) (x : Cell) : CellErrs :=
  { e with
    soft := e.soft.filter (fun y => y != x), bad := e.bad.filter (fun y => y != x), mDiff := e.mDiff.filter (fun y => Cell.mreg y.1 != x),
    pDiff := match x with | .pred i => BitVec.ofNat 8 (setBits e.pDiff.toNat i i 0) | _ => e.pDiff }
def CoreSt.mend (c : CoreSt) (x : Cell) : CoreSt := { c with cells := c.cells.mend x }

/-- Whether a read of a store of a core sets MEM_FAULT: an uncorrectable word, or copies that differ (14 Table 14.6). -/
def CellErrs.faulty (e : CellErrs) (x : Cell) : Bool :=
  match x with
  | .pred i => e.pDiff.getLsbD i
  | .mreg i => e.mDiff.any (fun y => y.1 == i)
  | _ => e.bad.contains x

/-- No register, mask, predicate or weight plane of a core holds an error (14 Table 14.6). -/
def CoreSt.sound (c : CoreSt) : Bool :=
  c.cells.soft.isEmpty && c.cells.bad.isEmpty && c.cells.mDiff.isEmpty && c.cells.pDiff == 0

/-- A store of a core is read: a correction counts, an error sets MEM_FAULT as a core event (14 Table 14.6). -/
def Dev.cellRead (d : Dev) (core : Nat) (x : Cell) : Dev :=
  let e := (d.core core).cells
  let d := if e.soft.contains x then d.bump (regAddr 14 0x14) 1 else d
  if e.faulty x then d.markCore core lwMemFault else d

/-- One row read by an engine of a core. -/
def State.engRead (s : State) (core g : Nat) : RowData × State :=
  (readRow s.mem g, s.onDev (fun d => d.eccRead core g))

/-! ### Issue (04 R125, R128, R136, R164) -/

/-- The region of a cluster, row × 2 + half (02 R65). -/
def clRegion (cl : Nat) : Nat := 2 * (cl / 6) + (cl % 6) / 3

/-- Whether a region is clocked (16 Table 16.5). -/
def Dev.clocked (d : Dev) (r : Nat) : Bool := bitAt (d.reg (regAddr 2 0x0C)) r

/-- Whether a core runs: its region is clocked and its cluster is assigned to a launched slice that gives it a program
(04 R128; 06 R223, R224; 11 R372). -/
def Dev.coreRuns (d : Dev) (core : Nat) : Bool :=
  match d.sliceOf (core / 8) with
  | some s => s.running && s.progCores.contains core && d.clocked (clRegion (core / 8))
  | none => false

/-- A result whose fourth bundle is the one to issue and that has not landed (04 R136). -/
def CoreSt.sxLate (c : CoreSt) : Bool := c.sxPend.any (fun p => decide (p.seq + 4 ≤ c.seq) && !p.landed)

/-- Whether the core's issue waits at its GX slot (04 R125) or for a row being rewritten (06 R220). -/
def CoreSt.waits (c : CoreSt) : Bool := decide (c.wait ≠ .none) || c.rewrite.isSome

/-- Whether a slot of the current bundle may be accepted. -/
def CoreSt.ready (c : CoreSt) : Bool := !c.waits && !c.sxLate

/-- One issue-wait cycle on an LDP or VGET result (04 R136). -/
def CoreSt.sxWaitTick (c : CoreSt) : CoreSt :=
  { c with issue := { c.issue with sxWait := c.issue.sxWait + 1 } }

/-- Issue-wait cycles on lost vector or scalar bank accesses (04 Table 4.11; 05 R172). -/
def CoreSt.bankTick (c : CoreSt) (n : Nat) : CoreSt :=
  { c with issue := { c.issue with bankStall := c.issue.bankStall + BitVec.ofNat 64 n } }

/-- The GRA of the program-store row that holds a bundle (04 R123). -/
def progGra (core b : Nat) : Nat := mkGra 3 (core / 8) (core % 8) (b / 16)

/-- Issue waits at a row with an uncorrectable word until it is rewritten (06 R220; 14 R442). -/
def State.rewriteWait (s : State) (core g : Nat) : State := s.onCore core (fun c => { c with rewrite := some g })

/-- Scalar register i; S0 reads 0 (04 R131). -/
def CoreSt.sreg (c : CoreSt) (i : Nat) : DWord := if i = 0 then 0 else mapGet (fun _ => 0) c.s i
/-- Scalar register i written; a write to S0 is discarded (04 R131). -/
def CoreSt.setS (c : CoreSt) (i : Nat) (v : DWord) : CoreSt :=
  if i = 0 then c else { c.mend (.sreg i) with s := mapSet (fun _ => 0) c.s i v }
/-- Predicate i, its two copies ORed (14 Table 14.6); P0 reads 1 (04 R131). -/
def CoreSt.pred (c : CoreSt) (i : Nat) : Bool := decide (i = 0) || c.p.getLsbD i || c.cells.pDiff.getLsbD i
/-- Predicate i written; P0 is never written. -/
def CoreSt.setP (c : CoreSt) (i : Nat) (b : Bool) : CoreSt :=
  if i = 0 then c else { c.mend (.pred i) with p := BitVec.ofNat 8 (setBits c.p.toNat i i (b2n b)) }
/-- Mask register i, its two copies ORed (14 Table 14.6); M0 reads all ones (04 R138). -/
def CoreSt.mask (c : CoreSt) (i : Nat) : BitVec 256 :=
  if i = 0 then BitVec.allOnes 256 else mapGet (fun _ => 0) c.m i ||| mapGet (fun _ => 0) c.cells.mDiff i
/-- A loop counter. -/
def CoreSt.lcv (c : CoreSt) (i : Nat) : BitVec 16 := mapGet (fun _ => 0) c.lc i

/-- The slots of a bundle (04 Table 4.1). -/
def bMx (w : Nat) : Nat := bits w 255 192
def bVx (w : Nat) : Nat := bits w 191 128
def bSx (w : Nat) : Nat := bits w 127 80
def bDx (w : Nat) : Nat := bits w 79 32
def bGx (w : Nat) : Nat := bits w 31 0

/-- The bundle that a core is to issue (04 R123). -/
def bundleAt (s : State) (core pc : Nat) : Nat := ((readRow s.mem (progGra core pc)).toNat >>> (256 * (pc % 16))) % 2 ^ 256

/-- The descriptors in a DMA queue. -/
def CoreSt.queue (c : CoreSt) (q : Nat) : List DmaEntry := match q with | 0 => c.q0 | 1 => c.q1 | 2 => c.q2 | _ => c.q3

/-- A 256-bit item of a core-state row. -/
def stateWord (s : State) (core k i : Nat) : Nat := ((readRow s.mem (coreStateGra core (k + i / 16))).toNat >>> (256 * (i % 16))) % 2 ^ 256

/-- Whether a queued VX operation writes V[r]: with a true predicate, a destination that names the register, or a register-file tensor
that has elements in it (04 R144, R148). CMP writes a mask register. -/
def VxOp.writesV (s : State) (core : Nat) (q : VxOp) (r : Nat) : Bool :=
  q.predOk && q.op != 0x0B &&
    (match vxDirect q.f.dst with
     | some i => i == r
     | none =>
       let t := tdOf (stateWord s core 0xC (q.f.dst.toNat - 32))
       t.loc == 3 && tdCover t q.bDst r != 0)

/-- Whether an earlier VX operation that writes V[r] has not landed its result (R135): a pending write, or a queued operation. -/
def vgetBlocked (s : State) (core r : Nat) : Bool :=
  let c := s.dev.core core
  c.pendW.any (fun w => decide (w.loc = .vreg r) && decide (w.seq < c.seq)) ||
  c.vxQ.any (fun q => decide (q.seq < c.seq) && q.writesV s core r)

/-- Whether every operation of the core's bundle can start or enter its queue (04 R125): the MX, VX, DX and release queues have room
for it, and no VGET reads a register whose result has not landed. The GX operation comes first (`gx`): while it has not been given, its
wait may still be to come, and no other slot issues (R125; 06 R206). -/
def bundleFits (s : State) (core : Nat) (gxSlot : Bool) : Bool :=
  let c := s.dev.core core
  let b := bundleAt s core c.pc
  let mx := bMx b
  let sx := bSx b
  let dx := bDx b
  let gx := bits (bGx b) 31 26
  (gxSlot || gx == 0) &&
  -- a FEED of COUNT 0 without SWAP acts as MX.NOP (03 R120)
  (decide (bits mx 63 60 = 0) || (decide (bits mx 63 60 = 2) && decide (bits mx 47 35 = 0) && !bitAt mx 57) || decide (c.mxQ.length < 2)) &&
  (decide (bits (bVx b) 63 58 = 0) || decide (c.vxQ.length < 2)) &&
  (decide (bits sx 47 42 ≠ 0x14) || decide (c.pred (bits sx 41 39) = bitAt sx 38) || !vgetBlocked s core (bits sx 27 23)) &&
  (decide (bits dx 47 44 = 0) || decide ((c.queue (bits dx 43 42)).length < 8)) &&
  (!(gx == 5 || gx == 6) || decide (c.relQ.length < 4))

/-- The operands of a VX slot that name a descriptor, as indices of descriptors: DST but for CMP, and the sources that the operation
uses (04 R140). -/
def vxDescs (v : Nat) : List Nat :=
  let op := bits v 63 58
  let src := match op with
    | 0x00 | 0x0D => []
    | 0x04 | 0x10 => [bits v 40 35, bits v 34 29, bits v 28 23]
    | 0x07 | 0x0A | 0x0E | 0x0F => [bits v 40 35]
    | 0x09 => if bits v 22 19 = 1 then [bits v 40 35, bits v 34 29] else [bits v 40 35]
    | _ => [bits v 40 35, bits v 34 29]
  (((if op = 0x00 ∨ op = 0x0B then [] else [bits v 46 41]) ++ src).filter (fun o => decide (32 ≤ o))).map (fun o => o - 32)

/-- The rings that a bundle's operations name: of a ring-mode LOAD or FEED, a PUBLISH, and the descriptor that DX.RUN issues. -/
def bundleRings (s : State) (core b : Nat) : List Nat :=
  let mx := bMx b
  let dx := bDx b
  let dd := stateWord s core 4 (bits dx 41 35)
  (if bits mx 63 60 = 1 ∧ bitAt mx 50 then [bits mx 49 45] else []) ++ (if bits mx 63 60 = 2 ∧ bitAt mx 31 then [bits mx 30 26] else []) ++
    (if bits (bGx b) 31 26 = 5 then [bits (bGx b) 21 17] else []) ++
    (if bits dx 47 44 = 0 then [] else
      (if bitAt dd 248 then [bits dd 247 243] else []) ++ (if bitAt dd 242 then [bits dd 241 237] else []))

/-- The rows that the core's bundle needs to issue: its program row, and the rows of the descriptors that it names. -/
def bundleRows (s : State) (core : Nat) : List Nat :=
  let c := s.dev.core core
  let b := bundleAt s core c.pc
  progGra core c.pc :: ((vxDescs (bVx b)).map (fun k => coreStateGra core (0xC + k / 16)) ++
    (if bits (bDx b) 47 44 = 0 then [] else [coreStateGra core (4 + bits (bDx b) 41 35 / 16)]) ++
    (bundleRings s core b).map (fun k => coreStateGra core (k / 16)))

/-- The first of those rows that holds an uncorrectable word (14 Table 14.6). -/
def badRow (s : State) (core : Nat) : Option Nat := (bundleRows s core).find? (fun g => s.dev.hlth.bad.contains g)

/-- The scalar registers, predicates and mask registers that a bundle's operations read at its issue (04 R126). -/
def bundleCells (s : State) (core : Nat) : List Cell :=
  let c := s.dev.core core
  let b := bundleAt s core c.pc
  let mx := bMx b
  let vx := bVx b
  let sx := bSx b
  let dx := bDx b
  let gx := bGx b
  let op := bits sx 47 42
  let regs :=
    (if bits mx 63 60 = 1 ∧ !bitAt mx 50 then [bits mx 49 45] else []) ++ (if bits mx 63 60 = 2 ∧ !bitAt mx 31 then [bits mx 30 26] else []) ++
    (vxDescs vx).map (fun k => bits (stateWord s core 0xC k) 247 243) ++ (if bits vx 63 58 = 0x0D then [bits vx 40 35] else []) ++
    (if bits dx 47 44 = 0 then [] else [bits dx 34 30, bits dx 29 25]) ++
    (if bits gx 31 26 = 6 ∨ bits gx 31 26 = 7 then [bits gx 16 12] else []) ++
    (if op = 0 ∨ op = 0x20 ∨ c.pred (bits sx 41 39) = bitAt sx 38 then []
     else match op with
      | 0x01 | 0x02 | 0x04 | 0x05 | 0x06 | 0x07 | 0x0B | 0x0C | 0x10 => [bits sx 32 28, bits sx 27 23]
      | 0x03 | 0x08 | 0x09 | 0x0A | 0x11 | 0x13 => [bits sx 32 28]
      | 0x0E => [bits sx 37 33]
      | _ => [])
  (if op = 0 ∨ op = 0x20 then [] else [Cell.pred (bits sx 41 39)]) ++
    (if bits vx 63 58 = 0 then [] else [Cell.pred (bits vx 57 55), .mreg (bits vx 53 51)]) ++ regs.map Cell.sreg

/-- The registers of a bundle are read as it issues. -/
def State.readCells (s : State) (core : Nat) : State :=
  if (s.dev.core core).issued then s else s.onDev (fun d => (bundleCells s core).foldl (fun d x => d.cellRead core x) d)

/-- A slot operation: it acts when the core runs, its issue is ready, and the whole bundle issues: another slot of it has been
accepted, or every operation of it can be (04 R125). A bundle that waits on a result counts SX_WAIT (R136); one whose row cannot be
read waits for its rewrite. `gxSlot` marks the GX slot; `fits` says whether this operation can be accepted, and `g` is what its waiting cycle counts. -/
def State.slotOr (s : State) (core : CoreId) (gxSlot : Bool) (fits : CoreSt → Bool) (f g : State → State) : State :=
  if s.dev.coreRuns core then
    let c := s.dev.core core
    if c.ready then
      (match badRow s core with
       | some g => s.rewriteWait core g
       | none =>
         if !fits c then g s
         else if c.issued || bundleFits s core gxSlot then f ((s.readCells core).onCore core (fun c => { c with issued := true })) else s)
    else if !c.waits then s.onCore core CoreSt.sxWaitTick
    else s
  else s

/-- A slot operation with no cause of its own to wait. -/
def State.slot (s : State) (core : CoreId) (f : State → State) : State := s.slotOr core false (fun _ => true) f id

/-- A GX operation with no queue to enter. -/
def State.gxSlot (s : State) (core : CoreId) (f : State → State) : State := s.slotOr core true (fun _ => true) f id

/-! ### Outcomes -/

/-- A command that completes. -/
def ok (s : State) : Res := .next s

end Sys2Proof.Machine
end

