-- ==== Sys2Proof/Machine/Mesh.lean ====
section
/-! DEFINITION. The mesh and its edge: routers, links, express routes, edge stops (02 sections 4 and 5; 07 sections 1, 5 and 8). -/

namespace Sys2Proof.Machine

/-! ### Links (07 R228; 02 R69) -/

/-- The half of a cluster: 0 West, 1 East. -/
def clHalf (cl : Nat) : Nat := (cl % 6) / 3
/-- The neighbour of a cluster over a port (0 N, 1 E, 2 S, 3 W). -/
def clStep (cl p : Nat) : Nat := match p with | 0 => cl - 6 | 1 => cl + 1 | 2 => cl + 6 | _ => cl - 1
/-- Whether a port of a cluster's router has a neighbour; a boundary port serves its face's mesh edge link. -/
def clInner (cl p : Nat) : Bool :=
  match p with | 0 => decide (6 ≤ cl) | 1 => decide (cl % 6 < 5) | 2 => decide (cl < 66) | _ => decide (0 < cl % 6)

/-! ### Express routes (07 R247, R248) -/

/-- The routers and ports of the route of a cold reset: east or west first, to the destination column, then north or south. -/
def xyRoute : Nat → Nat → Nat → List (Nat × Nat)
  | 0, _, _ => []
  | n + 1, a, b =>
    if a = b then []
    else
      let p := if a % 6 < b % 6 then 1 else if b % 6 < a % 6 then 3 else if a < b then 2 else 0
      (a, p) :: xyRoute n (clStep a p) b

/-- A cluster with a route that leads to it. -/
abbrev Reached := Nat × List (Nat × Nat)

/-- Clusters reached by steps through one port, none of them failed. -/
def runOf (failed : List Nat) (p : Nat) : Nat → Reached → List Reached
  | 0, _ => []
  | n + 1, (a, l) =>
    let b := clStep a p
    if clInner a p && !failed.contains b then (b, l ++ [(a, p)]) :: runOf failed p n (b, l ++ [(a, p)]) else []

/-- The clusters of a column reached from some of it by north and south steps, each once. -/
def spreadColumn (failed : List Nat) (l : List Reached) : List Reached :=
  (l.flatMap (fun x => x :: (runOf failed 0 11 x ++ runOf failed 2 11 x))).foldl
    (fun acc x => if acc.any (fun y => y.1 == x.1) then acc else acc ++ [x]) []

/-- `n` columns to the east, with north and south steps in each. -/
def sweepEast (failed : List Nat) : Nat → List Reached → List Reached
  | 0, l => spreadColumn failed l
  | n + 1, l => sweepEast failed n ((spreadColumn failed l).flatMap (runOf failed 1 1))

/-- A route round failed routers under the west-first turn rule, with the fewest westward moves (R248; log entry 67); none where
no route under that rule reaches. -/
def aroundRoute (failed : List Nat) (a b : Nat) : Option (List (Nat × Nat)) :=
  (List.range 6).findSome? (fun w =>
    if w ≤ a % 6 ∧ a % 6 - w ≤ b % 6 then
      match ((a, []) :: runOf failed 3 w (a, []))[w]? with
      | some x => ((sweepEast failed (b % 6 - (a % 6 - w)) [x]).find? (fun y => y.1 == b)).map (fun y => y.2)
      | none => none
    else none)

/-- Whether a half's seam and edge links are fenced (11 Table 11.8). -/
def Dev.fenced (d : Dev) (half : Nat) : Bool := bitAt (d.reg (regAddr 11 0)) half

/-- The routers that no express route uses: the failed ones that the tables go round, and those of a fenced half (R248; 11 R372). -/
def Dev.avoided (d : Dev) : List Nat := d.net.around ++ (List.range 72).filter (fun c => d.fenced (clHalf c))

/-- The express route between two clusters by the tables in force. Routes of a cold reset within one half stay in it. -/
def Dev.meshPath (d : Dev) (a b : Nat) : Option (List (Nat × Nat)) :=
  if d.net.around = [] then some (xyRoute 24 a b) else aroundRoute d.avoided a b

/-- Whether a cluster's router has failed (07 Table 7.8). -/
def Dev.routerFailed (d : Dev) (cl : Nat) : Bool := bitAt (d.reg (regAddr 7 (4 * (cl / 32)))) (cl % 32)
/-- The failed routers. -/
def Dev.failedRouters (d : Dev) : List Nat :=
  if d.reg (regAddr 7 0) = 0 ∧ d.reg (regAddr 7 4) = 0 ∧ d.reg (regAddr 7 8) = 0 then []
  else (List.range 72).filter d.routerFailed

/-- Whether a packet from one cluster for another is dropped for a failed router: the destination is not reached under the tables in
force, or they lead through a router that has failed since (R248). -/
def Dev.blocked (d : Dev) (a b : Nat) : Bool :=
  let f := d.failedRouters
  !f.isEmpty && (match d.meshPath a b with | some l => l.any (fun x => f.contains (clStep x.1 x.2)) | none => true)

/-! ### Edge stops (07 Table 7.7, R263) -/

/-- The edge stop of a cluster's ring traffic: north of its column in rows 0 to 5, else south. -/
def ringStop (cl : Nat) : Nat := if cl / 6 ≤ 5 then cl % 6 else 6 + cl % 6
/-- The boundary cluster of that stop's mesh edge link, and the link's face. -/
def stopCl (cl : Nat) : Nat := if cl / 6 ≤ 5 then cl % 6 else 66 + cl % 6
def stopFace (cl : Nat) : Nat := if cl / 6 ≤ 5 then 0 else 2
/-- The boundary cluster at whose edge link a mover injects (02 R70). -/
def moverCl (m : Nat) : Nat := m % 12 * 6 + (if m < 12 then 0 else 5)

/-- The cluster at which a core or a mover of this device is: of a core by its ID, of a mover that of its edge link. -/
def idCl (id : Nat) : Option Nat :=
  if id < 576 then some (id / 8) else if 768 ≤ id ∧ id < 792 then some (moverCl (id - 768)) else none

/-- The cluster at which a packet for a cluster entered the mesh: its source's, its mover's, or that of its edge stop. -/
def Dev.entryCl (d : Dev) (schip score dcl : Nat) : Nat :=
  if schip ≠ d.coord then stopCl dcl else (idCl score).getD dcl

/-- The links of an express flow by the tables in force (R238): (cluster, port) of each router output, and (cluster, 8 + face) of a
mesh edge link into the mesh. A flow between two edge stops does not enter the mesh. -/
def Dev.flowLinks (d : Dev) (src dst : Nat) : List (Nat × Nat) :=
  let path := fun a b => (d.meshPath a b).getD []
  if 0x400 ≤ src then
    if 0x400 ≤ dst then [] else (stopCl dst, 8 + stopFace dst) :: path (stopCl dst) dst
  else if 0x400 ≤ dst then path (src / 8) (stopCl (src / 8)) ++ [(stopCl (src / 8), stopFace (src / 8))]
  else path (src / 8) dst

/-- The routers of an express flow's route. -/
def Dev.flowRouters (d : Dev) (src dst : Nat) : List Nat :=
  (d.flowLinks src dst).map (fun l => l.1) ++ (if 0x400 ≤ dst then [] else [dst])

/-! ### Load channels (09 Table 9.4, R317, R321) -/

/-- The fields of a mover descriptor (Table 9.4). -/
def mdOpc (m : MoverDesc) : Nat := bits m.raw.toNat 255 252
def mdMover (m : MoverDesc) : Nat := bits m.raw.toNat 251 247
def mdHops (m : MoverDesc) : Nat := bits m.raw.toNat 246 242
def mdEntry (m : MoverDesc) : Nat := bits m.raw.toNat 241 226
def mdRow0 (m : MoverDesc) : Nat := bits m.raw.toNat 225 194
def mdRows (m : MoverDesc) : Nat := bits m.raw.toNat 193 170
def mdDst (m : MoverDesc) : Nat := bits m.raw.toNat 169 138
def mdDstr (m : MoverDesc) : Int := sext 12 (bits m.raw.toNat 137 126)
def mdChan (m : MoverDesc) : Nat := bits m.raw.toNat 125 118
def mdCtab (m : MoverDesc) : Nat := bits m.raw.toNat 117 110

/-- Hop k ≥ 1 of a chain table. -/
def Folio.hop (fo : Folio) (ctab k : Nat) : Option ChainRec := fo.chains.find? (fun h => h.ctab == ctab && h.hop == k)

end Sys2Proof.Machine
end

