-- ==== Sys2Proof/Machine/Packets.lean ====
section
/-! DEFINITION. Packets of the on-die network: CRC32C, long headers, short control packets, sending (07 section 4), and
the ring descriptors (05 section 4). -/

namespace Sys2Proof.Machine

/-! ### CRC32C (07 R242; the Castagnoli polynomial, reflected, log entry 16) -/

/-- Eight shifts of the reflected CRC register. -/
def crcShift : Nat → Nat → Nat
  | 0, c => c
  | k + 1, c => crcShift k (if c % 2 = 1 then (c >>> 1) ^^^ 0x82F63B78 else c >>> 1)

/-- CRC32C of bytes. -/
def crc32c (l : List Nat) : Nat := (l.foldl (fun c b => crcShift 8 (c ^^^ (b % 256))) 0xFFFFFFFF) ^^^ 0xFFFFFFFF

/-- A CRC32C carried on over further bytes; 0 for none yet. -/
def crcMore (crc : Nat) (l : List Nat) : Nat :=
  (l.foldl (fun c b => crcShift 8 (c ^^^ (b % 256))) (crc ^^^ 0xFFFFFFFF)) ^^^ 0xFFFFFFFF

/-- The bytes of a flit. -/
def flitBytes (f : Flit) : List Nat := toLe 64 f.toNat

/-! ### Long packets (07 Tables 7.3 and 7.4) -/

/-- The fields of a long header. -/
structure LongHdr where
  cls : Nat
  op : Nat
  slice : Nat
  gen : Nat
  dchip : Nat
  dcl : Nat
  dcore : Nat
  gra : Nat
  len : Nat
  seq : Nat
  oparg : Nat
  schip : Nat
  score : Nat
  squeue : Nat
  gate : Nat
  sat : Nat
  nan : Nat
  reply : Nat
  crc : Nat
  deriving DecidableEq, Repr

/-- The header fields of a flit. -/
def longHdr (f : Flit) : LongHdr :=
  let n := f.toNat
  { cls := bits n 125 123, op := bits n 122 120, slice := bits n 119 108, gen := bits n 107 100, dchip := bits n 99 88,
    dcl := bits n 87 81, dcore := bits n 80 78, gra := bits n 77 46, len := bits n 45 39, seq := bits n 38 23,
    oparg := bits n 22 0, schip := bits n 159 148, score := bits n 147 138, squeue := bits n 137 136,
    gate := bits n 191 176, sat := bits n 175 168, nan := bits n 167 160, reply := bits n 223 192, crc := bits n 255 224 }

/-- The flit of a long header, its CRC field as given. -/
def longFlit (h : LongHdr) : Flit :=
  BitVec.ofNat 512 (2 <<< 126 + (h.cls % 8) <<< 123 + (h.op % 8) <<< 120 + (h.slice % 4096) <<< 108 + (h.gen % 256) <<< 100 +
    (h.dchip % 4096) <<< 88 + (h.dcl % 128) <<< 81 + (h.dcore % 8) <<< 78 + (h.gra % 2 ^ 32) <<< 46 + (h.len % 128) <<< 39 +
    (h.seq % 65536) <<< 23 + h.oparg % 2 ^ 23 + (h.schip % 4096) <<< 148 + (h.score % 1024) <<< 138 +
    (h.squeue % 4) <<< 136 + (h.gate % 65536) <<< 176 + (h.sat % 256) <<< 168 + (h.nan % 256) <<< 160 +
    (h.reply % 2 ^ 32) <<< 192 + (h.crc % 2 ^ 32) <<< 224)

/-- The CRC32C of a long packet: header bytes 0–27 and every payload flit; for OP 4 the fields that branches rewrite,
DCLUSTER, DCORE and GRA[29:20], are taken as zero (R242). -/
def crcOf (hdr : Flit) (payload : List Flit) : Nat :=
  let n := hdr.toNat
  let n := if bits n 122 120 = 4 then setBits (setBits n 87 78 0) 75 66 0 else n
  crc32c (toLe 28 n ++ payload.flatMap flitBytes)

/-- The CRC that a sender computes for a header and its payload. -/
def longCrc (h : LongHdr) (payload : List Flit) : Nat := crcOf (longFlit h) payload

/-- The payload flits of rows: flit f of row i carries bytes 64f to 64f + 63 of that row (R241). -/
def rowFlits (rows : List RowData) : List Flit :=
  rows.flatMap (fun r => (List.range 8).map (fun k => BitVec.ofNat 512 (r.toNat >>> (512 * k))))

/-- The rows of payload flits. -/
def flitRows : Nat → List Flit → List RowData
  | 0, _ => []
  | k + 1, l =>
    BitVec.ofNat 4096 ((l.take 8).zipIdx.foldl (fun a (f, i) => a + f.toNat <<< (512 * i)) 0) :: flitRows k (l.drop 8)

/-- A long packet with its CRC set by the sender. -/
def mkLong (h : LongHdr) (rows : List RowData) : Packet :=
  let pl := rowFlits rows
  ⟨longFlit { h with crc := longCrc h pl }, pl⟩

/-- Bits [127:126] of a packet's first 16 bytes (R240). -/
def pktForm (p : Packet) : Nat := bits p.hdr.toNat 127 126

/-! ### Short control packets (07 Table 7.5) -/

/-- The fields of a short control packet. -/
structure ShortPkt where
  sop : Nat
  slice : Nat
  gen : Nat
  dchip : Nat
  dcl : Nat
  dcore : Nat
  arg0 : Nat
  schip : Nat
  score : Nat
  arg1 : Nat
  deriving DecidableEq, Repr

/-- The short packet of a flit. -/
def shortPkt (f : Flit) : ShortPkt :=
  let n := f.toNat
  { sop := bits n 125 122, slice := bits n 121 110, gen := bits n 109 102, dchip := bits n 101 90, dcl := bits n 89 83,
    dcore := bits n 82 80, arg0 := bits n 79 48, schip := bits n 47 36, score := bits n 35 26, arg1 := bits n 25 0 }

/-- The flit of a short packet, with the CRC32C of bytes 0–27 in bytes 28–31 (R243). -/
def shortFlit (p : ShortPkt) : Flit :=
  let n := 1 <<< 126 + (p.sop % 16) <<< 122 + (p.slice % 4096) <<< 110 + (p.gen % 256) <<< 102 + (p.dchip % 4096) <<< 90 +
    (p.dcl % 128) <<< 83 + (p.dcore % 8) <<< 80 + (p.arg0 % 2 ^ 32) <<< 48 + (p.schip % 4096) <<< 36 +
    (p.score % 1024) <<< 26 + p.arg1 % 2 ^ 26
  BitVec.ofNat 512 (n + crc32c (toLe 28 n) <<< 224)

/-- Whether a short packet's CRC holds (R243). -/
def shortCrcOk (f : Flit) : Bool := bits f.toNat 255 224 == crc32c (toLe 28 (f.toNat % 2 ^ 224))

/-! ### Slice channels and quotas (R234, R236) -/

/-- The slice channel from a core to a destination core (10 Table 10.6 REC 2): its number and credit rows. -/
def channelOf (sl : Slice) (net src dst : Nat) : Option (Nat × Nat) :=
  sl.fo.nets.findSome? (fun r => match r with
    | .chan n ch a b cr => if n = net ∧ a = src ∧ b = dst then some (ch, cr) else none
    | _ => none)

/-- Rows of a channel in use (07 R234). -/
def chanInUse (sl : Slice) (net ch : Nat) : Nat :=
  (sl.chanUsed.filter (fun t => t.1 == net && t.2.1 == ch)).foldl (fun a t => a + t.2.2) 0
def chanAdd (sl : Slice) (net ch n : Nat) : Slice := { sl with chanUsed := sl.chanUsed ++ [(net, ch, n)] }
/-- One row of credit returns. -/
def chanReturn (sl : Slice) (net ch : Nat) : Slice :=
  let n := chanInUse sl net ch
  { sl with chanUsed := sl.chanUsed.filter (fun t => !(t.1 == net && t.2.1 == ch)) ++ (if n ≤ 1 then [] else [(net, ch, n - 1)]) }

/-- A core's express quota on a network: the sum of its flows' QX (07 R236). -/
def Folio.quota (fo : Folio) (net core : Nat) : Nat :=
  fo.nets.foldl (fun a r => match r with | .flow n src _ qx => if n = net ∧ src = core then a + qx else a | _ => a) 0
def quotaOf (sl : Slice) (net core : Nat) : Nat := sl.fo.quota net core

/-! ### Sending -/

/-- The destination device of a packet of either form. -/
def pktChip (p : Packet) : Nat := if pktForm p = 1 then (shortPkt p.hdr).dchip else (longHdr p.hdr).dchip

/-- The absolute slot of the slot wheel at this EC: 25 slots in 8 ticks (08 R274). -/
def Dev.slotNow (d : Dev) : Nat := d.now * 25 / 8

/-- A packet leaves its source: onto the mesh for this device, to the fabric for another, whose frame becomes eligible 100 slots later (05 R185; 08 R284). -/
def Dev.send (d : Dev) (p : Packet) : Dev :=
  if pktChip p = d.coord then { d with net := { d.net with flight := d.net.flight ++ [p] } }
  else { d with fab := { d.fab with out := d.fab.out ++ [(d.slotNow + 100, p)] } }

/-- A packet dropped as unreachable (07 R248). -/
def Dev.unreach (d : Dev) : Dev := (d.bump (regAddr 7 0x10) 1).event 7 2 []

/-- A packet that arrives leaves the mesh. -/
def Dev.take (d : Dev) (p : Packet) : Dev :=
  { d with net := { d.net with flight := eraseFirst (fun q => q == p) d.net.flight } }

/-- The generation a sender places in GEN: that of the destination device for the slice (08 R296). -/
def Dev.genFor (d : Dev) (slice chip : Nat) (cl : Nat) : Nat :=
  if chip = d.coord then d.fld (fClGen cl)
  else match d.slice? slice with
    | some s => mapGet (fun _ => 0) s.gens chip
    | none => 0

/-- `n` rows of a slice-channel packet are granted, or the packet is dropped: these rows of the inbound buffer are free, and their
credit is owed to the sender (R234). -/
def Dev.oweRows (d : Dev) (h : LongHdr) (n : Nat) : Dev :=
  if h.cls = 0 ∧ h.schip = d.coord ∧ n ≠ 0 then
    d.updSlice h.slice (fun sl =>
      let net := if h.op = 2 then 1 else 0
      match channelOf sl net h.score (h.dcl * 8 + h.dcore) with
      | some (ch, _) => { sl with chanOwed := sl.chanOwed ++ [(net, ch, n)] }
      | none => sl)
  else d
/-- The credit of every row of a packet. -/
def Dev.oweCredit (d : Dev) (h : LongHdr) : Dev := d.oweRows h (h.len / 8)

/-- The acknowledgement of a long packet (R244): SOP 0 to the source, carrying SEQ, STATUS and the gate number answered. -/
def Dev.ackPkt (d : Dev) (h : LongHdr) (status : Nat) : Packet :=
  let a : ShortPkt :=
    { sop := 0, slice := h.slice, gen := d.genFor h.slice h.schip (h.score / 8), dchip := h.schip, dcl := h.score / 8,
      dcore := h.score % 8, arg0 := h.seq <<< 16 + status <<< 8, schip := d.coord, score := 0x3FF, arg1 := h.gate <<< 10 }
  ⟨shortFlit a, []⟩

/-- A packet that the router of a cluster, or a core there, sends to another device goes to the edge stop of its source's column; one whose way
there leads through a failed router is dropped at the neighbour, and a long one is answered with STATUS 4 (R248, R263). A short packet
that a router sends to a core of this device names no source, so its way is judged as it leaves. -/
def Dev.sendFrom (d : Dev) (src : Nat) (p : Packet) : Dev :=
  if pktChip p = d.coord then
    let k := shortPkt p.hdr
    if pktForm p = 1 ∧ k.score = 0x3FF ∧ d.blocked src ((idCl (k.dcl * 8 + k.dcore)).getD src) then d.unreach else d.send p
  else if d.blocked src (stopCl src) then
    let h := longHdr p.hdr
    if pktForm p = 2 then d.unreach.send (d.unreach.ackPkt h 4) else d.unreach
  else d.send p

/-- A mover's packet that is answered with STATUS 0 has had every row granted at this hop, and may go on along its chain (09 R321). -/
def Dev.chainGrant (d : Dev) (h : LongHdr) (status : Nat) : Dev :=
  if status = 0 ∧ 768 ≤ h.score then
    { d with vault := { d.vault with chain := mapIf (fun c => longHdr c.pkt.hdr == h) (fun c => { c with granted := true }) d.vault.chain } }
  else d

/-- A long packet is answered from the router of its destination, and `rows` more of its rows free their credit. The answer of a tree's packet
comes back along the tree (R255, R261). -/
def Dev.ackRows (d : Dev) (h : LongHdr) (status rows : Nat) : Dev :=
  let d := (d.oweRows h rows).chainGrant h status
  if h.op = 4 ∨ (h.op = 3 ∧ h.cls ≠ 3) then d.send (d.ackPkt h status) else d.sendFrom h.dcl (d.ackPkt h status)
/-- A long packet is answered at its destination (R244). -/
def Dev.ack (d : Dev) (h : LongHdr) (status : Nat) : Dev := d.ackRows h status (h.len / 8)
/-- A long packet is answered where it has not entered the mesh: at a port, a ring stop or the output to one. -/
def Dev.ackEdge (d : Dev) (h : LongHdr) (status : Nat) : Dev :=
  let d := d.oweCredit h
  d.sendFrom (stopCl (h.score / 8)) (d.ackPkt h status)

/-! ### Ring descriptors (05 R177, Table 5.4) -/

/-- The descriptor of ring k of a core. -/
def ringDesc (s : State) (core k : Nat) : Nat :=
  ((readRow s.mem (coreStateGra core (k / 16))).toNat >>> (256 * (k % 16))) % 2 ^ 256

def ringBase (r : Nat) : Nat := bits r 255 224
def ringSlotRows (r : Nat) : Nat := bits r 223 212
def ringSlots (r : Nat) : Nat := bits r 211 204
def ringKind (r : Nat) : Nat := bits r 203 202
def ringPeerChip (r : Nat) : Nat := bits r 201 190
def ringPeerCore (r : Nat) : Nat := bits r 189 180
def ringPeerRing (r : Nat) : Nat := bits r 179 175
def ringHead (r : Nat) : Nat := bits r 159 144
def ringTail (r : Nat) : Nat := bits r 143 128
/-- Occupancy (R177). -/
def ringOcc (r : Nat) : Nat := (ringTail r + 65536 - ringHead r) % 65536
/-- The row address of row `i` of slot number `n`. -/
def ringRow (r n i : Nat) : Nat := (ringBase r + (n % ringSlots r) * ringSlotRows r + i) % 2 ^ 32

/-- HEAD and TAIL of the sixteen rings of a core-state row set to 0. -/
def resetRings (r : RowData) : RowData :=
  BitVec.ofNat 4096 ((List.range 16).foldl (fun n k => setBits n (256 * k + 159) (256 * k + 128) 0) r.toNat)

/-- A row as a mover writes it: ring descriptors with HEAD and TAIL set to 0 (R177). -/
def moverRow (g : Nat) (r : RowData) : RowData :=
  if graSpace g = 3 ∧ (graRow g = 0x10000 ∨ graRow g = 0x10001) then resetRings r else r

/-- One descriptor of ring k replaced. -/
def setRing (s : State) (core k : Nat) (v : Nat) : State :=
  let g := coreStateGra core (k / 16)
  let o := 256 * (k % 16)
  s.putRow g (BitVec.ofNat 4096 (setBits (readRow s.mem g).toNat (o + 255) o v))

/-- TAIL advanced by n (R179). -/
def ringPublish (s : State) (core k n : Nat) : State :=
  let r := ringDesc s core k
  setRing s core k (setBits r 143 128 (ringTail r + n))

/-- Whether a ring is a pull point's (05 R178; 12 R392). -/
def isPullRing (d : Dev) (core k : Nat) : Bool :=
  match d.sliceOf (core / 8) with
  | some s => s.fo.seqmap.any (fun x => match x with | .pull _ _ c r _ => c == core && r == k | _ => false)
  | none => false

/-- A leaf whose held copy a released slot admits sends its holdover release to the branch router (07 R258). -/
def Dev.leafRelease (d : Dev) (core k : Nat) : Dev :=
  match d.net.held.find? (fun h => h.core == core && h.ring == k) with
  | some h =>
    let sid := d.fld (fClSlice (core / 8))
    let p : ShortPkt :=
      { sop := 5, slice := sid, gen := d.genFor sid d.coord h.cl, dchip := d.coord, dcl := h.cl, dcore := 0,
        arg0 := (bits (longHdr h.pkt.hdr).oparg 22 18) <<< 27 + h.port <<< 24, schip := d.coord, score := core, arg1 := 0 }
    d.sendFrom (core / 8) ⟨shortFlit p, []⟩
  | none => d

/-- Slots of a ring filled with zeros, as the Teller engine keeps the released slots of a pull ring (12 R392). -/
def ringZero (s : State) (r first n : Nat) : State :=
  (List.range n).foldl (fun s j => (List.range (ringSlotRows r)).foldl (fun s i => s.putRow (ringRow r (first + j) i) 0) s) s

/-- HEAD advanced by n by the ring's consumer; each release of an inbound ring sends a credit to the peer's outbound
mirror, except at a pull point (R178, R180), and frees a multicast copy held for the ring. -/
def ringRelease (s : State) (core k n : Nat) : State :=
  let r := ringDesc s core k
  let s' := (setRing s core k (setBits r 159 144 (ringHead r + n))).onDev (fun d => d.leafRelease core k)
  if ringKind r = 2 ∧ !isPullRing s.dev core k then
    let pc := ringPeerCore r
    let sid := s.dev.fld (fClSlice (core / 8))
    let p : ShortPkt :=
      { sop := 2, slice := sid, gen := s.dev.genFor sid (ringPeerChip r) (pc / 8), dchip := ringPeerChip r, dcl := pc / 8,
        dcore := pc % 8, arg0 := ringPeerRing r <<< 27 + n, schip := s.dev.coord, score := core, arg1 := 0 }
    s'.onDev (fun d => d.sendFrom (core / 8) ⟨shortFlit p, []⟩)
  else if isPullRing s.dev core k then ringZero s' r (ringHead r) n
  else s'

/-- A ring's waiting cycles counted (R181): EMPTY_WAIT for a consumer, FULL_WAIT for a producer, each saturating. -/
def CoreSt.emptyTick (c : CoreSt) (k n : Nat) : CoreSt :=
  { c with dctr := { c.dctr with emptyWait := mapPut c.dctr.emptyWait k (satAdd 32 (mapGet (fun _ => 0) c.dctr.emptyWait k) n) } }
def CoreSt.fullTick (c : CoreSt) (k : Nat) : CoreSt :=
  { c with dctr := { c.dctr with fullWait := mapPut c.dctr.fullWait k (satAdd 32 (mapGet (fun _ => 0) c.dctr.fullWait k) 1) } }

/-- An underflow of ring k (R182), with its ledger effect (10 Table 10.10). -/
def Dev.underflow (d : Dev) (core k : Nat) : Dev :=
  (d.updCore core (fun c => { c with dctr := { c.dctr with
    underflows := BitVec.ofNat 32 (satAdd 32 c.dctr.underflows.toNat 1), underRings := c.dctr.underRings ||| (1 <<< k) } })).markCore
    core lwMemFault
/-- An overflow of ring k (R182). -/
def Dev.overflow (d : Dev) (core k : Nat) : Dev :=
  (d.updCore core (fun c => { c with dctr := { c.dctr with
    overflows := BitVec.ofNat 32 (satAdd 32 c.dctr.overflows.toNat 1), overRings := c.dctr.overRings ||| (1 <<< k) } })).markCore
    core lwMemFault

/-- Tally counts (03 R116–R118): the cumulative fields saturate at 2^64 − 1, and the interval sum collects the events. -/
def CoreSt.count (c : CoreSt) (clip sat nan : Nat) : CoreSt :=
  { c with tally := { c.tally with
      clip := BitVec.ofNat 64 (satAdd 64 c.tally.clip.toNat clip), sat := BitVec.ofNat 64 (satAdd 64 c.tally.sat.toNat sat),
      nan := BitVec.ofNat 64 (satAdd 64 c.tally.nan.toNat nan), interval := c.tally.interval + clip + sat + nan } }

end Sys2Proof.Machine
end

