-- ==== Sys2Proof/Machine/Sync.lean ====
section
/-! DEFINITION. The gate/sync slot and its waits (06 section 3, 11 R354). -/

namespace Sys2Proof.Machine

/-! ### Coverage (Table 6.2): an operation is covered when its bundle issued before bundle `b` -/

def MxOp.tag : MxOp → Nat
  | .load _ _ t => t
  | .feed _ _ t => t

/-- Every covered LOAD has landed and every covered FEED has fed its vectors. -/
def mxSettled (c : CoreSt) (b : Nat) : Bool :=
  c.mxQ.all (fun o => decide (b ≤ o.tag)) && (match c.loading with | some t => decide (b ≤ t) | none => true) &&
  (match c.feedRun with | some r => decide (b ≤ r.seq) | none => true)
/-- Every covered VX operation has issued its last step and every write of it has landed. -/
def vxSettled (c : CoreSt) (b : Nat) : Bool :=
  c.vxQ.all (fun q => decide (b ≤ q.seq)) && c.pendW.all (fun w => decide (b ≤ w.seq))
/-- Every covered LDP and VGET has landed. -/
def sxSettled (c : CoreSt) (b : Nat) : Bool := c.sxPend.all (fun p => p.landed || decide (b ≤ p.seq))
/-- Every covered descriptor has left its queue, its own rows have landed, and every packet it sent is acknowledged. -/
def dxSettled (c : CoreSt) (b : Nat) : Bool :=
  (c.q0 ++ c.q1 ++ c.q2 ++ c.q3).all (fun e => decide (b ≤ e.seq)) && c.outst.all (fun o => decide (b ≤ o.tag))

/-- The condition of SETTLE for an engine mask (R208): bit 3 matrix, 2 vector, 1 scalar, 0 DMA. -/
def settled (c : CoreSt) (eng : BitVec 4) (b : Nat) : Bool :=
  (!eng.getLsbD 3 || mxSettled c b) && (!eng.getLsbD 2 || vxSettled c b) && (!eng.getLsbD 1 || sxSettled c b) &&
  (!eng.getLsbD 0 || dxSettled c b)

/-- The staging rows of the matrix and vector engines are dropped (R205). -/
def CoreSt.dropStaging (c : CoreSt) : CoreSt :=
  { c with feedStage := none, feedAhead := none, loadStageA := none, loadStageB := none, stageA := none, stageB := none }

/-! ### Semaphore rows (Table 6.3) -/

def semCount (r : RowData) : Nat := bits r.toNat 15 0
/-- Whether a count satisfies WANT (R213). -/
def semOk (count want : Nat) : Bool := decide ((count + 65536 - want) % 65536 < 32768)

/-- ACQUIRE accounting in a semaphore row (R213, R214). -/
def semAccount (r : RowData) (waited : Nat) (timeout : Bool) : RowData :=
  let n := r.toNat
  let n := setBits n 191 128 (bits n 191 128 + waited)
  let n := setBits n 95 64 (bits n 95 64 + 1)
  let n := if timeout then setBits n 127 96 (satAdd 32 (bits n 127 96) 1) else n
  BitVec.ofNat 4096 n

/-- An increment: COUNT modulo 2^16 and RELEASES modulo 2^32 rise by 1 (R212). -/
def semIncrement (r : RowData) : RowData :=
  let n := r.toNat
  let n := setBits n 15 0 (bits n 15 0 + 1)
  BitVec.ofNat 4096 (setBits n 63 32 (bits n 63 32 + 1))

/-- An ACQUIRE completes (R213, R214): the accounting access reads the row and writes it back. -/
def acquireDone (s : State) (core gra waited : Nat) (timeout : Bool) : State :=
  let (r, s) := s.engRead core gra
  (s.putRow gra (semAccount r waited timeout)).onCore core (fun c => { c.dropStaging with wait := .none })

/-- An increment of a semaphore row satisfies the ACQUIREs of its cluster's cores that wait for the count it gives (R213). -/
def semMeet (cl g count : Nat) (s : State) : State :=
  (List.range 8).foldl (fun s k => s.onCore (cl * 8 + k) (fun c =>
    match c.wait with
    | .acquire g' want _ => if g' = g ∧ semOk count want.toNat then { c with wait := .acquire g' want true } else c
    | _ => c)) s

/-! ### Meanings -/

def execGxNop (core : CoreId) (s : State) : Res := ok (s.gxSlot core (fun s => s))

/-- The core arrives at its gate and waits for the pass (11 R354). -/
def execGxGate (core : CoreId) (s : State) : Res :=
  ok (s.gxSlot core (fun s =>
    match s.dev.sliceOf (core / 8) with
    | some sl => (s.onCore core (fun c => { c with wait := .gate })).onDev (fun d =>
        d.updSlice sl.id (fun x => if x.arrived.contains core.val then x else { x with arrived := x.arrived ++ [core.val] }))
    | none => s))

/-- Staging rows are dropped before any operation of the bundle reads (R207). -/
def execGxKbegin (core : CoreId) (s : State) : Res := ok (s.gxSlot core (fun s => s.onCore core CoreSt.dropStaging))

/-- The kernel-end condition: all four engines settled and the release queue empty (R209). -/
def kendOk (c : CoreSt) (b : Nat) : Bool := settled c 0xF b && c.relQ.isEmpty

def execGxKend (core : CoreId) (s : State) : Res :=
  ok (s.gxSlot core (fun s => s.onCore core (fun c => if kendOk c c.seq then c else { c with wait := .kend c.seq })))

def execGxSettle (core : CoreId) (eng : BitVec 4) (s : State) : Res :=
  ok (s.gxSlot core (fun s => s.onCore core (fun c => if settled c eng c.seq then c else { c with wait := .settle eng c.seq })))

/-- An operation whose entry enters the release queue of four; a bundle that finds it full waits (R210). -/
def State.release (s : State) (core : CoreId) (e : CoreSt → RelEntry) : State :=
  s.slotOr core true (fun c => decide (c.relQ.length < 4)) (fun s => s.onCore core (fun c => { c with relQ := c.relQ ++ [e c] })) id

def execGxPublish (core : CoreId) (ring : RingId) (s : State) : Res := ok (s.release core (fun c => .publish ring.val c.seq))

/-- RELEASE reads its semaphore's GRA and device at issue (R211). -/
def execGxRelease (core : CoreId) (sreg : BitVec 5) (soff : BitVec 12) (s : State) : Res :=
  ok (s.release core (fun c =>
    let v := (c.sreg sreg.toNat).toNat
    .release ((v % 2 ^ 32 + soff.toNat) % 2 ^ 32) (bits v 43 32) c.seq))

/-- ACQUIRE reads its row at issue: satisfied, it completes; else the bundle waits. A row outside the core's own cluster
store completes at issue as if satisfied (R213, 10 R348). -/
def acquire (core : Nat) (sreg : BitVec 5) (soff : BitVec 12) (s : State) : State :=
  let v := ((s.dev.core core).sreg sreg.toNat).toNat
  let g := (v % 2 ^ 32 + soff.toNat) % 2 ^ 32
  let want := bits v 63 48
  if graValid g ∧ graSpace g = 1 ∧ graCluster g = core / 8 then
    if semOk (semCount (readRow s.mem g)) want then acquireDone s core g 0 false
    else (s.engRead core g).2.onCore core (fun c => { c with wait := .acquire g (BitVec.ofNat 16 want) false })
  else (s.onDev (fun d => d.ooaCore ooaRead core g)).onCore core CoreSt.dropStaging

def execGxAcquire (core : CoreId) (sreg : BitVec 5) (soff : BitVec 12) (s : State) : Res := ok (s.gxSlot core (acquire core sreg soff))

/-- A waiting SETTLE whose covered writes have landed lets its bundle issue (R208). -/
def execSettleDone (core : CoreId) (s : State) : Res :=
  ok (s.onCore core (fun c => match c.wait with
    | .settle eng b => if settled c eng b then { c with wait := .none } else c
    | _ => c))

def execKendDone (core : CoreId) (s : State) : Res :=
  ok (s.onCore core (fun c => match c.wait with
    | .kend b => if kendOk c b then { c with wait := .none } else c
    | _ => c))

/-- The retirement of a PUBLISH: TAIL advances, or the publication is discarded on a full ring (R182, R210). -/
def retirePublish (s : State) (core ring : Nat) : State :=
  let r := ringDesc s core ring
  if ringOcc r = ringSlots r then s.onDev (fun d => d.overflow core ring) else ringPublish s core ring 1

/-- Whether the increment of a RELEASE waits for its core's quota: on the die it is an express packet of one flit (R212; 07 R237). -/
def releaseWaits (s : State) (core chip : Nat) : Bool :=
  decide (chip = s.dev.coord) &&
    (match s.dev.sliceOf (core / 8) with
     | some sl => decide (quotaOf sl 0 core ≤ (s.dev.core core).quotaReq)
     | none => false)

/-- The retirement of a RELEASE: its semaphore increment is sent; a local semaphore that the slice does not hold is an
out-of-allocation row access and sends nothing (R211, R212, 10 R348). -/
def retireRelease (s : State) (core gra chip : Nat) : State :=
  let d := s.dev
  let sid := d.fld (fClSlice (core / 8))
  let isOk := graValid gra && graSpace gra == 1 &&
    (match d.sliceOf (core / 8) with | some sl => inAlloc sl gra | none => false)
  if chip = d.coord ∧ !isOk then s.onDev (fun d => d.ooaCore ooaWrite core gra)
  else
    let p : ShortPkt :=
      { sop := 1, slice := sid, gen := d.genFor sid chip (graCluster gra), dchip := chip, dcl := graCluster gra,
        dcore := graCore gra, arg0 := gra, schip := d.coord, score := core, arg1 := 0 }
    let s := if chip = d.coord then s.onCore core (fun c => { c with quotaReq := c.quotaReq + 1 }) else s
    s.onDev (fun d => d.sendFrom (core / 8) ⟨shortFlit p, []⟩)

/-- The oldest release-queue entry retires once every write it covers has landed (R210); a RELEASE whose increment is not admitted
waits, and counts QUOTA_WAIT (07 R237). -/
def execReleaseQueueRetire (core : CoreId) (s : State) : Res :=
  let c := s.dev.core core
  ok (match c.relQ with
      | .publish ring b :: t =>
        if settled c 0xF b then retirePublish (s.onCore core (fun c => { c with relQ := t })) core ring else s
      | .release g chip b :: t =>
        if !settled c 0xF b then s
        else if releaseWaits s core chip then s.onDev (fun d => d.bumpWrap (regAddr 7 0x2C) 1)
        else retireRelease (s.onCore core (fun c => { c with relQ := t })) core g chip
      | [] => s)

/-- A waiting ACQUIRE that an increment has satisfied completes with the cycles it waited (R213). -/
def execAcquireSatisfied (core : CoreId) (waited : BitVec 64) (s : State) : Res :=
  ok (match (s.dev.core core).wait with
      | .acquire g _ true => acquireDone s core g waited.toNat false
      | _ => s)

/-- An ACQUIRE that has waited G cycles completes as if satisfied (R214), with MEM_FAULT as a core event (10 Table 10.10). -/
def execAcquireTimeout (core : CoreId) (s : State) : Res :=
  ok (match (s.dev.core core).wait, s.dev.sliceOf (core / 8) with
      | .acquire g _ _, some sl => (acquireDone s core g sl.gCycles true).onDev (fun d => d.markCore core lwMemFault)
      | _, _ => s)

end Sys2Proof.Machine
end

