-- ==== Sys2Proof/Machine/Dma.lean ====
section
/-! DEFINITION. The DX slot and the DMA engine (05 sections 5 and 6). A DMA command moves the next rows, or sends the next
packets, of the descriptor at the head of a queue (log entry 8). -/

namespace Sys2Proof.Machine

/-! ### Queues -/

def CoreSt.run (c : CoreSt) (q : Nat) : DmaRun := match q with | 0 => c.r0 | 1 => c.r1 | 2 => c.r2 | _ => c.r3
def CoreSt.setQueue (c : CoreSt) (q : Nat) (l : List DmaEntry) : CoreSt :=
  match q with | 0 => { c with q0 := l } | 1 => { c with q1 := l } | 2 => { c with q2 := l } | _ => { c with q3 := l }
def CoreSt.setRun (c : CoreSt) (q : Nat) (r : DmaRun) : CoreSt :=
  match q with | 0 => { c with r0 := r } | 1 => { c with r1 := r } | 2 => { c with r2 := r } | _ => { c with r3 := r }
def State.onRun (s : State) (core q : Nat) (f : DmaRun → DmaRun) : State := s.onCore core (fun c => c.setRun q (f (c.run q)))

/-! ### Descriptor fields (Table 5.6) -/

def ddOpc (e : DmaEntry) : Nat := bits e.d.toNat 255 252
def ddSkew (e : DmaEntry) : Nat := bits e.d.toNat 251 249
def ddSre (e : DmaEntry) : Bool := bitAt e.d.toNat 248
def ddSring (e : DmaEntry) : Nat := bits e.d.toNat 247 243
def ddDre (e : DmaEntry) : Bool := bitAt e.d.toNat 242
def ddDring (e : DmaEntry) : Nat := bits e.d.toNat 241 237
def ddPattern (e : DmaEntry) : Nat := bits e.d.toNat 235 204
def ddSrc (e : DmaEntry) : Nat := (bits e.d.toNat 235 204 + e.src) % 2 ^ 32
def ddDst (e : DmaEntry) : Nat := (bits e.d.toNat 203 172 + e.dst) % 2 ^ 32
def ddRows (e : DmaEntry) : Nat := bits e.d.toNat 171 156
def ddSstr (e : DmaEntry) : Int := sext 12 (bits e.d.toNat 155 144)
def ddDstr (e : DmaEntry) : Int := sext 12 (bits e.d.toNat 143 132)
def ddChip (e : DmaEntry) : Nat := bits e.d.toNat 131 120
def ddTree (e : DmaEntry) : Nat := bits e.d.toNat 119 115
def ddRtag (e : DmaEntry) : Nat := bits e.d.toNat 114 103
def ddRfmt (e : DmaEntry) : Nat := bits e.d.toNat 102 102
def ddChan (e : DmaEntry) : Nat := bits e.d.toNat 101 101
def ddScloff (e : DmaEntry) : Nat := bits e.d.toNat 99 80

/-- Positions per source row, and vectors per destination row, of a skew mode (Table 5.8). -/
def skewQ (k : Nat) : Nat := if k = 2 then 8 else if k = 3 then 2 else 4

/-- Destination rows of a transfer: ROWS, or those of the skewed stream (R190). -/
def ddTotal (e : DmaEntry) : Nat :=
  if ddRows e = 0 then 0
  else match ddSkew e with
    | 0 => ddRows e
    | 2 => 9 * cdiv (ddRows e + 127) 64
    | k => cdiv (ddRows e + 127) (skewQ k)

/-- A row address moved by a stride, modulo 2^32. -/
def strideRow (base : Nat) (i : Nat) (str : Int) : Nat := (((base : Int) + (i : Int) * str) % (2 ^ 32 : Nat)).toNat

/-! ### Rows of the issuing core (R187, 02 Table 2.7) -/

/-- The spaces a core's own DMA engine reaches. -/
def ownRow (core g : Nat) : Bool :=
  graValid g && ((graSpace g == 0 && graCoreId g == core) || (graSpace g == 1 && graCluster g == core / 8) ||
    (graSpace g == 2 && graCoreId g == core))

/-- One row read by the core's DMA. -/
def dmaRead (s : State) (core g : Nat) : RowData × State :=
  if ownRow core g then s.engRead core g else (0, s.onDev (fun d => d.ooaCore ooaDma core g))

/-- One row written by the core's DMA; ROWS_MOVED counts it. -/
def dmaPut (s : State) (core g : Nat) (r : RowData) : State :=
  if ownRow core g then
    (s.putRow g r).onCore core (fun c => { c with dctr := { c.dctr with rowsMoved := c.dctr.rowsMoved + 1 } })
  else s.onDev (fun d => d.ooaCore ooaDma core g)

/-! ### Skew (R190, R191) -/

/-- Source rows are read once, in order, into the window until row `hi` has been read. The window holds the rows that R190 still needs:
34 for SKEW 1 and 2 (R191), and 65 for SKEW 3, whose position m − 127 lies 64 rows back (DEDUCED, log entry 17). -/
def skewFill (core q : Nat) (src : Nat) (key : Nat) : Nat → State → State
  | 0, s => s
  | n + 1, s =>
    let s := skewFill core q src key n s
    if ((s.dev.core core).run q).window.any (fun w => decide (key + n ≤ w.1) && decide (w.1 < key + 2 ^ 20)) then s
    else
      let (r, s) := dmaRead s core ((src + n) % 2 ^ 32)
      s.onRun core q (fun x => { x with window := x.window.filter (fun w =>
        decide (w.1 < key) || decide (key + 2 ^ 20 ≤ w.1) || decide (key + n < w.1 + 66)) ++ [(key + n, r)] })

/-- A window row, zero where it is not held. -/
def winRow (x : DmaRun) (i : Nat) : Nat := (mapGet (fun _ => 0) x.window i).toNat

/-- Element k of stream vector m: element k of position m − k, or zero (R190). -/
def skewElem (x : DmaRun) (mode p m k : Nat) : Nat :=
  if k ≤ m ∧ m - k < p then
    let t := m - k
    match mode with
    | 1 => (winRow x (t / 4) >>> (8 * (128 * (t % 4) + k))) % 256
    | 2 => (winRow x (t / 8) >>> (8 * (64 * (t % 8)) + 4 * k)) % 16
    | _ => (winRow x (t / 2) >>> (8 * (256 * (t % 2)) + 16 * k)) % 65536
  else 0

/-- The elements of stream vector m packed; zero past the stream. -/
def skewVec (x : DmaRun) (mode p m : Nat) : Nat :=
  let w := if mode = 1 then 8 else if mode = 2 then 4 else 16
  if m < p + 127 then (List.range 128).foldl (fun a k => a + skewElem x mode p m k <<< (w * k)) 0 else 0

/-- The side-band of stream vector m: block b's scale of position m − 32b − 31, or zero (R190). -/
def skewSide (x : DmaRun) (p m : Nat) : Nat :=
  if m < p + 127 then
    (List.range 4).foldl (fun a b =>
      if 32 * b + 31 ≤ m ∧ m - (32 * b + 31) < p then
        let t := m - (32 * b + 31)
        a + ((winRow x (2 ^ 20 + t / 64) >>> (8 * (8 * (t % 64)) + 16 * b)) % 65536) <<< (16 * b)
      else a) 0
  else 0

/-- Destination row r of a skewed transfer, its source rows read first. -/
def skewRow (s : State) (core q : Nat) (e : DmaEntry) (r : Nat) : RowData × State :=
  let p := ddRows e
  let mode := ddSkew e
  if mode = 2 then
    let g := r / 9
    let s := skewFill core q (ddSrc e) 0 (min (8 * g + 8) (cdiv p 8)) s
    let s := skewFill core q ((ddSrc e + ddScloff e) % 2 ^ 32) (2 ^ 20) (min (g + 1) (cdiv p 64)) s
    let x := (s.dev.core core).run q
    if r % 9 = 8 then
      (BitVec.ofNat 4096 ((List.range 64).foldl (fun a i => a + skewSide x p (64 * g + i) <<< (64 * i)) 0), s)
    else
      (BitVec.ofNat 4096 ((List.range 8).foldl (fun a i => a + skewVec x 2 p (64 * g + 8 * (r % 9) + i) <<< (512 * i)) 0), s)
  else
    let v := skewQ mode
    let w := 4096 / v
    let s := skewFill core q (ddSrc e) 0 (min (r + 1) (cdiv p v)) s
    let x := (s.dev.core core).run q
    (BitVec.ofNat 4096 ((List.range v).foldl (fun a i => a + skewVec x mode p (v * r + i) <<< (w * i)) 0), s)

/-! ### One row of a transfer -/

/-- A queue's requests lost a bank or a port in `lost` cycles, and the queue waits meanwhile (R172). -/
def dmaLose (core q lost : Nat) (s : State) : State :=
  if lost = 0 then s
  else (s.onCore core (fun c => { c with dctr := { c.dctr with bankLoss := c.dctr.bankLoss + BitVec.ofNat 64 lost } })).onRun core q
    (fun x => { x with wait := 2 })

/-- The queue waits, with its WAIT code (Table 5.11). -/
def dmaWait (s : State) (core q why : Nat) : State := s.onRun core q (fun x => { x with wait := why })

/-- Source slots of a queue's READ that are requested whole and whose replies have not come: they are released when these land. -/
def slotsAsked (c : CoreSt) (q : Nat) : Nat := (c.outst.filter (fun o => o.queue == q && o.rel.isSome)).length

/-- Whether the next row's source may be read: a ring slot not published makes the queue wait (R181). -/
def srcReady (s : State) (core q : Nat) (e : DmaEntry) : Bool :=
  let c := s.dev.core core
  let x := c.run q
  if ddSre e then
    let r := ringDesc s core (ddSring e)
    decide (x.done % ringSlotRows r ≠ 0) || decide (slotsAsked c q < ringOcc r) || x.forcedSrc
  else true

/-- Whether the next row's destination may be written: a slot not released makes the queue wait (R181). -/
def dstReady (s : State) (core q : Nat) (e : DmaEntry) : Bool :=
  let x := (s.dev.core core).run q
  if ddDre e then
    let r := ringDesc s core (ddDring e)
    decide (x.done % ringSlotRows r ≠ 0) ||
      ((decide (ringOcc r ≠ ringSlots r) || x.forcedDst) &&
        -- a READ begins a slot when the replies of the slot before have landed
        (ddOpc e != 4 || (s.dev.core core).outst.all (fun o => !(o.reply && o.queue == q))))
  else true

/-- The next source row: its data, and a ring slot whose last row has been read is released (R180, R186, R190). -/
def srcRow (s : State) (core q : Nat) (e : DmaEntry) : RowData × State :=
  let i := ((s.dev.core core).run q).done
  if ddOpc e = 2 then
    let sr := ringSlotRows (ringDesc s core (ddSring e))
    (BitVec.ofNat 4096 ((List.range 128).foldl (fun a k => a + ddPattern e <<< (32 * k)) 0),
      if ddSre e && i % sr == sr - 1 then ringRelease s core (ddSring e) 1 else s)
  else if ddSkew e ≠ 0 then skewRow s core q e i
  else if ddSre e then
    let r := ringDesc s core (ddSring e)
    let sr := ringSlotRows r
    let (d, s) := dmaRead s core (ringRow r (ringHead r) (i % sr))
    (d, if i % sr = sr - 1 then ringRelease s core (ddSring e) 1 else s)
  else dmaRead s core (strideRow (ddSrc e) i (ddSstr e))

/-- The next destination row address, and the local ring to publish when that row lands (R179, R186). -/
def dstRow (s : State) (core q : Nat) (e : DmaEntry) : Nat × Option Nat :=
  let i := ((s.dev.core core).run q).done
  if ddDre e then
    let r := ringDesc s core (ddDring e)
    let sr := ringSlotRows r
    (ringRow r (ringTail r) (i % sr), if i % sr = sr - 1 then some (ddDring e) else none)
  else (strideRow (ddDst e) i (if ddSkew e ≠ 0 then 1 else ddDstr e), none)

/-- One row of a COPY or FILL: read, then written, or deferred behind an engine read of the same row (R174, R186). -/
def localRow (s : State) (core q : Nat) (e : DmaEntry) (meets : Bool) : State :=
  if !srcReady s core q e then (dmaWait s core q 1).onCore core (fun c => c.emptyTick (ddSring e) 1)
  else if !dstReady s core q e then (dmaWait s core q 1).onCore core (fun c => c.fullTick (ddDring e))
  else
    let (g, pub) := dstRow s core q e
    let (d, s) := srcRow s core q e
    let s := s.onRun core q (fun x => { x with done := x.done + 1, wait := if meets then 2 else 0, forcedSrc := false, forcedDst := false })
    if meets then
      s.onCore core (fun c => { c with
        deferred := c.deferred ++ [⟨g, d, some q, pub, none⟩], dctr := { c.dctr with bankLoss := c.dctr.bankLoss + 1 } })
    else
      let s := dmaPut s core g d
      match pub with
      | some k => ringPublish s core k 1
      | none => s

/-- Up to n rows of the head descriptor, while nothing of the queue is deferred or waiting. -/
def localLoop (core q : Nat) (e : DmaEntry) (meets : Bool) : Nat → State → State
  | 0, s => s
  | n + 1, s =>
    let c := s.dev.core core
    if ddTotal e ≤ (c.run q).done ∨ c.deferred.any (fun d => d.queue == some q) then s
    else
      let s' := localRow s core q e meets
      if ((s'.dev.core core).run q).done = (c.run q).done then s' else localLoop core q e meets n s'

/-- The descriptor at the head of a queue, when it carries an operation and its core runs. -/
def dmaHead (s : State) (core q opc : Nat) : Option DmaEntry :=
  if s.dev.coreRuns core then
    match (s.dev.core core).queue q with
    | e :: _ => if ddOpc e = opc then some e else none
    | [] => none
  else none

def execDmaCopy (core : CoreId) (q : Fin 4) (n : Nat) (meetsRead : WithLost Bool) (s : State) : Res :=
  ok (match dmaHead s core q 1 with
      | some e => localLoop core q e meetsRead.op (if meetsRead.op then 1 else n) (dmaLose core q meetsRead.lost s)
      | none => s)

def execDmaFill (core : CoreId) (q : Fin 4) (n : Nat) (meetsRead : WithLost Bool) (s : State) : Res :=
  ok (match dmaHead s core q 2 with
      | some e => localLoop core q e meetsRead.op (if meetsRead.op then 1 else n) (dmaLose core q meetsRead.lost s)
      | none => s)

/-! ### Packet transfers (R188, R189, 07) -/

/-- Whether a destination GRA range continues: rows of the next packet (R188): 8 rows where DSTR = 1, one otherwise; a
packet of a ring transfer, and a request to a ring's slots, does not pass its slot's end (log entry 17). -/
def pktRows (s : State) (core q : Nat) (e : DmaEntry) : Nat :=
  let x := (s.dev.core core).run q
  let left := ddTotal e - x.done
  let slotLeft := fun k => let sr := ringSlotRows (ringDesc s core k); sr - x.done % sr
  let n := if ddDre e ∨ ddSkew e ≠ 0 ∨ ddDstr e = 1 then 8 else 1
  let n := if ddDre e then min n (slotLeft (ddDring e)) else n
  let n := if ddSre e ∧ ddOpc e = 4 then min n (slotLeft (ddSring e)) else n
  min n left

/-- The next rows of a packet read from the source; none where a ring makes the queue wait. -/
def gatherRows (core q : Nat) (e : DmaEntry) : Nat → State → Option (List RowData) × State
  | 0, s => (some [], s)
  | n + 1, s =>
    if !srcReady s core q e then (none, (dmaWait s core q 1).onCore core (fun c => c.emptyTick (ddSring e) 1))
    else
      let (d, s) := srcRow s core q e
      let s := s.onRun core q (fun x => { x with done := x.done + 1, forcedSrc := false, forcedDst := false })
      match gatherRows core q e n s with
      | (some l, s) => (some (d :: l), s)
      | (none, s) => (none, s)

/-- Rows the next packet could take without meeting an unpublished source slot. -/
def readyRows (s : State) (core q : Nat) (e : DmaEntry) (n : Nat) : Nat :=
  if ddSre e then
    let x := (s.dev.core core).run q
    let r := ringDesc s core (ddSring e)
    let sr := ringSlotRows r
    let avail := if x.done % sr = 0 then (ringOcc r) * sr else (sr - x.done % sr) + (ringOcc r - 1) * sr
    let avail := if x.forcedSrc ∧ x.done % sr = 0 then max avail sr else avail
    min n avail
  else n

/-- The gate number a sender puts in its headers: that of the last gate it passed (07 Table 7.4). -/
def gateLo (sl : Slice) : Nat := (sl.gate + 65535) % 65536

/-- Whether a packet may be injected, and what holds it: its quota or its channel's credit (R234, R237). -/
inductive Inject where
  | yes
  | quota
  | credit
  deriving DecidableEq, Repr

def injectCheck (s : State) (core : Nat) (sl : Slice) (e : DmaEntry) (dst rows : Nat) : Inject :=
  if ddChan e = 1 then
    if (s.dev.core core).quotaReq < quotaOf sl 0 core then .yes else .quota
  else if ddChip e = s.dev.coord then
    match channelOf sl 0 core dst with
    | some (ch, cr) => if chanInUse sl 0 ch + rows ≤ cr then .yes else .credit
    | none => .yes
  else .yes

/-- What an injection uses: quota on the express class, credit on a slice channel. -/
def injectUse (s : State) (core : Nat) (sl : Slice) (e : DmaEntry) (dst rows flits : Nat) : State :=
  if ddChan e = 1 then s.onCore core (fun c => { c with quotaReq := c.quotaReq + flits })
  else if ddChip e = s.dev.coord then
    match channelOf sl 0 core dst with
    | some (ch, _) => s.onDev (fun d => d.updSlice sl.id (fun x => chanAdd x 0 ch rows))
    | none => s
  else s

/-- What a packet that is not injected counts: a cycle of QUOTA_WAIT, or its flits in CHAN_DEFER, once for the packet. -/
def injectHeld (s : State) (core q flits : Nat) (why : Inject) : State :=
  match why with
  | .yes => s
  | .quota => s.onDev (fun d => d.bumpWrap (regAddr 7 0x2C) 1)
  | .credit =>
    if ((s.dev.core core).run q).heldFlits then s
    else (s.onDev (fun d => d.bumpWrap (regAddr 7 0x30) flits)).onRun core q (fun x => { x with heldFlits := true })

/-- The traffic class of a transfer (07 Table 7.3): slice channel, express, scheduled, open. -/
def ddClass (s : State) (e : DmaEntry) : Nat :=
  if ddChip e = s.dev.coord then ddChan e else 2 + ddChan e

/-- The packet sequence of a queue advances, and the packet sent is counted in OUTSTANDING (R189). -/
def CoreSt.sent (c : CoreSt) (q : Nat) (o : OutPkt) : CoreSt :=
  { c with pktSeq := mapPut c.pktSeq q ((o.seq + 1) % 65536), outst := c.outst ++ [o] }

/-- One packet of WRITE, SUMWRITE or MCAST leaves (R179, R188, R189). DESIGN CHOICE (log entry 17): with DRE = 1 it goes to the mirror's
PEER_CHIP and PEER_CORE (R186), while its class and its injection follow the descriptor's CHIP and CHAN. -/
def sendPkt (s : State) (core q : Nat) (e : DmaEntry) : State :=
  match s.dev.sliceOf (core / 8) with
  | none => s
  | some sl =>
    let x := (s.dev.core core).run q
    if 1024 ≤ (s.dev.core core).outst.length then dmaWait s core q 3
    else if !dstReady s core q e then (dmaWait s core q 1).onCore core (fun c => c.fullTick (ddDring e))
    else
      let n := readyRows s core q e (pktRows s core q e)
      if n = 0 then (dmaWait s core q 1).onCore core (fun c => c.emptyTick (ddSring e) 1)
      else
        let (g, _) := dstRow s core q e
        let mirror := ringDesc s core (ddDring e)
        let chip := if ddDre e then ringPeerChip mirror else ddChip e
        let dcl := if ddDre e then ringPeerCore mirror / 8 else graCluster g
        let dcore := if ddDre e then ringPeerCore mirror % 8 else graCore g
        let flits := 8 * n + 1
        match injectCheck s core sl e (dcl * 8 + dcore) n with
        | .yes =>
          match gatherRows core q e n s with
          | (none, s) => s
          | (some rows, s) =>
            let sq := mapGet (fun _ => 0) (s.dev.core core).pktSeq q
            let op := if ddOpc e = 5 then 3 else if ddOpc e = 6 then 4 else 0
            let arg := if op = 3 then ddRtag e <<< 11 + ddRfmt e <<< 10 else if op = 4 then ddTree e <<< 18 else 0
            let h : LongHdr :=
              { cls := ddClass s e, op := op, slice := sl.id, gen := s.dev.genFor sl.id chip dcl, dchip := chip, dcl := dcl,
                dcore := dcore, gra := g, len := 8 * n, seq := sq, oparg := arg, schip := s.dev.coord, score := core,
                squeue := q, gate := gateLo sl, sat := 0, nan := 0, reply := 0, crc := 0 }
            let s := (injectUse s core sl e (dcl * 8 + dcore) n flits).onDev (fun d => d.sendFrom (core / 8) (mkLong h rows))
            let s := s.onCore core (fun c => c.sent q ⟨q, sq, false, e.seq, none, none, chip, gateLo sl, false⟩)
            let s := s.onCore core (fun c => { c with dctr := { c.dctr with rowsMoved := c.dctr.rowsMoved + BitVec.ofNat 64 n } })
            let s := s.onRun core q (fun x => { x with wait := 0, heldFlits := false })
            -- the mirror's TAIL advances when the last row of the slot is sent
            if ddDre e ∧ (x.done + n) % ringSlotRows mirror = 0 then ringPublish s core (ddDring e) 1 else s
        | w => injectHeld s core q flits w

/-- Up to n packets of the head descriptor. -/
def sendLoop (core q : Nat) (e : DmaEntry) : Nat → State → State
  | 0, s => s
  | n + 1, s =>
    let d0 := ((s.dev.core core).run q).done
    if ddTotal e ≤ d0 then s
    else
      let s' := sendPkt s core q e
      if ((s'.dev.core core).run q).done = d0 then s' else sendLoop core q e n s'

/-- Flits of a slice channel that were not ready in their owned cycles and left in later ones (07 R233): CHAN_DEFER. -/
def chanLate (core q late : Nat) (e : DmaEntry) (s s' : State) : State :=
  if ddClass s e = 0 ∧ ((s'.dev.core core).run q).done ≠ ((s.dev.core core).run q).done then
    s'.onDev (fun d => d.bumpWrap (regAddr 7 0x30) late)
  else s'

/-- Packets of the head descriptor, when it carries operation `opc`. -/
def dmaSend (core : CoreId) (q : Fin 4) (opc : Nat) (x : SendTurn) (s : State) : State :=
  match dmaHead s core q opc with
  | some e => chanLate core q x.late e s (sendLoop core q e x.n (dmaLose core q x.lost s))
  | none => s

def execDmaWrite (core : CoreId) (q : Fin 4) (n : SendTurn) (s : State) : Res := ok (dmaSend core q 3 n s)
def execDmaSumwrite (core : CoreId) (q : Fin 4) (n : SendTurn) (s : State) : Res := ok (dmaSend core q 5 n s)
def execDmaMcast (core : CoreId) (q : Fin 4) (n : SendTurn) (s : State) : Res := ok (dmaSend core q 6 n s)

/-- The first source row of a READ's next request: a row of the source, or of the slots of the source ring in order. -/
def readFrom (s : State) (core q : Nat) (e : DmaEntry) : Nat :=
  let c := s.dev.core core
  let i := (c.run q).done
  if ddSre e then
    let r := ringDesc s core (ddSring e)
    ringRow r (ringHead r + slotsAsked c q) (i % ringSlotRows r)
  else strideRow (ddSrc e) i (ddSstr e)

/-- The ring whose slot `n` more rows complete, if the flag names one. -/
def slotEnd (s : State) (core : Nat) (flag : Bool) (ring i n : Nat) : Option Nat :=
  if flag ∧ (i + n) % ringSlotRows (ringDesc s core ring) = 0 then some ring else none

/-- One read request leaves: up to 8 rows where DSTR = 1, one otherwise (07 R246). -/
def sendRead (s : State) (core q : Nat) (e : DmaEntry) : State :=
  match s.dev.sliceOf (core / 8) with
  | none => s
  | some sl =>
    let x := (s.dev.core core).run q
    if 1024 ≤ (s.dev.core core).outst.length then dmaWait s core q 3
    else if !srcReady s core q e then (dmaWait s core q 1).onCore core (fun c => c.emptyTick (ddSring e) 1)
    else if !dstReady s core q e then (dmaWait s core q 1).onCore core (fun c => c.fullTick (ddDring e))
    else
      let n := pktRows s core q e
      let g := readFrom s core q e
      let dcl := graCluster g
      match injectCheck s core sl e (dcl * 8 + graCore g) 0 with
      | .yes =>
        let (dst, _) := dstRow s core q e
        let sq := mapGet (fun _ => 0) (s.dev.core core).pktSeq q
        let h : LongHdr :=
          { cls := ddClass s e, op := 1, slice := sl.id, gen := s.dev.genFor sl.id (ddChip e) dcl, dchip := ddChip e,
            dcl := dcl, dcore := graCore g, gra := g, len := 0, seq := sq,
            oparg := n <<< 19 + toField 12 (if ddSre e then 1 else ddSstr e) <<< 7, schip := s.dev.coord, score := core,
            squeue := q, gate := gateLo sl, sat := 0, nan := 0, reply := dst, crc := 0 }
        let pub := slotEnd s core (ddDre e) (ddDring e) x.done n
        let rel := slotEnd s core (ddSre e) (ddSring e) x.done n
        let s := (injectUse s core sl e (dcl * 8 + graCore g) 0 1).onDev (fun d => d.sendFrom (core / 8) (mkLong h []))
        -- a slot of which an earlier reply did not land is not published
        let s := s.onCore core (fun c => c.sent q ⟨q, sq, true, e.seq, if x.torn then none else pub, rel, ddChip e, gateLo sl, false⟩)
        s.onRun core q (fun x => { x with
          done := x.done + n, wait := 0, forcedSrc := false, forcedDst := false, heldFlits := false,
          torn := x.torn && pub.isNone })
      | w => injectHeld s core q 1 w

def readLoop (core q : Nat) (e : DmaEntry) : Nat → State → State
  | 0, s => s
  | n + 1, s =>
    let d0 := ((s.dev.core core).run q).done
    if ddTotal e ≤ d0 then s
    else
      let s' := sendRead s core q e
      if ((s'.dev.core core).run q).done = d0 then s' else readLoop core q e n s'

def execDmaRead (core : CoreId) (q : Fin 4) (n : RequestTurn) (s : State) : Res :=
  ok (match dmaHead s core q 4 with | some e => chanLate core q n.late e s (readLoop core q e n.n s) | none => s)

/-! ### The DX slot, completion, waits -/

def execDxNop (core : CoreId) (s : State) : Res := ok (s.slot core (fun s => s))

/-- The descriptor and both registers are read at issue (R183, R184). -/
def dxRun (core : Nat) (f : DxFields) (s : State) : State :=
  let c := s.dev.core core
  let k := f.desc.toNat
  let word := stateWord s core 4 k
  s.onCore core (fun c' => c'.setQueue f.queue (c'.queue f.queue ++
    [⟨k, BitVec.ofNat 256 word, (if bits word 255 252 = 2 then 0 else (c.sreg f.sreg.toNat).toNat % 2 ^ 32),
      (c.sreg f.dreg.toNat).toNat % 2 ^ 32, c.seq⟩]))

/-- DX.RUN; a full queue of eight makes issue wait and counts DX_WAIT (R183). -/
def execDxRun (core : CoreId) (f : DxFields) (s : State) : Res :=
  ok (s.slotOr core false (fun c => decide ((c.queue f.queue).length < 8)) (dxRun core f)
    (fun s => s.onCore core (fun c => { c with dctr := { c.dctr with dxWait := c.dctr.dxWait + 1 } })))

/-- The head descriptor leaves its queue once its rows have moved, none of its writes is deferred and every reply of its READ has
landed (R183, R194; 06 Table 6.4). -/
def execDmaDescriptorDone (core : CoreId) (q : Fin 4) (s : State) : Res :=
  ok (s.onCore core (fun c =>
    match c.queue q with
    | e :: t =>
      if ddTotal e ≤ (c.run q).done ∧ c.deferred.all (fun d => d.queue ≠ some q.val) ∧
          c.outst.all (fun o => !(o.reply && o.queue == q.val)) then (c.setQueue q t).setRun q {} else c
    | [] => c))

/-- Whether a queue's head waits at its start of a slot of ring k, as consumer or as producer. -/
def waitsAsConsumer (s : State) (core q k : Nat) : Bool :=
  match (s.dev.core core).queue q with
  | e :: _ => ddSre e && ddSring e == k && !srcReady s core q e && decide (((s.dev.core core).run q).wait = 1)
  | [] => false
def waitsAsProducer (s : State) (core q : Nat) : Option Nat :=
  match (s.dev.core core).queue q with
  | e :: _ => if ddDre e && !dstReady s core q e && decide (((s.dev.core core).run q).wait = 1) then some (ddDring e) else none
  | [] => none

/-- One queue's wait at ring k ends when its slot is ready (R181). -/
def clearRingWait (core k : Nat) (s : State) (q : Nat) : State :=
  match (s.dev.core core).queue q with
  | e :: _ =>
    if ((s.dev.core core).run q).wait = 1 ∧ ((ddSre e ∧ ddSring e = k) ∨ (ddDre e ∧ ddDring e = k)) ∧ srcReady s core q e ∧ dstReady s core q e
    then s.onRun core q (fun x => { x with wait := 0 }) else s
  | [] => s

/-- A DMA producer has waited G cycles: the slot is written although it is not released, and published (R182). -/
def execRingOverflow (core : CoreId) (q : Fin 4) (s : State) : Res :=
  ok (match waitsAsProducer s core q with
      | some k => (s.onDev (fun d => d.overflow core k)).onRun core q (fun x => { x with wait := 0, forcedDst := true })
      | none => s)

end Sys2Proof.Machine
end

