-- ==== Sys2Proof/Machine/Matrix.lean ====
section
/-! DEFINITION. The matrix array: formats, planes, feeds and accumulation (03). -/

namespace Sys2Proof.Machine

/-! ### Formats (03 Tables 3.1–3.5) -/

/-- Whether a weight and activation format pair is in Table 3.2. -/
def mxPairOk (w a : Nat) : Bool :=
  match w with
  | 0 | 1 => decide (a = 0 ∨ a = 1)
  | 2 => decide (a = 2)
  | 3 | 4 | 5 => decide (a = 0 ∨ a = 1 ∨ a = 3 ∨ a = 4)
  | 6 => decide (a = 0 ∨ a = 1)
  | 7 => decide (a = 5)
  | _ => false

/-- Sub-lanes per cell (R83). -/
def mxSubLanes (w : Nat) : Nat := if w = 3 ∨ w = 4 ∨ w = 5 then 2 else if w = 6 then 4 else 1

/-- Rows of a plane image (Table 3.5). -/
def mxImageRows (w : Nat) : Nat :=
  match w with
  | 3 => 34 | 4 => 36 | 5 => 37 | 6 => 36 | 7 => 64 | _ => 32

/-- Layout class of an activation format: 0 128-byte, 1 64-byte with side-band, 2 BF16 (R86). -/
def mxClass (a : Nat) : Nat := if a = 3 ∨ a = 4 then 1 else if a = 5 then 2 else 0

/-- The blocks of a pair: count and rows per block (03 section 4). -/
def mxBlocks (w a : Nat) : Nat × Nat :=
  if w = 6 then (2, 64) else if w = 3 ∨ w = 4 ∨ w = 5 ∨ a = 3 ∨ a = 4 then (4, 32) else (1, 128)

/-- A value after the replacement of special codes (R88): value, NAN count, CLIP count. -/
def mxReplace (f : FloatFmt) (d : Decoded) : Dy × Nat × Nat :=
  match d with
  | .val v => (v, 0, 0)
  | .nan => (Dy.zero, 1, 0)
  | .inf neg => (fmtMax f neg, 0, 1)

/-- A weight code's value (Tables 3.3 and 3.4). -/
def mxWeight (w c : Nat) : Dy × Nat × Nat :=
  match w with
  | 0 => mxReplace fmtE4m3 (decodeE4m3 c)
  | 1 => mxReplace fmtE5m2 (decodeIeee fmtE5m2 c)
  | 2 => (dyOfInt (sext 8 c), 0, 0)
  | 3 => (fmtValue fmtFp4 c, 0, 0)
  | 4 | 5 => (dyOfInt (sext 4 c), 0, 0)
  | 6 => if c % 4 = 1 then (⟨false, 1, 0⟩, 0, 0) else if c % 4 = 3 then (⟨true, 1, 0⟩, 0, 0)
         else if c % 4 = 2 then (Dy.zero, 1, 0) else (Dy.zero, 0, 0)
  | _ => mxReplace fmtBf16 (decodeIeee fmtBf16 c)

/-- An element's value. -/
def mxElem (a c : Nat) : Dy × Nat × Nat :=
  match a with
  | 0 => mxReplace fmtE4m3 (decodeE4m3 c)
  | 1 => mxReplace fmtE5m2 (decodeIeee fmtE5m2 c)
  | 2 => (dyOfInt (sext 8 c), 0, 0)
  | 3 => (fmtValue fmtFp4 c, 0, 0)
  | 4 => (dyOfInt (sext 4 c), 0, 0)
  | _ => mxReplace fmtBf16 (decodeIeee fmtBf16 c)

/-- An FP16 scale: none where NaN (the block contributes nothing). -/
def mxScaleF16 (c : Nat) : Option Dy × Nat × Nat :=
  match decodeIeee fmtF16 c with
  | .val v => (some v, 0, 0)
  | .nan => (none, 1, 0)
  | .inf neg => (some (fmtMax fmtF16 neg), 0, 1)

/-- An E8M0 scale. -/
def mxScaleE8 (c : Nat) : Option Dy × Nat × Nat :=
  match decodeE8m0 c with
  | .val v => (some v, 0, 0)
  | _ => (none, 1, 0)

/-- Image row i of a plane (rows past the image read zeros). -/
def planeRow (p : MxPlane) (i : Nat) : Nat := (p.img.getD i 0).toNat
/-- Byte b of a row. -/
def rowByte (r b : Nat) : Nat := (r >>> (8 * b)) % 256
/-- The 16-bit little-endian value at byte b. -/
def rowHalf (r b : Nat) : Nat := (r >>> (8 * b)) % 65536

/-- The weight code of cell (k, n), sub-lane j (R97). -/
def cellCode (p : MxPlane) (k n j : Nat) : Nat :=
  let w := p.wfmt.toNat
  if w = 7 then rowHalf (planeRow p (k / 2)) (256 * (k % 2) + 2 * n)
  else
    let b := rowByte (planeRow p (k / 4)) (128 * (k % 4) + n)
    match mxSubLanes w with
    | 1 => b
    | 2 => (b >>> (4 * j)) % 16
    | _ => (b >>> (2 * j)) % 4

/-- The weight scale of feature f in block b (R98); 1 where the format has none (03 section 4). -/
def planeScale (p : MxPlane) (b f : Nat) : Option Dy × Nat × Nat :=
  match p.wfmt.toNat with
  | 3 => mxScaleE8 (rowByte (planeRow p (32 + b / 2)) (256 * (b % 2) + f))
  | 4 | 5 => mxScaleF16 (rowHalf (planeRow p (32 + b)) (2 * f))
  | 6 => mxScaleF16 (rowHalf (planeRow p (32 + 2 * b + f / 256)) (2 * (f % 256)))
  | _ => (some ⟨false, 1, 0⟩, 0, 0)

/-- Whether block b of feature f is active: only INT4-LOW has flags (R98, R110). -/
def planeFlag (p : MxPlane) (b f : Nat) : Bool :=
  if p.wfmt.toNat = 5 then bitAt (planeRow p 36) (256 * b + f) else true

/-- Whether any block of a low plane is flagged (R111). -/
def planeAnyFlag (p : MxPlane) : Bool := p.wfmt.toNat == 5 && (planeRow p 36) % 2 ^ 1024 != 0

/-- The replacements made once per LOAD: weights and weight scales (R88). -/
def planeTally (p : MxPlane) : Nat × Nat :=
  let w := p.wfmt.toNat
  let add := fun (a : Nat × Nat) (t : Nat × Nat) => (a.1 + t.1, a.2 + t.2)
  let cells := (List.range 128).foldl (fun a k => (List.range 128).foldl (fun a n =>
    (List.range (mxSubLanes w)).foldl (fun a j => add a (mxWeight w (cellCode p k n j)).2) a) a) (0, 0)
  if w = 3 ∨ w = 4 ∨ w = 5 ∨ w = 6 then
    (List.range (mxBlocks w 0).1).foldl (fun a b => (List.range (128 * mxSubLanes w)).foldl (fun a f =>
      add a (planeScale p b f).2) a) cells
  else cells

/-! ### Feed vectors -/

/-- Element code k of a vector in its layout class (R101). -/
def vecCode (cls : Nat) (raw : BitVec 2048) (k : Nat) : Nat :=
  match cls with
  | 0 => (raw.toNat >>> (8 * k)) % 256
  | 1 => (raw.toNat >>> (4 * k)) % 16
  | _ => (raw.toNat >>> (16 * k)) % 65536

/-- Side-band field b as an activation scale (R101, R103). -/
def sideScale (a : Nat) (side : DWord) (b : Nat) : Option Dy × Nat × Nat :=
  if a = 3 then mxScaleE8 ((side.toNat >>> (16 * b)) % 256)
  else if a = 4 then mxScaleF16 ((side.toNat >>> (16 * b)) % 65536)
  else (some ⟨false, 1, 0⟩, 0, 0)

/-- The replacements a feed vector carries (R88): NAN and CLIP counts. Element k and the scale of block b are decoded in the activation
format of the plane that their array rows use in this feed step, `afmt k` (R100, R103). -/
def vecTally (afmt : Nat → Nat) (cls : Nat) (raw : BitVec 2048) (side : DWord) : Nat × Nat :=
  let e := (List.range 128).foldl (fun t k => let r := (mxElem (afmt k) (vecCode cls raw k)).2; (t.1 + r.1, t.2 + r.2)) (0, 0)
  if cls = 1 then
    (List.range 4).foldl (fun t b => let r := (sideScale (afmt (32 * b + 31)) side b).2; (t.1 + r.1, t.2 + r.2)) e
  else e

/-! ### Positions (R89–R91, R104, R113) -/

/-- An FP32 pattern as a value, and a rounded sum with its saturation. -/
def f32AddSat (p : Nat × Bool) (d : Dy) : Nat × Bool :=
  let r := rneSat (dyAdd (f32v p.1) d)
  (r.1, p.2 || r.2)

/-- One output value of a normal pass for column n, sub-lane j: the vectors are those of the 128 stream positions from
the position itself (R89, R90). A sum whose products are all −0 is −0 for BF16, as its pseudocode forms it; a row still on the old plane
decodes an element of another layout class in the old plane's format (R100; log entry 21). -/
def normalValue (p : MxPlane) (vecs : List StreamVec) (n j : Nat) : Nat × Bool :=
  let w := p.wfmt.toNat
  let a := p.afmt.toNat
  let prod := fun (v : StreamVec) (k : Nat) => dyMul (mxWeight w (cellCode p k n j)).1 (mxElem a (vecCode v.cls v.raw k)).1
  let ks := vecs.zipIdx
  if w = 7 then
    ks.foldl (fun acc (v, k) =>
      let m := rneSat (prod v k)
      if k = 0 then m else
        let r := f32AddSat acc (f32v m.1)
        (r.1, r.2 || m.2)) (0, false)
  else
    let (nb, rows) := mxBlocks w a
    let f := 128 * j + n
    (List.range nb).foldl (fun acc b =>
      if planeFlag p b f then
        let ws := (planeScale p b f).1
        let sv := vecs.getD (rows * b + 31) ⟨0, 0, 0, {}, 0, false, 0, 0, 0⟩
        match ws, (sideScale a sv.side b).1 with
        | some ws, some as =>
          let s := ((ks.drop (rows * b)).take rows).foldl (fun s (v, k) => dyAdd s (prod v k)) Dy.zero
          let v := rneSat (dyMul (dyMul s ws) as)
          let r := f32AddSat acc (f32v v.1)
          (r.1, r.2 || v.2)
        | _, _ => acc
      else acc) (0, false)

/-- One slot's sum along array row k of a transposed pass (R112, R113): vector i of the slot's 128 carries element i. -/
def transValue (p : MxPlane) (vecs : List StreamVec) (k j : Nat) : Nat × Bool :=
  let w := p.wfmt.toNat
  let a := p.afmt.toNat
  let ns := vecs.zipIdx
  let prod := fun (v : StreamVec) (n : Nat) => dyMul (mxWeight w (cellCode p k n j)).1 (mxElem a (vecCode v.cls v.raw n)).1
  if w = 0 ∨ w = 1 ∨ w = 2 then
    rneSat (ns.foldl (fun s (v, n) => dyAdd s (prod v n)) Dy.zero)
  else
    let rows := (mxBlocks w a).2
    ns.foldl (fun acc (v, n) =>
      let f := 128 * j + n
      if planeFlag p (k / rows) f then
        match (planeScale p (k / rows) f).1 with
        | some ws =>
          let m := rneSat (dyMul (prod v n) ws)
          let r := f32AddSat acc (f32v m.1)
          (r.1, r.2 || m.2)
        | none => acc
      else acc) (0, false)

/-- An accumulator entry from 128 FP32 columns, column n in bytes 4n to 4n + 3 (R106). -/
def packRow32 (l : List Nat) : RowData := BitVec.ofNat 4096 (l.zipIdx.foldl (fun a (v, i) => a + v <<< (32 * i)) 0)
/-- Column n of an accumulator entry. -/
def col32 (r : RowData) (n : Nat) : Nat := (r.toNat >>> (32 * n)) % 2 ^ 32

/-- 128 output values written to an accumulator entry by ACC (R91); each saturated output value counts 1 in SAT. An entry pattern of an
infinity or NaN, which only a DMA write can leave, is added as the value its fields would give a finite number, beyond the largest
finite one (log entry 21). An entry that ACC = 1 reads is checked, and the write leaves it without error (14 Table 14.6). -/
def accWrite (s : State) (core : Nat) (acc : Nat) (half : Bool) (entry : Nat) (vals : List (Nat × Bool)) : State :=
  if acc = 2 then s.onCore core (fun c => c.count 0 (vals.filter (fun v => v.2)).length 0)
  else
    let g := accGra core (256 * b2n half + entry % 256)
    let (old, s) := if acc = 1 then s.engRead core g else ((0 : RowData), s)
    let out := vals.zipIdx.map (fun (v, n) =>
      if acc = 1 then f32AddSat v (f32v (col32 old n)) else v)
    let sat := (out.filter (fun v => v.2)).length
    ((s.putRow g (packRow32 (out.map (fun v => v.1)))).onDev (fun d => d.mendRow g)).onCore core (fun c => c.count 0 sat 0)

/-- The position that begins with the first of 128 stream vectors completes (R102, R104, R107). -/
def completePos (s : State) (core : Nat) (vecs : List StreamVec) : State :=
  match vecs with
  | [] => s
  | v0 :: _ =>
    let p := v0.plane
    let w := mxSubLanes p.wfmt.toNat
    let acc := v0.acc.toNat
    if p.trans then
      let sums := (List.range 128).map (fun k => transValue p vecs k v0.sub)
      let enc := sums.map (fun v => v.1 + b2n v.2 <<< 32)
      -- slot 0 begins a position: slots of an unfinished one before it are dropped
      let parts := (if v0.sub = 0 then [] else (s.dev.core core).tpart) ++ [enc]
      if v0.sub + 1 < w then s.onCore core (fun c => { c with tpart := parts })
      else
        let tot := (List.range 128).map (fun k =>
          parts.foldl (fun (a : Option (Nat × Bool)) l =>
            let x := l.getD k 0
            match a with
            | none => some (x % 2 ^ 32, decide (2 ^ 32 ≤ x))
            | some a =>
              let r := f32AddSat a (f32v (x % 2 ^ 32))
              some (r.1, r.2 || decide (2 ^ 32 ≤ x))) none)
        let s := s.onCore core (fun c => { c with tpart := [] })
        accWrite s core acc v0.half v0.entry (tot.map (fun o => o.getD (0, false)))
    else
      (List.range w).foldl (fun s j =>
        accWrite s core acc v0.half (v0.entry + j) ((List.range 128).map (fun n => normalValue p vecs n j))) s

/-- One vector enters the array: the stream keeps its last 127 vectors, and the position of the 128th before completes. -/
def pushVec (s : State) (core : Nat) (v : StreamVec) : State :=
  let c := s.dev.core core
  let l := c.stream ++ [v]
  if l.length < 128 then s.onCore core (fun c => { c with stream := l })
  else completePos (s.onCore core (fun c => { c with stream := l.drop (l.length - 127) })) core (l.drop (l.length - 128))

/-! ### Sources of a FEED (R101, R120, 05 R181, 06 R204) -/

/-- Row of vector v, and byte offset within it, for a layout class; and the side-band's row. -/
def vecRow (cls v : Nat) : Nat :=
  match cls with | 0 => v / 4 | 1 => 9 * (v / 64) + (v % 64) / 8 | _ => v / 2
def vecByte (cls v : Nat) : Nat :=
  match cls with | 0 => 128 * (v % 4) | 1 => 64 * (v % 8) | _ => 256 * (v % 2)
def vecBits (cls : Nat) : Nat := match cls with | 0 => 1024 | 1 => 512 | _ => 2048
def sideRow (v : Nat) : Nat := 9 * (v / 64) + 8

/-- A vector's raw elements out of its row. -/
def vecRaw (cls v : Nat) (row : RowData) : BitVec 2048 :=
  BitVec.ofNat 2048 ((row.toNat >>> (8 * vecByte cls v)) % 2 ^ vecBits cls)
/-- A vector's side-band field out of row 8 of its group. -/
def vecSide (v : Nat) (row : RowData) : DWord := BitVec.ofNat 64 (row.toNat >>> (64 * (v % 64)))

/-- A feed read of one pad row: outside the core's own pad it is an out-of-allocation row access (R120, 10 R348). -/
def feedRow (s : State) (core g : Nat) : RowData × State :=
  if graValid g ∧ graSpace g = 0 ∧ graCoreId g = core then s.engRead core g
  else (0, s.onDev (fun d => d.ooaCore ooaRead core g))

/-- A pad row of a FEED: the row being fed is not read again, whether this FEED or the one before it read it, and the next row comes from
the row that this FEED has read ahead (06 R203, R204). -/
def feedStaged (s : State) (core g : Nat) : RowData × State :=
  let c := s.dev.core core
  if c.feedStage.any (fun e => e.gra == g) then ((c.feedStage.map Staged.row).getD 0, s)
  else
    let (r, s) := match c.feedAhead with
      | some e => if e.gra = g then (e.row, s) else feedRow s core g
      | none => feedRow s core g
    (r, s.onCore core (fun c => { c with feedStage := some ⟨g, r⟩, feedAhead := none }))

/-- The next row of a FEED is read ahead, unless it is the row being fed (06 R203). -/
def feedAheadOf (s : State) (core g : Nat) : State :=
  if (s.dev.core core).feedStage.any (fun e => e.gra == g) then s
  else
    let (r, s) := feedRow s core g
    s.onCore core (fun c => { c with feedAhead := some ⟨g, r⟩ })

/-- The last vector that reads a sequence row (R120). -/
def lastVecOfRow (cls r : Nat) : Nat :=
  match cls with
  | 0 => 4 * r + 3
  | 1 => if r % 9 = 8 then 64 * (r / 9) + 63 else 64 * (r / 9) + 8 * (r % 9) + 7
  | _ => 2 * r + 1

/-- The position after the last vector read, for vectors of another layout class: they count from the row that holds the next byte not
read, and begin at the first of them that starts at or after that byte (log entry 21). -/
def RingPos.toClass (p : RingPos) (cls : Nat) : RingPos :=
  if p.cls = cls then p
  else { p with base := p.base + vecRow p.cls p.v, v := cdiv (vecByte p.cls p.v) (vecBits cls / 8), cls := cls }

/-- Where ring-mode FEEDs of a layout class stand on ring k; after a resume or a LOAD, vectors count from the slot at HEAD (R120). -/
def ringAt (s : State) (core k cls : Nat) : RingPos :=
  let p := mapGet (fun _ => {}) (s.dev.core core).ringPos k
  if p.restart then { p with base := ringSlotRows (ringDesc s core k) * p.done, v := 0, cls := cls, restart := false } else p.toClass cls

/-- The slot, counted from the launch, that the next vector of ring k needs. -/
def ringNeed (s : State) (core k cls : Nat) : Nat :=
  let p := ringAt s core k cls
  (p.base + (if cls = 1 then sideRow p.v else vecRow cls p.v)) / ringSlotRows (ringDesc s core k)

/-- Whether that slot may be read: it is published, or a wait of G cycles at it has ended (05 R181, R182). -/
def ringHas (s : State) (core k cls : Nat) : Bool :=
  decide (ringNeed s core k cls < max ((ringAt s core k cls).done + ringOcc (ringDesc s core k)) (mapGet (fun _ => 0) (s.dev.core core).ringForced k))

/-- The next vector of ring k, with every slot released whose last row's last vector it is (R120). The rows read take the place of
those that the engine held staged (06 R204). -/
def ringVec (s : State) (core k cls : Nat) : (BitVec 2048 × DWord) × State :=
  let rd := ringDesc s core k
  let sr := ringSlotRows rd
  let p := ringAt s core k cls
  let gra := fun r => ringRow rd (ringHead rd + (r / sr - p.done)) (r % sr)
  let g := gra (p.base + vecRow cls p.v)
  let (e, s) := feedRow s core g
  let (sd, s) := if cls = 1 then feedRow s core (gra (p.base + sideRow p.v)) else ((0 : RowData), s)
  let n := ((List.range 10).takeWhile (fun i => decide (p.base < sr * (p.done + i + 1)) &&
    decide (lastVecOfRow cls (sr * (p.done + i + 1) - 1 - p.base) ≤ p.v))).length
  let s := s.onCore core (fun c => { c with
    ringPos := mapPut c.ringPos k { p with v := p.v + 1, done := p.done + n }
    feedStage := some ⟨g, e⟩, feedAhead := none })
  ((vecRaw cls p.v e, vecSide p.v sd), if n = 0 then s else ringRelease s core k n)

/-! ### Running a FEED -/

/-- The plane in use and the other (R81). -/
def CoreSt.active (c : CoreSt) : MxPlane := if c.activeB then c.planeB else c.planeA

/-- One vector of a FEED enters with its position's data; a swap vector changes the active plane first (R100). The plane's parity is
checked as it does (14 Table 14.6). -/
def feedPush (s : State) (core : Nat) (f : MxFeedFields) (seq i : Nat) (raw : BitVec 2048) (side : DWord) : State :=
  let swap := (s.dev.core core).swapNext
  let s := if swap then s.onCore core (fun c => { c with activeB := !c.activeB, swapNext := false }) else s
  let p := (s.dev.core core).active
  let s := s.onDev (fun d => d.cellRead core (.plane (d.core core).activeB))
  let a := p.afmt.toNat
  let cls := mxClass a
  let w := mxSubLanes p.wfmt.toNat
  let planes := p :: (s.dev.core core).stream.reverse.map (fun v => v.plane)
  let (nan, clip) := vecTally (fun k => (planes.getD k {}).afmt.toNat) cls raw side
  let s := s.onCore core (fun c => c.count clip 0 nan)
  let (entry, sub) := if p.trans then (f.entry.toNat + i / w, i % w) else (f.entry.toNat + w * i, 0)
  pushVec s core ⟨raw, side, cls, p, f.acc, f.half, entry % 256, sub, seq⟩

/-- The layout class of the next vector: that of the plane active at array row 0 when it enters (R100). -/
def nextClass (c : CoreSt) : Nat :=
  let b := if c.swapNext then !c.activeB else c.activeB
  mxClass (if b then c.planeB else c.planeA).afmt.toNat

/-- The side-band row of a pad FEED's vector: the group's row that this FEED has read, else read now (R101). -/
def feedSide (s : State) (core g : Nat) (held : Option Staged) : Staged × State :=
  match held with
  | some e => if e.gra = g then (e, s) else let (r, s) := feedRow s core g; (⟨g, r⟩, s)
  | none => let (r, s) := feedRow s core g; (⟨g, r⟩, s)

/-- Feeds vectors i, i + 1, … of a FEED; a ring-mode FEED stops at a slot that is not published (R105, R120). `side` is the side-band
row that a pad FEED has read. -/
def feedLoop (core : Nat) (f : MxFeedFields) (base seq : Nat) (side : Option Staged) : Nat → Nat → State → State
  | 0, _, s => s.onCore core (fun c => { c with feedRun := none })
  | k + 1, i, s =>
    let cls := nextClass (s.dev.core core)
    if f.srcsel then
      if ringHas s core f.sreg.toNat cls then
        let ((raw, sd), s) := ringVec s core f.sreg.toNat cls
        feedLoop core f base seq none k (i + 1) (feedPush s core f seq i raw sd)
      else s.onCore core (fun c => ({ c with feedRun := some ⟨f, base, i, seq⟩ }).emptyTick f.sreg.toNat 1)
    else
      let v := f.voff.toNat + i
      let (e, s) := feedStaged s core ((base + vecRow cls v) % 2 ^ 32)
      let s := if k = 0 then s else feedAheadOf s core ((base + vecRow cls (v + 1)) % 2 ^ 32)
      if cls = 1 then
        let (sd, s) := feedSide s core ((base + sideRow v) % 2 ^ 32) side
        feedLoop core f base seq (some sd) k (i + 1) (feedPush s core f seq i (vecRaw cls v e) (vecSide v sd.row))
      else feedLoop core f base seq side k (i + 1) (feedPush s core f seq i (vecRaw cls v e) 0)

/-- A FEED at the head of the queue starts (R120, R121): PAIRED counts a low pass with a flagged block (R111); a FEED that discards
its positions is no pass of its plane (log entry 21). -/
def feedStart (s : State) (core : Nat) (f : MxFeedFields) (base seq : Nat) : State :=
  let s := s.onCore core (fun c => { c with mxQ := c.mxQ.tail, swapNext := c.swapNext || f.swap })
  if f.count = 0 then s
  else
    let c := s.dev.core core
    let p := if c.swapNext then (if c.activeB then c.planeA else c.planeB) else c.active
    let s := if planeAnyFlag p && f.acc.toNat != 2 then
        s.onCore core (fun c => { c with tally := { c.tally with paired := BitVec.ofNat 64 (satAdd 64 c.tally.paired.toNat 1) } })
      else s
    feedLoop core f base seq none f.count.toNat 0 s

/-- One cycle counted in MX_STALL, which wraps (R118). -/
def CoreSt.mxStallTick (c : CoreSt) (n : Nat) : CoreSt :=
  { c with tally := { c.tally with mxStall := c.tally.mxStall + BitVec.ofNat 64 n } }

/-- The head of the MX queue starts if it is a FEED, the feed path is free, and the plane it swaps to has loaded; a swap
that waits for its LOAD counts in MX_STALL (R100, R121). -/
def feedTryStart (s : State) (core : Nat) : State :=
  let c := s.dev.core core
  match c.mxQ.head?, c.feedRun with
  | some (.feed f base seq), none =>
    if (f.swap || (c.swapNext && f.count != 0)) && c.loading.isSome then s.onCore core (fun c => c.mxStallTick 1)
    else feedStart s core f base seq
  | _, _ => s

/-! ### LOAD (R96, R99, R120) -/

/-- A LOAD read of one image row: the core's own pad or its own cluster's store (R96). -/
def loadRow (s : State) (core g : Nat) : RowData × State :=
  if graValid g ∧ ((graSpace g = 0 ∧ graCoreId g = core) ∨ (graSpace g = 1 ∧ graCluster g = core / 8)) then s.engRead core g
  else (0, s.onDev (fun d => d.ooaCore ooaRead core g))

/-- The image rows from a list of row addresses, each through the LOAD's two staging rows in turn (06 R203). -/
def loadImage (core : Nat) : List Nat → State → List RowData × State
  | [], s => ([], s)
  | g :: t, s =>
    let (r, s) := loadRow s core g
    let s := s.onCore core (fun c => { c with loadStageA := some ⟨g, r⟩, loadStageB := c.loadStageA })
    let (l, s) := loadImage core t s
    (r :: l, s)

/-- The inactive plane is written, with the pair and TRANS (R99), and the special codes of the image are counted (R88). A LOAD that comes
to it before the swap vector of a started FEED has entered writes the plane that the FEED is about to swap to (log entry 21). -/
def loadPlane (s : State) (core : Nat) (f : MxLoadFields) (img : List RowData) (store : Bool) : State :=
  let p : MxPlane := ⟨img, f.wfmt, f.afmt, f.trans⟩
  let (nan, clip) := planeTally p
  s.onCore core (fun c =>
    let c := { c.mend (.plane (!c.activeB)) with loadRun := none, loadStore := store }
    (if c.activeB then { c with planeA := p } else { c with planeB := p }).count clip 0 nan)

/-- Whether a row lies in a cluster store. -/
def inStore (g : Nat) : Bool := graSpace g == 1

/-- A started LOAD of ring mode reads one whole slot once it is published and releases it (R120, R121); `force` ends its wait (05 R182). The
next ring-mode FEED begins at the slot after it. -/
def loadProceed (s : State) (core : Nat) (force : Bool) : State :=
  match (s.dev.core core).loadRun with
  | none => s
  | some r =>
    let k := r.f.sreg.toNat
    let rd := ringDesc s core k
    if ringOcc rd = 0 ∧ !force then s.onCore core (fun c => c.emptyTick k 1)
    else
      let (img, s) := loadImage core ((List.range (mxImageRows r.f.wfmt.toNat)).map (fun i => ringRow rd (ringHead rd) i)) s
      let s := loadPlane s core r.f img (inStore (ringBase rd))
      let s := s.onCore core (fun c =>
        let p := mapGet (fun _ => {}) c.ringPos k
        { c with ringPos := mapPut c.ringPos k { p with done := p.done + 1, restart := true } })
      ringRelease s core k 1

/-- A LOAD at the head of the queue starts when the load path is free (R121). -/
def loadTryStart (s : State) (core : Nat) : State :=
  let c := s.dev.core core
  match c.mxQ, c.loading with
  | .load f base seq :: rest, none =>
    let s := s.onCore core (fun c => { c with mxQ := rest, loading := some seq })
    if f.srcsel then loadProceed (s.onCore core (fun c => { c with loadRun := some ⟨f, seq⟩ })) core false
    else
      let (img, s) := loadImage core ((List.range (mxImageRows f.wfmt.toNat)).map (fun i => (base + i) % 2 ^ 32)) s
      loadPlane s core f img (inStore base)
  | _, _ => s

/-! ### Meanings -/

/-- An MX operation enters the two-entry queue; on a full queue the bundle waits and MX_STALL counts (R121). -/
def mxEnqueue (core : CoreId) (op : CoreSt → MxOp) (s : State) : State :=
  s.slotOr core false (fun c => decide (c.mxQ.length < 2)) (fun s => s.onCore core (fun c => { c with mxQ := c.mxQ ++ [op c] }))
    (fun s => s.onCore core (fun c => c.mxStallTick 1))

/-- The GRA S[SREG] + ROFF, its sum taken modulo 2^32. -/
def mxBase (c : CoreSt) (sreg : BitVec 5) (roff : BitVec 20) : Nat :=
  ((c.sreg sreg.toNat).toNat % 2 ^ 32 + roff.toNat) % 2 ^ 32

def execMxNop (core : CoreId) (s : State) : Res := ok (s.slot core (fun s => s))

/-- Forms that R122 refuses: an invalid format or pair, or TRANS with FP4 or INT4 activations. -/
def execMxLoad (core : CoreId) (f : MxLoadFields) (s : State) : Res :=
  if !mxPairOk f.wfmt.toNat f.afmt.toNat || (f.trans && (f.afmt.toNat == 3 || f.afmt.toNat == 4)) then .refused (.invalidBundle 0x0A20)
  else ok (mxEnqueue core (fun c => .load f (mxBase c f.sreg f.roff) c.seq) s)

/-- Forms that R122 refuses: ACC 3, COUNT above 4,096, or VOFF in ring mode. A FEED of COUNT 0 without SWAP acts as
MX.NOP (R120). -/
def execMxFeed (core : CoreId) (f : MxFeedFields) (s : State) : Res :=
  if f.acc.toNat = 3 ∨ 4096 < f.count.toNat ∨ (f.srcsel ∧ f.voff.toNat ≠ 0) then .refused (.invalidBundle 0x0A20)
  else if f.count = 0 ∧ !f.swap then ok (s.slot core (fun s => s))
  else ok (mxEnqueue core (fun c => .feed f (mxBase c f.sreg f.roff) c.seq) s)

def execMxLoadStart (core : CoreId) (s : State) : Res :=
  ok (if s.dev.coreRuns core then loadTryStart s core else s)
def execMxFeedStart (core : CoreId) (s : State) : Res :=
  ok (if s.dev.coreRuns core then feedTryStart s core else s)

/-- The LOAD completes: the cycles for which the reads of an image in the store held it beyond 128 count in MX_STALL (05 R173), and a
swap that waited for it starts (R100). -/
def execMxLoadComplete (core : CoreId) (heldCycles : Nat) (s : State) : Res :=
  ok (if s.dev.coreRuns core ∧ (s.dev.core core).loading.isSome ∧ (s.dev.core core).loadRun = none then
        let s := s.onCore core (fun c => { c.mxStallTick (if c.loadStore then heldCycles else 0) with loading := none })
        match (s.dev.core core).mxQ.head? with
        | some (.feed f _ _) => if f.swap then feedTryStart s core else s
        | _ => s
      else s)

end Sys2Proof.Machine
end

