-- ==== Sys2Proof/Machine/RingWaits.lean ====
section
/-! DEFINITION. The ends of ring waits, and deferred writes (05 R174, R181, R182). -/

namespace Sys2Proof.Machine

/-- A FEED that waits at a ring feeds on from where it stopped (03 R105). -/
def feedResume (s : State) (core : Nat) : State :=
  match (s.dev.core core).feedRun with
  | some r => feedLoop core r.f r.base r.seq none (r.f.count.toNat - r.next) r.next s
  | none => s

/-- Whether a started FEED waits at ring k, and whether a started LOAD does. -/
def CoreSt.feedAt (c : CoreSt) (k : Nat) : Bool := c.feedRun.any (fun r => r.f.srcsel && r.f.sreg.toNat == k)
def CoreSt.loadAt (c : CoreSt) (k : Nat) : Bool := c.loadRun.any (fun r => r.f.sreg.toNat == k)

/-- A slot is published or released: the consumers and producers that wait on the ring proceed (R181). A FEED or LOAD that goes on
counts its further cycles of the wait; the first counted as it began, and each cycle of a DMA queue's wait as it came. -/
def execRingWaitResolved (core : CoreId) (w : WaitedRing) (s : State) : Res :=
  let ring := w.ring
  let more := fun (s : State) => s.onCore core (fun c => c.emptyTick ring (w.waited - 1))
  ok (let s := (List.range 4).foldl (clearRingWait core ring) s
      let s := if (s.dev.core core).feedAt ring && ringHas s core ring (nextClass (s.dev.core core)) then feedResume (more s) core else s
      if (s.dev.core core).loadAt ring && decide (ringOcc (ringDesc s core ring) ≠ 0) then loadProceed (more s) core false else s)

/-- A consumer has waited G cycles: the slot is read as it stands, HEAD advances, and an underflow is counted (R182). -/
def ringUnderflow (s : State) (core k : Nat) : State :=
  let c := s.dev.core core
  let cls := nextClass c
  let g := (s.dev.sliceOf (core / 8)).elim 0 Slice.gCycles
  let more := fun (s : State) => s.onCore core (fun c => c.emptyTick k (g - 1))
  if c.feedAt k && !ringHas s core k cls then
    let n := ringNeed s core k cls + 1
    feedResume (((more s).onDev (fun d => d.underflow core k)).onCore core (fun c => { c with ringForced := mapPut c.ringForced k n })) core
  else if c.loadAt k && decide (ringOcc (ringDesc s core k) = 0) then loadProceed ((more s).onDev (fun d => d.underflow core k)) core true
  else
    match (List.range 4).find? (fun q => waitsAsConsumer s core q k) with
    | some q => (s.onDev (fun d => d.underflow core k)).onRun core q (fun x => { x with wait := 0, forcedSrc := true })
    | none => s

def execRingUnderflow (core : CoreId) (ring : RingId) (s : State) : Res := ok (ringUnderflow s core ring)

/-- An inbound ring of a core publishes its tail slot when a packet from its peer has written the slot's last row
(05 R179). DESIGN CHOICE (log entry 17): a packet names no ring, so any packet of the peer that covers that row is taken for one of the ring. -/
def inboundPublish (s : State) (core : Nat) (schip score gra n : Nat) : State :=
  match (List.range 32).find? (fun k =>
    let r := ringDesc s core k
    let last := ringRow r (ringTail r) (ringSlotRows r - 1)
    ringKind r == 2 && ringPeerChip r == schip && ringPeerCore r == score && decide (gra ≤ last) && decide (last < gra + n)) with
  | some k => ringPublish s core k 1
  | none => s

/-- A row of a slot that a READ fills did not land: the slot is not published, whether its last request is still to be sent or
already is (R179). -/
def CoreSt.tear (queue : Nat) (c : CoreSt) : CoreSt :=
  let hit := fun (o : OutPkt) => o.reply && o.queue == queue && o.pub.isSome
  match c.outst.find? hit with
  | some o => { c with outst := mapIf (fun x => x == o) (fun x => { x with pub := none }) c.outst }
  | none => c.setRun queue { c.run queue with torn := true }

/-- A read request leaves OUTSTANDING: its reply has landed, or it has none. The source slot that it ends is released, and the slot
that it completes is published when every row has landed (R179, R180; 07 R246). -/
def requestDone (s : State) (core : Nat) (o : OutPkt) (landed : Bool) : State :=
  let s := s.onCore core (fun c => { c with outst := eraseFirst (fun x => x == o) c.outst })
  let s := match o.rel with | some k => ringRelease s core k 1 | none => s
  match landed, o.pub with
  | true, some k => ringPublish s core k 1
  | false, none => s.onCore core (CoreSt.tear o.queue)
  | _, _ => s

/-- The reply to a queue's request with a SEQ has landed, or failed. -/
def replyDone (s : State) (core queue seq : Nat) (landed : Bool) : State :=
  match (s.dev.core core).outst.find? (fun o => o.reply && o.queue == queue && o.seq == seq) with
  | some o => requestDone s core o landed
  | none => s

/-- The reply to a queue's request is dropped: the request stays counted (07 R246), no later reply waits for its turn, and the slot that it
fills is not published. -/
def replyLost (s : State) (core queue seq : Nat) : State :=
  let hit := fun (o : OutPkt) => o.reply && o.queue == queue && o.seq == seq
  match (s.dev.core core).outst.find? hit with
  | some o =>
    let s := s.onCore core (fun c => { c with outst := mapIf (fun x => x == o) (fun x => { x with lost := true, pub := none }) c.outst })
    if o.pub.isSome then s else s.onCore core (CoreSt.tear queue)
  | none => s

/-- Rows of read replies written by a core's DMA count in ROWS_MOVED. -/
def CoreSt.movedRows (c : CoreSt) (n : Nat) : CoreSt :=
  { c with dctr := { c.dctr with rowsMoved := c.dctr.rowsMoved + BitVec.ofNat 64 n } }

/-- A deferred write takes its turn (R174): a write of the core's own DMA counts in ROWS_MOVED and publishes its slot; a
packet's last row lands, and the packet is acknowledged. -/
def execDeferredWrite (core : CoreId) (s : State) : Res :=
  ok (match (s.dev.core core).deferred with
      | d :: t =>
        let s := s.onCore core (fun c => { c with deferred := t })
        match d.queue with
        | some q =>
          let s := (dmaPut s core d.gra d.row).onRun core q (fun x => { x with wait := 0 })
          (match d.pub with | some k => ringPublish s core k 1 | none => s)
        | none =>
          let s := s.putRow d.gra d.row
          match d.answer with
          | some (f, st) =>
            let h := longHdr f
            let s := if h.op = 2 then replyDone (s.onCore core (fun c => c.movedRows 1)) core h.squeue h.seq (st == 0)
              else inboundPublish s core h.schip h.score d.gra 1
            s.onDev (fun dv => dv.ackRows h st 1)
          | none => s
      | [] => s)

end Sys2Proof.Machine
end

