-- ==== Sys2Proof/Machine/Holds.lean ====
section
/-! DEFINITION. Due counts, holds and their words (11 sections 1 to 3). -/

namespace Sys2Proof.Machine

/-! ### Modes and spacings (10 R342; 11 R355) -/

/-- The operating mode in force: the generator that feeds the regions (16 Table 16.6): 0 Schuss, 1 Carve, 2 Glide. -/
def Dev.mode (d : Dev) : Nat := d.fld ⟨regAddr 2 0, 3, 2⟩

/-- PWR.STATUS.PARK (13 Table 13.9): 0 none, 1 West, 2 East, 3 full, 4 Hibernate. -/
def fPark : Fld := ⟨regAddr 13 0, 9, 7⟩

/-- The mode in force at an EC, by the steps that are set. -/
def Dev.modeAt (d : Dev) (e : Nat) : Nat :=
  d.pwr.steps.foldl (fun m st => if st.ec ≤ e then st.mode else m) d.mode

/-- The spacing of a slice in a mode (10 R342). -/
def Folio.spacing (fo : Folio) (m : Nat) : Nat :=
  match max m fo.rated with
  | 0 => fo.sSchuss
  | 1 => fo.sCarve
  | _ => fo.sGlide

/-- The spacing the slice uses now. -/
def Dev.spacingNow (d : Dev) (sl : Slice) : Nat := sl.fo.spacing d.mode

/-- The mode in force for a slice at an EC not before its last gate's due EC: by the steps it has met since, and those set. -/
def Dev.modeFor (d : Dev) (sl : Slice) (e : Nat) : Nat :=
  match sl.modes.find? (fun x => decide (e < x.1)) with
  | some x => x.2.1
  | none => d.modeAt e

/-- The largest spacing in an interval that begins at `g` with first spacing `s0`, over the modes of the steps taken and of those
set within it (R355). -/
def Dev.interval (d : Dev) (sl : Slice) (g s0 : Nat) : Nat :=
  let a := sl.modes.foldl (fun a x => if g ≤ x.1 ∧ x.1 < g + s0 then max a (sl.fo.spacing x.2.2) else a) s0
  d.pwr.steps.foldl (fun a st => if g ≤ st.ec ∧ st.ec < g + s0 then max a (sl.fo.spacing st.mode) else a) a

/-- The due EC of the gate after one due at `g`, as it stands now. -/
def Dev.nextDue (d : Dev) (sl : Slice) (g : Nat) : Nat := g + d.interval sl g (sl.fo.spacing (d.modeFor sl g))

/-- A slice's next due EC taken again, after a step was set, taken or dropped (R355). -/
def Dev.respace (d : Dev) (sl : Slice) : Slice :=
  match sl.dues with
  | g :: _ => { sl with due := g + d.interval sl g sl.s0 }
  | [] => sl
def Dev.respaceAll (d : Dev) : Dev := { d with slices := d.slices.map d.respace }

/-! ### Held gates (R358–R360) -/

/-- Whether a slice has gates to hold: it runs, or its launch EC is set. -/
def Slice.armed (sl : Slice) : Bool := sl.launched && (sl.running || sl.launchAt.isSome)

/-- The raises that share a gate. -/
def Slice.at (sl : Slice) (g : Nat) : List Raise := sl.raises.filter (fun r => r.gate == g)

/-- The largest resume EC of the raises at a gate, with R360's difference added; none while a resume is missing. -/
def resumeMax : List Raise → Option Nat
  | [] => some 0
  | r :: t => match r.resume, resumeMax t with
    | some a, some b => some (max (a + r.extra) b)
    | _, _ => none

/-- The EC at which the next gate may pass: its due EC or the largest resume EC (R359); none while a resume is missing. -/
def Slice.passEc (sl : Slice) : Option Nat :=
  match resumeMax (sl.at sl.gate) with
  | some m => some (max sl.due m)
  | none => none

/-- The first gate, from `g` due at `e`, whose due EC is at least `t`, with that due EC. -/
def Dev.firstGate (d : Dev) (sl : Slice) (t : Nat) : Nat → Nat → Nat → Nat × Nat
  | 0, g, e => (g, e)
  | n + 1, g, e =>
    let e := match resumeMax (sl.at g) with | some m => max e m | none => e
    if t ≤ e then (g, e) else d.firstGate sl t n (g + 1) (d.nextDue sl e)

/-- The first gate of the slice whose due EC is at least `t` (R358): among the gates passed, or from the next one on. -/
def Dev.gateFor (d : Dev) (sl : Slice) (t : Nat) : Nat × Nat :=
  let past := sl.dues.reverse.zipIdx
  match past.find? (fun p => decide (t ≤ p.1)) with
  | some (e, g) => (g, e)
  | none => d.firstGate sl t (t - sl.due + 2) sl.gate sl.due

/-- Whether the slice stands at a held gate: the gate's due EC has come, and a resume is missing or moves the gate (R358, R359). -/
def Slice.held (sl : Slice) : Bool := sl.dueSeen && decide (sl.passEc ≠ some sl.due)
/-- Whether the slice waits at a held gate on this device: its barrier is complete too (Table 11.10, Worked example 11.4). -/
def Slice.waiting (sl : Slice) : Bool := sl.held && sl.barrier

/-- The due EC of a gate, passed or not, as it stands now. -/
def Dev.dueOf (d : Dev) (sl : Slice) (g : Nat) : Nat :=
  if g < sl.gate then sl.dues.getD (sl.gate - 1 - g) 0
  else (List.range (g - sl.gate)).foldl (fun e k =>
    d.nextDue sl (match resumeMax (sl.at (sl.gate + k)) with | some m => max e m | none => e)) sl.due

/-- Whether a raise still holds its gate for a raise at an EC: its resume's send EC lies after that EC, or is not known (R358). -/
def Raise.openAt (r : Raise) (raiseEc : Nat) : Bool :=
  match r.resume, r.sendEc with
  | some _, some e => decide (raiseEc < e)
  | _, _ => true

/-- The held gate that a raise at an EC joins, with its due EC: the first that is due by then and that another raise still holds, so that the
slice waits there on every device alike (R358, the exception). -/
def Dev.joinGate (d : Dev) (sl : Slice) (raiseEc : Nat) : Option (Nat × Nat) :=
  let hits := (sl.raises.filter (fun r => decide (sl.gate ≤ r.gate) && decide (d.dueOf sl r.gate ≤ raiseEc) && r.openAt raiseEc)).map
    (fun r => r.gate)
  match hits with
  | g :: t => let g := t.foldl min g; some (g, d.dueOf sl g)
  | [] => none

/-- The held gate of a raise by the first rule of R358: HOLD_LEAD spacings after the raise EC. -/
def Dev.leadGate (d : Dev) (sl : Slice) (raiseEc : Nat) : Nat × Nat :=
  d.gateFor sl (raiseEc + sl.fo.holdLead * sl.fo.spacing (d.modeFor sl raiseEc))

/-- The held gate of a raise and its due EC (R358); a slice that is not ready is held at gate 0 (01 R37). -/
def Dev.heldGate (d : Dev) (sl : Slice) (cause raiseEc : Nat) : Nat × Nat :=
  if cause = 7 ∧ sl.dues = [] then (0, sl.due) else (d.joinGate sl raiseEc).getD (d.leadGate sl raiseEc)

/-! ### Ports and words (08 R286) -/

/-- One port. -/
def Dev.port (d : Dev) (p : Nat) : PortSt := mapGet (fun _ => {}) d.fab.ports p
def Dev.updPort (d : Dev) (p : Nat) (f : PortSt → PortSt) : Dev :=
  { d with fab := { d.fab with ports := mapPut d.fab.ports p (f (d.port p)) } }

def fPortState (p : Nat) : Fld := ⟨regAddr 8 (0x40 + 4 * p), 31, 29⟩
def fPortSched (p : Nat) : Fld := ⟨regAddr 8 (0x40 + 4 * p), 23, 23⟩
def fPortWhy (p : Nat) : Fld := ⟨regAddr 8 (0x40 + 4 * p), 22, 20⟩
/-- Whether a port is UP. -/
def Dev.portUp (d : Dev) (p : Nat) : Bool := d.fld (fPortState p) == 4

/-- Word w of transmit (or receive) entry e of port p (08 Table 8.15). -/
def txAddr (p e w : Nat) : Nat := regAddr 8 (0x4000 + 0x400 * p + 8 * e + 4 * w)
def rxAddr (p e w : Nat) : Nat := regAddr 8 (0x4200 + 0x400 * p + 8 * e + 4 * w)

/-- Whether a port's slot tables name a slice in a scheduled entry. -/
def Dev.portNames (d : Dev) (p sid : Nat) : Bool :=
  (List.range 64).any (fun e =>
    let f := fun (a b : Nat) => bitAt a 31 && decide (bits a 30 29 < 2) && bits b 11 0 == sid
    f (d.reg (txAddr p e 0)) (d.reg (txAddr p e 1)) || f (d.reg (rxAddr p e 0)) (d.reg (rxAddr p e 1)))

/-- The hold word of Table 8.9. -/
def holdWord (slice holdId kind cause origin ec : Nat) : CtrlWord :=
  BitVec.ofNat 128 (2 <<< 124 + (slice % 4096) <<< 112 + (holdId % 65536) <<< 96 + (kind % 4) <<< 94 + (cause % 16) <<< 90 +
    (origin % 4096) <<< 78 + ec % 2 ^ 64)

/-- A hold word in the next three control slots of every UP port that names its slice, but one (R286). -/
def Dev.forward (d : Dev) (sid : Nat) (w : CtrlWord) (except : Nat) : Dev :=
  (List.range 12).foldl (fun d p =>
    if p ≠ except ∧ d.portUp p ∧ d.portNames p sid then d.updPort p (fun x => { x with ctrlQ := x.ctrlQ ++ [w, w, w] }) else d) d

/-- A word of this device: it takes the next HOLD_ID, is remembered and sent. -/
def Dev.ownWord (d : Dev) (sid kind cause ec : Nat) : Dev × Nat :=
  let h := d.fab.holdId
  let d := { d with fab := { d.fab with holdId := (h + 1) % 65536, seen := d.fab.seen ++ [(d.coord, sid, h)] } }
  (d.forward sid (holdWord sid h kind cause d.coord ec) 12, h)

/-! ### Raise, clear, resume -/

/-- A register of a slice's route entry: 0 XDIR, 1 YDIR, 2 ZDIR, 3 RSEL (08 Table 8.15). -/
def Dev.routeReg (d : Dev) (sid k : Nat) : Nat := d.reg (regAddr 8 (0x10000 + 16 * sid + 4 * k))
/-- Whether a slice only transits this device: it holds the slice's route entry, and none of its clusters (08 R299). -/
def Dev.transits? (d : Dev) (sid : Nat) : Bool := (d.slice? sid).isNone && bits (d.routeReg sid 3) 31 30 == 2

/-- This device's open hold on a slice that only transits it. -/
def Dev.transitHold? (d : Dev) (sid : Nat) : Option TransitHold := d.fab.transitHolds.find? (fun t => t.slice == sid)

/-- A hold on a slice that only transits this device: its raise word, once, and further causes that join it (R357; 08 R301; log entry 68). -/
def Dev.transitRaise (d : Dev) (sid cause : Nat) : Dev :=
  match d.transitHold? sid with
  | some _ =>
    let add := fun (t : TransitHold) => { t with causes := if t.causes.contains cause then t.causes else t.causes ++ [cause] }
    { d with fab := { d.fab with transitHolds := mapIf (fun t => t.slice == sid) add d.fab.transitHolds } }
  | none =>
    let (d, h) := d.ownWord sid 0 cause d.now
    let d : Dev := { d with fab := { d.fab with transitHolds := d.fab.transitHolds ++ [⟨sid, cause, [cause]⟩] } }
    let d := (d.bump (regAddr 11 0x08) 1).setReg (regAddr 11 0x24) (cause <<< 28 + sid <<< 16 + h)
    d.event 11 0 [sid, d.coord, h, cause]

/-- A cause of such a hold clears; with the last the resume word leaves. -/
def Dev.transitClear (d : Dev) (sid cause : Nat) : Dev :=
  match d.transitHold? sid with
  | some t =>
    if !t.causes.contains cause then d
    else
      let cs := t.causes.filter (fun c => c != cause)
      if cs ≠ [] then
        { d with fab := { d.fab with transitHolds := mapIf (fun t => t.slice == sid) (fun t => { t with causes := cs }) d.fab.transitHolds } }
      else
        let (d, _) := d.ownWord sid 1 t.cause d.now
        { d with fab := { d.fab with transitHolds := d.fab.transitHolds.filter (fun t => t.slice != sid) } }
  | none => d

/-- Whether an own hold of the slice is open: raised, and its resume not sent (R357). -/
def Raise.openOwn (r : Raise) : Bool := r.own && !r.sent

/-- This device raises a hold on a slice, or a further cause joins its open hold (R357, R358). -/
def Dev.raiseHold (d : Dev) (sid cause : Nat) : Dev :=
  match d.slice? sid with
  | some sl =>
    if !sl.armed then d
    else if sl.raises.any Raise.openOwn then
      d.updSlice sid (fun sl => { sl with raises := mapIf Raise.openOwn (fun r => { r with
        causes := if r.causes.contains cause then r.causes else r.causes ++ [cause], resume := none, sendEc := none }) sl.raises })
    else
      let (g, _) := d.heldGate sl cause d.now
      let (d, h) := d.ownWord sid 0 cause d.now
      let r : Raise := { origin := d.coord, holdId := h, cause := cause, causes := [cause], raiseEc := d.now, gate := g, own := true }
      let d := d.updSlice sid (fun sl => { sl with raises := sl.raises ++ [r] })
      let d := (d.bump (regAddr 11 0x08) 1).setReg (regAddr 11 0x24) (cause <<< 28 + sid <<< 16 + h)
      d.event 11 0 [sid, d.coord, h, cause]
  | none => d

/-- The shift of a hold that clears at `c` (R359). -/
def holdShift (c leadS due : Nat) : Nat := 1280 * cdiv (c + leadS - due) 1280

/-- The resume of a raise whose causes cleared at its clear EC (R359). -/
def Dev.resolve (d : Dev) (sl : Slice) (r : Raise) : Raise :=
  let leadS := sl.fo.holdLead * sl.fo.spacing (d.modeFor sl r.clearEc)
  let due := d.dueOf sl r.gate
  let e := due + holdShift r.clearEc leadS due
  { r with resume := some e, sendEc := some (e - leadS) }

/-- A raise placed behind those of no later raise EC. -/
def insertRaise (r : Raise) : List Raise → List Raise
  | [] => [r]
  | x :: t => if r.raiseEc < x.raiseEc then r :: x :: t else x :: insertRaise r t

/-- The raises that a gate keeps: those that found it by the first rule, and those that join it (R358). -/
def Slice.joined (sl : Slice) (g due : Nat) : List Raise :=
  ((sl.at g).foldl (fun l r => insertRaise r l) []).foldl
    (fun acc r => if r.raiseEc < due ∨ acc.any (fun x => x.openAt r.raiseEc) then acc ++ [r] else acc) []

/-- A resume has come for a gate: a raise that had joined it at or after the latest send EC takes its held gate by the first rule, as on the
devices that knew that resume already (R358). -/
def Dev.regate (d : Dev) (sl : Slice) (g : Nat) : Slice :=
  let keep := sl.joined g (d.dueOf sl g)
  let goes := fun (r : Raise) => r.gate == g && !keep.contains r
  let rest := { sl with raises := sl.raises.filter (fun r => !goes r) }
  { sl with raises := mapIf goes (fun r =>
      let r := { r with gate := max (g + 1) (d.leadGate rest r.raiseEc).1 }
      if r.own && r.causes.isEmpty && !r.sent then d.resolve rest r else r) sl.raises }

/-- A cause of this device's open hold clears; when the last does, the shift is taken, and a shift of 0 cancels the hold. -/
def Dev.clearCause (d : Dev) (sid cause : Nat) : Dev :=
  match d.slice? sid with
  | some sl =>
    match sl.raises.find? (fun r => r.openOwn && r.causes.contains cause) with
    | some r =>
      let cs := r.causes.filter (fun c => c != cause)
      if cs ≠ [] then
        d.updSlice sid (fun sl => { sl with raises := mapIf Raise.openOwn (fun r => { r with causes := cs }) sl.raises })
      else
        let r' := d.resolve sl { r with causes := [], clearEc := d.now }
        let d' := d.updSlice sid (fun sl => { sl with raises := mapIf Raise.openOwn (fun _ => r') sl.raises })
        if r'.resume = some (d.dueOf sl r.gate) then
          (d'.bump (regAddr 11 0x10) 1).event 11 3 [sid, r.origin, r.holdId, r.cause]
        else d'
    | none => d
  | none => d

/-- A cause raised, or cleared, by a port for the slice of a scheduled frame, whether it is loaded here or only transits (R357, R362). -/
def Dev.raiseFor (d : Dev) (sid cause : Nat) : Dev := if d.transits? sid then d.transitRaise sid cause else d.raiseHold sid cause
def Dev.clearFor (d : Dev) (sid cause : Nat) : Dev :=
  if (d.transitHold? sid).isSome then d.transitClear sid cause else d.clearCause sid cause

/-- The resume word leaves at its send EC (R359). -/
def execResumeSend (slice : SliceId) (s : State) : Res :=
  ok (s.onDev (fun d =>
    match d.slice? slice.toNat with
    | some sl =>
      match sl.raises.find? (fun r => r.openOwn && match r.sendEc with | some e => decide (e ≤ d.now) | none => false) with
      | some r =>
        let (d, _) := d.ownWord sl.id 1 r.cause (r.resume.getD 0)
        d.updSlice sl.id (fun sl => { sl with raises :=
          (mapIf Raise.openOwn (fun r => { r with sent := true }) sl.raises).filter (fun r => decide (sl.gate ≤ r.gate)) })
      | none => d
    | none => d))

/-! ### Receipt (R286, R358–R360) -/

/-- A raise received for a slice of this device. -/
def Dev.recvRaise (d : Dev) (sl : Slice) (origin holdId cause ec : Nat) : Dev :=
  let d := d.bump (regAddr 11 0x0C) 1
  let r : Raise := { origin := origin, holdId := holdId, cause := cause, causes := [cause], raiseEc := ec, gate := sl.gate, own := false }
  let add := fun (d : Dev) (r : Raise) => d.updSlice sl.id (fun x => { x with raises := x.raises ++ [r] })
  match d.joinGate sl ec with
  | some (g, _) => add d { r with gate := g }
  | none =>
    let (h, due) := d.leadGate sl ec
    if due < d.now + 128 then
      let (h2, due2) := d.gateFor sl (d.now + 128)
      (add ((d.bump (regAddr 11 0x14) 1).event 11 4 []) { r with gate := max h2 sl.gate, extra := due2 - due })
    else add d { r with gate := h }

/-- A resume received: it resumes the one raise of its origin that has none (R359). -/
def Dev.recvResume (d : Dev) (sl : Slice) (origin ec : Nat) : Dev :=
  match sl.raises.find? (fun r => !r.own && r.origin == origin && r.resume.isNone) with
  | some r =>
    let leadS := sl.fo.holdLead * d.spacingNow sl
    let hit := fun (x : Raise) => x == r
    let d' := d.updSlice sl.id (fun x => { x with raises := mapIf hit (fun r => { r with
      resume := some ec, sendEc := some (ec - leadS), causes := [] }) x.raises })
    let d' := d'.updSlice sl.id (fun x => d'.regate x r.gate)
    if ec = d.dueOf sl r.gate - r.extra then (d'.bump (regAddr 11 0x10) 1).event 11 3 [sl.id, r.origin, r.holdId, r.cause] else d'
  | none => d

/-- A "not ready" raise, or its resume, for the next launch of a slice that is not armed for it yet (01 R37). -/
def Dev.recvEarly (d : Dev) (sl : Slice) (origin holdId kind ec : Nat) : Dev :=
  let leadS := sl.fo.holdLead * d.spacingNow sl
  if kind = 0 then
    (d.bump (regAddr 11 0x0C) 1).updSlice sl.id (fun x => { x with early := x.early ++ [{
      origin := origin, holdId := holdId, cause := 7, causes := [7], raiseEc := ec, gate := 0, own := false }] })
  else
    let hit := fun (r : Raise) => !r.own && r.origin == origin && r.resume.isNone
    d.updSlice sl.id (fun x => { x with early := mapIf hit (fun r => { r with
      resume := some ec, sendEc := some (ec - leadS), causes := [] }) x.early })

/-- A hold word received at a port (R286, R357). -/
def Dev.recvHold (d : Dev) (port : Nat) (w : CtrlWord) : Dev :=
  let n := w.toNat
  let sid := bits n 123 112
  let hid := bits n 111 96
  let kind := bits n 95 94
  let cause := bits n 93 90
  let origin := bits n 89 78
  let ec := bits n 63 0
  if !d.portUp port then d
  else if 2 ≤ kind ∨ 9 ≤ cause then d.bump (regAddr 8 0x28) 1
  else if d.fab.seen.contains (origin, sid, hid) then d
  else
    let d := { d with fab := { d.fab with seen := d.fab.seen ++ [(origin, sid, hid)] } }
    let d := d.forward sid w port
    match d.slice? sid with
    | some sl =>
      if sl.launched ∧ (!sl.armed ∨ sl.running ∧ sl.stopping.isSome) ∧
          ((kind = 0 ∧ cause = 7) ∨ (kind = 1 ∧ sl.early.any (fun r => !r.own && r.origin == origin && r.resume.isNone))) then
        d.recvEarly sl origin hid kind ec
      else if !sl.armed then d
      else if kind = 0 then d.recvRaise sl origin hid cause ec else d.recvResume sl origin ec
    | none => d

def execHoldWord (port : Port) (w : CtrlWord) (s : State) : Res :=
  ok (if !s.dev.portUp port then s
      else s.onDev (fun d =>
        let d := d.updPort port (fun x => { x with lastCtrl := d.time.ticks })
        if bits w.toNat 127 124 = 2 then d.recvHold port w
        else if 7 ≤ bits w.toNat 127 124 then d.bump (regAddr 8 0x28) 1 else d))

/-! ### Stretch (R364, R365) -/

/-- A stretch hold on a gate whose barrier is complete clears at once (Table 11.2). -/
def Dev.settleStretch (d : Dev) (sid : Nat) : Dev :=
  match d.slice? sid with
  | some sl => if sl.barrier && sl.raises.any (fun r => r.openOwn && r.gate == sl.gate) then d.clearCause sid 1 else d
  | none => d

/-- A stretch counts against the gate interval of one slice, from its gate 0 on; the fifth raises a stretch hold (R365). -/
def Dev.stretchSlice (r : Nat) (d : Dev) (sl : Slice) : Dev :=
  if sl.launched && !sl.dues.isEmpty && sl.clusters.any (fun c => clRegion c == r) then
    let d := d.updSlice sl.id (fun x => { x with stretches := x.stretches + 1 })
    if sl.stretches = 4 then (((d.bump (regAddr 11 0x18) 1).event 11 5 [r]).raiseHold sl.id 1).settleStretch sl.id else d
  else d

def execStretch (region : Fin 24) (s : State) : Res :=
  ok (s.onDev (fun d =>
    if d.clocked region then
      let d := d.bumpWrap (regAddr 11 (0x80 + 4 * region.val)) 1
      d.slices.foldl (Dev.stretchSlice region) d
    else d))

end Sys2Proof.Machine
end

