-- ==== Sys2Proof/Machine/Routes.lean ====
section
/-! DEFINITION. The order of packets, and what stops one on its way (05 R188; 06 R202; 07 R233, R235, R247, R248). -/

namespace Sys2Proof.Machine

/-! ### The order of packets (05 R188; 06 R202; 07 R233, R235) -/

/-- The network of a packet (R229): 0 request, 1 reply. -/
def pktNet (p : Packet) : Nat :=
  if pktForm p = 1 then b2n ([0, 2, 5].contains (shortPkt p.hdr).sop) else b2n ((longHdr p.hdr).op == 2)
def pktSlice (p : Packet) : Nat := if pktForm p = 1 then (shortPkt p.hdr).slice else (longHdr p.hdr).slice
def pktCl (p : Packet) : Nat := if pktForm p = 1 then (shortPkt p.hdr).dcl else (longHdr p.hdr).dcl

/-- What keeps a packet behind an earlier one on its network: the same slice channel, the same express source and destination, or the same
transfer of the scheduled class. Open-class packets have none, nor have acknowledgements, whose routers name no source. -/
def ordKey (p : Packet) : Option (List Nat) :=
  if pktForm p = 1 then
    let k := shortPkt p.hdr
    if k.sop = 1 ∨ k.sop = 2 ∨ k.sop = 5 then some [1, pktNet p, k.schip, k.score, k.dcl] else none
  else
    let h := longHdr p.hdr
    match h.cls with
    | 0 => some [0, pktNet p, h.schip, h.score, h.dcl, h.dcore]
    | 1 => some [1, pktNet p, h.schip, h.score, h.dcl]
    | 2 => some [2, pktNet p, h.schip, h.score, h.squeue, h.dcl]
    | _ => none

/-- Whether two packets keep their order. -/
def keepsOrder (p q : Packet) : Bool := match ordKey p with | some k => ordKey q == some k | none => false

/-- The load channels on which a mover's packets reach a cluster: those of its descriptors, and of its chains' hops (09 R317, R321). -/
def Slice.loadChans (sl : Slice) (m cl : Nat) : List Nat :=
  let mine := sl.fo.plan.filter (fun x => mdMover x == m)
  (mine.filter (fun x => graCluster (mdDst x) == cl)).map mdChan ++
    (sl.fo.chains.filter (fun k => k.core / 8 == cl && mine.any (fun x => mdOpc x == 2 && mdCtab x == k.ctab))).map (fun k => k.chan)

/-- The routers on the path of a slice-channel packet: those whose outputs the folio reserves for its channel (R231, R247). -/
def Slice.chanRouters (sl : Slice) (h : LongHdr) : List Nat :=
  let net := if h.op = 2 then 1 else 0
  let load := decide (768 ≤ h.score)
  let chans := if load then sl.loadChans (h.score - 768) h.dcl
    else ((channelOf sl net h.score (h.dcl * 8 + h.dcore)).map (fun x => x.1)).toList
  sl.fo.nets.filterMap (fun r => match r with
    | .resv l n cl _ ch _ _ _ => if l = load ∧ n = net ∧ ch ∈ chans then some cl else none
    | _ => none)

/-- Whether a long packet is dropped for a failed router on its way: the path of the folio for a slice channel, else the express route
(R247, R248). -/
def Dev.longBlocked (d : Dev) (h : LongHdr) : Bool :=
  if h.cls = 0 then
    let f := d.failedRouters
    !f.isEmpty && (match d.slice? h.slice with | some sl => (sl.chanRouters h).any f.contains | none => false)
  else d.blocked (d.entryCl h.schip h.score h.dcl) h.dcl

/-- Whether a chain packet that goes on finds both chain buffers of its router in use: it waits at the router's input (09 R321). -/
def Dev.chainFull (d : Dev) (p : Packet) : Bool :=
  d.vault.chain.any (fun c => c.pkt == p) &&
    decide (2 ≤ (d.vault.chain.filter (fun c => (longHdr c.pkt.hdr).dcl == (longHdr p.hdr).dcl && !d.net.flight.contains c.pkt)).length)

/-- Whether a packet may arrive: it is on the mesh, no earlier one of its order is, no row of one waits in the inbound buffer of
its core, and a chain packet finds a chain buffer. -/
def State.arrives (s : State) (core : Nat) (p : Packet) : Bool :=
  !s.dev.chainFull p && match s.dev.net.flight.find? (fun q => q == p || keepsOrder p q) with
  | some q => q == p && (s.dev.core core).deferred.all (fun x => match x.answer with
      | some (f, _) => !keepsOrder p ⟨f, []⟩
      | none => true)
  | none => false

end Sys2Proof.Machine
end

