-- ==== Sys2Proof/Machine/Network.lean ====
section
/-! DEFINITION. Packets of the on-die network: delivery, replies, sums, multicast, control packets (07 sections 3 to 8;
08 R278, R297, R298). -/

namespace Sys2Proof.Machine

/-! ### Delivery (08 R297, Table 8.13; 07 R248; 11 R373) -/

/-- A packet that fails its CRC (07 R242). -/
def Dev.crcFail (d : Dev) : Dev := (d.bump (regAddr 7 0x0C) 1).event 7 1 []
/-- A packet dropped at a fence (11 R373). -/
def Dev.fenceDrop (d : Dev) : Dev := (d.bump (regAddr 11 0x1C) 1).event 11 6 []

/-- The STATUS of a packet's header at its destination cluster, `stopped` where a failed router lies on its way: 0 where it may be
delivered. -/
def Dev.deliver (d : Dev) (stopped : Bool) (cl slice gen : Nat) : Nat × Dev :=
  if d.fenced (clHalf cl) then (4, d.fenceDrop)
  else if d.routerFailed cl ∨ d.fld (fClState cl) = 3 ∨ stopped then (4, d.unreach)
  else if d.fld (fClState cl) = 1 ∧ d.fld (fClSlice cl) = slice ∧ d.fld (fClGen cl) = gen then (0, d)
  else (3, d.bump (regAddr 8 0x14) 1)

/-- The rows of a read request, in order (07 R246). -/
def requestRows (h : LongHdr) : List Nat :=
  (List.range (bits h.oparg 22 19)).map (fun i => strideRow h.gra i (sext 12 (bits h.oparg 18 7)))
/-- The rows that a long packet writes or reads. -/
def pktRowsOf (h : LongHdr) : List Nat :=
  if h.op = 1 then requestRows h else (List.range (h.len / 8)).map (fun i => (h.gra + i) % 2 ^ 32)

/-- A long packet at its destination cluster. CLUSTER 72 to 127 lies inside no allocation, so each of its rows is an out-of-allocation
access (02 R76; 10 R348). -/
def Dev.deliverLong (d : Dev) (h : LongHdr) : Nat × Dev :=
  if 72 ≤ h.dcl then (2, (pktRowsOf h).foldl (fun d g => d.ooa ooaPacket (h.dcl * 8 + h.dcore) g) d)
  else d.deliver (d.longBlocked h) h.dcl h.slice h.gen

/-- Whether a long packet is whole: its payload has LEN flits and its CRC holds over the bytes received (07 R242). -/
def longOk (p : Packet) : Bool :=
  let h := longHdr p.hdr
  p.payload.length == h.len && crcOf p.hdr p.payload == h.crc

/-- Whether a packet is on the mesh. -/
def State.inFlight (s : State) (p : Packet) : Bool := s.dev.net.flight.contains p

/-- Whether a core's inbound buffer of a network holds its 16 rows, so that a further row that must wait stays on the mesh
(05 R172). -/
def CoreSt.inboundFull (c : CoreSt) (reply : Bool) : Bool :=
  decide (16 ≤ (c.deferred.filter (fun x => match x.answer with
    | some (f, _) => ((longHdr f).op == 2) == reply
    | none => false)).length)

/-- Whether a row may be reached by a packet: a pad or store row of the destination cluster (02 R75; 05 R187). -/
def pktRowOk (d : Dev) (cl g : Nat) : Bool :=
  graSpace g < 2 && graCluster g == cl && (match d.sliceOf cl with | some sl => inAlloc sl g | none => false)

/-- Whether a row may be written by a packet: a mover's packet may write every space of its slice's clusters while the slice
does not run (02 Table 2.7; 06 R220). -/
def rowOkFor (mover : Bool) (d : Dev) (cl g : Nat) : Bool :=
  pktRowOk d cl g || (mover && graCluster g == cl && (match d.sliceOf cl with | some sl => inAlloc sl g && !sl.running | none => false))

/-- Rows of a packet written from `g` on; a row outside the allocation is discarded and counted, for its destination core, or for the mover
that sent it (10 R348, Table 10.14). The first component of the result tells whether one was. -/
def landRows (mover : Bool) (cl core : Nat) : List RowData → Nat → State → Bool × State
  | [], _, s => (false, s)
  | r :: t, g, s =>
    if rowOkFor mover s.dev cl g then landRows mover cl core t ((g + 1) % 2 ^ 32) (s.putRow g r)
    else
      let (_, s) := landRows mover cl core t ((g + 1) % 2 ^ 32) (s.onDev (fun d => d.ooa (if mover then ooaMover else ooaPacket) core g))
      (true, s)

/-! ### Latency (07 R239) -/

/-- The region crossings and the seam crossings among the links of a route (02 R69): a link between rows, or over the seam, is one
between regions. -/
def crossings (l : List (Nat × Nat)) : Nat := (l.filter (fun x => clRegion x.1 != clRegion (clStep x.1 x.2))).length
def seamLinks (l : List (Nat × Nat)) : Nat := (l.filter (fun x => clHalf x.1 != clHalf (clStep x.1 x.2))).length

/-- The bound on an express packet of n flits by its route's links between routers, with `edge` mesh edge links more (R239). -/
def routeBound (l : List (Nat × Nat)) (edge n : Nat) : Nat :=
  2 * (l.length + edge) + 10 * crossings l + 4 * seamLinks l + (n - 1) + 2048

/-- The latency of an express packet of n flits is measured at its destination router, against the bound of its route under the tables in
force, from its source core or from its edge stop; a packet that names neither has no flow. -/
def Dev.measured (d : Dev) (schip score dcl n latency : Nat) : Dev :=
  if schip ≠ d.coord ∨ score < 576 then
    let d := d.setReg (regAddr 7 0x34) (max (d.reg (regAddr 7 0x34)) (satAdd 32 latency 0))
    let way := (d.meshPath (d.entryCl schip score dcl) dcl).getD []
    if routeBound way (b2n (decide (schip ≠ d.coord))) n < latency then d.event 7 5 [] else d
  else d
/-- Of a long packet: one that travels by the express routes, as every packet from the edge ring does (R247). -/
def Dev.measure (d : Dev) (h : LongHdr) (latency : Nat) : Dev :=
  if h.cls ≠ 0 then d.measured h.schip h.score h.dcl (h.len + 1) latency else d

/-- Slice-channel flits that were not at their delivery cycle of a region crossing, each counted, and an event for each region that they came
to (11 R368, R375). -/
def Dev.crossLate (d : Dev) (h : LongHdr) (late : List (Fin 24)) : Dev :=
  if h.cls = 0 ∧ late ≠ [] then
    late.eraseDups.foldl (fun d r => d.event 11 7 [r.val]) ((d.bump (regAddr 11 0x20) late.length).bumpWrap (regAddr 7 0x30) late.length)
  else d

/-! ### Acknowledgements of combined packets (07 R255) -/

/-- The acknowledgement of a packet reaches every contributor of the sums it carries. -/
def Dev.ackAll : Nat → Dev → Flit → Nat → Dev
  | 0, d, f, st => d.ack (longHdr f) st
  | n + 1, d, f, st =>
    match d.net.links.find? (fun l => l.lead == f) with
    | some l =>
      let d := { d with net := { d.net with links := eraseFirst (fun x => x == l) d.net.links } }
      (l.others ++ [f]).foldl (fun d x => Dev.ackAll n d x st) d
    | none => d.ack (longHdr f) st

/-! ### Long packets -/

/-- A packet of an invalid form, class, operation or SOP is dropped at the first router (07 R240, R245). DESIGN CHOICE (log entry 17): a long
one of an invalid CLASS or OP is counted in MESH.SHORT_REJECT too, and not acknowledged. -/
def badForm (p : Packet) : Bool :=
  match pktForm p with
  | 1 => let o := (shortPkt p.hdr).sop; o == 4 || decide (5 < o)
  | 2 => decide (3 < (longHdr p.hdr).cls) || decide (4 < (longHdr p.hdr).op)
  | _ => true

def execPacketInvalidForm (p : Packet) (s : State) : Res :=
  ok (if s.inFlight p && badForm p then s.onDev (fun d => (d.take p).bump (regAddr 7 0x28) 1) else s)

/-- A write of rows at its destination: Table 8.13, CRC, then the rows (07 R242, R244, R249). -/
def landWritePkt (p : Packet) (meetsRead : Bool) (s : State) : State :=
  let h := longHdr p.hdr
  let (st, d) := s.dev.deliverLong h
  let s := { s with dev := d }
  if st ≠ 0 then s.onDev (fun d => d.ack h st)
  else if !longOk p then s.onDev (fun d => d.crcFail.ack h 1)
  else
    let core := h.dcl * 8 + h.dcore
    let rows := flitRows (h.len / 8) p.payload
    let (bad, s1) := landRows (decide (768 ≤ h.score)) h.dcl (if 768 ≤ h.score then h.score else core) (if meetsRead then rows.dropLast else rows) h.gra s
    let last := (h.gra + (rows.length - 1)) % 2 ^ 32
    match meetsRead, rows.getLast? with
    | true, some r =>
      if rowOkFor (decide (768 ≤ h.score)) s.dev h.dcl last then
        (s1.onCore core (fun c => { c with deferred := c.deferred ++ [⟨last, r, none, none, some (p.hdr, if bad then 2 else 0)⟩] })).onDev
          (fun d => d.oweRows h (rows.length - 1))
      else (s1.onDev (fun d => if 768 ≤ h.score then d.ooa ooaMover h.score last else d.ooa ooaPacket core last)).onDev (fun d => d.ack h 2)
    | _, _ =>
      let s1 := inboundPublish s1 core h.schip h.score h.gra rows.length
      s1.onDev (fun d => d.ack h (if bad then 2 else 0))

/-- What a packet's transit of the mesh counts as it arrives: its latency (07 R239) and its late crossings (11 R368). -/
def Dev.arrived (d : Dev) (h : LongHdr) (x : Trip) : Dev := (d.measure h x.latency).crossLate h x.crossLate

/-- A write arrives in its order; one whose last row must wait needs room in the inbound buffer (05 R172, R174). -/
def execPacketWrite (p : Packet) (meetsRead : Bool) (trip : Trip) (s : State) : Res :=
  let h := longHdr p.hdr
  let core := h.dcl * 8 + h.dcore
  ok (if s.arrives core p && !badForm p && pktForm p == 2 && h.op == 0 && !(meetsRead && (s.dev.core core).inboundFull false) then
        landWritePkt p meetsRead (s.onDev (fun d => (d.take p).arrived h trip))
      else s)

/-- Rows read one after another by the router's path of a core. -/
def readRows (core : Nat) : List Nat → State → List RowData × State
  | [], s => ([], s)
  | g :: t, s =>
    let (r, s) := s.engRead core g
    let (l, s) := readRows core t s
    (r :: l, s)

/-- Whether a class of request is answered on the express channels of the die: the express class, and the open class of requests from other
devices (05 Table 5.6). -/
def expressReply (cls : Nat) : Bool := cls == 1 || cls == 3

/-- Whether the reply to a request may be injected on the reply network: on a slice channel its rows need credit, on the express channels
the serving core's quota must admit it (R234, R237). -/
def replyCheck (s : State) (h : LongHdr) : Inject :=
  let core := h.dcl * 8 + h.dcore
  match s.dev.sliceOf h.dcl with
  | none => .yes
  | some sl =>
    if expressReply h.cls then (if (s.dev.core core).quotaRep < quotaOf sl 1 core then .yes else .quota)
    else if h.cls = 0 then
      match channelOf sl 1 core h.score with
      | some (ch, cr) => if chanInUse sl 1 ch + bits h.oparg 22 19 ≤ cr then .yes else .credit
      | none => .yes
    else .yes

/-- What a reply of `rows` rows uses of the reply network. -/
def replyUse (s : State) (h : LongHdr) (rows : Nat) : State :=
  let core := h.dcl * 8 + h.dcore
  if expressReply h.cls then s.onCore core (fun c => { c with quotaRep := c.quotaRep + 8 * rows + 1 })
  else if h.cls = 0 then s.onDev (fun d => d.updSlice h.slice (fun sl =>
    match channelOf sl 1 core h.score with | some (ch, _) => chanAdd sl 1 ch rows | none => sl))
  else s

/-- A read request at its destination: one reply, or one acknowledgement in its place (07 R246; 08 R298; 10 R348). -/
def serveRead (p : Packet) (s : State) : State :=
  let h := longHdr p.hdr
  let (st, d) := s.dev.deliverLong h
  let s := { s with dev := d }
  let core := h.dcl * 8 + h.dcore
  if st ≠ 0 then s.onDev (fun d => d.ack h st)
  else if !longOk p then s.onDev (fun d => d.crcFail.ack h 1)
  else
    let gs := requestRows h
    let bad := gs.filter (fun g => !pktRowOk s.dev h.dcl g)
    if bad ≠ [] then
      (s.onDev (fun d => bad.foldl (fun d g => d.ooa ooaPacket core g) d)).onDev (fun d => d.ack h 2)
    else
      let (rows, s) := readRows core gs s
      let gate := (s.dev.sliceOf h.dcl).elim 0 gateLo
      let r : LongHdr :=
        { cls := h.cls, op := 2, slice := h.slice, gen := s.dev.genFor h.slice h.schip (h.score / 8), dchip := h.schip,
          dcl := h.score / 8, dcore := h.score % 8, gra := h.reply, len := 8 * rows.length, seq := h.seq, oparg := 0,
          schip := s.dev.coord, score := core, squeue := h.squeue, gate := gate, sat := 0, nan := 0, reply := 0, crc := 0 }
      ((replyUse s h rows.length).onCore core (fun c => { c with served := c.served ++ [(h.schip, h.seq, gate)] })).onDev
        (fun d => d.sendFrom h.dcl (mkLong r rows))

/-- Late flits of a slice channel's packet (R233) count in CHAN_DEFER. -/
def Dev.deferred (d : Dev) (cls late : Nat) : Dev := if cls = 0 then d.bumpWrap (regAddr 7 0x30) late else d

/-- A read request arrives in its order and is served; a reply that is not admitted keeps it at its destination (R234, R237, R246). -/
def execPacketReadRequest (x : Request) (s : State) : Res :=
  let p := x.pkt
  let h := longHdr p.hdr
  ok (if s.arrives (h.dcl * 8 + h.dcore) p && !badForm p && pktForm p == 2 && h.op == 1 then
        match replyCheck s h with
        | .yes => serveRead p (s.onDev (fun d =>
            let d := ((d.take p).arrived h x.trip).deferred h.cls x.late
            { d with net := { d.net with replyHeld := eraseFirst (fun f => f == p.hdr) d.net.replyHeld } }))
        | .quota => s.onDev (fun d => d.bumpWrap (regAddr 7 0x2C) 1)
        | .credit =>
          if s.dev.net.replyHeld.contains p.hdr then s
          else s.onDev (fun d =>
            { d with net := { d.net with replyHeld := d.net.replyHeld ++ [p.hdr] } }.bumpWrap (regAddr 7 0x30) (8 * bits h.oparg 22 19 + 1))
      else s)

/-- Rows of a read reply written from `g` on by the core's own DMA, into its own memories (05 R185, R187); the first component of the
result tells whether one was discarded. -/
def landOwn (core : Nat) : List RowData → Nat → State → Bool × State
  | [], _, s => (false, s)
  | r :: t, g, s =>
    if ownRow core g then landOwn core t ((g + 1) % 2 ^ 32) (s.putRow g r)
    else
      let (_, s) := landOwn core t ((g + 1) % 2 ^ 32) (s.onDev (fun d => d.ooaCore ooaDma core g))
      (true, s)

/-- A read reply lands: its rows are written consecutively, the request leaves OUTSTANDING, and a slot that it completes is
published; a last row that must wait keeps the request there until it lands (07 R246; 05 R179). -/
def landReply (p : Packet) (meetsRead : Bool) (s : State) : State :=
  let h := longHdr p.hdr
  let (st, d) := s.dev.deliverLong h
  let s := { s with dev := d }
  let core := h.dcl * 8 + h.dcore
  if st ≠ 0 then (replyLost s core h.squeue h.seq).onDev (fun d => d.ack h st)
  else if !longOk p then (replyLost s core h.squeue h.seq).onDev (fun d => d.crcFail.ack h 1)
  else
    let rows := flitRows (h.len / 8) p.payload
    let last := (h.gra + (rows.length - 1)) % 2 ^ 32
    let hold := meetsRead && !rows.isEmpty && ownRow core last
    let now := if hold then rows.dropLast else rows
    let (bad, s) := landOwn core now h.gra s
    let s := s.onCore core (fun c => c.movedRows now.length)
    let st := if bad then 2 else 0
    if hold then
      (s.onCore core (fun c => { c with deferred := c.deferred ++ [⟨last, rows.getLastD 0, none, none, some (p.hdr, st)⟩] })).onDev
        (fun d => d.oweRows h (rows.length - 1))
    else (replyDone s core h.squeue h.seq (!bad)).onDev (fun d => d.ack h st)

/-- Whether a reply comes in its turn: replies to one queue keep the order of its requests, but for open-class transfers (05 R188), and
but for a request whose reply was dropped. -/
def replyTurn (c : CoreSt) (h : LongHdr) : Bool :=
  h.cls == 3 || (match c.outst.find? (fun o => o.reply && o.queue == h.squeue && !o.lost) with
    | some o => o.seq == h.seq || c.outst.all (fun o => !(o.reply && o.queue == h.squeue && o.seq == h.seq))
    | none => true)

def execPacketReadReply (x : OnMesh) (meetsRead : Bool) (s : State) : Res :=
  let p := x.pkt
  let h := longHdr p.hdr
  let c := s.dev.core (h.dcl * 8 + h.dcore)
  ok (if s.arrives (h.dcl * 8 + h.dcore) p && replyTurn c h && !badForm p && pktForm p == 2 && h.op == 2 && !(meetsRead && c.inboundFull true) then
        landReply p meetsRead (s.onDev (fun d => (d.take p).arrived h x.trip))
      else s)

/-! ### In-network sums (07 section 6) -/

/-- One element of a sum: its value, and 1 where a NaN was replaced (R252). An infinity is taken as the largest finite
value. -/
def sumElem (f : FloatFmt) (c : Nat) : Dy × Nat :=
  match decodeIeee f c with
  | .val d => (d, 0)
  | .nan => (.zero, 1)
  | .inf neg => (fmtMax f neg, 0)

/-- One addition: FP32 by rne_sat, or BF16 through the FP32 sum (R252); with its saturation and NaN counts. -/
def sumAdd (bf16 : Bool) (a b : Nat) : Nat × Nat × Nat :=
  let f := if bf16 then fmtBf16 else fmtF32
  let (x, n1) := sumElem f a
  let (y, n2) := sumElem f b
  let (r, s1) := rneSat (dyAdd x y)
  if bf16 then
    let (r2, s2) := roundFmt fmtBf16 (f32v r)
    (r2, b2n (s1 || s2), n1 + n2)
  else (r, b2n s1, n1 + n2)

/-- Two flits added element by element, low element first. -/
def sumFlit (bf16 : Bool) (a b : Flit) : Flit × Nat × Nat :=
  let w := if bf16 then 16 else 32
  let (v, s, n) := (List.range (512 / w)).foldl (fun (acc : Nat × Nat × Nat) k =>
    let (r, s, n) := sumAdd bf16 ((a.toNat >>> (w * k)) % 2 ^ w) ((b.toNat >>> (w * k)) % 2 ^ w)
    (acc.1 + r <<< (w * k), acc.2.1 + s, acc.2.2 + n)) (0, 0, 0)
  (BitVec.ofNat 512 v, s, n)

/-- Two payloads added. -/
def sumPayload (bf16 : Bool) : List Flit → List Flit → List Flit × Nat × Nat
  | a :: ta, b :: tb =>
    let (f, s, n) := sumFlit bf16 a b
    let (l, s', n') := sumPayload bf16 ta tb
    (f :: l, s + s', n + n')
  | _, _ => ([], 0, 0)

/-- The NaN elements of a flit taken as 0, and their count (R252). -/
def cleanFlit (bf16 : Bool) (a : Flit) : Flit × Nat :=
  let w := if bf16 then 16 else 32
  let f := if bf16 then fmtBf16 else fmtF32
  let (v, n) := (List.range (512 / w)).foldl (fun (acc : Nat × Nat) k =>
    let c := (a.toNat >>> (w * k)) % 2 ^ w
    let nan := match decodeIeee f c with | .nan => true | _ => false
    (acc.1 + (if nan then 0 else c) <<< (w * k), acc.2 + b2n nan)) (0, 0)
  (BitVec.ofNat 512 v, n)
def cleanPayload (bf16 : Bool) (l : List Flit) : List Flit × Nat :=
  (l.map (fun a => (cleanFlit bf16 a).1), (l.map (fun a => (cleanFlit bf16 a).2)).foldl (fun a b => a + b) 0)

/-- The contributions in ascending rank. -/
def insertRank (x : Nat × Packet) : List (Nat × Packet) → List (Nat × Packet)
  | [] => [x]
  | y :: t => if x.1 < y.1 then x :: y :: t else y :: insertRank x t

/-- The combined packet of contributions in rank order: the lowest-ranked header, the sum of the payloads, the counts and a
new CRC (R252, R253). -/
def combine (bf16 : Bool) (lead : Packet) (others : List Packet) : Packet :=
  let h := longHdr lead.hdr
  let (first, cleaned) := cleanPayload bf16 lead.payload
  let (pl, sat, nan) := others.foldl (fun (acc : List Flit × Nat × Nat) p =>
    let q := longHdr p.hdr
    let (l, s, n) := sumPayload bf16 acc.1 p.payload
    (l, acc.2.1 + s + q.sat, acc.2.2 + n + q.nan)) (first, h.sat, h.nan + cleaned)
  let h := { h with sat := min 255 sat, nan := min 255 nan }
  ⟨longFlit { h with crc := longCrc h pl }, pl⟩

/-- A combined packet that leaves at its final destination: its rows land, its counts reach the destination core's tallies,
and one acknowledgement reaches every contributor (R252, R255). -/
def sumLand (p : Packet) (s : State) : State :=
  let h := longHdr p.hdr
  let n := s.dev.net.links.length
  let (st, d) := if 72 ≤ h.dcl then s.dev.deliverLong h else s.dev.deliver false h.dcl h.slice h.gen
  let s := { s with dev := d }
  if st ≠ 0 then s.onDev (fun d => d.ackAll n p.hdr st)
  else
    let core := h.dcl * 8 + h.dcore
    let rows := flitRows (h.len / 8) p.payload
    let (bad, s) := landRows false h.dcl core rows h.gra s
    let s := s.onCore core (fun c => c.count 0 h.sat h.nan)
    let s := inboundPublish s core h.schip h.score h.gra rows.length
    s.onDev (fun d => d.ackAll n p.hdr (if bad then 2 else 0))

/-! ### Packets between the routers of a tree -/

/-- Whether two packets are of one tree or one sum of a slice, and so keep their order at an input. -/
def sameTree (p q : Packet) : Bool :=
  let h := longHdr p.hdr
  let k := longHdr q.hdr
  h.op == k.op && h.slice == k.slice && h.oparg == k.oparg

/-- A packet of a tree at an input of a router: the next of its tree there, or at its own first router, the one of the core that sent
it or of its edge stop. -/
def State.treeAt (s : State) (cl : Nat) (inPort : Option Nat) (p : Packet) : Option TreeHop :=
  let h := longHdr p.hdr
  let here := fun (x : TreeHop) => x.cl == cl && (inPort.isNone || some x.inPort == inPort)
  match s.dev.net.hops.find? (fun x => here x && sameTree x.pkt p) with
  | some x => if x.pkt = p then some x else none
  | none =>
    let own := h.schip == s.dev.coord
    let at_ := if own then 4 + h.score % 8 else stopFace h.dcl
    let first := s.dev.net.flight.find? (fun q => q == p || keepsOrder p q ||
      (sameTree q p && (longHdr q.hdr).schip == h.schip && (longHdr q.hdr).score == h.score))
    if first = some p ∧ s.dev.entryCl h.schip h.score h.dcl = cl ∧ (inPort.isNone ∨ inPort = some at_) then
      some { cl := cl, inPort := at_, pkt := p }
    else none

/-- The packet leaves the input at which it waits. -/
def Dev.takeHop (d : Dev) (x : TreeHop) : Dev :=
  if d.net.hops.contains x then { d with net := { d.net with hops := eraseFirst (fun y => y == x) d.net.hops } } else d.take x.pkt

/-- What becomes of a packet that leaves a router by a mesh output: the neighbour's input, or none and its STATUS where the output has
no neighbour, its router has failed, or its half is fenced (R248; 11 R373). -/
def Dev.treeOut (d : Dev) (cl port : Nat) : Option Nat × Dev :=
  let n := clStep cl port
  if !clInner cl port ∨ d.routerFailed n then (none, d.unreach)
  else if d.fenced (clHalf n) then (none, d.fenceDrop)
  else (some n, d)

/-- A tree packet put at the neighbour's input. -/
def Dev.hop (d : Dev) (x : TreeHop) : Dev := { d with net := { d.net with hops := d.net.hops ++ [x] } }

/-- The sum-table entry of a router for a slice and tag: mask, output, format (R251). -/
def sumEntry (d : Dev) (cl slice rtag : Nat) : Option (Nat × Nat × Nat) :=
  (d.slice? slice).bind (fun sl => sl.fo.nets.findSome? (fun r => match r with
    | .sum c t m o f => if c = cl ∧ t = rtag then some (m, o, f) else none
    | _ => none))

/-- A sum leaves its router with the contributions present: mismatched ones are left out and answered (R253, R254). -/
def sumEmit (cl : Nat) (parts : List (Nat × Packet)) (out fmt : Nat) (s : State) : State :=
  match parts.map (fun x => x.2) with
  | [] => s
  | lead :: rest =>
    let h := longHdr lead.hdr
    let same := fun (p : Packet) => (longHdr p.hdr).len == h.len && (longHdr p.hdr).gra == h.gra
    let good := rest.filter same
    let s := s.onDev (fun d => (rest.filter (fun p => !same p)).foldl (fun d p =>
      (d.bump (regAddr 7 0x14) 1).ackAll d.net.links.length p.hdr 2) d)
    let c := combine (fmt == 1) lead good
    -- contributors are found again by the header that the combined packet carries
    let s := s.onDev (fun d =>
      let ls := d.net.links.map (fun l => if l.lead = lead.hdr then { l with lead := c.hdr } else l)
      { d with net := { d.net with links := if good.isEmpty then ls else ls ++ [⟨c.hdr, good.map (fun p => p.hdr)⟩] } })
    if out = 4 then sumLand c s
    else s.onDev (fun d => match d.treeOut cl out with
      | (some n, d) => d.hop { cl := n, inPort := (out + 2) % 4, pkt := c }
      | (none, d) => d.ackAll d.net.links.length c.hdr 4)

/-- Packets held in a router's sum buffers (R252). -/
def sumHeld (d : Dev) (cl : Nat) : Nat :=
  (d.net.sums.filter (fun b => b.cl == cl)).foldl (fun a b => a + b.parts.length) 0

/-- What a packet of a tree counts as it arrives at a router: its latency, and late crossings on the way to this router. -/
def Dev.hopped (d : Dev) (h : LongHdr) (x : Trip) : Dev := (d.measure h x.latency).crossLate h x.crossLate

/-- A contribution arrives at an input of a router (R252–R254). -/
def sumArrive (x : TreeHop) (trip : Trip) (s : State) : State :=
  let cl := x.cl
  let inPort := x.inPort
  let p := x.pkt
  let h := longHdr p.hdr
  let rtag := bits h.oparg 22 11
  let isBuf := fun (b : SumBuf) => b.cl == cl && b.slice == h.slice && b.rtag == rtag
  match sumEntry s.dev cl h.slice rtag with
  | none =>
    s.onDev (fun d => ((d.takeHop x).bump (regAddr 7 0x18) 1).ackAll d.net.links.length p.hdr 2)
  | some (mask, out, fmt) =>
    if !bitAt mask inPort then
      s.onDev (fun d => ((d.takeHop x).bump (regAddr 7 0x18) 1).ackAll d.net.links.length p.hdr 2)
    else if !longOk p then s.onDev (fun d => ((d.takeHop x).crcFail).ackAll d.net.links.length p.hdr 1)
    else
      let parts := match s.dev.net.sums.find? isBuf with | some b => b.parts | none => []
      if parts.any (fun x => x.1 == inPort) then s
      else
        let parts' := insertRank (inPort, p) parts
        let rest := fun (d : Dev) => d.net.sums.filter (fun b => !isBuf b)
        if (List.range 12).all (fun k => !bitAt mask k || parts'.any (fun x => x.1 == k)) then
          sumEmit cl parts' out fmt (s.onDev (fun d => let d := (d.takeHop x).hopped h trip; { d with net := { d.net with sums := rest d } }))
        else if 4 ≤ sumHeld s.dev cl then s
        else s.onDev (fun d => let d := (d.takeHop x).hopped h trip; { d with net := { d.net with sums := rest d ++ [⟨cl, h.slice, rtag, parts'⟩] } })

/-- A sum-write of a slice channel or of the express class at an input; one of the fabric's classes is an atomic add. -/
def execPacketSumWrite (cl : Cl) (inPort : Fin 12) (p : OnMesh) (s : State) : Res :=
  ok (if !badForm p.pkt && pktForm p.pkt == 2 && (longHdr p.pkt.hdr).op == 3 && (longHdr p.pkt.hdr).cls != 3 then
        match s.treeAt cl (some inPort) p.pkt with
        | some x => sumArrive x p.trip s
        | none => s
      else s)

/-- A sum still incomplete after G cycles leaves with the contributions present (R254). -/
def execSumTimeout (cl : Cl) (slice : SliceId) (rtag : BitVec 12) (s : State) : Res :=
  let isBuf := fun (b : SumBuf) => b.cl == cl.val && b.slice == slice.toNat && b.rtag == rtag.toNat
  ok (match s.dev.net.sums.find? isBuf, sumEntry s.dev cl slice.toNat rtag.toNat with
      | some b, some (_, out, fmt) =>
        let s := s.onDev (fun d => { d with net := { d.net with sums := d.net.sums.filter (fun b => !isBuf b) } })
        let s := s.onDev (fun d => ((d.bump (regAddr 7 0x1C) 1).event 7 3 []).markSlice slice.toNat lwMemFault)
        sumEmit cl b.parts out fmt s
      | _, _ => s)

/-! ### Multicast and holdover (07 section 7) -/

/-- The tree entry of a router: mesh outputs, leaf cores, leaf rings (R256). -/
def treeEntry (d : Dev) (cl slice tree : Nat) : Option (Nat × Nat × List Nat) :=
  (d.slice? slice).bind (fun sl => sl.fo.nets.findSome? (fun r => match r with
    | .tree c t o lf rs => if c = cl ∧ t = tree then some (o, lf, rs) else none
    | _ => none))

/-- One copy's outcome is combined into the packet's acknowledgement: `add` further copies, and one copy done with a STATUS
(R261). -/
def Dev.mcastDone (d : Dev) (f : Flit) (add st : Nat) : Dev :=
  let m : McastAck := (d.net.mcast.find? (fun m => m.hdr == f)).getD (McastAck.mk f 1 0)
  let rest := eraseFirst (fun (m : McastAck) => m.hdr == f) d.net.mcast
  let left := m.left + add - 1
  let worst := max m.worst st
  if left = 0 then { d with net := { d.net with mcast := rest } }.ack (longHdr f) worst
  else { d with net := { d.net with mcast := rest ++ [⟨f, left, worst⟩] } }

/-- Whether a leaf that names a ring has no released slot (R258). -/
def starved (s : State) (core ring : Nat) : Bool :=
  let r := ringDesc s core ring
  ring != 0xFF && ringOcc r == ringSlots r && mapGet (fun _ => 0) (s.dev.core core).leafPos ring == 0

/-- Whether a leaf refuses a copy: it is starved, or an earlier copy for it is held, which is to land first (R258; 06 R202). -/
def leafShut (s : State) (core ring : Nat) : Bool :=
  starved s core ring || s.dev.net.held.any (fun h => h.core == core && h.ring == ring)

/-- The rows of a copy written into a ring's tail slot; a slot whose last row is written is published (R257; 05 R179). -/
def leafRows (core ring : Nat) : List RowData → State → State
  | [], s => s
  | r :: t, s =>
    let dsc := ringDesc s core ring
    let i := mapGet (fun _ => 0) (s.dev.core core).leafPos ring
    let s := s.putRow (ringRow dsc (ringTail dsc) i) r
    let i' := if i + 1 = ringSlotRows dsc then 0 else i + 1
    let s := s.onCore core (fun c => { c with leafPos := mapPut c.leafPos ring i' })
    leafRows core ring t (if i' = 0 then ringPublish s core ring 1 else s)

/-- One copy delivered at a leaf; its STATUS (R257; Table 8.13; 10 R348). -/
def leafLand (core ring : Nat) (p : Packet) (s : State) : Nat × State :=
  let h := longHdr p.hdr
  let (st, d) := s.dev.deliver false (core / 8) h.slice h.gen
  let s := { s with dev := d }
  if st ≠ 0 then (st, s)
  else
    let rows := flitRows (h.len / 8) p.payload
    if ring ≠ 0xFF then (0, leafRows core ring rows s)
    else
      let g := setBits (setBits h.gra 29 23 (core / 8)) 22 20 (core % 8)
      let (bad, s) := landRows false (core / 8) core rows g s
      (if bad then 2 else 0, s)

/-- The leaf cores of a router's entry with their rings. -/
def leavesOf (cl leaf : Nat) (rings : List Nat) : List (Nat × Nat) :=
  ((List.range 8).filter (fun k => bitAt leaf k)).map (fun k => (cl * 8 + k, rings.getD k 0xFF))

/-- A copy that a starved leaf refuses enters the holdover buffer of the nearest branch router upstream (R258). -/
def Dev.holdCopy (d : Dev) (br : Nat × Nat) (l : Nat × Nat) (p : Packet) : Dev :=
  let d : Dev := { d with net := { d.net with held := d.net.held ++ [HeldCopy.mk br.1 br.2 l.1 l.2 p] } }
  d.bump (regAddr 7 0x20) 1

/-- A multicast packet at a router of its tree (R257–R259, R261). A second starved copy stalls the tree input of the branch router
whose holdover buffer is occupied, and every other tree packet at that router waits. -/
def mcastArrive (x : TreeHop) (trip : Trip) (s : State) : State :=
  let cl := x.cl
  let p := x.pkt
  let h := longHdr p.hdr
  if !longOk p then s.onDev (fun d => (d.takeHop x).crcFail.mcastDone p.hdr 0 1)
  else if s.dev.net.hops.any (fun y => y.stalls == some cl && y != x) then s
  else
    match treeEntry s.dev cl h.slice (bits h.oparg 22 18) with
    | none => s.onDev (fun d => (d.takeHop x).unreach.mcastDone p.hdr 0 4)
    | some (out, leaf, rings) =>
      let all := leavesOf cl leaf rings
      let ls := all.filter (fun l => !x.took.contains l.1)
      let outs := (List.range 4).filter (fun k => bitAt out k)
      -- the branch router of the copies: this one where it makes more than one copy
      let br := fun k => if 2 ≤ outs.length + all.length then (cl, k) else x.branch.getD (cl, k)
      let dry := ls.filter (fun l => leafShut s l.1 l.2)
      let busy := s.dev.net.held.any (fun h => h.cl == (br 4).1)
      if 2 ≤ dry.length ∨ (dry ≠ [] ∧ busy) then
        s.onDev (fun d =>
          let d := (d.takeHop x).bumpWrap (regAddr 7 0x24) 1
          let (y, d) := match busy, dry with
            | false, l :: _ => ({ x with took := x.took ++ [l.1], stalls := some (br 4).1 }, (d.holdCopy (br 4) l p).mcastDone p.hdr 2 0)
            | _, _ => ({ x with stalls := some (br 4).1 }, d)
          { d with net := { d.net with hops := y :: d.net.hops } })
      else
        let s := s.onDev (fun d => d.takeHop x)
        let s := s.onDev (fun d => (if ls = [] then d else d.measure { h with dcl := cl } trip.latency).crossLate h trip.crossLate)
        -- the copies that go on, one for each mesh output, and one for each leaf
        let s := s.onDev (fun d => d.mcastDone p.hdr (outs.length + ls.length) 0)
        let s := s.onDev (fun d => outs.foldl (fun d k => match d.treeOut cl k with
          | (some n, d) => d.hop { cl := n, inPort := (k + 2) % 4, pkt := p, branch := some (br k) }
          | (none, d) => d.mcastDone p.hdr 0 4) d)
        let s := dry.foldl (fun s l => s.onDev (fun d => d.holdCopy (br 4) l p)) s
        (ls.filter (fun l => !dry.contains l)).foldl (fun s l =>
          let (st, s) := leafLand l.1 l.2 p s
          s.onDev (fun d => d.mcastDone p.hdr 0 st)) s

def execPacketMulticastWrite (cl : Cl) (p : OnMesh) (s : State) : Res :=
  ok (if !badForm p.pkt && pktForm p.pkt == 2 && (longHdr p.pkt.hdr).op == 4 then
        match s.treeAt cl none p.pkt with
        | some x => mcastArrive x p.trip s
        | none => s
      else s)

/-- Whether a held copy is still held at the due EC of the gate after the one at which it was sent (R260). -/
def heldTooLong (now : Nat) (sl : Slice) (h : HeldCopy) : Bool :=
  let g := (longHdr h.pkt.hdr).gate
  let past := (sl.gate + 65536 - (g + 1) % 65536) % 65536
  (longHdr h.pkt.hdr).slice == sl.id && (decide (past ≠ 0 ∧ past < 32768) || (past == 0 && decide (sl.due ≤ now)))

def execHoldoverHoldCheck (slice : SliceId) (s : State) : Res :=
  ok (s.onDev (fun d =>
    match d.slice? slice.toNat with
    | some sl =>
      if d.net.held.any (heldTooLong d.now sl) && !sl.raises.any (fun r => r.openOwn && r.causes.contains 5) then
        (d.event 7 4 []).raiseHold sl.id 5
      else d
    | none => d))

/-! ### Short control packets (07 R243, R245) -/

/-- A short packet that arrives: in flight, of its SOP; a failed CRC drops it (R243). -/
def shortArrive (sop : Nat) (f : Flit) (s : State) (act : ShortPkt → State → State) : State :=
  let p : Packet := ⟨f, []⟩
  if s.inFlight p && pktForm p == 1 && (shortPkt f).sop == sop then
    let s := s.onDev (fun d => d.take p)
    if shortCrcOk f then act (shortPkt f) s else s.onDev Dev.crcFail
  else s

/-- What a short packet of the express channels does when it arrives, in its order; before its turn, nothing (R235). -/
def State.inOrder (s : State) (f : Flit) (t : State) : State :=
  if s.arrives ((shortPkt f).dcl * 8 + (shortPkt f).dcore) ⟨f, []⟩ then t else s

/-- A short packet for a cluster, dropped by Table 8.13 where its header does not match. -/
def shortDeliver (k : ShortPkt) (s : State) (act : State → State) : State :=
  if 72 ≤ k.dcl then (if k.sop = 1 then s.onDev (fun d => d.ooa ooaPacket (k.dcl * 8 + k.dcore) k.arg0) else s)
  else
    let (st, d) := s.dev.deliver (s.dev.blocked (s.dev.entryCl k.schip k.score k.dcl) k.dcl) k.dcl k.slice k.gen
    let s := { s with dev := d }
    if st = 0 then act s else s

/-- The ledger bit of a nonzero STATUS (Table 7.6). -/
def statusBit (st : Nat) : Option Nat :=
  match st with
  | 1 => some lwMemFault
  | 2 => some lwMemFault
  | 3 => some lwMisdelivery
  | 4 => some lwUnreachable
  | _ => none

/-- Whether an acknowledgement may answer a packet of a core: it repeats SEQ and GATE_LO, and names no queue and no kind. STATUS 0 comes
from the destination device, and never in place of a read reply (R243, R244, R298). -/
def OutPkt.answers (o : OutPkt) (schip seq gate status : Nat) : Bool :=
  o.seq == seq && o.gate == gate && (status != 0 || (!o.reply && o.chip == schip))

/-- An acknowledgement at a core: OUTSTANDING falls and a nonzero STATUS marks the frames at its gate (R244, R246, R298). One that may
answer a read reply of the core is taken for that first, so that no write is taken as landed too early (log entry 17). -/
def ackCore (k : ShortPkt) (s : State) : State :=
  let core := k.dcl * 8 + k.dcore
  let seq := bits k.arg0 31 16
  let st := bits k.arg0 15 8
  let gate := bits k.arg1 25 10
  let c := s.dev.core core
  let reply := fun (x : Nat × Nat × Nat) => x.2.1 == seq && x.2.2 == gate && (st != 0 || x.1 == k.schip)
  let s :=
    if c.served.any reply then s.onCore core (fun c => { c with served := eraseFirst reply c.served })
    else match c.outst.find? (fun o => o.answers k.schip seq gate st) with
      | some o =>
        -- a request that is answered in place of its reply brings no rows
        if o.reply then requestDone s core o false
        else s.onCore core (fun c => { c with outst := eraseFirst (fun x => x == o) c.outst })
      | none => s
  match statusBit st with
  | some b => s.onDev (fun d => d.markAtGate k.slice gate b)
  | none => s

/-- An increment at a semaphore row of the slice: the store reads the row, adds and writes it, and re-evaluates the ACQUIREs that wait
on it; any other row is an out-of-allocation access, dropped without an answer (06 R212, R213; 10 R348). -/
def semArrive (k : ShortPkt) (s : State) : State :=
  let g := k.arg0
  let core := k.dcl * 8 + k.dcore
  if graSpace g = 1 ∧ pktRowOk s.dev k.dcl g then
    let (r, s) := s.engRead core g
    let r := semIncrement r
    semMeet k.dcl g (semCount r) (s.putRow g r)
  else s.onDev (fun d => d.ooaCore ooaPacket core g)

def execSemaphoreIncrement (x : OnMeshShort) (s : State) : Res :=
  let f := x.flit
  let k := shortPkt f
  ok (s.inOrder f (shortArrive 1 f (s.onDev (fun d => d.measured k.schip k.score k.dcl 1 x.latency)) (fun k s => shortDeliver k s (semArrive k))))

/-- A ring credit advances the HEAD of the outbound mirror (05 R178). -/
def execRingCredit (f : Flit) (s : State) : Res :=
  ok (s.inOrder f (shortArrive 2 f s (fun k s => shortDeliver k s (fun s =>
    let core := k.dcl * 8 + k.dcore
    let ring := bits k.arg0 31 27
    let r := ringDesc s core ring
    setRing s core ring (setBits r 159 144 (ringHead r + bits k.arg0 15 0))))))

/-- An N4 short write writes nothing and is answered with STATUS 5 (R245). -/
def execN4ShortWrite (f : Flit) (s : State) : Res :=
  ok (shortArrive 3 f s (fun k s => s.onDev (fun d =>
    let a : ShortPkt :=
      { sop := 0, slice := k.slice, gen := d.genFor k.slice k.schip (k.score / 8), dchip := k.schip, dcl := k.score / 8,
        dcore := k.score % 8, arg0 := (bits k.arg0 31 16) <<< 16 + 5 <<< 8, schip := d.coord, score := 0x3FF, arg1 := 0 }
    (d.bump (regAddr 7 0x28) 1).sendFrom k.dcl ⟨shortFlit a, []⟩)))

/-- A holdover release sends the held copy on, and clears the holdover cause when none is held for the slice (R258, R260). -/
def execHoldoverRelease (f : Flit) (s : State) : Res :=
  ok (s.inOrder f (shortArrive 5 f s (fun k s =>
    match s.dev.net.held.find? (fun h => h.cl == k.dcl && h.core == k.score && (longHdr h.pkt.hdr).slice == k.slice) with
    | some h =>
      if starved s h.core h.ring then s
      else
        let s := s.onDev (fun d => { d with net := { d.net with held := eraseFirst (fun x => x == h) d.net.held } })
        let (st, s) := leafLand h.core h.ring h.pkt s
        let s := s.onDev (fun d => d.mcastDone h.pkt.hdr 0 st)
        s.onDev (fun d => match d.slice? k.slice with
          | some sl => if d.net.held.any (heldTooLong d.now sl) then d else d.clearCause k.slice 5
          | none => d)
    | none => s)))

/-! ### Quotas, credits, atomic adds, transit -/

/-- The express quota of a slice's flows at an edge stop on a network (R236). -/
def Slice.stopQuota (sl : Slice) (net stop : Nat) : Nat := quotaOf sl net (0x400 + stop)
/-- Flits used there in the window. -/
def Dev.stopUse (d : Dev) (stop slice net : Nat) : Nat :=
  (d.net.stopUsed.filter (fun u => u.1 == stop && u.2.1 == slice && u.2.2.1 == net)).foldl (fun a u => a + u.2.2.2) 0
def Dev.setStopUse (d : Dev) (stop slice net n : Nat) : Dev :=
  { d with net := { d.net with stopUsed := d.net.stopUsed.filter (fun u => !(u.1 == stop && u.2.1 == slice && u.2.2.1 == net)) ++
      (if n = 0 then [] else [(stop, slice, net, n)]) } }

/-- Whether an edge stop admits a packet of a slice of this device: the slice's quota there is not used up (R236, R237). -/
def Dev.stopAdmits (d : Dev) (stop : Nat) (p : Packet) : Bool :=
  match d.slice? (pktSlice p) with
  | some sl => decide (d.stopUse stop sl.id (pktNet p) < sl.stopQuota (pktNet p) stop)
  | none => true

/-- A packet passes from an edge stop into the mesh, and its flits are used (R236). DESIGN CHOICE (log entry 17): every packet is charged,
acknowledgements and ring credits too. -/
def Dev.enterMesh (d : Dev) (stop : Nat) (p : Packet) : Dev :=
  let n := d.stopUse stop (pktSlice p) (pktNet p) + p.payload.length + 1
  let d := match d.slice? (pktSlice p) with | some sl => d.setStopUse stop sl.id (pktNet p) n | none => d
  { d with net := { d.net with flight := d.net.flight ++ [p] } }

/-- An open-class sum-write, an atomic add, and the ring stop that applies it: that of its destination's column (08 R278). -/
def isAdd (p : Packet) : Bool := pktForm p == 2 && (longHdr p.hdr).op == 3 && (longHdr p.hdr).cls == 3
def addStop (p : Packet) : Nat := ringStop (longHdr p.hdr).dcl
/-- The adds in progress at a stop, in the order in which they reached it, and whether it takes no further one. -/
def Dev.addsAt (d : Dev) (stop : Nat) : List Packet := d.net.flight.filter (fun q => isAdd q && addStop q == stop)
def Dev.addsFull (d : Dev) (stop : Nat) : Bool := decide (16 ≤ (d.addsAt stop).length) || d.fab.adds.any (fun w => addStop w.pkt == stop)
/-- The rows that an add reads and writes. -/
def addRows (p : Packet) : List Nat := (List.range ((longHdr p.hdr).len / 8)).map (fun i => ((longHdr p.hdr).gra + i) % 2 ^ 32)
/-- Whether no add before this one at its stop shares a row with it. -/
def Dev.addFirst (d : Dev) (p : Packet) : Bool :=
  ((d.addsAt (addStop p)).takeWhile (fun q => q != p)).all (fun q => (addRows q).all (fun g => !(addRows p).contains g))
/-- The add that reaches a stop next, once one in progress there is done. -/
def Dev.addNext (d : Dev) (stop : Nat) : List Packet := ((d.fab.adds.find? (fun w => addStop w.pkt == stop)).map (fun w => w.pkt)).toList

/-- The first add that waits for a stop reaches it, and its port's credit returns. -/
def Dev.nextAdd (d : Dev) (stop : Nat) : Dev :=
  match d.fab.adds.find? (fun w => addStop w.pkt == stop) with
  | some w =>
    let d : Dev := { d with
      fab := { d.fab with adds := eraseFirst (fun x => x == w) d.fab.adds }, net := { d.net with flight := d.net.flight ++ [w.pkt] } }
    d.updPort w.port (fun x => { x with owed := mapPut x.owed w.set (mapGet (fun _ => 0) x.owed w.set + w.flits) })
  | none => d

/-- A packet from the fabric for this device: it enters the mesh at the stop of its destination's column, or waits there behind its
slice's earlier arrivals and for its quota (R236, R263). -/
def Dev.fromRing (d : Dev) (p : Packet) : Dev :=
  let stop := ringStop (pktCl p)
  let behind := d.net.atStop.any (fun w => w.1 == stop && pktSlice w.2 == pktSlice p && pktNet w.2 == pktNet p)
  -- an atomic add is applied at the stop and does not pass into the mesh (08 R278)
  if isAdd p then { d with net := { d.net with flight := d.net.flight ++ [p] } }
  else if !behind && d.stopAdmits stop p then d.enterMesh stop p
  else { d with net := { d.net with atStop := d.net.atStop ++ [(stop, p)] } }

/-- The arrivals that wait at a stop for a slice and network enter in order while the quota admits them. -/
def Dev.drainStop (d : Dev) (stop slice net : Nat) : Dev :=
  let mine := d.net.atStop.filter (fun w => w.1 == stop && pktSlice w.2 == slice && pktNet w.2 == net)
  let d : Dev := { d with net := { d.net with atStop := d.net.atStop.filter (fun w => !mine.contains w) } }
  mine.foldl (fun d w => d.fromRing w.2) d

/-- A new quota window of a core, or of a slice at an edge stop: the excess carries forward (R236, R237). -/
def execQuotaWindow (src : QuotaSrc) (net : Net) (s : State) : Res :=
  let n := match net with | .req => 0 | .rep => 1
  ok (match src with
      | .core core =>
        (match s.dev.sliceOf (core / 8) with
         | some sl => s.onCore core (fun c => match net with
             | .req => { c with quotaReq := c.quotaReq - quotaOf sl 0 core }
             | .rep => { c with quotaRep := c.quotaRep - quotaOf sl 1 core })
         | none => s)
      | .stop stop slice =>
        (match s.dev.slice? slice.toNat with
         | some sl => s.onDev (fun d =>
             (d.setStopUse stop sl.id n (d.stopUse stop sl.id n - sl.stopQuota n stop)).drainStop stop sl.id n)
         | none => s))

/-- One row's credit of a slice channel returns to its sender, once the memory has granted the row (R234). -/
def execSliceChannelCredit (slice : SliceId) (net : Net) (channel : BitVec 16) (s : State) : Res :=
  let n := match net with | .req => 0 | .rep => 1
  let hit := fun (t : Nat × Nat × Nat) => t.1 == n && t.2.1 == channel.toNat && t.2.2 != 0
  ok (s.onDev (fun d => d.updSlice slice.toNat (fun sl =>
    match sl.chanOwed.find? hit with
    | some (a, b, k) =>
      chanReturn { sl with chanOwed := eraseFirst hit sl.chanOwed ++ (if k = 1 then [] else [(a, b, k - 1)]) } n channel.toNat
    | none => sl)))

/-- An atomic add: the destination rows are read, added in RFMT and written back, and the sender is acknowledged
(08 R278). -/
def atomicAdd (p : Packet) (s : State) : State :=
  let h := longHdr p.hdr
  let (st, d) := s.dev.deliverLong h
  let s := { s with dev := d }
  if st ≠ 0 then s.onDev (fun d => d.ack h st)
  else if !longOk p then s.onDev (fun d => d.crcFail.ack h 1)
  else
    let core := h.dcl * 8 + h.dcore
    let gs := addRows p
    let (old, s) := readRows core (gs.filter (fun g => pktRowOk s.dev h.dcl g)) s
    if old.length ≠ gs.length then
      (s.onDev (fun d => (gs.filter (fun g => !pktRowOk d h.dcl g)).foldl (fun d g => d.ooa ooaPacket core g) d)).onDev (fun d => d.ack h 2)
    else
      let (pl, sat, nan) := sumPayload (bitAt h.oparg 10) (rowFlits old) p.payload
      let (_, s) := landRows false h.dcl core (flitRows (h.len / 8) pl) h.gra s
      (s.onCore core (fun c => c.count 0 (min 255 (h.sat + sat)) (min 255 (h.nan + nan)))).onDev (fun d => d.ack h 0)

/-- Flits that an atomic add sends into the mesh: its read requests and its write. -/
def addFlits (p : Packet) : Nat := cdiv ((longHdr p.hdr).len) 64 + (longHdr p.hdr).len + 1

/-- An atomic add is applied at the ring stop of its destination, within the slice's quota there and behind the adds to its rows; the stop then
takes the next that waits (08 R278; 07 R236). -/
def execAtomicAdd (p : Packet) (s : State) : Res :=
  let stop := addStop p
  ok (if s.inFlight p && !badForm p && isAdd p && s.dev.stopAdmits stop p && s.dev.addFirst p then
        (atomicAdd p (s.onDev (fun d =>
          let d := d.take p
          match d.slice? (pktSlice p) with
          | some sl => d.setStopUse stop sl.id 0 (d.stopUse stop sl.id 0 + addFlits p)
          | none => d))).onDev (fun d => d.nextAdd stop)
      else s)

end Sys2Proof.Machine
end

