-- ==== Sys2Proof/Machine/Ledger.lean ====
section
/-! DEFINITION. The audit ledger (15 section 7). -/

namespace Sys2Proof.Machine

/-- Bytes of a list of natural numbers. -/
def bytesOf (l : List Nat) : List Byte := l.map (fun n => BitVec.ofNat 8 n)

/-- Bytes 0–159 of a record (15 Table 15.11). -/
def auditBytes (r : AuditRec) : List Byte :=
  bytesOf (toLe 4 0x4C445541 ++ toLe 2 1 ++ toLe 2 r.kind ++ toLe 8 r.seq ++ toLe 8 r.ec ++ [r.role, 0] ++ toLe 2 r.result ++
    toLe 4 0 ++ toLe 16 r.actor.toNat ++ toLe 48 r.detail.toNat ++ toLe 48 r.prev.toNat ++ toLe 16 0)

/-- The digest D of a record. -/
def auditDigest (r : AuditRec) : BitVec 384 := sha384 (auditBytes r)

/-- The arguments of the matching event as DETAIL: eight bytes each, little-endian. -/
def auditDetail (args : List Nat) : BitVec 384 := BitVec.ofNat 384 (leNat (args.flatMap (toLe 8)))

/-- Whether the ledger buffer is full (R469). -/
def Dev.ledgerFull (d : Dev) : Bool := decide (4096 ≤ d.sec.unflushed)

/-- A record appended under a role, with its DETAIL; nothing is added while the buffer is full. -/
def Dev.auditRaw (d : Dev) (kind role result : Nat) (actor : BitVec 128) (detail : BitVec 384) : Dev :=
  if d.ledgerFull then d
  else
    let prev := match d.sec.ledger with | r :: _ => auditDigest r | [] => 0
    let r : AuditRec := ⟨d.sec.nextSeq, d.now, kind, role, result, actor, detail, prev⟩
    let d : Dev := { d with sec := { d.sec with
      ledger := r :: d.sec.ledger, nextSeq := d.sec.nextSeq + 1, unflushed := d.sec.unflushed + 1 } }
    if d.ledgerFull then (d.put ⟨regAddr 15 0, 16, 16⟩ 1).event 15 7 [] else d

/-- A record of the device's own changes. -/
def Dev.auditSelf (d : Dev) (kind : Nat) (args : List Nat) : Dev := d.auditRaw kind 0 0 0 (auditDetail args)

/-- The buffer's records reach the NVM area while the NVM has its supply (R469; 17 R497). -/
def execLedgerFlush (s : State) : Res :=
  ok (if s.dev.pins.vnvm then s.onDev (fun d => { d with sec := { d.sec with unflushed := 0 } }.put ⟨regAddr 15 0, 16, 16⟩ 0) else s)

end Sys2Proof.Machine
end

