-- ==== Sys2Proof/Machine/Fabric.lean ====
section
/-! DEFINITION. The chip fabric's slot wheel, frames and routing (08 sections 3, 4, 7 and 8). -/

namespace Sys2Proof.Machine

/-! ### The slot wheel (R274, R275) -/

/-- The kind of use a frame has: scheduled by a slice and network, open by network, or management. -/
inductive SlotUse where
  | sched (slice net : Nat)
  | open_ (net : Nat)
  | mgmt
  deriving DecidableEq, Repr

/-- A key for per-use tables. -/
def SlotUse.key : SlotUse → Nat
  | .sched s n => s * 8 + n
  | .open_ n => 2 + n
  | .mgmt => 4

/-- Valid entries of a port's transmit (or receive) table: FIRST, LAST, KIND, SLICE, BUF (Table 8.4). -/
def Dev.entries (d : Dev) (tx : Bool) (p : Nat) : List (Nat × Nat × Nat × Nat × Nat) :=
  (List.range 64).filterMap (fun e =>
    let w0 := d.reg (if tx then txAddr p e 0 else rxAddr p e 0)
    let w1 := d.reg (if tx then txAddr p e 1 else rxAddr p e 1)
    if bitAt w0 31 then some (bits w0 11 0, bits w0 23 12, bits w0 30 29, bits w1 11 0, bits w1 24 12) else none)

/-- Whether slot s is of a use, by a table's entries (Table 8.3, R275). -/
def slotIs (es : List (Nat × Nat × Nat × Nat × Nat)) (u : SlotUse) (s : Nat) : Bool :=
  if s % 25 = 24 then false
  else if s % 100 = 0 then u == .mgmt
  else
    match es.find? (fun e => decide (e.1 ≤ s) && decide (s ≤ e.2.1)), u with
    | some (_, _, k, sl, _), .sched i n => k == n && sl == i
    | some (_, _, k, _, _), .open_ n => k == 2 && n == 1
    | none, .open_ n => n == 0
    | _, _ => false

/-- The slots of a use in one wheel, rising. -/
def slotsOf (es : List (Nat × Nat × Nat × Nat × Nat)) (u : SlotUse) : List Nat := (List.range 4000).filter (slotIs es u)

/-- The slot that comes `k` slots of the use after the first one at or after absolute slot `a`; none where a wheel has none. -/
def slotAfter (own : List Nat) (a k : Nat) : Option Nat :=
  if own.isEmpty then none
  else
    let i := (a / 4000) * own.length + (own.filter (fun s => decide (s < a % 4000))).length + k
    some (i / own.length * 4000 + own.getD (i % own.length) 0)

/-- The slot that comes `k` slots of the use before the last one before absolute slot `a`; none where there is none. -/
def slotBefore (own : List Nat) (a k : Nat) : Option Nat :=
  let i := (a / 4000) * own.length + (own.filter (fun s => decide (s < a % 4000))).length
  if own.isEmpty || decide (i < k + 1) then none
  else some ((i - k - 1) / own.length * 4000 + own.getD ((i - k - 1) % own.length) 0)

/-! ### Frames (R279) -/

/-- The fields of a lead flit (Table 8.6). -/
structure LeadHdr where
  ltype : Nat
  lclass : Nat
  net : Nat
  dline : Nat
  owner : Nat
  lseq : Nat
  body : Nat
  slot : Nat
  sendUs : Nat
  deriving DecidableEq, Repr

def leadHdr (f : Flit) : LeadHdr :=
  let n := f.toNat
  { ltype := bits n 127 124, lclass := bits n 123 122, net := bits n 121 121, dline := bits n 120 120, owner := bits n 119 108,
    lseq := bits n 107 96, body := bits n 95 89, slot := bits n 63 32, sendUs := bits n 31 0 }

def leadFlit (h : LeadHdr) : Flit :=
  BitVec.ofNat 512 ((h.ltype % 16) <<< 124 + (h.lclass % 4) <<< 122 + (h.net % 2) <<< 121 + (h.dline % 2) <<< 120 +
    (h.owner % 4096) <<< 108 + (h.lseq % 4096) <<< 96 + (h.body % 128) <<< 89 + (h.slot % 2 ^ 32) <<< 32 + h.sendUs % 2 ^ 32)

/-- The use of a lead flit. -/
def LeadHdr.use (h : LeadHdr) : SlotUse :=
  match h.lclass with
  | 0 => .sched h.owner h.net
  | 1 => .open_ h.net
  | _ => .mgmt

/-- The key of a link sequence: owner, class and network (R282). -/
def LeadHdr.seqKey (h : LeadHdr) : Nat := h.owner * 8 + h.lclass * 2 + h.net

/-- The packets of a frame's body (R279). -/
def framePkts (f : Frame) : List Packet :=
  if (leadHdr f.lead).ltype = 1 then (match f.body with | hd :: t => [⟨hd, t⟩] | [] => [])
  else f.body.map (fun x => ⟨x, []⟩)

/-- Flits of a frame. -/
def frameLen (f : Frame) : Nat := f.body.length + 2

/-- Whether the lead flit is of a valid type and class with its reserved bits zero (R279). -/
def leadOk (f : Frame) : Bool :=
  let h := leadHdr f.lead
  (h.ltype == 1 || h.ltype == 2) && h.lclass != 3 && leadFlit h == f.lead && h.body == f.body.length && h.body != 0 &&
    decide (h.body ≤ 65)

/-- The tail flit: CRC32C of lead and body, and LSEQ (R279). -/
def tailFlit (lead : Flit) (body : List Flit) : Flit :=
  BitVec.ofNat 512 (crc32c ((lead :: body).flatMap flitBytes) + (leadHdr lead).lseq <<< 32)

/-- A frame from its lead fields and packets. -/
def mkFrame (h : LeadHdr) (body : List Flit) : Frame :=
  let lead := leadFlit { h with body := body.length }
  ⟨lead, body, tailFlit lead body⟩

/-! ### Classes and routes -/

/-- The first slot that begins in this tick, and the last (R274). -/
def Dev.slotFirst (d : Dev) : Nat := (d.now * 25 + 7) / 8
def Dev.slotLast (d : Dev) : Nat := ((d.now + 1) * 25 + 7) / 8 - 1

/-- Whether a device's tables on a port give a slice a scheduled entry for a network. -/
def Dev.hasSched (d : Dev) (p sid net : Nat) : Bool := (d.entries true p).any (fun e => e.2.2.1 == net && e.2.2.2.1 == sid)

/-- The link class and network of a packet (Table 8.5; 07 R229). An acknowledgement with a nonzero STATUS travels in the
management class; one with STATUS 0 in the scheduled class of its slice. -/
def pktClass (p : Packet) : Nat × Nat :=
  if pktForm p = 1 then
    let k := shortPkt p.hdr
    match k.sop with
    | 0 => (if bits k.arg0 15 8 = 0 then 0 else 2, 1)
    | 1 => (0, 0)
    | _ => (0, 1)
  else
    let h := longHdr p.hdr
    (if h.cls = 3 then 1 else 0, if h.op = 2 then 1 else 0)

/-- Coordinate field of an axis (0 X, 1 Y, 2 Z) of a device coordinate. -/
def axisOf (c axis : Nat) : Nat := bits c (11 - 4 * axis) (8 - 4 * axis)
/-- The plan dimension of an axis. -/
def Dev.dim (d : Dev) (axis : Nat) : Nat := bits (d.reg (regAddr 8 0)) (23 + 4 * axis) (20 + 4 * axis) + 1

/-- The port of an axis, direction and rail (R267; 01 section 4). -/
def portOf (axis : Nat) (minus : Bool) (rail : Nat) : Nat := 4 * axis + (if minus then 2 else 0) + rail % 2

/-- Where a route leads. -/
inductive Route where
  | here
  | port (p : Nat)
  | none
  deriving DecidableEq, Repr

/-- The first axis on which two coordinates differ. -/
def firstAxis (a b : Nat) : Option Nat := (List.range 3).find? (fun k => axisOf a k != axisOf b k)

/-- Flits of open credit a port holds for a network and buffer set (R278). -/
def PortSt.credit (x : PortSt) (net set : Nat) : Nat := mapGet (fun _ => 1024) x.credits (2 * net + set)

/-- The buffer set of a packet that leaves on an axis and direction: set 1 after the axis's dateline (R278). -/
def Dev.setFor (d : Dev) (axis : Nat) (minus : Bool) (inPort dline : Nat) : Nat :=
  let x := axisOf d.coord axis
  let prev := if inPort < 12 ∧ inPort / 4 = axis then dline else 0
  if (minus ∧ x = 0) ∨ (!minus ∧ x + 1 = d.dim axis) then 1 else prev

/-- The route of a scheduled or open packet (R292, R278). -/
def Dev.route (d : Dev) (p : Packet) (inPort dline : Nat) : Route :=
  let sid := pktSlice p
  match firstAxis d.coord (pktChip p) with
  -- a device that only forwards a slice never delivers it into its own mesh (R299)
  | none => if bits (d.routeReg sid 3) 31 30 = 3 then .here else .none
  | some a =>
    let dir := bits (d.routeReg sid a) (2 * axisOf (pktChip p) a + 1) (2 * axisOf (pktChip p) a)
    if !bitAt (d.routeReg sid 3) 31 ∨ dir = 0 ∨ dir = 3 then .none
    else
      let minus := dir == 2
      if (pktClass p).1 = 1 then
        let set := d.setFor a minus inPort dline
        let pa := portOf a minus 0
        let pb := portOf a minus 1
        let adapt := d.fld ⟨regAddr 8 8, 12, 12⟩
        if d.portUp pa ∧ (!d.portUp pb ∨ adapt = 0 ∨ (d.port pb).credit (pktClass p).2 set ≤ (d.port pa).credit (pktClass p).2 set)
        then .port pa else .port pb
      else .port (portOf a minus (bits (d.routeReg sid 3) a a))

/-- The route of a management packet: dimension order, the shorter direction, plus on a tie, rail A when UP, else rail B,
else the other direction (R293). -/
def Dev.mgmtRoute (d : Dev) (chip : Nat) : Route :=
  match firstAxis d.coord chip with
  | none => .here
  | some a =>
    let n := d.dim a
    let fwd := (axisOf chip a + n - axisOf d.coord a % n) % n
    let minus := decide (n - fwd < fwd)
    match [portOf a minus 0, portOf a minus 1, portOf a (!minus) 0, portOf a (!minus) 1].find? d.portUp with
    | some p => .port p
    | none => .none

/-- The route of a packet of either kind. -/
def Dev.routeOf (d : Dev) (p : Packet) (inPort dline : Nat) : Route :=
  if (pktClass p).1 = 2 then d.mgmtRoute (pktChip p) else d.route p inPort dline

/-- A packet dropped for want of a route: counted, and a long one answered with STATUS 4 (R292, R293, R301). -/
def Dev.noRoute (d : Dev) (p : Packet) : Dev :=
  let d := d.bump (regAddr 8 0x18) 1
  if pktForm p = 2 then d.ackEdge (longHdr p.hdr) 4 else d

/-! ### Sending a frame (R277, R280, R282, R284, R291) -/

/-- Flits of a port's replay buffer (R282). -/
def PortSt.replayLen (x : PortSt) : Nat := x.replay.foldl (fun a f => a + frameLen f.fr) 0

/-- The entry of a table that holds a slot of a use. -/
def entryAt (es : List (Nat × Nat × Nat × Nat × Nat)) (slot : Nat) : Option (Nat × Nat × Nat × Nat × Nat) :=
  es.find? (fun e => decide (e.1 ≤ slot % 4000) && decide (slot % 4000 ≤ e.2.1))

/-- Flits of an entry's frames that have not left its output buffer; a frame being resent lies in the replay buffer (R277, R282). -/
def PortSt.outLen (x : PortSt) (es : List (Nat × Nat × Nat × Nat × Nat)) (e : Nat × Nat × Nat × Nat × Nat) (now : Nat) : Nat :=
  x.replay.foldl (fun a f => if !f.again ∧ entryAt es f.first = some e ∧ now < f.last then a + frameLen f.fr else a) 0

/-- Where a frame of a use may start on a port: at its eligibility, in this tick or later, behind the frames of the use (R276, R284). -/
def Dev.startFrom (d : Dev) (p : Nat) (u : SlotUse) (eligible : Nat) : Nat :=
  max (max eligible d.slotFirst) (mapGet (fun _ => 0) (d.port p).nextSlot u.key)

/-- The EC at which a slot begins (R274). -/
def slotEc (a : Nat) : Nat := a * 8 / 25

/-- A frame older than 5 ms in a fabric buffer (R296). -/
def tooOld (now : Nat) (h : LeadHdr) : Bool := decide (5000000 < ((now / 1024 + 2 ^ 32 - h.sendUs) % 2 ^ 32) * 1024)

/-- The lead of a frame that leaves from slot `a` on: SLOT, and SEND_US where this device is its source (R279). -/
def leadAt (h : LeadHdr) (own : Bool) (a : Nat) : LeadHdr :=
  { h with slot := a % 2 ^ 32, sendUs := if own then slotEc a / 1024 % 2 ^ 32 else h.sendUs }

/-- A frame takes its slots on a port and enters the replay buffer; the LSEQ is the next of its key. One that will be too old at its first
slot is discarded (R296; log entry 37). -/
def Dev.place (d : Dev) (p : Nat) (own : Bool) (h : LeadHdr) (body : List Flit) (eligible : Nat) : Dev :=
  let u := h.use
  let slots := slotsOf (d.entries true p) u
  let x := d.port p
  let from_ := d.startFrom p u eligible
  match slotAfter slots from_ 0, slotAfter slots from_ (body.length + 1) with
  | some first, some last =>
    let seq := mapGet (fun _ => 0) x.txSeq h.seqKey
    let h := leadAt { h with lseq := seq } own first
    if tooOld (slotEc first) h then d.bump (regAddr 8 0x20) 1
    else d.updPort p (fun x => { x with
      txSeq := mapPut x.txSeq h.seqKey ((seq + 1) % 4096), nextSlot := mapPut x.nextSlot u.key (last + 1),
      replay := x.replay ++ [⟨mkFrame h body, first, last, own, false⟩] })
  | _, _ => d

/-- The outcome of offering a frame to an output: sent or dropped, or it waits. -/
def Dev.offer (d : Dev) (p inPort eligible : Nat) (h : LeadHdr) (body : List Flit) : Option Dev :=
  let x := d.port p
  let drop := fun (d : Dev) => (framePkts (mkFrame h body)).foldl (fun d k => if pktForm k = 2 then d.ackEdge (longHdr k.hdr) 4 else d) d
  let flits := body.length + 2
  match h.use with
  | .sched sid net =>
    if !d.portUp p ∨ d.fld (fPortSched p) = 0 then some (drop (d.bump (regAddr 8 0x18) 1))
    else
      -- the entry that holds its first slot
      let es := d.entries true p
      let ent := (slotAfter (slotsOf es (.sched sid net)) (d.startFrom p h.use eligible) 0).bind (entryAt es)
      if (match ent with | some e => decide (e.2.2.2.2 < x.outLen es e d.slotNow + flits) | none => true) then some (drop (d.bump (regAddr 8 0x1C) 1))
      else if 8192 < x.replayLen + flits then none
      else some (d.place p (inPort == 12) h body eligible)
  | .open_ net =>
    let set := d.setFor (p / 4) (decide (p % 4 ≥ 2)) inPort h.dline
    if !d.portUp p ∨ x.credit net set < flits ∨ 8192 < x.replayLen + flits ∨ (slotsOf (d.entries true p) h.use).isEmpty then none
    else
      let d := d.updPort p (fun x => { x with credits := mapPut x.credits (2 * net + set) (x.credit net set - flits) })
      some (d.place p (inPort == 12) { h with dline := set } body eligible)
  | .mgmt => if !d.portUp p ∨ 8192 < x.replayLen + flits then none else some (d.place p (inPort == 12) h body eligible)

/-- Open credit returned when a frame leaves its input buffer (R278). -/
def Dev.owe (d : Dev) (inPort : Nat) (h : LeadHdr) (flits : Nat) : Dev :=
  if inPort < 12 ∧ h.lclass = 1 then
    d.updPort inPort (fun x => { x with owed := mapPut x.owed (2 * h.net + h.dline) (mapGet (fun _ => 0) x.owed (2 * h.net + h.dline) + flits) })
  else d

/-- The lead of a frame of this device for a packet, but for its SLOT and SEND_US. -/
def sourceLead (p : Packet) : LeadHdr :=
  let (c, n) := pktClass p
  { ltype := if pktForm p = 1 then 2 else 1, lclass := c, net := n, dline := 0, owner := if c = 2 then 0 else pktSlice p,
    lseq := 0, body := 0, slot := 0, sendUs := 0 }

/-! ### The edge ring (07 R262, R264) -/

/-- The stops of the edge ring clockwise from the north-west corner (02 Table 2.4; 07 Table 7.7). -/
def ringOrder : List Nat := [0, 1, 2, 3, 4, 5, 24, 26, 18, 19, 20, 21, 22, 23, 25, 11, 10, 9, 8, 7, 6, 17, 16, 15, 14, 13, 12]
/-- The stop of a fabric port: the plus ports above columns 0 to 5, the minus ports below them. -/
def portStop (p : Nat) : Nat := 2 * (p / 4) + p % 2 + (if p % 4 < 2 then 0 else 6)
/-- Whether the shorter direction between two stops is clockwise; 27 stops have no tie. -/
def ringClockwise (a b : Nat) : Bool := decide ((ringOrder.idxOf b + 27 - ringOrder.idxOf a) % 27 ≤ 13)
/-- The stops, by their places on the ring, whose segment in that direction the way from one to another uses. -/
def ringPath (a b : Nat) : List Nat :=
  let i := ringOrder.idxOf a
  let n := (ringOrder.idxOf b + 27 - i) % 27
  if ringClockwise a b then (List.range n).map (fun k => (i + k) % 27) else (List.range (27 - n)).map (fun k => (i + 27 - k) % 27)
/-- Whether two ways use one segment of the ring in one direction. -/
def ringMeets (a b c e : Nat) : Bool := ringClockwise a b == ringClockwise c e && (ringPath a b).any (ringPath c e).contains

/-- The order in which a stop serves the classes: management, scheduled, open; time words have no frames. -/
def classRank (lclass : Nat) : Nat := match lclass with | 2 => 0 | 0 => 1 | _ => 2
def ringRank (w : WaitFrame) : Nat := classRank (leadHdr w.fr.lead).lclass
/-- The ports by which the packets of a waiting frame go on. -/
def Dev.waysOut (d : Dev) (w : WaitFrame) : List Nat :=
  (framePkts w.fr).filterMap (fun k => match d.routeOf k w.inPort (leadHdr w.fr.lead).dline with | .port p => some p | _ => none)
/-- The stop at which a packet of this device comes onto the ring: that of its source core's cluster (07 R263). -/
def sourceStop (p : Packet) : Option Nat :=
  let core := if pktForm p = 1 then (shortPkt p.hdr).score else (longHdr p.hdr).score
  if core < 576 then some (ringStop (core / 8)) else none

/-- Whether a frame that waits to go on the ring, of a class before `rank`, uses a segment of the way from a stop to a port. -/
def Dev.ringClaimed (d : Dev) (stop port rank : Nat) : Bool :=
  d.fab.wait.any (fun y => y.way.isNone && decide (ringRank y < rank) &&
    (d.waysOut y).any (fun q => ringMeets (portStop y.inPort) (portStop q) stop (portStop port)))
/-- The same with the packets of this device that wait for the ring. -/
def Dev.ringTaken (d : Dev) (stop port rank : Nat) : Bool :=
  d.ringClaimed stop port rank || d.fab.out.any (fun o => decide (o.1 ≤ d.slotLast) && decide (classRank (pktClass o.2).1 < rank) &&
    (match sourceStop o.2, d.routeOf o.2 12 0 with
     | some a, .port q => ringMeets a (portStop q) stop (portStop port)
     | _, _ => false))

/-- What waits for an output: a frame at a transit stop, or a packet of this device, each from its slot of eligibility on. -/
inductive OutItem where
  | transit (w : WaitFrame)
  | own (slot : Nat) (p : Packet)
  deriving DecidableEq, Repr

def OutItem.slot : OutItem → Nat
  | .transit w => w.slot
  | .own e _ => e
def itemLead : OutItem → LeadHdr
  | .transit w => leadHdr w.fr.lead
  | .own _ p => sourceLead p

/-- Whether an item is eligible now and leaves by a port, or has no route. A packet of this device gives way on the ring to traffic of an earlier
class, and to transit of its own, which counts as on the ring already (07 R264; log entry 34). -/
def Dev.itemFor (d : Dev) (port : Nat) (x : OutItem) : Bool :=
  let free := fun (p : Packet) => match sourceStop p with
    | some a => !d.ringClaimed a port (classRank (pktClass p).1 + 1)
    | none => true
  decide (x.slot ≤ d.slotLast) && (match x with
    | .transit w => (framePkts w.fr).any (fun k =>
        let r := d.routeOf k w.inPort (leadHdr w.fr.lead).dline
        r == .none || (r == .port port && w.way.isSome))
    | .own _ p => d.routeOf p 12 0 == .none || (d.routeOf p 12 0 == .port port && free p))

/-- An item placed behind those that became eligible no later. -/
def insertItem (x : OutItem) : List OutItem → List OutItem
  | [] => [x]
  | y :: t => if x.slot < y.slot then x :: y :: t else y :: insertItem x t

/-- The items for a port in the order in which they became eligible (R284). -/
def Dev.itemsFor (d : Dev) (port : Nat) : List OutItem :=
  ((d.fab.wait.map OutItem.transit ++ d.fab.out.map (fun o => OutItem.own o.1 o.2)).filter (d.itemFor port)).foldl
    (fun l x => insertItem x l) []

/-- One item offered to its port: sent, discarded as too old, or dropped for want of a route; none where it waits (R291, R292,
R296). -/
def Dev.tryItem (d : Dev) (port : Nat) : OutItem → Option Dev
  | .transit w =>
    let h := leadHdr w.fr.lead
    let rest := ({ d with fab := { d.fab with wait := eraseFirst (fun x => x == w) d.fab.wait } } : Dev).owe w.inPort h (frameLen w.fr)
    if tooOld d.now h then some (rest.bump (regAddr 8 0x20) 1)
    else if (framePkts w.fr).all (fun k => d.routeOf k w.inPort h.dline == .none) then some ((framePkts w.fr).foldl Dev.noRoute rest)
    else rest.offer port w.inPort w.slot h w.fr.body
  | .own e p =>
    let rest : Dev := { d with fab := { d.fab with out := eraseFirst (fun x => x == (e, p)) d.fab.out } }
    if d.routeOf p 12 0 = .none then some (rest.noRoute p)
    else rest.offer port 12 e (sourceLead p) (p.hdr :: p.payload)

/-- The first item that does not wait; an item that waits stops only the later ones of its own class, network and owner
(R276, R282). -/
def Dev.sendFirst (d : Dev) (port : Nat) : List OutItem → List SlotUse → Dev
  | [], _ => d
  | x :: t, blocked =>
    let u := (itemLead x).use
    if blocked.contains u then d.sendFirst port t blocked
    else match d.tryItem port x with
      | some d' => d'
      | none => d.sendFirst port t (u :: blocked)

/-- The first frame waiting for a port that has become eligible leaves (R284). -/
def Dev.eligible (d : Dev) (port : Nat) : Dev := d.sendFirst port (d.itemsFor port) []

def execFrameEligible (port : Port) (s : State) : Res := ok (s.onDev (fun d => d.eligible port))

/-- The first of the frames with the least rank. -/
def firstByRank : List WaitFrame → Option WaitFrame
  | [] => none
  | w :: t => match firstByRank t with
    | some x => if ringRank x < ringRank w then some x else some w
    | none => some w

/-- Whether a frame that arrived at one port waits to go to another. -/
def Dev.transitDue (d : Dev) (inPort outPort : Nat) (w : WaitFrame) : Bool :=
  w.inPort == inPort && w.way.isNone && (d.waysOut w).contains outPort

/-- Transit traffic goes from stop to stop of the edge ring by the shorter direction, and never enters the mesh: the first frame by class that
arrived at one port for another, where no traffic of an earlier class waits for a segment of its way (07 R264). -/
def Dev.transit (d : Dev) (inPort outPort : Nat) : Dev :=
  match firstByRank (d.fab.wait.filter (d.transitDue inPort outPort)) with
  | some w =>
    if d.ringTaken (portStop inPort) outPort (ringRank w) then d
    else
      let way := some (ringClockwise (portStop inPort) (portStop outPort))
      let d : Dev := { d with fab := { d.fab with wait := mapIf (fun x => x == w) (fun x => { x with way := way }) d.fab.wait } }
      d.bumpWrap (regAddr 7 0x38) (frameLen w.fr)
  | none => d

/-- The next `n` frames go on. -/
def Dev.transits (inPort outPort : Nat) : Nat → Dev → Dev
  | 0, d => d
  | n + 1, d => Dev.transits inPort outPort n (d.transit inPort outPort)

def execTransitForward (inPort outPort : Port) (n : Nat) (s : State) : Res := ok (s.onDev (Dev.transits inPort outPort n))

/-! ### Receiving a frame (R282, R283, R295) -/

/-- An acknowledgement word, or a NAK (Table 8.7). -/
def ackWord (h : LeadHdr) (nak : Bool) (lseq : Nat) : CtrlWord :=
  BitVec.ofNat 128 (3 <<< 124 + h.owner <<< 112 + h.lclass <<< 110 + h.net <<< 109 + b2n nak <<< 108 + (lseq % 4096) <<< 96)

def Dev.ctrl (d : Dev) (p : Nat) (w : CtrlWord) : Dev := d.updPort p (fun x => { x with ctrlQ := x.ctrlQ ++ [w] })

/-- The absolute slot that a 32-bit SLOT field names: the last one at or before now. -/
def Dev.absSlot (d : Dev) (f : Nat) : Nat := d.slotNow - (d.slotNow + 2 ^ 32 - f) % 2 ^ 32

/-- The slot slack K of the slice that owns a frame (R283). -/
def Dev.slackOf (d : Dev) (sid : Nat) : Nat :=
  match d.slice? sid with
  | some sl => sl.fo.slotK
  | none => mapGet (fun _ => 0) d.fab.transitK sid

/-- The presentation slot of a scheduled frame: A_tail + 250 + K (R283). -/
def Dev.presentSlot (d : Dev) (port : Nat) (h : LeadHdr) : Nat :=
  let own := slotsOf (d.entries false port) h.use
  (slotAfter own (d.absSlot h.slot) (h.body + 1)).getD (d.absSlot h.slot) + 250 + d.slackOf h.owner

/-- The tail slot of a frame that a NAK names, taken from a frame received `k` later: that frame's own for 0; else the missing frames lie in
the owner's slots right before its lead, each as short as a frame can be, 3 flits (DESIGN CHOICE, log entry 37). -/
def missingTail (own : List Nat) (lead body k : Nat) : Nat :=
  if k = 0 then (slotAfter own lead (body + 1)).getD lead else (slotBefore own lead (3 * (k - 1))).getD lead

/-- A NAK of an LSEQ, at a frame received; a scheduled frame that cannot be resent with every later one of its owner before its presentation
slot raises a replay hold (11 R362). -/
def Dev.nak (d : Dev) (port : Nat) (h : LeadHdr) (lseq : Nat) : Dev :=
  let d := d.ctrl port (ackWord h true lseq)
  if h.lclass = 0 then
    let own := slotsOf (d.entries false port) h.use
    let k := (h.lseq + 4096 - lseq) % 4096
    let tail := missingTail own (d.absSlot h.slot) h.body k
    match slotAfter own (d.slotNow + 340) (3 * k + h.body + 1) with
    | some e =>
      if tail + 250 + d.slackOf h.owner < e ∧ !(d.port port).nakHeld.contains (h.seqKey, lseq) then
        (d.updPort port (fun x => { x with nakHeld := x.nakHeld ++ [(h.seqKey, lseq)] })).raiseFor h.owner 3
      else d
    | none => d
  else d

/-- Whether a frame's lead slot belongs to its owner, class and network; a management frame is not checked (R295). -/
def Dev.slotOwned (d : Dev) (port : Nat) (h : LeadHdr) : Bool :=
  h.lclass == 2 || slotIs (d.entries false port) h.use (d.absSlot h.slot % 4000)

/-- The slot slack that the launch exchange gave for a slice that only transits this device (R283, R299). -/
def Dev.learnK (d : Dev) (sid k : Nat) : Dev :=
  match d.slice? sid with
  | some _ => d
  | none => { d with fab := { d.fab with transitK := mapPut d.fab.transitK sid k } }

/-- A frame's tail is received (R279, R282, R283, R295). -/
def Dev.frameIn (d : Dev) (port : Nat) (f : Frame) : Dev :=
  let h := leadHdr f.lead
  if !leadOk f then d.bump (regAddr 8 0x2C) 1
  else if f.tail ≠ tailFlit f.lead f.body then d.nak port h h.lseq
  else
    let exp := mapGet (fun _ => 0) (d.port port).rxSeq h.seqKey
    let ahead := (h.lseq + 4096 - exp) % 4096
    if ahead = 0 then
      let d := d.updPort port (fun x => { x with rxSeq := mapPut x.rxSeq h.seqKey ((exp + 1) % 4096) })
      let d := d.ctrl port (ackWord h false h.lseq)
      if !d.slotOwned port h then
        let d := (d.bump (regAddr 8 0x10) 1).event 8 6 [port]
        (framePkts f).foldl (fun d k => if pktForm k = 2 then d.ackEdge (longHdr k.hdr) 3 else d) (d.owe port h (frameLen f))
      else
        let slot := if h.lclass = 0 then d.presentSlot port h else d.slotNow
        d.updPort port (fun x => { x with rx := x.rx ++ [⟨f, slot, h.lclass == 0 && decide (slot < d.slotNow)⟩] })
    else if ahead < 2048 then d.nak port h exp
    else d.ctrl port (ackWord h false ((exp + 4095) % 4096))

/-- A frame received. -/
def execFrameReceive (port : Port) (x : FrameIn) (s : State) : Res :=
  let f := x.frame
  let h := leadHdr f.lead
  ok (if s.dev.portUp port then s.onDev (fun d => (if leadOk f ∧ h.lclass = 0 then d.learnK h.owner x.k else d).frameIn port f) else s)

/-- The frames of packets that go on to other devices from a presented frame: one for each route. -/
def transitBodies (d : Dev) (inPort : Nat) (h : LeadHdr) (ps : List Packet) : List (List Packet) :=
  let routes := (ps.map (fun k => d.routeOf k inPort h.dline)).eraseDups
  routes.map (fun r => ps.filter (fun k => d.routeOf k inPort h.dline == r))

/-- A packet of this device enters from a frame, whose credit returns; an atomic add waits in the port's open buffer while its stop holds 16
in progress or others wait for the stop (R278). -/
def Dev.letIn (d : Dev) (port : Nat) (h : LeadHdr) (flits : Nat) (p : Packet) : Dev :=
  if isAdd p && d.addsFull (addStop p) then
    { d with fab := { d.fab with adds := d.fab.adds ++ [⟨port, 2 * h.net + h.dline, flits, p⟩] } }
  else (d.owe port h flits).fromRing p

/-- The first received frame whose presentation slot has come is presented: its packets for this device enter the mesh,
the others wait for their output (R283, R284, R292). -/
def Dev.present (d : Dev) (port : Nat) : Dev :=
  match (d.port port).rx.find? (fun r => decide (r.slot ≤ d.slotLast)) with
  | some r =>
    let h := leadHdr r.fr.lead
    let d := d.updPort port (fun x => { x with rx := eraseFirst (fun y => y == r) x.rx })
    if tooOld d.now h then (d.owe port h (frameLen r.fr)).bump (regAddr 8 0x20) 1
    else
      let hit := fun (k : Nat × Nat) => k == (h.seqKey, h.lseq)
      let held := (d.port port).nakHeld.any hit
      let d := if r.late then
          let d := (d.bump (regAddr 8 0x24) 1).event 8 8 [port]
          if held then d else d.raiseFor h.owner 3
        else d
      let d := d.updPort port (fun x => { x with nakHeld := x.nakHeld.filter (fun k => !hit k) })
      let waits := (List.range 12).any (fun p => (d.port p).nakHeld.any (fun k => k.1 / 8 == h.owner))
      let d := if h.lclass = 0 ∧ !waits then d.clearFor h.owner 3 else d
      let here := (framePkts r.fr).filter (fun k => pktChip k == d.coord)
      let rest := (framePkts r.fr).filter (fun k => pktChip k != d.coord)
      let enters := fun (k : Packet) => d.routeOf k port h.dline == .here
      let d := (here.filter (fun k => !enters k)).foldl Dev.noRoute d
      -- an open frame with a long packet is that packet's alone
      let d := match here.filter enters with
        | [k] => if rest.isEmpty then d.letIn port h (frameLen r.fr) k else d.fromRing k
        | ks => ks.foldl Dev.fromRing (if rest.isEmpty then d.owe port h (frameLen r.fr) else d)
      if rest.isEmpty then d
      else
        -- presented at its slot, or now where it is late
        let at_ := (if r.late then max r.slot d.slotFirst else r.slot) + 100
        (transitBodies d port h rest).foldl (fun (d : Dev) b => { d with fab := { d.fab with
          wait := d.fab.wait ++ [⟨port, at_, mkFrame h (b.flatMap (fun k => k.hdr :: k.payload)), none⟩] } }) d
  | none => d

def execFramePresent (port : Port) (s : State) : Res := ok (s.onDev (fun d => d.present port))

/-! ### Acknowledgement, replay, credits (R278, R282) -/

/-- Frames discarded from a replay buffer, with what each counts. -/
def Dev.dropSent (d : Dev) (port : Nat) (hit : SentFrame → Bool) (count : Dev → SentFrame → Dev) : Dev :=
  let gone := (d.port port).replay.filter hit
  gone.foldl count (d.updPort port (fun x => { x with replay := x.replay.filter (fun f => !hit f) }))

/-- The packets of a lost frame are answered as unreachable (R291, R301). -/
def Dev.frameLost (d : Dev) (f : SentFrame) : Dev := (framePkts f.fr).foldl Dev.noRoute d

/-- A frame from slot `a` on: one that has begun to leave before keeps the SLOT of its first sending, from which the receiver counts, and is
resent; any other leaves for the first time (R279, R283). -/
def Dev.slotted (d : Dev) (f : SentFrame) (a b : Nat) : SentFrame :=
  if f.again || decide (f.first ≤ d.slotLast) then { f with first := a, last := b, again := true }
  else { f with fr := mkFrame (leadAt (leadHdr f.fr.lead) f.own a) f.fr.body, first := a, last := b }

/-- The first slot on a port behind those that frames of a use hold, but for some of them. -/
def Dev.freeFrom (d : Dev) (port : Nat) (hit : SentFrame → Bool) (u : SlotUse) : Nat :=
  (d.port port).replay.foldl (fun a f => if !hit f && (leadHdr f.fr.lead).use == u then max a (f.last + 1) else a) d.slotFirst

/-- Frames put into new slots in order, behind those that other frames of the use hold; those that will be too old at their first slot are
discarded (R282, R296). -/
def Dev.replace (d : Dev) (port : Nat) (hit : SentFrame → Bool) : Dev :=
  match (d.port port).replay.find? hit with
  | none => d
  | some f0 =>
    let u := (leadHdr f0.fr.lead).use
    let own := slotsOf (d.entries true port) u
    let (l, next, old) := ((d.port port).replay.filter hit).foldl (fun (acc : List SentFrame × Nat × Nat) f =>
      match slotAfter own acc.2.1 0, slotAfter own acc.2.1 (f.fr.body.length + 1) with
      | some a, some b =>
        let g := d.slotted f a b
        if tooOld (slotEc a) (leadHdr g.fr.lead) then (acc.1, acc.2.1, acc.2.2 + 1) else (acc.1 ++ [g], b + 1, acc.2.2)
      | _, _ => (acc.1 ++ [f], acc.2)) ([], d.freeFrom port hit u, 0)
    (d.updPort port (fun x => { x with
      replay := x.replay.filter (fun f => !hit f) ++ l, nextSlot := mapPut x.nextSlot u.key next })).bump (regAddr 8 0x20) old

/-- A frame that is leaving goes on in slots of the new table behind those it has used. -/
def restIn (old new : List Nat) (now : Nat) (f : SentFrame) : SentFrame :=
  let used := ((List.range (now + 1 - f.first)).filter (fun k => old.contains ((f.first + k) % 4000))).length
  { f with last := (slotAfter new (now + 1) (frameLen f.fr - 1 - used)).getD f.last }

/-- New tables are in force on a port, in place of those of `old`: what has not left takes slots of its own use again, a frame that is leaving
for the rest of its flits; frames are lost where the use has no slot any more (R276; log entry 31). -/
def Dev.replan (old d : Dev) (port : Nat) : Dev :=
  let left := fun (f : SentFrame) => decide (d.slotLast < f.last)
  let use := fun (f : SentFrame) => (leadHdr f.fr.lead).use
  (((d.port port).replay.filter left).map use).eraseDups.foldl (fun d u =>
    let mine := fun (f : SentFrame) => left f && use f == u
    let begun := fun (f : SentFrame) => mine f && decide (f.first ≤ d.slotLast)
    let was := slotsOf (old.entries true port) u
    let slots := slotsOf (d.entries true port) u
    if slots.isEmpty then d.dropSent port mine Dev.frameLost
    else (d.updPort port (fun x => { x with replay := mapIf begun (restIn was slots d.slotLast) x.replay })).replace port
      (fun f => mine f && !decide (f.first ≤ d.slotLast))) d

/-- Frames of a key resent: from an LSEQ on, in order, before any new frame (R282). Those older than 5 ms are discarded (R296), and
scheduled frames on a port that does not carry them are lost (R291, R301). -/
def Dev.resend (d : Dev) (port key lseq : Nat) : Dev :=
  let later := fun (f : SentFrame) =>
    (leadHdr f.fr.lead).seqKey == key && decide (((leadHdr f.fr.lead).lseq + 4096 - lseq) % 4096 < 2048)
  let old := fun (f : SentFrame) => later f && tooOld d.now (leadHdr f.fr.lead)
  let d := d.dropSent port old (fun d _ => d.bump (regAddr 8 0x20) 1)
  let barred := d.fld (fPortSched port) = 0
  let d := d.dropSent port (fun f => later f && (leadHdr f.fr.lead).lclass == 0 && barred) Dev.frameLost
  if (d.port port).replay.any later then (d.replace port later).bump (regAddr 8 (0x80 + 8 * port)) 1 else d

/-- An acknowledgement is cumulative; a NAK resends, and acknowledges nothing (R282). -/
def Dev.ackIn (d : Dev) (port : Nat) (w : CtrlWord) : Dev :=
  let n := w.toNat
  let key := bits n 123 112 * 8 + bits n 111 110 * 2 + bits n 109 109
  let lseq := bits n 107 96
  let nak := bitAt n 108
  let gone := fun (f : SentFrame) =>
    (leadHdr f.fr.lead).seqKey == key && decide ((lseq + 4096 - (leadHdr f.fr.lead).lseq) % 4096 < 2048)
  if nak then d.resend port key lseq else d.updPort port (fun x => { x with replay := x.replay.filter (fun f => !gone f) })

/-- A valid control flit has been received (R273). -/
def Dev.heard (d : Dev) (port : Nat) : Dev := d.updPort port (fun x => { x with lastCtrl := d.time.ticks })

/-- Whether a port carries control flits: in ALIGN, DISCOVER or UP, and fenced for neither latency nor straps (Table 8.2). -/
def Dev.carriesCtrl (d : Dev) (port : Nat) : Bool :=
  let st := d.fld (fPortState port)
  let why := d.fld (fPortWhy port)
  st == 2 || st == 3 || st == 4 || (st == 5 && why != 5 && why != 6)

/-- A control word received at a port, in a flit that is valid whatever its word: one of an invalid type is ignored and counted, and an empty
one says no more (R273, R281). -/
def State.word (s : State) (port : Nat) (w : CtrlWord) (type : Nat) (live : Bool) (f : Dev → Dev) : State :=
  if !s.dev.carriesCtrl port then s
  else s.onDev (fun d =>
    let d := d.heard port
    if 7 ≤ bits w.toNat 127 124 then d.bump (regAddr 8 0x28) 1
    else if live ∧ bits w.toNat 127 124 = type then f d else d)

def execAckWord (port : Port) (w : CtrlWord) (s : State) : Res :=
  ok (s.word port w 3 (s.dev.portUp port) (fun d => d.ackIn port w))

/-- A frame not acknowledged within 2 µs is resent as if NAKed (R282). -/
def execReplayTimeout (port : Port) (owner : SliceId) (lclass : BitVec 2) (net : Net) (s : State) : Res :=
  let key := owner.toNat * 8 + lclass.toNat * 2 + (match net with | .req => 0 | .rep => 1)
  ok (s.onDev (fun d =>
    match (d.port port).replay.find? (fun f => (leadHdr f.fr.lead).seqKey == key) with
    | some f => if d.portUp port ∧ f.last * 8 / 25 + 2000 ≤ d.now then d.resend port key (leadHdr f.fr.lead).lseq else d
    | none => d))

/-- Open credits of a credit word: request set 0, request set 1, reply set 0, reply set 1 (Table 8.7). -/
def addCredits (n : Nat) (cs : List (Nat × Nat)) : List (Nat × Nat) :=
  (List.range 4).foldl (fun cs k => mapPut cs k (mapGet (fun _ => 1024) cs k + bits n (123 - 12 * k) (112 - 12 * k))) cs

def execCreditWord (port : Port) (w : CtrlWord) (s : State) : Res :=
  ok (s.word port w 5 (s.dev.portUp port) (fun d => d.updPort port (fun x => { x with credits := addCredits w.toNat x.credits })))

/-- The control flit of up to three words: bytes 0–47, the empty word where none is due, and the CRC32C in bytes 48–51 (R281). -/
def ctrlFlit (ws : List CtrlWord) : Flit :=
  let n := (ws.take 3).zipIdx.foldl (fun a (w, i) => a + w.toNat <<< (128 * i)) 0
  BitVec.ofNat 512 (n + crc32c (toLe 48 n) <<< 384)
/-- Whether a control flit's CRC holds. -/
def ctrlFlitOk (f : Flit) : Bool := bits f.toNat 415 384 == crc32c (toLe 48 (f.toNat % 2 ^ 384))

/-- A control flit that fails its CRC is discarded whole (R281). One whose CRC holds is a valid control flit (R273); its words come by their own
commands. -/
def execControlFlitBad (x : PortFlit) (s : State) : Res :=
  ok (if s.dev.carriesCtrl x.port then
        s.onDev (fun d => if ctrlFlitOk x.flit then d.heard x.port else d.bump (regAddr 8 0x28) 1)
      else s)

end Sys2Proof.Machine
end

