-- ==== Sys2Proof/Machine/Ports.lean ====
section
/-! DEFINITION. Fabric ports: training, discovery, lanes, time words, loss (08 sections 1, 2, 5, 6 and 9; 01 R24, R25). -/

namespace Sys2Proof.Machine

/-! ### Port fields (Table 8.19) -/

def fLane (p : Nat) : Fld := ⟨regAddr 8 (0x40 + 4 * p), 28, 25⟩
def fReversed (p : Nat) : Fld := ⟨regAddr 8 (0x40 + 4 * p), 24, 24⟩
def fNbrPort (p : Nat) : Fld := ⟨regAddr 8 (0x40 + 4 * p), 19, 16⟩
def fNbrChip (p : Nat) : Fld := ⟨regAddr 8 (0x40 + 4 * p), 15, 4⟩
/-- A port's state (Table 8.2). -/
def Dev.pstate (d : Dev) (p : Nat) : Nat := d.fld (fPortState p)
/-- Whether PORT_EN enables a port (Table 8.18). -/
def Dev.portEn (d : Dev) (p : Nat) : Bool := bitAt (d.reg (regAddr 8 8)) p
/-- SEC.STATUS.BOOT (15 Table 15.14). -/
def Dev.bootState (d : Dev) : Nat := d.fld ⟨regAddr 15 0, 31, 28⟩
/-- Whether fabric ports are held DOWN: on an unconfigured device, in recovery, before boot step 8, and without power (15 R455,
R456; 17 R500, R507). -/
def Dev.portsHeld (d : Dev) : Bool := d.bootState == 2 || d.bootState == 3 || d.sec.holdBoot.isSome || !d.pins.rails

/-- A port enters a state now; in ALIGN it measures its latency anew (R272). -/
def Dev.enter (d : Dev) (p st : Nat) : Dev :=
  (d.put (fPortState p) st).updPort p (fun x => { x with
    since := d.time.ticks, lastCtrl := d.time.ticks, reached := x.reached || st == 3, latency := if st = 2 then none else x.latency })

/-- FAB.STATUS.DEGRADED: a planned port is missing, FENCED or FAILED (R290). -/
def Dev.degraded (d : Dev) : Bool :=
  d.fab.plan.any (fun x => (d.port x.1).missing || d.pstate x.1 == 5 || d.pstate x.1 == 6)
def Dev.degradeCheck (d : Dev) : Dev :=
  let was := d.fld ⟨regAddr 8 4, 0, 0⟩
  let now := b2n d.degraded
  let d := d.put ⟨regAddr 8 4, 0, 0⟩ now
  if was = 0 ∧ now = 1 then d.event 8 4 [] else d

/-- A port is fenced for a reason; the fence is reported with the neighbour's serial and coordinate (R290). -/
def Dev.fence (d : Dev) (p why : Nat) : Dev :=
  let d := (d.enter p 5).put (fPortWhy p) why
  let args := [p, (d.port p).nbrSerial.toNat % 2 ^ 64, (d.port p).nbrSerial.toNat / 2 ^ 64, d.fld (fNbrChip p)]
  ((d.event 8 2 args).auditSelf 4 args).degradeCheck

/-! ### Time parent (01 R25) -/

/-- A field of EPOCH.CTRL and of EPOCH.STATUS. -/
def fSrc : Fld := ⟨regAddr 1 8, 2, 0⟩
def fParent : Fld := ⟨regAddr 1 8, 11, 8⟩
def fAlt : Fld := ⟨regAddr 1 8, 15, 12⟩
def fCur : Fld := ⟨regAddr 1 0x18, 13, 10⟩

/-- Whether a port is usable as time parent: UP, with a time word of less than 30 hops in the last 1 ms. -/
def Dev.parentOk (d : Dev) (p : Nat) : Bool :=
  decide (p < 12) && d.portUp p && (d.port p).timeOk && decide (d.time.ticks < (d.port p).timeTick + 1000000)

/-- The parent that a follower takes: the port in use while it is usable, else the other (R25). -/
def Dev.parentPick (d : Dev) : Nat :=
  let cur := d.fld fCur
  let a := d.fld fParent
  let b := d.fld fAlt
  if d.parentOk cur ∧ (cur = a ∨ cur = b) then cur
  else if d.parentOk a then a
  else if d.parentOk b then b
  else 15

/-- The parent in use is taken again; a port taken other than by a commit sets PARENT_SWITCH, and the loss of both sets
SYNC_LOST. DESIGN CHOICE (log entry 69): a commit of the EPOCH block that leaves no usable parent sets no SYNC_LOST, since its own commit
event reports it. -/
def Dev.parentCheck (d : Dev) (commit : Bool) : Dev :=
  let cur := d.fld fCur
  let new := if d.fld fSrc ≠ 3 then 15
    else if commit ∧ d.parentOk (d.fld fParent) then d.fld fParent else d.parentPick
  let d := d.put fCur new
  if new = cur ∨ commit then d
  else if new < 12 then d.event 1 6 []
  else if d.fld fSrc = 3 then d.event 1 4 [] else d

/-- No time word from the parent for 1 ms: it is lost (R25). -/
def execParentTimeout (s : State) : Res :=
  ok (s.onDev (fun d =>
    let cur := d.fld fCur
    if d.fld fSrc = 3 ∧ cur < 12 ∧ (d.port cur).timeTick + 1000000 ≤ d.time.ticks then
      (d.updPort cur (fun x => { x with timeOk := false })).parentCheck false
    else d))

/-! ### SCHED_OK and link holds (R285, R290, R301) -/

/-- The slices of this device, launched, that a port's tables name. -/
def Dev.slicesOn (d : Dev) (p : Nat) : List Nat := (d.slices.filter (fun sl => sl.launched && d.portNames p sl.id)).map (fun sl => sl.id)

/-- The slices that a port's scheduled entries name. -/
def Dev.namedOn (d : Dev) (p : Nat) : List Nat :=
  (((d.entries true p ++ d.entries false p).filter (fun e => decide (e.2.2.1 < 2))).map (fun e => e.2.2.2.1)).eraseDups

/-- The slices that a port's tables name and that only transit this device: it holds their route entry, and none of their clusters
(R299). -/
def Dev.transitsOn (d : Dev) (p : Nat) : List Nat :=
  (d.namedOn p).filter d.transits?

/-- A link hold is raised on every slice that a port's tables name. -/
def Dev.linkRaise (d : Dev) (p : Nat) : Dev :=
  let ts := d.transitsOn p
  let d := (d.slicesOn p).foldl (fun d sid => d.raiseHold sid 2) d
  ts.foldl (fun d sid => d.transitRaise sid 2) d

/-- Whether every port that names a slice is UP with SCHED_OK = 1. -/
def Dev.linksGood (d : Dev) (sid : Nat) : Bool :=
  (List.range 12).all (fun p => !d.portNames p sid || (d.portUp p && d.fld (fPortSched p) == 1))

/-- A link hold clears when every port that names the slice is UP with SCHED_OK = 1 (11 Table 11.2). -/
def Dev.linkClear (d : Dev) (sid : Nat) : Dev :=
  if !d.linksGood sid then d
  else d.clearFor sid 2

/-- Whether the scheduled class may run on a port: matching tables, and a measured offset of at most 16 ns (R285, R290). -/
def PortSt.schedOk (x : PortSt) : Bool :=
  x.matched && (match x.offset with | some o => decide (o.natAbs ≤ 16 * 65536) | none => false)

/-- SCHED_OK taken again on a port that is UP. -/
def Dev.schedCheck (d : Dev) (p : Nat) : Dev :=
  let was := d.fld (fPortSched p)
  let now := b2n (d.portUp p && (d.port p).schedOk)
  let d := d.put (fPortSched p) now
  if was = 1 ∧ now = 0 then
    -- scheduled frames that have not left, or are being replayed, are lost (R291, R301)
    (d.dropSent p (fun f => (leadHdr f.fr.lead).lclass == 0 && decide (d.slotFirst ≤ f.last)) Dev.frameLost).linkRaise p
  else if was = 0 ∧ now = 1 then (d.slicesOn p ++ d.transitsOn p).foldl Dev.linkClear d
  else d

/-- A port leaves UP: frames held for replay are lost, their packets answered as unreachable, link holds raised, and the
time parent taken again (R273, R301). -/
def Dev.portLoss (d : Dev) (p st : Nat) : Dev :=
  let lost := (d.port p).replay.flatMap (fun f => framePkts f.fr)
  let d := lost.foldl Dev.noRoute d
  let d := d.updPort p (fun x => { x with
    replay := [], nextSlot := [], txSeq := [], rxSeq := [], nakHeld := [], credits := [], owed := [], ctrlQ := [], timeOk := false, offset := none, latency := none, matched := false })
  let d := ((d.put (fPortSched p) 0).enter p st).event 8 1 [p]
  (d.linkRaise p).parentCheck false |>.degradeCheck

/-! ### Training (R271, R272) -/

/-- Signal is detected: a DOWN port that is enabled and waits for no retry trains. -/
def execPortSignalDetect (port : Port) (s : State) : Res :=
  ok (s.onDev (fun d =>
    let d := d.updPort port (fun x => { x with signal := true })
    if d.pstate port = 0 ∧ d.portEn port ∧ !d.portsHeld ∧ !(d.port port).retry then d.enter port 1 else d))

/-- Every lane has adapted; the polarity of each lane and a reversal of the port have been detected (R269, R271). -/
def execTrainingComplete (port : Port) (sense : LaneSense) (s : State) : Res :=
  ok (if s.dev.pstate port = 1 then
        s.onDev (fun d => ((d.enter port 2).put (fReversed port) (b2n sense.reversed)).updPort port (fun x => { x with polarity := sense.polarity }))
      else s)

/-- The physical lane of a logical lane at this end (R269). -/
def Dev.physLane (d : Dev) (p k : Nat) : Nat := if d.fld (fLane p) ≤ k then k + 1 else k
/-- The peer's physical lane that a lane of a reversed port meets (R269). -/
def Dev.peerLane (d : Dev) (p j : Nat) : Nat := if d.fld (fReversed p) = 1 then 8 - j else j

/-- A failed training: DOWN with a retry after 1 s, or FAILED at the eighth in succession. -/
def Dev.trainFail (d : Dev) (p : Nat) : Dev :=
  let n := (d.port p).fails + 1
  let d := d.updPort p (fun x => { x with fails := n, retry := true })
  (d.enter p (if 8 ≤ n then 6 else 0)).degradeCheck

def execTrainingTimeout (port : Port) (s : State) : Res :=
  ok (if s.dev.pstate port = 1 ∧ (s.dev.port port).since + 300000000 ≤ s.dev.time.ticks then s.onDev (fun d => d.trainFail port) else s)

/-- FEC lock and deskew, of at most 20 ns of skew between lanes, hold and the latency is measured: DISCOVER, or a latency fence above
50 ns (R269, R272). -/
def execAlignComplete (port : Port) (skewNs : Nat) (s : State) : Res :=
  ok (match decide (skewNs ≤ 20), s.dev.pstate port, (s.dev.port port).latency with
      | true, 2, some l => s.onDev (fun d =>
          if l ≤ 50 * 65536 then (d.enter port 3).updPort port (fun x => { x with missing := false }) |>.degradeCheck
          else d.fence port 6)
      | _, _, _ => s)

def execAlignTimeout (port : Port) (s : State) : Res :=
  ok (if s.dev.pstate port = 2 ∧ (s.dev.port port).since + 1000000 ≤ s.dev.time.ticks then s.onDev (fun d => d.trainFail port) else s)

/-- 1 ms in DISCOVER without discovery words. -/
def execDiscoverTimeout (port : Port) (s : State) : Res :=
  ok (if s.dev.pstate port = 3 ∧ (s.dev.port port).since + 1000000 ≤ s.dev.time.ticks then s.onDev (fun d => d.enter port 0) else s)

/-- The retry of a DOWN port, 1 s after it returned from TRAIN or ALIGN. -/
def execPortRetry (port : Port) (s : State) : Res :=
  ok (s.onDev (fun d =>
    let x := d.port port
    if d.pstate port = 0 ∧ x.retry ∧ x.since + 1000000000 ≤ d.time.ticks then
      let d := d.updPort port (fun x => { x with retry := false })
      if x.signal ∧ d.portEn port ∧ !d.portsHeld then d.enter port 1 else d
    else d))

/-- A latency fence returns to DOWN after 1 s, and the port retries. -/
def execLatencyFenceExpiry (port : Port) (s : State) : Res :=
  ok (s.onDev (fun d =>
    let x := d.port port
    if d.pstate port = 5 ∧ d.fld (fPortWhy port) = 6 ∧ x.since + 1000000000 ≤ d.time.ticks then
      let d := ((d.enter port 0).put (fPortWhy port) 0).degradeCheck
      if x.signal ∧ d.portEn port ∧ !d.portsHeld then d.enter port 1 else d
    else d))

/-- A planned port that did not reach DISCOVER within 1 s of boot is missing (R290). -/
def execPortMissing (port : Port) (s : State) : Res :=
  ok (s.onDev (fun d =>
    if (d.fab.plan.any (fun x => x.1 == port.val)) ∧ !(d.port port).reached ∧ 1000000000 ≤ d.time.ticks then
      (d.updPort port (fun x => { x with missing := true })).degradeCheck
    else d))

/-- No valid control flit for 1 µs on a port that is UP (R273). -/
def execControlFlitTimeout (port : Port) (s : State) : Res :=
  ok (if s.dev.portUp port ∧ (s.dev.port port).lastCtrl + 1000 ≤ s.dev.time.ticks then s.onDev (fun d => d.portLoss port 0) else s)

/-! ### Lanes (R270) -/

/-- The wheel in which an EC lies (R274). -/
def Dev.wheel (d : Dev) : Nat := d.now / 1280

/-- A second lane failure moves the port to FAILED. -/
def Dev.laneFail (d : Dev) (p : Nat) : Dev := if d.portUp p then d.portLoss p 6 else (d.enter p 6).degradeCheck

/-- Whether a port carries lanes that can fail, and one is retired or about to be. -/
def Dev.laneLive (d : Dev) (p : Nat) : Bool := decide (2 ≤ d.pstate p) && decide (d.pstate p ≤ 4)
def Dev.laneUsed (d : Dev) (p : Nat) : Bool := d.fld (fLane p) != 15 || (d.port p).laneSwitch.isSome
/-- Whether the lane that is about to be retired is this one. -/
def Dev.laneGoing (d : Dev) (p lane : Nat) : Bool := (d.port p).laneSwitch.any (fun x => x.1 == lane)

/-- A lane that loses lock: the switch takes place at the start of the second wheel after the loss. How many codewords are
in flight and lost is a free value (log entry 14); the frames they carried are replayed. -/
def execLaneLossOfLock (port : Port) (lane : Fin 9) (s : State) : Res :=
  ok (s.onDev (fun d =>
    if !d.laneLive port ∨ d.fld (fLane port) = lane.val then d
    else if d.laneUsed port ∧ !d.laneGoing port lane then d.laneFail port
    else
      let (k, d) := d.draw
      (d.bump (regAddr 8 (0x84 + 8 * port.val)) (Config.freeValue k).toNat).updPort port (fun x => { x with
        laneSwitch := some (lane.val, match x.laneSwitch with | some (_, w) => min w (d.wheel + 2) | none => d.wheel + 2) })))

/-- The lane control word of Table 8.7. -/
def laneWord (planned lane wheel : Nat) : CtrlWord :=
  BitVec.ofNat 128 (4 <<< 124 + planned <<< 123 + lane <<< 119 + (wheel % 2 ^ 32) <<< 87)

/-- A second of a lane: its uncorrectable codewords are counted (R282). Corrected symbols over 1 s above 10^−SER_THRESH: the two ends agree on a later wheel for the switch, which is a free
value (log entry 14). -/
def execLaneErrorCheck (port : Port) (lane : Fin 9) (corrected : Nat) (second : LaneSecond) (s : State) : Res :=
  ok (s.onDev (fun d =>
    let d := if d.laneLive port then d.bump (regAddr 8 (0x84 + 8 * port.val)) second.uncorr else d
    if !d.laneLive port ∨ d.fld (fLane port) = lane.val ∨ corrected * 10 ^ d.fld ⟨regAddr 8 8, 19, 16⟩ ≤ second.symbols ∨
        d.laneGoing port lane then d
    else if d.laneUsed port then d.laneFail port
    else
      let (k, d) := d.draw
      let w := d.wheel + 1 + (Config.freeValue k).toNat
      (d.updPort port (fun x => { x with laneSwitch := some (lane.val, w) })).ctrl port (laneWord 1 lane w)))

/-- The peer's lane control word: the lane to retire and the wheel of the switch. -/
def execLaneControlWord (port : Port) (w : CtrlWord) (s : State) : Res :=
  ok (s.word port w 4 (s.dev.laneLive port) (fun d =>
    let n := w.toNat
    let lane := bits n 122 119
    if 8 < lane ∨ d.fld (fLane port) = lane then d
    else if d.laneUsed port then (if d.laneGoing port lane then d else d.laneFail port)
    else
      let f := bits n 118 87
      let wheel := d.wheel + (f + 2 ^ 32 - d.wheel % 2 ^ 32) % 2 ^ 32
      d.updPort port (fun x => { x with laneSwitch := some (lane, wheel) })))

/-- The switch to the spare at the start of its wheel. -/
def execLaneSwitch (port : Port) (s : State) : Res :=
  ok (s.onDev (fun d =>
    match (d.port port).laneSwitch with
    | some (lane, w) =>
      if w ≤ d.wheel then
        let d : Dev := { d with hlth := { d.hlth with lanesRetired := d.hlth.lanesRetired ++ [(port.val, lane)] } }
        ((d.updPort port (fun x => { x with laneSwitch := none })).put (fLane port) lane).event 8 3 [port]
      else d
    | none => d))

/-! ### Time words (R285; 01 R24) -/

/-- A signed difference modulo 2^64. -/
def diff64 (a b : Nat) : Int := sext 64 ((a + 2 ^ 64 - b % 2 ^ 64) % 2 ^ 64)

/-- A time word: the offset to the neighbour and the parent's hops. `t2` is the receive time of this word and `t3` the send
time of this end's last word, both in units of 2^−16 ns and corrected for the lane skew. -/
def Dev.timeWord (d : Dev) (p : Nat) (w : CtrlWord) (t2 t3 : Nat) : Dev :=
  let n := w.toNat
  let t1 := bits n 63 0
  let t4 := (t1 + 2 ^ 64 - bits n 111 64) % 2 ^ 64
  let off := (diff64 t2 t1 - diff64 t4 t3) / 2
  let lat := (diff64 t2 t1 + diff64 t4 t3) / 2
  let hops := bits n 123 119
  let d := d.updPort p (fun x => { x with
    lastCtrl := d.time.ticks, timeTick := d.time.ticks, rxTime := t2, offset := some off, latency := some lat, hops := hops, timeOk := decide (hops < 30) })
  let d := if d.portUp p then d.schedCheck p else d
  if d.portUp p then d.parentCheck false else d

def execTimeWord (port : Port) (w : CtrlWord) (t2 t3 : BitVec 64) (s : State) : Res :=
  ok (s.word port w 1 (s.dev.laneLive port) (fun d => d.timeWord port w t2.toNat t3.toNat))

/-! ### Discovery (R289, R290, R303) -/

/-- TBL_HASH of a port: the first 64 bits of SHA-384 over the transmit then the receive table, as stored (Table 8.10). The
neighbour's is compared with the own tables mirrored. -/
def Dev.tblHash (d : Dev) (p : Nat) (mirrored : Bool) : Nat :=
  let tab := fun (tx : Bool) => (List.range 64).flatMap (fun e =>
    toLe 4 (d.reg (if tx then txAddr p e 0 else rxAddr p e 0)) ++ toLe 4 (d.reg (if tx then txAddr p e 1 else rxAddr p e 1)))
  (sha384 (bytesOf (tab (!mirrored) ++ tab mirrored))).toNat % 2 ^ 64

/-- The DIMS field: NX − 1, NY − 1, NZ − 1. -/
def Dev.dims (d : Dev) : Nat := (d.dim 0 - 1) <<< 8 + (d.dim 1 - 1) <<< 4 + (d.dim 2 - 1)

/-- The three discovery words that this end sends on a port. -/
def Dev.discWords (d : Dev) (p : Nat) : List CtrlWord :=
  let ser := d.sec.serial.toNat
  [BitVec.ofNat 128 (6 <<< 124 + ser / 64),
   BitVec.ofNat 128 (6 <<< 124 + 1 <<< 122 + (ser % 64) <<< 116 + d.coord <<< 104 + (bits (d.reg (regAddr 8 0)) 14 12) <<< 101 +
     p <<< 97 + d.dims <<< 85 + 1 <<< 77 + (d.tblHash p false) <<< 13),
   BitVec.ofNat 128 (6 <<< 124 + 2 <<< 122 + d.fab.planId.toNat / 64)]

/-- FENCE_WHY of Table 8.11, or none where the port may come UP. -/
def Dev.discWhy (d : Dev) (p : Nat) (w0 w1 w2 : CtrlWord) : Option Nat :=
  let n1 := w1.toNat
  let serial := bits w0.toNat 121 0 * 64 + bits n1 121 116
  match d.fab.plan.find? (fun x => x.1 == p) with
  | none => some 1
  | some (_, pl) =>
    if bits n1 84 77 ≠ 1 then some 2
    else if bits w2.toNat 121 0 ≠ d.fab.planId.toNat / 64 then some 3
    else if bits n1 115 104 = d.coord ∨ bits n1 96 85 ≠ d.dims then some 4
    else if bits n1 115 104 ≠ pl.coord ∨ bits n1 100 97 ≠ pl.port ∨ (pl.serial ≠ 0 ∧ pl.serial.toNat ≠ serial) then some 2
    else none

/-- Discovery words decide UP, SCHED_OK or FENCED (Table 8.11). -/
def Dev.discover (d : Dev) (p : Nat) (w0 w1 w2 : CtrlWord) : Dev :=
  let n1 := w1.toNat
  let serial := bits w0.toNat 121 0 * 64 + bits n1 121 116
  let d := ((d.put (fNbrChip p) (bits n1 115 104)).put (fNbrPort p) (bits n1 100 97)).updPort p (fun x => { x with
    nbrSerial := BitVec.ofNat 128 serial, rediscover := false, lastCtrl := d.time.ticks })
  if !d.portEn p then (if d.portUp p then d.portLoss p 0 else d.enter p 0).put (fPortWhy p) 7 |>.degradeCheck
  else
    match d.discWhy p w0 w1 w2 with
    | some why => (if d.portUp p then d.portLoss p 0 else d).fence p why
    | none =>
      let same := bits n1 76 13 == d.tblHash p true
      let ever := (d.port p).everMatched
      let up := d.portUp p
      let d := d.updPort p (fun x => { x with matched := same, everMatched := x.everMatched || same, fails := 0, missing := false })
      let d := (if up then d else (d.enter p 4).event 8 0 [p]).put (fPortWhy p) 0
      let d := if same then d else d.event 8 5 [p]
      -- entries that had been in force before the port went down and now disagree
      let d := if ever ∧ !up ∧ !same then (d.namedOn p).foldl (fun d sid => d.event 8 7 [sid]) d else d
      ((d.schedCheck p).degradeCheck).parentCheck false

/-- This end's discovery words leave in the management class, on a port that is UP (R289; Table 8.5). -/
def Dev.sendDiscovery (d : Dev) (p : Nat) : Dev := d.updPort p (fun x => { x with discOut := d.discWords p })

/-- Discovery runs in DISCOVER, and again after a commit of the FAB block: on a port that is UP, whichever end committed, and after its
own commit on a port fenced for neither straps nor latency (R289; Table 8.2). An end that is UP and did not ask answers with its own words. A
word of an invalid type is ignored and counted (R281). -/
def execDiscoveryWord (port : Port) (w0 w1 w2 : CtrlWord) (s : State) : Res :=
  let typed := fun (w : CtrlWord) (k : Nat) => bits w.toNat 127 124 == 6 && bits w.toNat 123 122 == k
  ok (if !s.dev.carriesCtrl port then s
      else s.onDev (fun d =>
        let st := d.pstate port
        let asked := (d.port port).rediscover
        let d := (d.heard port).bump (regAddr 8 0x28) ([w0, w1, w2].filter (fun w => decide (7 ≤ bits w.toNat 127 124))).length
        if typed w0 0 && typed w1 1 && typed w2 2 && (st != 2) && (st != 5 || asked) then
          (if st == 4 && !asked then d.sendDiscovery port else d).discover port w0 w1 w2
        else d))

/-! ### Generations (R296) -/

/-- Whether a cluster held a generation in the last 10 ms. -/
def Dev.genRecent (d : Dev) (cl g : Nat) : Bool :=
  d.fab.genPast.any (fun x => x.1 == cl && x.2.1 == g && decide (d.time.ticks < x.2.2 + 10000000))

/-- A cluster takes a generation; the one it leaves is remembered. -/
def Dev.giveGen (d : Dev) (cl g : Nat) : Dev :=
  let old := d.fld (fClGen cl)
  let keep := d.fab.genPast.filter (fun x => decide (d.time.ticks < x.2.2 + 10000000))
  ({ d with fab := { d.fab with genPast := keep ++ [(cl, old, d.time.ticks)], genWait := d.fab.genWait.filter (fun c => c != cl) } } : Dev).put
    (fClGen cl) g

/-- A bump by 1, or a bump that waits because the cluster held that generation in the last 10 ms. -/
def Dev.bumpGen (d : Dev) (cl : Nat) : Dev :=
  let g := (d.fld (fClGen cl) + 1) % 256
  if d.genRecent cl g then
    (if d.fab.genWait.contains cl then d else { d with fab := { d.fab with genWait := d.fab.genWait ++ [cl] } })
  else d.giveGen cl g

/-- A bump that waited takes place once 10 ms have passed. -/
def execGenerationBumpDeferred (cl : Cl) (s : State) : Res :=
  ok (if s.dev.fab.genWait.contains cl.val then s.onDev (fun d => d.bumpGen cl) else s)

/-- The first generation above the largest held by any of the clusters that none has held in the last 10 ms (R296). -/
def Dev.firstGen (d : Dev) (cls : List Nat) : Nat → Nat → Nat
  | 0, g => g % 256
  | n + 1, g => if cls.any (fun c => d.genRecent c (g % 256) || d.fld (fClGen c) == g % 256) then d.firstGen cls n (g + 1) else g % 256

/-- Clusters assigned to one slice share one generation (R296). -/
def Dev.unifyGen (d : Dev) (cls : List Nat) : Dev :=
  let gs := cls.map (fun c => d.fld (fClGen c))
  if gs.all (fun g => some g == gs.head?) then d
  else
    let g := d.firstGen cls 256 (gs.foldl max 0 + 1)
    cls.foldl (fun d c => d.giveGen c g) d

/-! ### Control slots (R281, R285, R286) -/

/-- The place of a word's type in the order time, hold, lane control, acknowledgement, credit, discovery. -/
def wordRank (w : CtrlWord) : Nat :=
  match bits w.toNat 127 124 with
  | 1 => 0 | 2 => 1 | 4 => 2 | 3 => 3 | 5 => 4 | _ => 5

/-- The words of one control flit: three at most, by rank, no word twice. -/
def pickWords : Nat → List CtrlWord → List CtrlWord → List CtrlWord
  | 0, _, got => got
  | n + 1, q, got =>
    let free := q.filter (fun w => !got.contains w)
    match free with
    | [] => got
    | w :: t =>
      let best := t.foldl (fun b x => if wordRank x < wordRank b then x else b) w
      pickWords n q (got ++ [best])

/-- The credit word of what a port owes (Table 8.7). -/
def creditWord (x : PortSt) : CtrlWord :=
  BitVec.ofNat 128 (5 <<< 124 + (List.range 4).foldl (fun a k => a + (min 4095 (mapGet (fun _ => 0) x.owed k)) <<< (112 - 12 * k)) 0)

/-- The time word sent in the first control slot of a wheel (Table 8.8): slot 24 begins 7.68 ticks into the wheel. DESIGN CHOICE (log entry 69): a
follower with no usable parent keeps the hop count of a port that has heard no time word, plus 1. -/
def Dev.timeOut (d : Dev) (p : Nat) : CtrlWord :=
  let tx := d.now * 65536 + 44564
  let hops := match d.fld fSrc with | 3 => (d.port (d.fld fCur)).hops + 1 | _ => 0
  BitVec.ofNat 128 (1 <<< 124 + (min 31 hops) <<< 119 + (d.fld ⟨regAddr 1 0x18, 7, 7⟩) <<< 118 +
    ((tx + 2 ^ 64 - (d.port p).rxTime) % 2 ^ 48) <<< 64 + tx % 2 ^ 64)

/-- One control flit leaves a port in ALIGN, DISCOVER or UP, or a fenced port's discovery words (R281, R289). -/
def Dev.ctrlSlot (d : Dev) (p : Nat) : Dev :=
  let st := d.pstate p
  let x := d.port p
  if st = 2 ∨ st = 3 ∨ st = 4 then
    let tw := if d.now % 1280 = 7 then [d.timeOut p] else []
    let cr := if x.owed.any (fun o => o.2 != 0) then [creditWord x] else []
    let dw := if st = 3 then d.discWords p else []
    let out := pickWords 3 (tw ++ x.ctrlQ ++ cr ++ dw) []
    d.updPort p (fun x => { x with
      ctrlSent := out, ctrlOut := ctrlFlit out, ctrlQ := out.foldl (fun q w => eraseFirst (fun y => y == w) q) x.ctrlQ,
      owed := if out.any (fun w => wordRank w == 4) then [] else x.owed })
  else if st = 5 ∧ d.fld (fPortWhy p) ≠ 5 ∧ d.fld (fPortWhy p) ≠ 6 ∧ d.now % 1000000 < 8 then
    d.updPort p (fun x => { x with ctrlSent := d.discWords p, ctrlOut := ctrlFlit (d.discWords p) })
  else d

/-- The express route tables lead round the routers that have failed, once their rewrite is due (07 R248). -/
def Dev.rewriteRoutes (d : Dev) : Dev :=
  match d.net.rewriteAt with
  | some t => if t ≤ d.time.ticks then { d with net := { d.net with rewriteAt := none, around := d.failedRouters } } else d
  | none => d

/-- One tick of EC (01 R14): every control slot begins in a tick with EC mod 8 = 7 (08 R274). -/
def execEcTick (s : State) : Res :=
  ok (s.onDev (fun d =>
    let d : Dev := { d with time := { d.time with ec := d.time.ec + 1, ticks := d.time.ticks + 1 } }
    let d := d.rewriteRoutes
    if d.now % 8 = 7 then (List.range 12).foldl Dev.ctrlSlot d else d))

end Sys2Proof.Machine
end

