-- ==== Sys2Proof/Machine/Messages.lean ====
section
/-! DEFINITION. Teller sessions: windows, answers, violations (12 sections 2, 3, 7 and 8). -/

namespace Sys2Proof.Machine

/-! ### Sessions -/

def Dev.session? (d : Dev) (id : Nat) : Option Session := d.tel.sessions.find? (fun x => x.id == id)
def Dev.updSession (d : Dev) (id : Nat) (f : Session → Session) : Dev :=
  { d with tel := { d.tel with sessions := mapIf (fun x => x.id == id) f d.tel.sessions } }

/-- A body put among those that a session sends: it waits for its window (R384). -/
def Dev.enqueue (d : Dev) (id : Nat) (b : OutBody) : Dev :=
  d.updSession id (fun x => { x with waitQ := x.waitQ ++ [b] }.pump d.sendAt)

/-- The largest body of a session (R381). -/
def Dev.maxBody (d : Dev) (x : Session) : Nat :=
  if x.jumbo then 8960 else if d.fld ⟨regAddr 12 4, 8, 8⟩ = 1 then 1368 else 1400

/-- Ticks of the last second. -/
def lastSecond (now : Nat) (l : List Nat) : List Nat := l.filter (fun t => decide (now < t + 1000000000))

/-! ### Acknowledgement of host messages (R384) -/

/-- The ACK body of a session: CUM and BITMAP. -/
def Session.ackBody (x : Session) : OutBody :=
  .ack x.cum (x.got.foldl (fun a s => if x.cum < s ∧ s ≤ x.cum + 256 then a ||| 2 ^ (s - x.cum - 1) else a) 0)
def Session.sendAck (x : Session) (ec : Nat) : Session :=
  { x with loose := x.loose ++ [⟨x.txSeq, x.ackBody, ec⟩], txSeq := x.txSeq + 1, unacked := 0 }

/-- CUM advanced over the SEQs received, `n` steps at most. -/
def advance : Nat → Nat → List Nat → Nat × List Nat
  | 0, c, l => (c, l)
  | n + 1, c, l => if l.contains (c + 1) then advance n (c + 1) (l.filter (fun s => s != c + 1)) else (c, l)

/-- A SEQ received; after 32 messages an ACK is sent. An ACK is never acknowledged: it counts nothing. -/
def Session.receive (x : Session) (seq tick ec : Nat) (counts : Bool) : Session :=
  let (c, l) := advance 257 x.cum (x.got ++ [seq])
  let x := { x with cum := c, got := l, lastTick := tick }
  if !counts then x
  else
    let x := { x with unacked := x.unacked + 1, ackTick := if x.unacked = 0 then tick else x.ackTick }
    if 32 ≤ x.unacked then x.sendAck ec else x

/-! ### Streams close (R391) -/

/-- A result not yet sent, of a stream. -/
def isResult (stream : Nat) (b : OutBody) : Bool :=
  match b with
  | .egress st _ _ fl _ _ _ _ _ => st == stream && !bitAt fl 0
  | _ => false

/-- The frame of an egress body. -/
def OutBody.frame (b : OutBody) : Nat :=
  match b with
  | .egress _ f _ _ _ _ _ _ _ => f
  | _ => 0

/-- The stream of a device stream ID. -/
def Dev.stream? (d : Dev) (id : Nat) : Option Stream := d.tel.streams.find? (fun x => x.id == id)
def Dev.updStream (d : Dev) (id : Nat) (f : Stream → Stream) : Dev :=
  { d with tel := { d.tel with streams := mapIf (fun x => x.id == id) f d.tel.streams } }
/-- The open stream of a slice, direction and index. -/
def Dev.streamOf (d : Dev) (slice dir index : Nat) : Option Stream :=
  d.tel.streams.find? (fun x => x.slice == slice && x.dir == dir && x.index == index)

/-- A stream closes: results not sent are dropped and counted, an ingress stream's close is remembered, and a shard hold on
it clears (R391, R393; 09 R324; 11 Table 11.2). -/
def Dev.closeStream (d : Dev) (id : Nat) : Dev :=
  match d.stream? id with
  | some st =>
    let d := { d with tel := { d.tel with streams := d.tel.streams.filter (fun x => x.id != id) } }
    let frames := match d.session? st.session with
      | some x => (((x.waitQ ++ st.later).filter (isResult id)).map OutBody.frame).eraseDups
      | none => []
    let d := d.bump (regAddr 12 0x6C) frames.length
    let d := d.updSession st.session (fun x => { x with waitQ := x.waitQ.filter (fun b => !isResult id b) })
    let d := (st.later.filter (fun b => !isResult id b)).foldl (fun d b => d.enqueue st.session b) d
    let d := if st.dir = 0 then
        let d := d.updSlice st.slice (fun sl => { sl with idleSince := d.now })
        let held : Bool := match d.slice? st.slice with
          | some sl => sl.pulls.any (fun p => p.stream == st.index && p.hold.isSome) &&
              (sl.pulls.filter (fun p => p.hold.isSome)).all (fun p => p.stream == st.index)
          | none => false
        let d := d.updSlice st.slice (fun sl => { sl with
          pulls := mapIf (fun p => p.stream == st.index) (fun p => { p with hold := none, going := none }) sl.pulls })
        (match held with | true => d.clearCause st.slice 4 | false => d)
      else d
    d.event 12 7 [id, st.slice]
  | none => d

/-- Every stream that satisfies a condition closes. -/
def Dev.closeStreams (d : Dev) (p : Stream → Bool) : Dev :=
  ((d.tel.streams.filter p).map (fun x => x.id)).foldl Dev.closeStream d

/-! ### Session close (Table 12.5) -/

/-- A session leaves, with its streams and its hold on the staging window (15 R464). Its last message, if any, stands outside any session. -/
def Dev.dropSession (d : Dev) (id : Nat) (last : Option OutBody) : Dev :=
  let d := d.closeStreams (fun st => st.session == id)
  let x := (d.session? id).getD {}
  let d := { d with tel := { d.tel with sessions := d.tel.sessions.filter (fun x => x.id != id) } }
  let d : Dev := if d.sec.holder = id then { d with sec := { d.sec with holder := 0 } } else d
  match last with
  | some b => { d with tel := { d.tel with refused := d.tel.refused ++ [⟨x.hp, ⟨x.txSeq, b, d.now⟩, id, x.version, x.keys⟩] } }
  | none => d

/-- The device closes a session with a code. -/
def Dev.closeSession (d : Dev) (id code : Nat) : Dev :=
  ((d.dropSession id (some (.close code))).bump (regAddr 12 0x54) 1).event 12 4 [code]

/-! ### Answers (R384, R385, R398) -/

/-- A session whose own SEQ has reached 2^48 closes (Table 12.5). -/
def Dev.seqEnd (d : Dev) (id : Nat) : Dev :=
  match d.session? id with
  | some x => if x.open_ ∧ 2 ^ 48 ≤ x.txSeq then d.closeSession id 0x0C50 else d
  | none => d

/-- A body sent to a session. -/
def Dev.post (d : Dev) (id : Nat) (b : OutBody) : Dev := (d.enqueue id b).seqEnd id

/-- The one RESULT of a request (R385). -/
def Dev.answer (d : Dev) (h : MsgHdr) (code item : Nat) (data : List Byte) : Dev :=
  d.post h.session.toNat (.result h.seq.toNat code item data)
/-- A RESULT without data; ITEM is all ones for none. -/
def Dev.reply (d : Dev) (h : MsgHdr) (code : Nat) : Dev := d.answer h code 0xFFFFFFFF []

/-- An ERROR, up to 1,000 a second in a session (R398). -/
def Dev.sendError (d : Dev) (id refSeq code item : Nat) : Dev :=
  match d.session? id with
  | some x =>
    let l := lastSecond d.time.ticks x.errSent
    if l.length < 1000 then
      (d.updSession id (fun x => { x with errSent := l ++ [d.time.ticks] })).post id (.error refSeq code item)
    else d.bump (regAddr 12 0x78) 1
  | none => d

/-! ### Violations (R398) -/

/-- A host port. -/
def Dev.hport (d : Dev) (hp : Nat) : HostSt := mapGet (fun _ => {}) d.tel.ports hp
def Dev.updHport (d : Dev) (hp : Nat) (f : HostSt → HostSt) : Dev :=
  { d with tel := { d.tel with ports := mapPut d.tel.ports hp (f (d.hport hp)) } }

/-- A field of TELLER.LIMITS. -/
def Dev.limit (d : Dev) (hi lo : Nat) : Nat := d.fld ⟨regAddr 12 0x14, hi, lo⟩

/-- An unauthenticated drop at a port; more than QUAR_RATE × 64 in 1 s quarantine it for QUAR_S seconds. -/
def Dev.unauth (d : Dev) (hp : Nat) : Dev :=
  let l := lastSecond d.time.ticks (d.hport hp).drops ++ [d.time.ticks]
  let d := d.updHport hp (fun x => { x with drops := l })
  let quar : Fld := ⟨regAddr 12 0, 2 + hp, 2 + hp⟩
  if d.limit 15 8 * 64 < l.length ∧ d.fld quar = 0 then
    let d := d.updHport hp (fun x => { x with quarEnd := d.time.ticks + d.limit 7 0 * 1000000000 })
    (((d.put quar 1).put ⟨regAddr 12 (0x20 + 4 * hp), 25, 25⟩ 1).bump (regAddr 12 0x58) 1).event 12 5 [hp]
  else d

/-- A violation that counts towards a close: an ERROR, and the close after more than ERR_MAX in 1 s. -/
def Dev.violation (d : Dev) (id refSeq code item : Nat) : Dev :=
  let d := (d.bump (regAddr 12 0x50) 1).sendError id refSeq code item
  match d.session? id with
  | some x =>
    let l := lastSecond d.time.ticks x.errs ++ [d.time.ticks]
    let d := d.updSession id (fun x => { x with errs := l })
    if d.limit 23 16 < l.length then d.closeSession id 0x0C53 else d
  | none => d

/-! ### Arrival of a message (R381, R384, R385, Table 12.5) -/

/-- Roles: operator, installer, maker as bits 1 to 3. -/
def roleOp : Nat := 2
def roleAll : Nat := 14

/-- Whether an MC handover is between h and its resumption (15 Table 15.10). -/
def Dev.handing (d : Dev) : Bool := d.fld ⟨regAddr 15 0, 19, 18⟩ == 2

/-- Whether a frame is of the options in force: one tag of VLAN_ID with VLAN_EN, MACsec with MACSEC_EN, at most 1,518 bytes, or 9,216 with
JUMBO (R376). A frame of another kind is not taken (DESIGN CHOICE, log entry 76). -/
def Dev.frameOk (d : Dev) (f : HostFrame) : Bool :=
  f.vlan == (if d.fld ⟨regAddr 12 4, 6, 6⟩ = 1 then some (BitVec.ofNat 12 (d.fld ⟨regAddr 12 8, 11, 0⟩)) else none) &&
    f.macsec == (d.fld ⟨regAddr 12 4, 8, 8⟩ == 1) && decide (f.bytes.toNat ≤ if d.fld ⟨regAddr 12 4, 9, 9⟩ = 1 then 9216 else 1518)

/-- A message of a session arrives: received, where its session is known and its SEQ a new one in the window. The answer is the session as it
was, or none where the message goes no further. A message other than an ACK counts towards the next ACK. A quarantined port drops what is
not of an open session. -/
def Dev.arrive (d : Dev) (h : MsgHdr) (counts : Bool) : Option Session × Dev :=
  let id := h.session.toNat
  let seq := h.seq.toNat
  if !d.frameOk h.frame then (none, d)
  else match d.session? id with
  | none => (none, (d.bump (regAddr 12 0x48) 1).unauth h.hp)
  | some x =>
    if !x.open_ ∧ d.fld ⟨regAddr 12 0, 2 + h.hp.val, 2 + h.hp.val⟩ = 1 then (none, d)
    else if 2 ^ 48 ≤ seq ∨ 2 ^ 48 ≤ x.txSeq then (none, d.closeSession id 0x0C50)
    else if seq ≤ x.cum ∨ x.got.contains seq then
      (none, (d.bump (regAddr 12 0x4C) 1).updSession id (fun x => x.sendAck d.now))
    else if x.cum + 1 + 256 ≤ seq then (none, d.bump (regAddr 12 0x4C) 1)
    else
      let d := d.updSession id (fun x => { x with open_ := true, hostEc := h.ec }.receive seq d.time.ticks d.now counts)
      (some x, if x.open_ then d else d.event 12 3 [x.role, x.keyDigest.toNat])

/-- The turn of a request: refused with 0x0F30 while its audit record cannot be added (15 R469), else carried out. -/
def Dev.request (d : Dev) (h : MsgHdr) (audited : Bool) (act : Session → Dev → Dev) : Dev :=
  match d.session? h.session.toNat with
  | some x => if audited && d.ledgerFull then d.reply h 0x0F30 else act x d
  | none => d

/-- The audit record of a request under its session's role. -/
def Dev.auditReq (d : Dev) (x : Session) (kind result : Nat) (args : List Nat) : Dev :=
  d.auditRaw kind x.role result (BitVec.ofNat 128 x.keyDigest.toNat) (auditDetail args)

/-- A state's device changed by a request that does not touch memory. -/
def State.request (s : State) (h : MsgHdr) (audited : Bool) (act : Session → Dev → Dev) : State :=
  s.onDev (fun d => d.request h audited act)

/-- Whether the device hibernates. -/
def Dev.hibernate (d : Dev) : Bool := d.fld fPark == 4

end Sys2Proof.Machine
end

