-- ==== Sys2Proof/Machine/Library.lean ====
section
/-! DEFINITION. The vault library: deposits, eviction, pins, listing, use (09 sections 1, 6 and 7; 12 R386, R387). -/

namespace Sys2Proof.Machine

/-! ### Stacks and space (R306, R308, R310, R314) -/

/-- 512-byte rows of library space in a whole stack: 80 GB. -/
def stackRows : Nat := 156250000

def fStackState (k : Nat) : Fld := ⟨regAddr 9 (0x40 + 4 * k), 31, 30⟩
def fStackSpares (k : Nat) : Fld := ⟨regAddr 9 (0x40 + 4 * k), 29, 28⟩
def fStackTemp (k : Nat) : Fld := ⟨regAddr 9 (0x40 + 4 * k), 15, 8⟩

/-- The logical pseudo-channels of a stack whose share is lost. -/
def VaultSt.lostOf (v : VaultSt) (k : Nat) : List Nat := (v.lost.filter (fun x => x.1 == k)).map (fun x => x.2)

/-- Library rows of a stack in service: the rows of lost channels are out of library space. -/
def Dev.stackCap (d : Dev) (k : Nat) : Nat :=
  if d.fld (fStackState k) = 3 then 0
  else (d.vault.lostOf k).foldl (fun a c => a - (stackRows / 62 + b2n (decide (c < stackRows % 62)))) stackRows

/-- Rows of a stack that entries use. -/
def usedRows (lib : List Entry) (k : Nat) : Nat :=
  lib.foldl (fun a e => e.parts.foldl (fun a p => if p.stack = k then a + p.rows else a) a) 0
def Dev.freeRows (d : Dev) (lib : List Entry) (k : Nat) : Nat := d.stackCap k - usedRows lib k

/-- Rows of the recording area (12 R399). -/
def Dev.recRows (d : Dev) : Nat := d.fld ⟨regAddr 12 0x18, 27, 16⟩ * 1000000000 / 512

/-- Rows of the trace area (14 R449, Table 14.11). -/
def Dev.traceRows (d : Dev) : Nat := d.fld ⟨regAddr 14 8, 11, 0⟩ * 64000000 / 512

/-- Free library rows of the device, and library rows in all. -/
def Dev.libFree (d : Dev) (lib : List Entry) : Nat :=
  (List.range 12).foldl (fun a k => a + d.freeRows lib k) 0 - d.recRows - d.traceRows
def Dev.libCap (d : Dev) : Nat := (List.range 12).foldl (fun a k => a + d.stackCap k) 0

/-- The library row that holds the r-th row of a part whose first row is `first`, the rows of lost channels passed over (R314). -/
def rowAt (lost : List Nat) (first r : Nat) : Nat :=
  let per := 62 - lost.eraseDups.length
  if lost.isEmpty ∨ per = 0 then first + r
  else
    let x := first + r / per * 62
    x + (((List.range 124).filter (fun k => !lost.contains ((x + k) % 62))).getD (r % per) 0)
/-- The row after the last of a part's rows. -/
def partEnd (lost : List Nat) (first rows : Nat) : Nat := if rows = 0 then first else rowAt lost first (rows - 1) + 1

/-- The first library row of a new part: the lowest row from which it overlaps no other part, or the row after the last part
(log entry 24). -/
def Dev.firstRow (d : Dev) (lib : List Entry) (k rows : Nat) : Nat :=
  let lost := d.vault.lostOf k
  let ext := lib.flatMap (fun e => (e.parts.filter (fun p => p.stack == k)).map (fun p => (p.first, partEnd p.past p.first p.rows)))
  let starts := 0 :: ext.map (fun x => x.2)
  let okAt := fun s => let e := partEnd lost s rows
    decide (e ≤ stackRows) && ext.all (fun x => decide (e ≤ x.1) || decide (x.2 ≤ s))
  match starts.filter okAt with
  | s :: t => t.foldl min s
  | [] => starts.foldl max 0

/-- The stack with the most free space among some, ties to the lower number. -/
def mostFree (free : Nat → Nat) : List Nat → Option Nat
  | [] => none
  | k :: t => match mostFree free t with
    | some j => some (if free j ≤ free k then k else j)
    | none => some k

/-- The split of `rows` over stacks, the first named; every part but the last fills its stack (R308). -/
def spread (free : Nat → Nat) : Nat → List Nat → Nat → Nat → Option (List (Nat × Nat))
  | 0, _, _, _ => none
  | n + 1, rest, k, rows =>
    if rows ≤ free k then some [(k, rows)]
    else
      let rest := rest.filter (fun j => j != k)
      match mostFree free rest with
      | some j => (spread free n rest j (rows - free k)).map (fun l => if free k = 0 then l else (k, free k) :: l)
      | none => none

/-- Where an entry would lie: its stacks and rows, if it can be placed (R308). -/
def Dev.placement (d : Dev) (lib : List Entry) (stack : Option Nat) (rows : Nat) : Option (List (Nat × Nat)) :=
  if d.libFree lib < rows then none
  else
    let free := d.freeRows lib
    match stack with
    | some k => spread free 12 (List.range 12) k rows
    | none => match mostFree free (List.range 12) with
      | some k => spread free 12 (List.range 12) k rows
      | none => none

/-! ### The directory -/

def Dev.entry? (d : Dev) (key : Nat) : Option Entry := d.vault.lib.find? (fun e => e.key == key)
def Dev.updEntry (d : Dev) (key : Nat) (f : Entry → Entry) : Dev :=
  { d with vault := { d.vault with lib := mapIf (fun e => e.key == key) f d.vault.lib } }
def Dev.dropEntry (d : Dev) (key : Nat) : Dev :=
  { d with vault := { d.vault with lib := d.vault.lib.filter (fun e => e.key != key) } }

/-- The keys that a folio's entry list names: the folio itself and its shards. -/
def folioKeys (key : Nat) (fo : Folio) : List Nat := key :: (fo.entries.drop 1).map (fun r => r.key)

/-- REFS: slices resident that reference the entry, and the loads and deposits in progress on it (Table 9.1). -/
def Dev.refs (d : Dev) (e : Entry) : Nat :=
  (d.slices.filter (fun sl => sl.key != 0 && (folioKeys sl.key sl.fo).contains e.key)).length +
    (d.vault.loads.filter (fun l => (folioKeys l.key l.fo).contains e.key)).length + b2n e.depositing

/-- The use measure of an entry: a folio's own, or the largest among the stored folios that name a shard (R335). -/
def Dev.useOf (d : Dev) (e : Entry) : Nat :=
  if e.folio then e.use
  else (d.vault.lib.filter (fun f => f.folio && f.state == .stored && (match f.fo with
    | some fo => (folioKeys f.key fo).contains e.key | none => false))).foldl (fun a f => max a f.use) 0

/-- The lowest directory index that no entry holds (log entry 24). -/
def freeIndex (lib : List Entry) : Nat :=
  match (List.range (lib.length + 1)).find? (fun i => lib.all (fun e => e.index != i)) with
  | some i => i
  | none => lib.length

/-! ### Vault eviction (R333) -/

/-- Whether `a` is evicted before `b`: ascending U, then LAST_USE, then index. -/
def Dev.evictBefore (d : Dev) (a b : Entry) : Bool :=
  decide (d.useOf a < d.useOf b) ||
    (d.useOf a == d.useOf b && (decide (a.lastUse < b.lastUse) || (a.lastUse == b.lastUse && decide (a.index ≤ b.index))))

def Dev.insertEvict (d : Dev) (e : Entry) : List Entry → List Entry
  | [] => [e]
  | f :: t => if d.evictBefore e f then e :: f :: t else f :: d.insertEvict e t

/-- The candidates in order of eviction: unpinned with REFS = 0. -/
def Dev.candidates (d : Dev) (p : Entry → Bool) : List Entry :=
  (d.vault.lib.filter (fun e => p e && !e.pin && d.refs e == 0)).foldl (fun l e => d.insertEvict e l) []

/-- The first candidates whose eviction makes a condition hold, if any do. -/
def evictUntil (okWith : List Entry → Bool) : List Entry → List Entry → List Entry → Option (List Entry)
  | lib, gone, c => if okWith lib then some gone else
    match c with
    | [] => none
    | e :: t => evictUntil okWith (lib.filter (fun x => x.key != e.key)) (gone ++ [e]) t

/-- What a deposit under a key evicts and where it then lies; none when it cannot fit (R333). The entry under the key itself stays in the
directory (R307). -/
def Dev.depositPlan (d : Dev) (key : Nat) (stack : Option Nat) (rows : Nat) : Option (List Entry × List (Nat × Nat)) :=
  let en := d.fld ⟨regAddr 9 4, 3, 3⟩ == 1
  let lib := d.vault.lib
  let first := match stack with
    | some k =>
      if rows ≤ d.freeRows lib k ∨ !en then []
      else (evictUntil (fun l => decide (rows ≤ d.freeRows l k)) lib [] (d.candidates (fun e => e.key != key && e.parts.any (fun p => p.stack == k)))).getD []
    | none => []
  let lib1 := lib.filter (fun e => !first.any (fun f => f.key == e.key))
  match d.placement lib1 stack rows with
  | some pl => some (first, pl)
  | none =>
    if !en then none
    else
      match evictUntil (fun l => (d.placement l stack rows).isSome) lib1 []
          ((d.candidates (fun e => e.key != key)).filter (fun e => !first.any (fun f => f.key == e.key))) with
      | some more =>
        let lib2 := lib1.filter (fun e => !more.any (fun f => f.key == e.key))
        (d.placement lib2 stack rows).map (fun pl => (first ++ more, pl))
      | none => none

/-- One entry evicted from the vault. -/
def Dev.vaultEvict (d : Dev) (e : Entry) : Dev :=
  ((d.dropEntry e.key).bump (regAddr 9 0x30) 1).event 9 4 [e.key]

/-- The parts of a placement with their first rows. -/
def Dev.partsFor (d : Dev) (pl : List (Nat × Nat)) : List Part :=
  pl.map (fun (k, rows) => ⟨k, d.firstRow d.vault.lib k rows, rows, d.vault.lostOf k⟩)

/-! ### Deposits (12 R386, R387; Table 9.7) -/

/-- The refusal of a BEGIN, in the order of Table 9.7. -/
def Dev.beginCode (d : Dev) (b : PutBegin) (plan : Option (List Entry × List (Nat × Nat))) : Nat :=
  let dup : Bool := match d.entry? b.key.toNat with | some e => e.state != EntryState.suspect | none => false
  if plan.isNone then 0x0960
  else if b.key = 0 ∨ dup then 0x0961
  else if 65536 ≤ d.vault.lib.length ∧ (d.entry? b.key.toNat).isNone then 0x0963
  else if b.stack ≠ 0xFF ∧ d.fld (fStackState b.stack.toNat) = 3 then 0x0964
  else 0

/-- A request of a deposit, from a session or from the previous device of a pipeline. -/
def Dev.depositMsg (d : Dev) (h : MsgHdr) (audited : Bool) (act : Option Session → Dev → Dev) : Dev :=
  if h.pipe then (if d.hibernate then d else act none d)
  else d.request h audited (fun x d => if d.hibernate then d.reply h 0x0D42 else act (some x) d)

/-- The answer to such a request: a RESULT, or a code for the previous device of the pipeline (R334). -/
def Dev.depositAnswer (d : Dev) (h : MsgHdr) (key code item : Nat) (data : List Byte) : Dev :=
  if h.pipe then { d with vault := { d.vault with pipeUp := d.vault.pipeUp ++ [(key, code)] } } else d.answer h code item data

/-- The audit record of a session's deposit request. -/
def Dev.depositAudit (d : Dev) (x : Option Session) (code : Nat) (args : List Nat) : Dev :=
  match x with
  | some x => d.auditReq x 5 code args
  | none => d

/-- A deposit message with a field out of range (12 Table 12.11). -/
def Dev.depositViolation (d : Dev) (h : MsgHdr) (x : Option Session) : Dev :=
  match x with
  | some x => d.violation x.id h.seq.toNat 0x0C13 0xFFFFFFFF
  | none => d

/-- A message of a pipelined deposit leaves for the next device (R334). -/
def Dev.pipeSend (d : Dev) (m : Nat × PipeMsg) : Dev := { d with vault := { d.vault with pipeOut := d.vault.pipeOut ++ [m] } }

/-- A BEGIN makes the entry ARRIVING (R307, R387). A pipeline's own part is placed when its PIPE record arrives. -/
def Dev.putBegin (d : Dev) (h : MsgHdr) (x : Option Session) (b : PutBegin) : Dev :=
  if (b.kind ≠ 1 ∧ b.kind ≠ 2) ∨ (12 ≤ b.stack.toNat ∧ b.stack ≠ 0xFF) then d.depositViolation h x
  else
    let key := b.key.toNat
    let old := d.entry? key
    let stack := if b.stack = 0xFF then none else some b.stack.toNat
    -- a SUSPECT entry's rows are freed before the new deposit is placed
    let d0 := match old with
      | some e => if e.state = EntryState.suspect then d.updEntry key (fun e => { e with parts := [] }) else d
      | none => d
    let rows := if b.devices = 0 then b.rows.toNat else 0
    let plan := d0.depositPlan key stack rows
    let code := d0.beginCode b plan
    let d := d.depositAudit x code [1, key]
    if code ≠ 0 then (if code = 0x0960 then d.event 9 7 [] else d).depositAnswer h key code 0xFFFFFFFF []
    else
      let (gone, pl) := plan.getD ([], [])
      let d := gone.foldl Dev.vaultEvict d
      let e : Entry :=
        { key := key, index := match old with | some e => e.index | none => freeIndex d.vault.lib, folio := b.kind == 1,
          state := .arriving, pin := match old with | some e => e.pin | none => false,
          parts := (d.dropEntry key).partsFor pl, rows := rows, digest := b.digest, stack := stack,
          depositing := true, pipeLen := b.devices.toNat }
      let d := d.dropEntry key
      let d : Dev := { d with vault := { d.vault with lib := d.vault.lib ++ [e] } }
      if h.pipe then d else d.reply h 0

def msgFolioPutBegin (h : MsgHdr) (b : PutBegin) (s : State) : State :=
  s.onDev (fun d => d.depositMsg h true (fun x d => d.putBegin h x b))

/-- The record of a pipeline's device, by its place in the list. -/
def Entry.pipeAt (e : Entry) (i : Nat) : Option PipePart := (e.pipe.find? (fun x => x.1 == i)).map (fun x => x.2)
/-- Whether every device of the pipeline is named. -/
def Entry.piped (e : Entry) : Bool := decide (0 < e.pipeLen) && (List.range e.pipeLen).all (fun i => (e.pipeAt i).isSome)
/-- The next device of the pipeline. -/
def Entry.nextDev (e : Entry) : Option Nat := if e.piped then (e.pipeAt 1).map (fun r => r.coord) else none
/-- The bytes that a deposit takes: its rows, or all parts of its pipeline (12 Table 12.6). -/
def Entry.span (e : Entry) : Nat :=
  512 * (if e.pipeLen = 0 then e.rows else (List.range e.pipeLen).foldl (fun a i => a + ((e.pipeAt i).map (fun r => r.rows)).getD 0) 0)

/-- Once the list is whole, the later devices are told of the deposit: a BEGIN and the list from the next device on (R334). -/
def Dev.pipeOpen (d : Dev) (e : Entry) : Dev :=
  match e.nextDev with
  | some c =>
    let later := (List.range (e.pipeLen - 1)).filterMap (fun i => e.pipeAt (i + 1))
    (d.pipeSend (c, .begin e.folio e.stack (e.pipeLen - 1) e.key)).pipeSend (c, .pipe e.key 0 later)
  | none => d

/-- PIPE records name the pipeline's devices; the first is this device, whose part is placed now (R308, R334). -/
def Dev.putPipe (d : Dev) (h : MsgHdr) (x : Option Session) (key first : Nat) (recs : List PipeRec) : Dev :=
  match d.entry? key with
  | some e =>
    if !e.depositing ∨ e.pipeLen = 0 then d.depositAnswer h key 0x0C21 0xFFFFFFFF []
    else if recs.isEmpty ∨ 150 < recs.length ∨ e.pipeLen < first + recs.length then d.depositViolation h x
    else
      let l := recs.zipIdx.map (fun (r, i) => (first + i, PipePart.mk r.coord.toNat r.rows.toNat r.digest))
      let d := d.updEntry key (fun e => { e with pipe := l ++ e.pipe.filter (fun y => !l.any (fun z => z.1 == y.1)) })
      let next := fun (d : Dev) =>
        let d := match d.entry? key with
          | some f => if f.piped && !e.piped then d.pipeOpen f else d
          | none => d
        if h.pipe then d else d.reply h 0
      match first, recs with
      | 0, r :: _ =>
        let d := d.updEntry key (fun e => { e with parts := [] })
        (match d.depositPlan key e.stack r.rows.toNat with
          | some (gone, pl) =>
            let d := gone.foldl Dev.vaultEvict d
            let parts := d.partsFor pl
            next (d.updEntry key (fun e => { e with rows := r.rows.toNat, digest := r.digest, parts := parts }))
          | none => ((d.dropEntry key).event 9 7 []).depositAnswer h key 0x0960 0xFFFFFFFF [])
      | _, _ => next d
  | none => d.depositAnswer h key 0x0C21 0xFFFFFFFF []

def msgFolioPutPipe (h : MsgHdr) (key : BitVec 64) (first : BitVec 8) (recs : List PipeRec) (s : State) : State :=
  s.onDev (fun d => d.depositMsg h false (fun x d => d.putPipe h x key.toNat first.toNat recs))

/-- One row with bytes replaced from byte `o` on. -/
def rowBytes (r : RowData) (o : Nat) (l : List Byte) : RowData :=
  let n := l.length
  if n = 0 then r
  else BitVec.ofNat 4096 (setBits r.toNat (8 * (o + n) - 1) (8 * o) (leNat (l.map (fun b => b.toNat))))

/-- Bytes written into sparse rows from a byte offset, at most `fuel` rows. -/
def putBytes : Nat → List (Nat × RowData) → Nat → List Byte → List (Nat × RowData)
  | 0, m, _, _ => m
  | n + 1, m, o, l =>
    if l.isEmpty then m
    else
      let r := o / 512
      let k := 512 - o % 512
      let row := rowBytes (mapGet (fun _ => 0) m r) (o % 512) (l.take k)
      putBytes n (mapSet (fun _ => 0) m r row) (o + k) (l.drop k)

/-- A DATA message: a failed CRC or a reach beyond the entry writes nothing (R387). Of a pipeline, this device keeps the
bytes of its own part and forwards the others (R334). -/
def Dev.putData (d : Dev) (h : MsgHdr) (key offset crc : Nat) (data : List Byte) : Dev :=
  let err := fun (d : Dev) (code : Nat) =>
    if h.pipe then d.depositAnswer h key code 0xFFFFFFFF [] else d.sendError h.session.toNat h.seq.toNat code (offset % 2 ^ 32)
  match d.entry? key with
  | some e =>
    if !e.depositing ∨ e.span < offset + data.length then err d 0x0C21
    else if crc32c (data.map (fun b => b.toNat)) ≠ crc then err (d.bump (regAddr 12 0x7C) 1) 0x0C20
    else
      let mine := data.take (e.rows * 512 - offset)
      let rest := data.drop (e.rows * 512 - offset)
      let clean := fun (b : Nat) => decide (offset ≤ b * 64) && decide (b * 64 + 64 ≤ offset + mine.length)
      let d := d.updEntry key (fun e => { e with
        data := putBytes (mine.length / 512 + 2) e.data offset mine, bad := e.bad.filter (fun b => !clean b) })
      (match e.nextDev, rest with
        | some c, _ :: _ => d.pipeSend (c, .data key (offset + mine.length - e.rows * 512) (crc32c (rest.map (fun b => b.toNat))) rest)
        | _, _ => d)
  | none => err d 0x0C21

def msgFolioPutData (h : MsgHdr) (key offset : BitVec 64) (crc : BitVec 32) (data : List Byte) (s : State) : State :=
  s.onDev (fun d =>
    if !d.hibernate then d.putData h key.toNat offset.toNat crc.toNat data
    else if h.pipe then d
    else d.sendError h.session.toNat h.seq.toNat 0x0D42 (offset.toNat % 2 ^ 32))

/-- Row r of an entry as stored; unwritten rows are zero (R332). -/
def Entry.row (e : Entry) (r : Nat) : RowData := mapGet (fun _ => 0) e.data r
/-- The bytes of an entry as stored. -/
def Entry.bytes (e : Entry) : List Byte := (List.range e.rows).flatMap (fun r => bytesOf (toLe 512 (e.row r).toNat))

/-! ### Deletion, pins, listing (12 R387; 09 R309, Table 9.7) -/

/-- Bytes of pinned entries. -/
def Dev.pinned (d : Dev) : Nat := (d.vault.lib.filter (fun e => e.pin)).foldl (fun a e => a + e.rows * 512) 0

def msgLibraryDelete (h : MsgHdr) (key : BitVec 64) (s : State) : State :=
  s.request h true (fun x d =>
    if d.hibernate then d.reply h 0x0D42 else
    let code := match d.entry? key.toNat with
      | none => 0x0969
      | some e => if d.refs e = 0 then 0 else 0x0967
    let d := d.auditReq x 5 code [3, key.toNat]
    (if code = 0 then d.dropEntry key.toNat else d).reply h code)

def msgLibraryPin (h : MsgHdr) (key : BitVec 64) (s : State) : State :=
  s.request h true (fun x d =>
    if d.hibernate then d.reply h 0x0D42 else
    let code := match d.entry? key.toNat with
      | none => 0x0969
      | some e => if e.pin ∨ d.pinned + e.rows * 512 ≤ d.reg (regAddr 9 8) * 1000000000 then 0 else 0x0966
    let d := d.auditReq x 5 code [4, key.toNat]
    (if code = 0 then d.updEntry key.toNat (fun e => { e with pin := true }) else d).reply h code)

def msgLibraryUnpin (h : MsgHdr) (key : BitVec 64) (s : State) : State :=
  s.request h true (fun x d =>
    if d.hibernate then d.reply h 0x0D42 else
    let code := match d.entry? key.toNat with | none => 0x0969 | some _ => 0
    let d := d.auditReq x 5 code [5, key.toNat]
    (d.updEntry key.toNat (fun e => { e with pin := false })).reply h code)

/-- One directory record of a listing (Table 9.1): 174 bytes. -/
def Dev.listRecord (d : Dev) (e : Entry) : List Nat :=
  let pm := (List.range 12).flatMap (fun i => toLe 8 (match e.parts[i]? with
    | some p => p.stack <<< 60 + p.first <<< 28 + p.rows
    | none => 0))
  toLe 8 e.key ++ [if e.folio then 1 else 2, match e.state with | .arriving => 0 | .stored => 1 | .suspect => 2, b2n e.pin,
    e.parts.length] ++ toLe 4 e.rows ++ pm ++ toLe 48 e.digest.toNat ++ toLe 4 (d.useOf e) ++ toLe 8 e.lastUse ++ toLe 2 (d.refs e)

/-- Entries in ascending index from one on. -/
def insertIndex (e : Entry) : List Entry → List Entry
  | [] => [e]
  | f :: t => if e.index ≤ f.index then e :: f :: t else f :: insertIndex e t

def msgLibraryList (h : MsgHdr) (first : BitVec 64) (s : State) : State :=
  s.request h false (fun x d =>
    if 65535 < first.toNat then d.violation x.id h.seq.toNat 0x0C13 0xFFFFFFFF
    else
      let l := (d.vault.lib.filter (fun e => decide (first.toNat ≤ e.index))).foldl (fun a e => insertIndex e a) []
      let n := (d.maxBody x - 32) / 174
      let got := l.take n
      let next := match l.drop n, got.getLast? with
        | _ :: _, some e => e.index + 1
        | _, _ => 0xFFFFFFFFFFFFFFFF
      d.answer h 0 0xFFFFFFFF (bytesOf (toLe 2 got.length ++ toLe 6 0 ++ toLe 8 next ++ got.flatMap d.listRecord)))

/-- The use measure of each folio, every INTERVAL_MS milliseconds (R335). -/
def execUseUpdate (s : State) : Res :=
  ok (s.onDev (fun d =>
    let every := d.fld ⟨regAddr 9 4, 27, 16⟩ * 1000000
    if d.vault.useTick + every ≤ d.time.ticks then
      let sh := d.fld ⟨regAddr 9 4, 31, 28⟩
      { d with vault := { d.vault with
        useTick := d.time.ticks,
        lib := d.vault.lib.map (fun e => if e.folio then
          { e with use := min (2 ^ 32 - 1) (e.use - e.use >>> sh + e.fresh), fresh := 0 } else e) } }
    else d))

/-! ### The device code and pseudo-channels (R313, R314) -/

/-- The stack and library row of an entry's row r. -/
def placeOf : List Part → Nat → Nat × Nat
  | [], _ => (0, 0)
  | p :: t, r => if r < p.rows then (p.stack, rowAt p.past p.first r) else placeOf t (r - p.rows)

/-- Corrected symbols of a channel are counted, and join those of its hour. -/
def Dev.symbols (d : Dev) (stack pc n : Nat) : Dev :=
  if n = 0 then d
  else
    let id := stack * 64 + pc
    let (m, t) := match d.vault.corr.find? (fun x => x.1 == id) with | some (_, m, t) => (m, t) | none => (0, d.time.ticks)
    ({ d with vault := { d.vault with corr := d.vault.corr.filter (fun x => x.1 != id) ++ [(id, m + n, t)] } } : Dev).bump (regAddr 9 0x1C) n
/-- Corrected symbols in the read of an entry's row. -/
def Dev.symbolsAt (d : Dev) (parts : List Part) (r n : Nat) : Dev := let (st, lr) := placeOf parts r; d.symbols st (lr % 62) n
/-- The symbols that the device code corrects in the read of rows `lo` to `hi - 1` of an entry (R313). -/
def Dev.symbolsIn (d : Dev) (e : Entry) (fixed : List FixedRow) (lo hi : Nat) : Dev :=
  (fixed.filter (fun x => x.key.toNat == e.key && decide (lo ≤ x.row.toNat) && decide (x.row.toNat < hi))).foldl
    (fun d x => d.symbolsAt e.parts x.row.toNat x.symbols) d

/-- An entry becomes SUSPECT, and a deposit in progress on it ends (R307, R314; log entry 74). -/
def Dev.suspect (d : Dev) (key : Nat) (args : List Nat) : Dev :=
  match d.entry? key with
  | some e => if e.state = EntryState.suspect then d
      else (d.updEntry key (fun e => { e with state := .suspect, depositing := false })).event 9 2 args
  | none => d
/-- A STORED entry with an unreadable row becomes SUSPECT. Such a row of an entry that arrives is met at its commit, unless it is
written again before (R332). -/
def Dev.suspectStored (d : Dev) (key : Nat) : Dev :=
  match d.entry? key with
  | some e => if e.state = EntryState.stored then d.suspect key [key] else d
  | none => d

/-- Whether an entry has a row on a logical pseudo-channel, and whether a known unreadable block lies on it. -/
def Entry.onChannel (e : Entry) (stack pc : Nat) : Bool :=
  (List.range e.rows).any (fun r => let (k, lr) := placeOf e.parts r; k == stack && lr % 62 == pc)
def Entry.blockOn (e : Entry) (stack pc b : Nat) : Bool := let (k, lr) := placeOf e.parts (b / 8); k == stack && lr % 62 == pc
def Entry.badOn (e : Entry) (stack pc : Nat) : Bool := e.bad.any (e.blockOn stack pc)

/-- An uncorrectable block of an entry is known from here on. -/
def Dev.noteBad (d : Dev) (key b : Nat) : Dev :=
  d.updEntry key (fun e => { e with bad := if e.bad.contains b then e.bad else e.bad ++ [b] })
/-- The copy of a pseudo-channel meets a block that it cannot read (R313). -/
def Dev.copyBad (stack pc : Nat) (d : Dev) (b : BadBlock) : Dev :=
  match d.entry? b.key.toNat with
  | some e => if e.blockOn stack pc (b.row.toNat * 8 + b.block.val) then
      (d.bump (regAddr 9 0x20) 1).noteBad e.key (b.row.toNat * 8 + b.block.val) else d
  | none => d

/-- A pseudo-channel is retired: a spare serves it and every readable row is copied, or its share leaves the stack (R314). `copy` names the
blocks that the copy cannot read. A channel whose share is gone is not retired again. -/
def Dev.retirePc (d : Dev) (stack pc : Nat) (copy : List BadBlock) : Dev :=
  let spares := d.fld (fStackSpares stack)
  if d.vault.lost.contains (stack, pc) then d
  else
    let d := d.put ⟨regAddr 9 0, 1, 1⟩ 1
    if 0 < spares then
      let d := copy.foldl (Dev.copyBad stack pc) d
      let known := (d.vault.lib.filter (fun e => e.badOn stack pc)).map (fun e => e.key)
      let d := (d.put (fStackSpares stack) (spares - 1)).put (fStackState stack) (max 1 (d.fld (fStackState stack)))
      (known.foldl Dev.suspectStored d).event 9 5 [stack]
    else
      let hit := (d.vault.lib.filter (fun e => e.onChannel stack pc)).map (fun e => e.key)
      let d : Dev := { d with vault := { d.vault with lost := d.vault.lost ++ [(stack, pc)] } }
      (hit.foldl (fun d k => d.suspect k [k]) (d.put (fStackState stack) (max 2 (d.fld (fStackState stack))))).event 9 6 [stack]

/-- An uncorrectable block that a read returns retires its pseudo-channel. -/
def Dev.loseBlock (d : Dev) (parts : List Part) (b : Nat) (copy : List BadBlock) : Dev :=
  let (st, lr) := placeOf parts (b / 8)
  d.retirePc st (lr % 62) copy
/-- The same for several blocks of one read: each channel is retired once. -/
def Dev.loseBlocks (d : Dev) (parts : List Part) (bs : List Nat) (copy : List BadBlock) : Dev :=
  ((bs.map (fun b => let (st, lr) := placeOf parts (b / 8); (st, lr % 62))).eraseDups).foldl (fun d c => d.retirePc c.1 c.2 copy) d

end Sys2Proof.Machine
end

