-- ==== Sys2Proof/Machine/Scalar.lean ====
section
/-! DEFINITION. The scalar slot: 04 sections 2 and 3. The SX command of a bundle is its last, and completes the bundle
(log entry 5). -/

namespace Sys2Proof.Machine

/-- The back edges at the issue of bundle END (R129): the innermost open loop ending there branches back or closes, and
a closed loop tests the next one ending there. Answers the open loops, the counters and the next bundle. -/
def loopEdges (pc : Nat) : List OpenLoop → List (Nat × BitVec 16) → List OpenLoop × List (Nat × BitVec 16) × Option Nat
  | [], lc => ([], lc, none)
  | l :: t, lc =>
    if l.last = pc then
      let v := (mapGet (fun _ => 0) lc l.lc).toNat
      if v + 1 < l.count then (l :: t, mapSet (fun _ => 0) lc l.lc (BitVec.ofNat 16 (v + 1)), some l.first)
      else loopEdges pc t lc
    else (l :: t, lc, none)

/-- Results whose fourth bundle comes next and that have landed are written to their registers (R136). -/
def sxApplyDue (c : CoreSt) : CoreSt :=
  let due := c.sxPend.filter (fun p => p.landed && decide (p.seq + 4 ≤ c.seq))
  let c' := due.foldl (fun c p => c.setS p.dest p.value) c
  { c' with sxPend := c.sxPend.filter (fun p => !(p.landed && decide (p.seq + 4 ≤ c.seq))) }

/-- The bundle has issued: BUNDLES counts it, the program position moves on (R128, R129), and results due are seen by
the next bundle (R136). -/
def bundleDone (c : CoreSt) : CoreSt :=
  let (loops, lc, back) := loopEdges c.pc c.loops c.lc
  let pc := match back with
    | some b => b
    | none => if c.pc = c.last then c.first else c.pc + 1
  sxApplyDue { c with loops := loops, lc := lc, pc := pc, seq := c.seq + 1, issued := false, issue := { c.issue with bundles := c.issue.bundles + 1 } }

/-- Whether the operation's predicate is true (R133). -/
def sxPredOk (c : CoreSt) (f : SxFields) : Bool := c.pred f.pred.toNat != f.pneg

/-- An operation of one result, seen by the next bundle (R126, R133). -/
def sxAlu (core : CoreId) (f : SxFields) (v : CoreSt → DWord) (s : State) : State :=
  s.slot core (fun s => s.onCore core (fun c => bundleDone (if sxPredOk c f then c.setS f.d.toNat (v c) else c)))

/-- The sign-extended immediate. -/
def sxImm (f : SxFields) : DWord := f.imm.signExtend 64

/-- Register operands. -/
def sxA (f : SxFields) (c : CoreSt) : DWord := c.sreg f.a.toNat
def sxB (f : SxFields) (c : CoreSt) : DWord := c.sreg f.b.toNat
/-- The shift count IMM[5:0]. -/
def sxSh (f : SxFields) : Nat := f.imm.toNat % 64

def execSxNop (core : CoreId) (s : State) : Res := ok (s.slot core (fun s => s.onCore core bundleDone))
def execSxAdd (core : CoreId) (f : SxFields) (s : State) : Res := ok (sxAlu core f (fun c => sxA f c + sxB f c) s)
def execSxSub (core : CoreId) (f : SxFields) (s : State) : Res := ok (sxAlu core f (fun c => sxA f c - sxB f c) s)
def execSxAddi (core : CoreId) (f : SxFields) (s : State) : Res := ok (sxAlu core f (fun c => sxA f c + sxImm f) s)
def execSxMul (core : CoreId) (f : SxFields) (s : State) : Res := ok (sxAlu core f (fun c => sxA f c * sxB f c) s)
def execSxAnd (core : CoreId) (f : SxFields) (s : State) : Res := ok (sxAlu core f (fun c => sxA f c &&& sxB f c) s)
def execSxOr (core : CoreId) (f : SxFields) (s : State) : Res := ok (sxAlu core f (fun c => sxA f c ||| sxB f c) s)
def execSxXor (core : CoreId) (f : SxFields) (s : State) : Res := ok (sxAlu core f (fun c => sxA f c ^^^ sxB f c) s)
def execSxShli (core : CoreId) (f : SxFields) (s : State) : Res := ok (sxAlu core f (fun c => sxA f c <<< sxSh f) s)
def execSxShri (core : CoreId) (f : SxFields) (s : State) : Res := ok (sxAlu core f (fun c => sxA f c >>> sxSh f) s)
def execSxSari (core : CoreId) (f : SxFields) (s : State) : Res := ok (sxAlu core f (fun c => (sxA f c).sshiftRight (sxSh f)) s)
def execSxMin (core : CoreId) (f : SxFields) (s : State) : Res :=
  ok (sxAlu core f (fun c => if (sxA f c).slt (sxB f c) then sxA f c else sxB f c) s)
def execSxMax (core : CoreId) (f : SxFields) (s : State) : Res :=
  ok (sxAlu core f (fun c => if (sxA f c).slt (sxB f c) then sxB f c else sxA f c) s)
def execSxMovi (core : CoreId) (f : SxFields) (s : State) : Res := ok (sxAlu core f (fun _ => sxImm f) s)
def execSxMovhi (core : CoreId) (f : SxFields) (s : State) : Res :=
  ok (sxAlu core f (fun c => (c.sreg f.d.toNat <<< 23) ||| f.imm.zeroExtend 64) s)

/-- The conditions of Table 4.3. -/
def sxCond (k : Nat) (a b : DWord) : Bool :=
  match k with
  | 0 => a == b
  | 1 => a != b
  | 2 => a.slt b
  | 3 => a.sle b
  | 4 => a.ult b
  | _ => a.ule b

/-- A compare into a predicate; D of 0 or of 8–31 and conditions 6 and 7 are refused at load (R137). -/
def sxCompare (core : CoreId) (f : SxFields) (rhs : CoreSt → DWord) (s : State) : Res :=
  if f.d.toNat = 0 ∨ 8 ≤ f.d.toNat ∨ 6 ≤ f.imm.toNat % 8 then .refused (.invalidBundle 0x0A20)
  else ok (s.slot core (fun s => s.onCore core (fun c =>
    bundleDone (if sxPredOk c f then c.setP f.d.toNat (sxCond (f.imm.toNat % 8) (sxA f c) (rhs c)) else c))))

def execSxCmp (core : CoreId) (f : SxFields) (s : State) : Res := sxCompare core f (sxB f) s
def execSxCmpi (core : CoreId) (f : SxFields) (s : State) : Res :=
  sxCompare core f (fun _ => (f.imm.extractLsb' 3 20).signExtend 64) s
def execSxMovlc (core : CoreId) (f : SxFields) (s : State) : Res :=
  if 16 ≤ f.imm.toNat then .refused (.invalidBundle 0x0A20)
  else ok (sxAlu core f (fun c => (c.lcv f.imm.toNat).zeroExtend 64) s)

/-- The pad row that LDP reads: S[A] + IMM[22:6] (R134). -/
def ldpRow (c : CoreSt) (f : SxFields) : Nat := ((sxA f c) + BitVec.ofNat 64 (f.imm.toNat / 64)).toNat

/-- The word of a row that LDP keeps. -/
def rowWord (r : RowData) (k : Nat) : DWord := BitVec.ofNat 64 (r.toNat >>> (64 * k))

/-- LDP: the row is read at issue, after the cycles its access lost to others (R125; 05 R172); the result is seen by the fourth
bundle after it (R134, R136). -/
def sxLdp (core : CoreId) (f : SxFields) (lost : Nat) (s : State) : State :=
  let s := s.onCore core (fun c => c.bankTick (if sxPredOk c f then lost else 0))
  let c := s.dev.core core
  if sxPredOk c f then
    let row := ldpRow c f
    let (data, s) :=
      if row < 0x2000 then s.engRead core (mkGra 0 (core.val / 8) (core.val % 8) row)
      else ((0 : RowData), s.onDev (fun d => d.ooaCore ooaRead core ((mkGra 0 (core.val / 8) (core.val % 8) 0 + row) % 2 ^ 32)))
    s.onCore core (fun c =>
      bundleDone { c with sxPend := c.sxPend ++ [⟨f.d.toNat, rowWord data (f.imm.toNat % 64), c.seq, false⟩] })
  else s.onCore core bundleDone

def execSxLdp (core : CoreId) (f : WithLost SxFields) (s : State) : Res := ok (s.slot core (sxLdp core f.op f.lost))

/-- VGET: element IMM[6:0] of V[B] in its 128-element view, zero-extended (R135, R136). -/
def sxVget (core : CoreId) (f : SxFields) (s : State) : State :=
  let c := s.dev.core core
  if sxPredOk c f then
    let v := (mapGet (fun _ => 0) c.v f.b.toNat).toNat >>> (32 * (f.imm.toNat % 128))
    (s.onDev (fun d => d.cellRead core (.vreg f.b.toNat))).onCore core (fun c =>
      bundleDone { c with sxPend := c.sxPend ++ [⟨f.d.toNat, BitVec.ofNat 64 (v % 2 ^ 32), c.seq, false⟩] })
  else s.onCore core bundleDone

def execSxVget (core : CoreId) (f : SxFields) (s : State) : Res :=
  if 128 ≤ f.imm.toNat then .refused (.invalidBundle 0x0A20)
  else ok (s.slotOr core false (fun c => !(sxPredOk c f && vgetBlocked s core f.b.toNat)) (sxVget core f)
    (fun s => s.onCore core CoreSt.sxWaitTick))

/-- LOOP opens a counted loop whose body runs from the next bundle to END: its counter is set to 0 (R129). -/
def sxLoop (lc : BitVec 4) (last count : Nat) (c : CoreSt) : CoreSt :=
  let c' := bundleDone c
  { c' with lc := mapSet (fun _ => 0) c'.lc lc.toNat 0, loops := ⟨lc.toNat, count, c.pc + 1, last⟩ :: c'.loops, pc := c.pc + 1 }

/-- A LOOP that R130 refuses at load: COUNT of 0, END not after the LOOP bundle, or more than 16 loops open. -/
def execSxLoop (core : CoreId) (lc : BitVec 4) (last : BitVec 13) (count : BitVec 16) (s : State) : Res :=
  let c := s.dev.core core
  if count = 0 ∨ last.toNat ≤ c.pc ∨ 16 ≤ c.loops.length then .refused (.invalidBundle 0x0A20)
  else ok (s.slot core (fun s => s.onCore core (sxLoop lc last.toNat count.toNat)))

/-- The first result on its way lands (R136); a result whose fourth bundle waits is written at once. -/
def sxLand (c : CoreSt) : CoreSt :=
  match c.sxPend.span (fun p => p.landed) with
  | (pre, p :: post) => sxApplyDue { c with sxPend := pre ++ { p with landed := true } :: post }
  | _ => c

def execSxResultLand (core : CoreId) (s : State) : Res := ok (s.onCore core sxLand)

end Sys2Proof.Machine
end

