-- ==== Sys2Proof/Machine/Transcend.lean ====
section
/-! DEFINITION. The functions of 04 Table 4.8 in fixed point with 512 fraction bits, and the bounds that their results keep
(04 R160; log entry 10). -/

namespace Sys2Proof.Machine

/-! ### Fixed point -/

/-- 1. -/
def fxOne : Int := 2 ^ 512
def fxMul (a b : Int) : Int := a * b / fxOne
def fxDiv (a b : Int) : Int := a * fxOne / b
/-- A dyadic value, exact from 2^−512 up. -/
def fxOfDy (d : Dy) : Int :=
  let m : Nat := if 0 ≤ d.ex + 512 then d.mag <<< (d.ex + 512).toNat else d.mag >>> (-(d.ex + 512)).toNat
  if d.neg then -(m : Int) else m
/-- A value held within ± a whole number. -/
def fxClamp (k : Nat) (a : Int) : Int := max (-(k * fxOne)) (min (k * fxOne) a)

/-! ### Series -/

/-- 1 + y/1 (1 + y/2 (1 + …)), from the n-th term inwards. -/
def fxExpSum (y : Int) : Nat → Int → Int
  | 0, a => a
  | n + 1, a => fxExpSum y n (fxOne + fxMul y a / (n + 1))
def fxSquare : Nat → Int → Int
  | 0, a => a
  | n + 1, a => fxSquare n (fxMul a a)
/-- e to a power of at most some hundreds. -/
def fxExp (x : Int) : Int := fxSquare 10 (fxExpSum (x / 1024) 100 fxOne)

/-- The sum of c^k / (2k + 1), of n terms. -/
def fxOddSum (c : Int) : Nat → Int → Int
  | 0, a => a
  | n + 1, a => fxOddSum c n (fxOne / (2 * n + 1) + fxMul c a)
def fxAtanh (t : Int) : Int := fxMul t (fxOddSum (fxMul t t) 300 0)
/-- arctan 1/k. -/
def fxAtanInv (k : Nat) : Int := let t := fxOne / k; fxMul t (fxOddSum (-(fxMul t t)) 300 0)

def fxLn2 : Int := 2 * fxAtanh (fxOne / 3)
def fxPi : Int := 16 * fxAtanInv 5 - 4 * fxAtanInv 239
def fxSqrt (a : Int) : Int := isqrt (a * fxOne).toNat

/-- The logarithm of a value above 0. -/
def fxLn (d : Dy) : Int :=
  let l := d.mag.log2
  let t : Int := ((d.mag - 2 ^ l) * 2 ^ 512 / (d.mag + 2 ^ l) : Nat)
  (d.ex + l) * fxLn2 + 2 * fxAtanh t

/-- 1 − c/(j·(j+1)) (1 − c/((j+2)(j+3)) (1 − …)), with j from 1 (cosine) or 2 (sine). -/
def fxTrigSum (c : Int) (j : Nat) : Nat → Int → Int
  | 0, a => a
  | n + 1, a => fxTrigSum c j n (fxOne - fxMul c a / ((2 * n + j) * (2 * n + j + 1)))
def fxSin (x : Int) : Int := let r := x % (2 * fxPi); fxMul r (fxTrigSum (fxMul r r) 2 120 fxOne)
def fxCos (x : Int) : Int := let r := x % (2 * fxPi); fxTrigSum (fxMul r r) 1 120 fxOne

def fxTanh (x : Int) : Int := let e := fxExp (2 * fxClamp 200 x); fxDiv (e - fxOne) (e + fxOne)
def fxSigmoid (x : Int) : Int := let e := fxExp (fxClamp 300 x); fxDiv e (fxOne + e)
def fxGelu (x : Int) : Int :=
  let y := fxClamp 20 x
  let u := fxMul (fxSqrt (fxDiv (2 * fxOne) fxPi)) (y + fxMul y (fxMul y y) * 44715 / 1000000)
  fxMul x (fxOne + fxTanh u) / 2

/-- The sum of (−c)^k / (k! (2k + 1)): the next term's index and its factor (−c)^k / k!. -/
def fxErfSum (c : Int) : Nat → Nat → Int → Int → Int
  | 0, _, _, a => a
  | n + 1, k, t, a => fxErfSum c n (k + 1) (-(fxMul c t) / (k + 1)) (a + t / (2 * k + 1))
def fxErf (x : Int) : Int :=
  let y := fxClamp 12 x
  fxDiv (2 * fxMul y (fxErfSum (fxMul y y) 720 0 fxOne 0)) (fxSqrt fxPi)

/-! ### Table 4.8 -/

/-- The function of an FN at a value of its domain. -/
def fxFunc (fn : Nat) (d : Dy) : Int :=
  let x := fxOfDy d
  match fn with
  | 0 => fxExp (fxClamp 300 x)
  | 1 => fxExp (fxMul (fxClamp 300 x) fxLn2)
  | 2 => fxLn d
  | 3 => fxDiv (fxLn d) fxLn2
  | 7 => fxSin x
  | 8 => fxCos x
  | 9 => fxTanh x
  | 10 => fxSigmoid x
  | 11 => fxGelu x
  | 12 => fxMul x (fxSigmoid x)
  | _ => fxErf x

/-- The bound of an FN: units in the last place, and an absolute error. -/
def funcBound (fn : Nat) (d : Dy) : Nat × Nat :=
  match fn with
  | 7 | 8 => if dyLt ⟨false, 2 ^ 17, 0⟩ { d with neg := false } then (0, 2 ^ 502) else (2, 2 ^ 488)
  | 11 | 12 => (3, 2 ^ 488)
  | _ => (2, 0)

/-- More than the error of the fixed-point results, and far less than any unit. -/
def fxEps : Nat := 2 ^ 256

/-- Whether an FP32 pattern keeps the bound of an FN at a value, whose result in fixed point is `e`. The unit is that of the exact
result, 2^−149 where it is subnormal. -/
def funcKeeps (fn : Nat) (d : Dy) (e : Int) (v : Nat) : Bool :=
  let err := (fxOfDy (f32v v) - e).natAbs
  let (n, slack) := funcBound fn d
  decide (err ≤ n * 2 ^ max 363 ((e.natAbs + fxEps).log2 - 23) + fxEps) || decide (err ≤ slack + fxEps)

/-- The result of a function within its domain: a free one that keeps the bound; +0 where exp x or 2^x is below the smallest
subnormal (R160). -/
def f32Func (fn x : Nat) : Nat :=
  let d := f32v x
  let e := fxFunc fn d
  let (s, k, m) := Config.funcResult (BitVec.ofNat 4 fn) (BitVec.ofNat 32 x)
  let v := b2n s * 2 ^ 31 + k.val * 2 ^ 23 + m.toNat
  if fn < 2 ∧ e + fxEps < 2 ^ 363 then 0
  else if funcKeeps fn d e v then v
  else (rneSat ⟨decide (e < 0), e.natAbs, -512⟩).1

end Sys2Proof.Machine
end

