-- ==== Sys2Proof/Machine/Vector.lean ====
section
/-! DEFINITION. The vector engine (04 sections 4 to 8). A VX operation runs all its steps when it starts; its writes land
later, one by one (log entry 7). -/

namespace Sys2Proof.Machine

/-! ### Element types (Table 4.4) -/

/-- Whether a type is valid with a compute type (0 F32, 1 BF16, 2 I32). -/
def vxTypeOk (ty ct : Nat) : Bool :=
  match ty with
  | 0 | 8 | 9 => ct == 0
  | 1 | 3 | 4 | 6 => ct == 0 || ct == 1
  | 2 => ct == 0 || ct == 2
  | 5 | 7 => decide (ct < 3)
  | _ => false

/-- A lane value: an FP32 pattern for F32 and BF16 (a BF16 value in its upper half), a 32-bit integer for I32; with the
NAN and CLIP counts of its decoding (R141). -/
abbrev Lane := Nat × Nat × Nat

def vxFloat (f : FloatFmt) (d : Decoded) : Lane :=
  let (v, n, c) := mxReplace f d
  ((rneSat v).1, n, c)

/-- A stored element decoded to the compute type (R140, R141). -/
def vxDecode (ct ty code : Nat) : Lane :=
  if ct = 2 then
    match ty with
    | 5 => (toField 32 (sext 8 code), 0, 0)
    | 7 => (toField 32 (sext 4 code), 0, 0)
    | _ => (code % 2 ^ 32, 0, 0)
  else
    match ty with
    | 0 => vxFloat fmtF32 (decodeIeee fmtF32 code)
    | 1 => vxFloat fmtBf16 (decodeIeee fmtBf16 code)
    | 2 => ((rneSat (dyOfInt (sext 32 code))).1, 0, 0)
    | 3 => vxFloat fmtE4m3 (decodeE4m3 code)
    | 4 => vxFloat fmtE5m2 (decodeIeee fmtE5m2 code)
    | 5 => ((rneSat (dyOfInt (sext 8 code))).1, 0, 0)
    | 6 => vxFloat fmtFp4 (.val (fmtValue fmtFp4 code))
    | 7 => ((rneSat (dyOfInt (sext 4 code))).1, 0, 0)
    | 8 => vxFloat fmtF32 (decodeE8m0 code)
    | _ => vxFloat fmtF16 (decodeIeee fmtF16 code)

/-- Whether a write into a type is a conversion (R140). -/
def vxConverts (ct ty : Nat) : Bool := !((ct == 0 && ty == 0) || (ct == 1 && ty == 1) || (ct == 2 && ty == 2))

/-- A lane value encoded into a stored type (R93, R140): code and CLIP count. -/
def vxEncode (ct ty : Nat) (sr : Option Nat) (x : Nat) : Nat × Nat :=
  let d := if ct = 2 then dyOfInt (sext 32 x) else f32v x
  let r : Nat × Bool := match ty with
    | 0 => (x, false)
    | 1 => if ct = 1 then (x / 65536, false) else convFmt fmtBf16 sr d
    | 2 => if ct = 2 then (x, false) else convInt 32 sr d
    | 3 => convFmt fmtE4m3 sr d
    | 4 => convFmt fmtE5m2 sr d
    | 5 => convInt 8 sr d
    | 6 => convFmt fmtFp4 sr d
    | 7 => convInt 4 sr d
    | 8 => convE8m0 sr d
    | _ => convFmt fmtF16 sr d
  (r.1, b2n r.2)

/-! ### Tensor descriptors (Table 4.5, R142–R144) -/

/-- TDk of a core (R142). -/
def tdWord (s : State) (core k : Nat) : Nat := stateWord s core 0xC k

/-- An operand: a register named directly, or a tensor with its base row. -/
inductive VxOpd where
  | reg (i : Nat)
  | ten (t : Td) (base : Nat)
  deriving DecidableEq, Repr

/-- The base row of a descriptor, from the scalar register read at issue (R143). -/
def tdBase (c : CoreSt) (t : Td) : Nat :=
  let b := (c.sreg t.bsreg).toNat % 2 ^ 32 + t.roff
  match t.loc with
  | 2 => b % 512
  | 3 => b % 32
  | _ => b % 2 ^ 32

/-- The base captured at issue for an operand field. -/
def opdBase (s : State) (core : Nat) (o : BitVec 6) : Nat :=
  if o.toNat < 32 then 0 else tdBase (s.dev.core core) (tdOf (tdWord s core (o.toNat - 32)))

/-- The operand of a field. -/
def opdOf (s : State) (core : Nat) (o : BitVec 6) (base : Nat) : VxOpd :=
  if o.toNat < 32 then .reg o.toNat else .ten (tdOf (tdWord s core (o.toNat - 32))) base

/-! ### Rows as the vector engine sees them -/

/-- A write of the running operation: where, data, and the cycle at which the step that produced it issued. -/
structure OwnW where
  loc : WLoc
  data : Nat
  cycle : Nat
  deriving DecidableEq, Repr

/-- Cycles per step and latency (Table 4.7). -/
def vxCost (op : Nat) : Nat × Nat :=
  match op with
  | 0x04 => (1, 6) | 0x08 => (4, 12) | 0x09 => (1, 5) | 0x0A => (2, 14) | 0x0D => (1, 2) | 0x0E => (1, 10)
  | 0x0F => (1, 8) | 0x10 => (1, 16) | _ => (1, 4)

/-- The running operation: its own writes, latest first; the cycle `now` at which the current step issues, and the memory row reads
and writes of that step (R151); the row being gathered, and the cycle of its latest step. `seq`: its bundle. `merge`: every row needs a merge read
(R149); `off`: the predicate is false, and nothing is written (R148). Waits for banks and for earlier operations' writes add no
cycles to `now` (log entry 7). -/
structure VxRun where
  own : List OwnW := []
  now : Nat := 0
  reads : Nat := 0
  writes : Nat := 0
  cyc : Nat := 1
  lat : Nat := 4
  gLoc : Option WLoc := none
  gData : Nat := 0
  gAt : Nat := 0
  gOk : Bool := true
  merge : Bool := false
  off : Bool := false
  seq : Nat := 0
  deriving DecidableEq, Repr

/-- A step ends: it took the largest of its operation's cycles, its memory row reads and its memory row writes (R151). -/
def VxRun.endStep (r : VxRun) : VxRun :=
  { r with now := r.now + max r.cyc (max r.reads r.writes), reads := 0, writes := 0 }

/-- A row or register as a step sees it: the operation's own writes that have landed by this step, then writes of earlier
operations (R152), then the memory or register itself. -/
def vxLook (s : State) (core : Nat) (r : VxRun) (l : WLoc) : Nat :=
  match r.own.find? (fun w => w.loc == l && decide (w.cycle + r.lat ≤ r.now)) with
  | some w => w.data
  | none =>
    let c := s.dev.core core
    match (c.pendW.reverse).find? (fun w => w.loc == l && w.seq != r.seq) with
    | some w => w.data.toNat
    | none =>
      match l with
      | .mem g => (readRow s.mem g).toNat
      | .vreg i => (mapGet (fun _ => 0) c.v i).toNat
      | .mreg i => (c.mask i).toNat

/-- Whether a descriptor's row lies where its LOC allows (R143). -/
def tdRowOk (core loc g : Nat) : Bool :=
  match loc with
  | 0 => graValid g && graSpace g == 0 && graCoreId g == core
  | 1 => graValid g && graSpace g == 1 && graCluster g == core / 8
  | _ => true

/-- Where a tensor's row lies. -/
def tdLoc (core loc row : Nat) : WLoc :=
  match loc with
  | 2 => .mem (accGra core row)
  | 3 => .vreg row
  | _ => .mem row

/-- An operand row read: SRCA and SRCB memory rows pass through their staging rows (R150). `which` is 0 for SRCA, 1 for
SRCB and 2 for SRCC. -/
def vxReadOpd (s : State) (core : Nat) (r : VxRun) (which loc row : Nat) : Nat × State :=
  if loc = 2 then (vxLook s core r (tdLoc core loc row), s.onDev (fun d => d.eccRead core (accGra core row)))
  else if loc = 3 then (vxLook s core r (tdLoc core loc row), s.onDev (fun d => d.cellRead core (.vreg row)))
  else
    let c := s.dev.core core
    let st := if which = 0 then c.stageA else if which = 1 then c.stageB else none
    let fresh : Unit → Nat × State := fun _ =>
      let (v, s) := if tdRowOk core loc row then (vxLook s core r (.mem row), s.onDev (fun d => d.eccRead core row))
        else (0, s.onDev (fun d => d.ooaCore ooaRead core row))
      let e : Staged := ⟨row, BitVec.ofNat 4096 v⟩
      (v, s.onCore core (fun c => if which = 0 then { c with stageA := some e } else if which = 1 then { c with stageB := some e } else c))
    match st with
    | some e => if e.gra = row then (e.row.toNat, s) else fresh ()
    | none => fresh ()

/-- The lanes of an operand in one step: element j of the step at index i0 = k × Ec + j, none past N0. -/
def vxLanes (s : State) (core : Nat) (r : VxRun) (which ct ec : Nat) (o : VxOpd) (i1 i2 i3 k : Nat) : List (Option Lane) × State :=
  match o with
  | .reg i =>
    let v := vxLook s core r (.vreg i)
    let ty := if ct = 2 then 2 else ct
    ((List.range ec).map (fun j => some (vxDecode ct ty ((v >>> (vxBits ty * j)) % 2 ^ vxBits ty))),
      s.onDev (fun d => d.cellRead core (.vreg i)))
  | .ten t base =>
    let (row, l0) := tdPos t base (k * ec) i1 i2 i3
    let (v, s) := vxReadOpd s core r which t.loc row
    ((List.range ec).map (fun j =>
      if k * ec + j < t.n0 then some (vxDecode ct t.ty ((v >>> (vxBits t.ty * (l0 + j))) % 2 ^ vxBits t.ty)) else none), s)

/-! ### Writing -/

/-- A row that the core's vector engine writes joins its trace digest while its slice is traced (14 R449). -/
def Dev.digestRow (d : Dev) (core : Nat) (row : RowData) : Dev :=
  let tr := d.reg (regAddr 14 8)
  if d.fld ⟨regAddr 14 0, 3, 3⟩ = 1 ∧ (d.sliceOf (core / 8)).any (fun sl => sl.id == bits tr 27 16) then
    let old := mapGet (fun _ => 0) d.hlth.digests core
    { d with hlth := { d.hlth with digests := mapPut d.hlth.digests core (crcMore old (toLe 512 row.toNat)) } }
  else d

/-- Whether a write goes to a pad or store row, by the memory write path (R151). -/
def WLoc.inMem : WLoc → Bool
  | .mem g => decide (graSpace g < 2)
  | _ => false

/-- The gathered row ends: it becomes one pending write, which lands its latency after the row's last step (R149, R152). -/
def vxFlush (s : State) (core seq : Nat) (r : VxRun) : State × VxRun :=
  match r.gLoc with
  | none => (s, r)
  | some l =>
    let r := { r with gLoc := none }
    if !r.gOk || r.off then (s, r) else
      let row := BitVec.ofNat 4096 r.gData
      let s := match l with
        | .mem _ => s.onDev (fun d => d.digestRow core row)
        | _ => s
      let s := s.onCore core (fun c =>
        let upd := fun (st : Option Staged) => st.map (fun e => if l = .mem e.gra then { e with row := row } else e)
        { c with pendW := c.pendW ++ [⟨l, row, seq⟩], stageA := upd c.stageA, stageB := upd c.stageB })
      (s, { r with own := ⟨l, r.gData, r.gAt⟩ :: r.own, writes := r.writes + b2n (l.inMem && r.gAt == r.now) })

/-- Lane codes written into a destination row of `w`-bit elements, from lane `l0`; `none` leaves a lane as it is. -/
def vxPutLanes (w l0 : Nat) (old : Nat) (codes : List (Option Nat)) : Nat :=
  codes.zipIdx.foldl (fun a (c, j) =>
    match c with
    | some v => setBits a (w * (l0 + j) + w - 1) (w * (l0 + j)) v
    | none => a) old

/-- Whether a destination row needs a merge read (R149): fixed by the descriptor, MZ, MREG and PRED. -/
def vxMergeRead (dst : VxOpd) (r : VxRun) (row : Nat) : Bool :=
  match dst with
  | .reg _ => false
  | .ten t base => r.merge || tdCover t base row != 2 ^ vxPerRow t.ty - 1

/-- One step's codes of width `w` go to a destination row, gathered with the row's earlier steps (R148, R149). -/
def vxWrite (s : State) (core seq : Nat) (dst : VxOpd) (w : Nat) (r : VxRun) (loc : WLoc) (row : Nat) (rowOk : Bool) (l0 : Nat)
    (codes : List (Option Nat)) : State × VxRun :=
  let (s, r) := if r.gLoc = some loc then (s, r) else
    let (s, r) := vxFlush s core seq r
    let read := rowOk && vxMergeRead dst r row
    let s := match loc with
      | .mem g => s.onDev (fun d => if read then d.eccRead core g else if rowOk || r.off then d else d.ooaCore ooaWrite core g)
      | _ => s
    (s, { r with gLoc := some loc, gData := vxLook s core { r with lat := 0 } loc, gOk := rowOk, reads := r.reads + b2n (read && loc.inMem) })
  (s, { r with gData := vxPutLanes w l0 r.gData codes, gAt := r.now })

/-! ### Arithmetic (R153, R154, Table 4.7) -/

/-- A lane result: value, SAT and NAN counts. -/
abbrev LRes := Nat × Nat × Nat

/-- An F32 result for the compute type: BF16 rounds the F32 result again (R153). -/
def vxFin (ct : Nat) (r : Nat × Bool) : LRes :=
  if ct = 1 then
    let b := f32ToBf16 r.1
    (b.1, b2n (r.2 || b.2), 0)
  else (r.1, b2n r.2, 0)

/-- An I32 result saturates (R153). -/
def vxInt (i : Int) : LRes :=
  if i > 2 ^ 31 - 1 then (2 ^ 31 - 1, 1, 0) else if i < -(2 ^ 31) then (2 ^ 31, 1, 0) else (toField 32 i, 0, 0)

/-- ± the largest finite FP32 value. -/
def f32Max (neg : Bool) : Nat := 0x7F7FFFFF + b2n neg * 2 ^ 31

/-- −0 orders below +0 (R153). -/
def f32Less (a b : Nat) : Bool := dyLt (f32v a) (f32v b) || (a == 0x80000000 && b == 0)

/-- a / b in F32 (R154, Table 4.7: within 1 ulp). -/
def f32Div (ct a b : Nat) : LRes :=
  let x := f32v a
  let y := f32v b
  if y.mag = 0 then
    if x.mag = 0 then (0, 0, 1) else
      let r := vxFin ct (f32Max (x.neg != y.neg), true)
      r
  else if x.mag = 0 then (b2n (x.neg != y.neg) * 2 ^ 31, 0, 0)
  else vxFin ct (within1Ulp (Config.ulpPick 8 (BitVec.ofNat 32 a) (BitVec.ofNat 32 b)) (dyDivSticky x y))

/-- FUNC (Table 4.8), before the rounding to BF16. -/
def f32FuncOf (fn x : Nat) : Nat × Bool × Bool :=
  let d := f32v x
  let isNeg := d.neg && d.mag != 0
  match fn with
  | 0 => if dyLt ⟨false, 8872, 0⟩ (dyMul d ⟨false, 100, 0⟩) then (f32Max false, true, false) else (f32Func 0 x, false, false)
  | 1 => if !dyLt d ⟨false, 128, 0⟩ then (f32Max false, true, false) else (f32Func 1 x, false, false)
  | 2 | 3 => if d.mag = 0 then (f32Max true, true, false) else if isNeg then (0, false, true) else (f32Func fn x, false, false)
  | 4 =>
    if d.mag = 0 then (f32Max d.neg, true, false)
    else
      let r := within1Ulp (Config.ulpPick 10 (BitVec.ofNat 32 x) 0) (dyDivSticky ⟨false, 1, 0⟩ d)
      (r.1, r.2, false)
  | 5 =>
    if d.mag = 0 then (if d.neg then (0, false, true) else (f32Max false, true, false))
    else if isNeg then (0, false, true)
    else
      let r := within1Ulp (Config.ulpPick 11 (BitVec.ofNat 32 x) 0) (dySqrtSticky (dyDivSticky ⟨false, 1, 0⟩ d))
      (r.1, r.2, false)
  | 6 => if d.mag = 0 then (x, false, false) else if isNeg then (0, false, true) else ((rneSat (dySqrtSticky d)).1, false, false)
  | _ => (f32Func fn x, false, false)

def vxFunc (ct fn x : Nat) : LRes :=
  let (v, sat, nan) := f32FuncOf fn x
  let r := vxFin ct (v, sat)
  (r.1, r.2.1, b2n nan)

/-- The elementwise operations: op, FN, and the lane values a, b, c. -/
def vxLaneOp (op ct fn a b c : Nat) : LRes :=
  if ct = 2 then
    let x := sext 32 a
    let y := sext 32 b
    match op with
    | 0x01 => vxInt (x + y)
    | 0x02 => vxInt (x - y)
    | 0x03 => vxInt (x * y)
    | 0x05 => if x ≤ y then (a, 0, 0) else (b, 0, 0)
    | 0x06 => if x ≤ y then (b, 0, 0) else (a, 0, 0)
    | 0x07 => vxInt (x.natAbs : Int)
    | _ => (a, 0, 0)
  else
    let x := f32v a
    let y := f32v b
    match op with
    | 0x01 => vxFin ct (rneSat (dyAdd x y))
    | 0x02 => vxFin ct (rneSat (dyAdd x (dyNeg y)))
    | 0x03 => vxFin ct (rneSat (dyMul x y))
    | 0x04 => vxFin ct (rneSat (dyAdd (dyMul x y) (f32v c)))
    | 0x05 => if f32Less b a then (b, 0, 0) else (a, 0, 0)
    | 0x06 => if f32Less a b then (b, 0, 0) else (a, 0, 0)
    | 0x07 => (a % 2 ^ 31, 0, 0)
    | 0x08 => f32Div ct a b
    | 0x0A => vxFunc ct fn a
    | _ => (a, 0, 0)

/-- The conditions of CMP (R155): values are compared, so +0 equals −0. -/
def vxCond (ct fn a b : Nat) : Bool :=
  let lt := fun x y => if ct = 2 then decide (sext 32 x < sext 32 y) else dyLt (f32v x) (f32v y)
  let eq := !lt a b && !lt b a
  match fn with
  | 0 => eq | 1 => !eq | 2 => lt a b | 3 => lt a b || eq | 4 => lt b a | _ => lt b a || eq

/-- DRAIN's activation of t (R159). -/
def drainAct (fn t : Nat) : Nat :=
  match fn with
  | 0 => t
  | 1 => if 2 ^ 31 ≤ t then 0 else t
  | _ => f32Func fn t

/-! ### The random generators (03 R94) -/

/-- One advance of a generator. -/
def rngNext (x : DWord) : DWord :=
  let a := x ^^^ (x <<< 13)
  let b := a ^^^ (a >>> 7)
  b ^^^ (b <<< 17)

/-- Every generator of the step's lanes advances once (R140). -/
def rngStep (c : CoreSt) (ec : Nat) : CoreSt :=
  { c with rng := c.rng.map (fun (l, x) => if l < ec then (l, rngNext x) else (l, x)) }

/-- The 24 random bits of a lane after its advance, when the operation rounds stochastically. -/
def rngBits (c : CoreSt) (sr : Bool) (lane : Nat) : Option Nat :=
  if sr then some (bits (mapGet (fun _ => 0) c.rng lane).toNat 63 40) else none

/-! ### Running an operation (R145–R152) -/

/-- What an operation needs in each step. -/
structure VxCtx where
  q : VxOp
  ct : Nat
  ec : Nat
  dst : VxOpd
  a : VxOpd
  b : VxOpd
  c : VxOpd
  n0 : Nat
  n1 : Nat
  n2 : Nat
  n3 : Nat
  deriving DecidableEq, Repr

/-- Sources an operation uses: a, b, c. -/
def vxUses (op fn : Nat) : Bool × Bool × Bool :=
  match op with
  | 0x04 | 0x10 => (true, true, true)
  | 0x07 | 0x0A | 0x0E | 0x0F => (true, false, false)
  | 0x09 => (true, fn == 1, false)
  | 0x0D => (false, false, false)
  | _ => (true, true, false)

/-- The extents of the iteration space (R145): the destination's; SRCA's for RED and BSCALE; one step of Ec elements when
every operand is a register named directly. -/
def vxSpace (op ec : Nat) (dst a b c : VxOpd) (used : Bool × Bool × Bool) : Nat × Nat × Nat × Nat :=
  let ext : VxOpd → Option (Nat × Nat × Nat × Nat) := fun o => match o with
    | .ten t _ => some (t.n0, t.n1, t.n2, t.n3)
    | .reg _ => none
  let cand : List (Option (Nat × Nat × Nat × Nat)) := (if op = 0x0E ∨ op = 0x0F ∨ op = 0x0B then [] else [ext dst]) ++ (if used.1 then [ext a] else []) ++
    (if used.2.1 && op != 0x09 then [ext b] else []) ++ (if used.2.2 then [ext c] else [])
  (cand.findSome? (fun x => x)).getD (ec, 1, 1, 1)

/-- Live lanes of a step (R146): within N0, masked in, predicate true. SEL uses its mask as the selector (R155). -/
def vxLive (x : VxCtx) (m : Nat) (k j : Nat) : Bool :=
  decide (k * x.ec + j < x.n0) && (x.q.op == 0x0C || bitAt m j) && x.q.predOk

/-- The element codes of one step: live lanes their value, lanes of the tensor that are not live 0 or unchanged by MZ. -/
def vxCodes (x : VxCtx) (m k : Nat) (tail : Bool) (vals : List Nat) : List (Option Nat) :=
  vals.zipIdx.map (fun (v, j) =>
    if vxLive x m k j then some v
    else if (decide (k * x.ec + j < x.n0) || tail) && x.q.f.mz && x.q.predOk then some 0
    else none)

/-- The result of one step goes to the destination (R148). -/
def vxStepOut (s : State) (core : Nat) (x : VxCtx) (r : VxRun) (m i1 i2 i3 k : Nat) (vals : List LRes) : State × VxRun :=
  let ty := match x.dst with | .reg _ => (if x.ct = 2 then 2 else x.ct) | .ten t _ => t.ty
  let conv := vxConverts x.ct ty
  let s := if conv then s.onCore core (fun c => rngStep c x.ec) else s
  let c := s.dev.core core
  let enc := vals.zipIdx.map (fun (v, j) => vxEncode x.ct ty (rngBits c (x.q.f.sr && conv) j) v.1)
  let tot := (vals.zip enc).zipIdx.foldl (fun (t : Nat × Nat × Nat) (ve, j) =>
    if vxLive x m k j then (t.1 + ve.2.2, t.2.1 + ve.1.2.1, t.2.2 + ve.1.2.2) else t) (0, 0, 0)
  let s := s.onCore core (fun c => c.count tot.1 tot.2.1 tot.2.2)
  let codes := enc.map (fun e => e.1)
  match x.dst with
  | .reg i => vxWrite s core x.q.seq x.dst (vxBits ty) r (.vreg i) i true 0 (vxCodes x m k true codes)
  | .ten t base =>
    let (row, l0) := tdPos t base (k * x.ec) i1 i2 i3
    vxWrite s core x.q.seq x.dst (vxBits ty) r (tdLoc core t.loc row) row (tdRowOk core t.loc row) l0 (vxCodes x m k false codes)

/-- A lane's value, and the decoding counts of the live lanes of an operand. -/
def laneVal (l : Option Lane) : Nat := match l with | some v => v.1 | none => 0
def laneTally (x : VxCtx) (m k : Nat) (ls : List (Option Lane)) : Nat × Nat :=
  ls.zipIdx.foldl (fun t (l, j) =>
    match l with
    | some v => if vxLive x m k j then (t.1 + v.2.1, t.2 + v.2.2) else t
    | none => t) (0, 0)

/-- An operand's lanes with its decoding counts applied; an unused operand reads nothing. -/
def vxOperand (s : State) (core : Nat) (x : VxCtx) (r : VxRun) (which : Nat) (use : Bool) (o : VxOpd) (m i1 i2 i3 k : Nat) :
    List (Option Lane) × State :=
  if use then
    let (l, s) := vxLanes s core r which x.ct x.ec o i1 i2 i3 k
    let (n, c) := laneTally x m k l
    (l, s.onCore core (fun cs => cs.count c 0 n))
  else ([], s)

/-- The decoding counts of block scales: each scale once in a step that uses it in a live lane. -/
def scaleTally (x : VxCtx) (m k : Nat) (ls : List (Option Lane)) : Nat × Nat :=
  (List.range (cdiv x.ec 32)).foldl (fun t b =>
    match ls.getD (32 * b) none with
    | some v => if (List.range 32).any (fun j => vxLive x m k (32 * b + j)) then (t.1 + v.2.1, t.2 + v.2.2) else t
    | none => t) (0, 0)

/-- The block scale of element i0 for CVT with FN = 1 (R158): element ⌊i0 / 32⌋ of SRCB at the same outer index. -/
def vxBlockScales (s : State) (core : Nat) (x : VxCtx) (r : VxRun) (i1 i2 i3 k : Nat) : List (Option Lane) × State :=
  match x.b with
  | .reg i =>
    let v := vxLook s core r (.vreg i)
    ((List.range x.ec).map (fun j => some (vxDecode 0 0 ((v >>> (32 * ((k * x.ec + j) / 32))) % 2 ^ 32))), s)
  | .ten t base =>
    let (row, _) := tdPos t base (k * x.ec / 32) i1 i2 i3
    let (v, s) := vxReadOpd s core r 1 t.loc row
    ((List.range x.ec).map (fun j =>
      let (_, l) := tdPos t base ((k * x.ec + j) / 32) i1 i2 i3
      some (vxDecode 0 t.ty ((v >>> (vxBits t.ty * l)) % 2 ^ vxBits t.ty))), s)

/-- Whether an operand of a step reads a pad or store row: not one that its staging row holds (R150). `i0` is the operand's first
element of the step. -/
def vxMiss (s : State) (core which : Nat) (use : Bool) (o : VxOpd) (i0 i1 i2 i3 : Nat) : Nat :=
  match o with
  | .reg _ => 0
  | .ten t base =>
    let c := s.dev.core core
    let st := if which = 0 then c.stageA else if which = 1 then c.stageB else none
    b2n (use && decide (t.loc < 2) && decide (st.map Staged.gra ≠ some (tdPos t base i0 i1 i2 i3).1))

/-- The memory row reads of a step's operands (R151). -/
def vxStepReads (s : State) (core : Nat) (x : VxCtx) (i1 i2 i3 k : Nat) : Nat :=
  let fn := x.q.f.fn.toNat
  let (ua, ub, uc) := vxUses x.q.op fn
  vxMiss s core 0 ua x.a (k * x.ec) i1 i2 i3 +
    vxMiss s core 1 ub x.b (if x.q.op = 0x09 ∧ fn = 1 then k * x.ec / 32 else k * x.ec) i1 i2 i3 + vxMiss s core 2 uc x.c (k * x.ec) i1 i2 i3

/-- One step of an elementwise operation. -/
def vxElemStep (core : Nat) (x : VxCtx) (i1 i2 i3 k : Nat) (sr : State × VxRun) : State × VxRun :=
  let (s, r) := sr
  let r := { r with reads := vxStepReads s core x i1 i2 i3 k }
  let q := x.q
  let m := vxLook s core r (.mreg q.f.mreg.toNat)
  let fn := q.f.fn.toNat
  let (ua, ub, uc) := vxUses q.op fn
  let (la, s) := vxOperand s core x r 0 ua x.a m i1 i2 i3 k
  let (lb, s) := if q.op = 0x09 ∧ fn = 1 then
      let (l, s) := vxBlockScales s core x r i1 i2 i3 k
      let (n, c) := scaleTally x m k l
      (l, s.onCore core (fun cs => cs.count c 0 n))
    else vxOperand s core x r 1 ub x.b m i1 i2 i3 k
  let (lc, s) := vxOperand s core x r 2 uc x.c m i1 i2 i3 k
  -- SPLAT decodes its register in every lane (R141)
  let splat : Lane := if x.ct = 2 then (q.sval % 2 ^ 32, 0, 0) else vxDecode x.ct x.ct (q.sval % (if x.ct = 1 then 2 ^ 16 else 2 ^ 32))
  let s := if q.op = 0x0D then
      let (n, c) := laneTally x m k ((List.range x.ec).map (fun _ => some splat))
      s.onCore core (fun cs => cs.count c 0 n)
    else s
  let js := List.range x.ec
  let av := fun j => laneVal (la.getD j none)
  let bv := fun j => laneVal (lb.getD j none)
  let cv := fun j => laneVal (lc.getD j none)
  if q.op = 0x0B then
    -- CMP writes bits of a mask register; lanes that are not live follow MZ (R155)
    let old := vxLook s core r (.mreg (q.f.dst.toNat % 8))
    let new := (List.range 256).foldl (fun a j =>
      if decide (j < x.ec) && vxLive x m k j then setBits a j j (b2n (vxCond x.ct fn (av j) (bv j)))
      else if q.f.mz then setBits a j j 0 else a) old
    if q.predOk then
      (s.onCore core (fun c => { c with pendW := c.pendW ++ [⟨.mreg (q.f.dst.toNat % 8), BitVec.ofNat 4096 new, q.seq⟩] }),
        r.endStep)
    else (s, r.endStep)
  else
    let vals : List LRes := js.map (fun j =>
      match q.op with
      | 0x0C => (if bitAt m j then av j else bv j, 0, 0)
      | 0x0D =>
        (laneVal (some splat), 0, 0)
      | 0x09 =>
        if fn = 1 then
          (if (f32v (bv j)).mag = 0 then (0, 0, 0)
           else if (f32v (av j)).mag = 0 then (b2n ((f32v (av j)).neg != (f32v (bv j)).neg) * 2 ^ 31, 0, 0)
           else let d := rneSat (dyDivSticky (f32v (av j)) (f32v (bv j))); vxFin x.ct d)
        else (av j, 0, 0)
      | 0x10 =>
        let t := rneSat (dyAdd (dyMul (f32v (av j)) (f32v (bv j))) (f32v (cv j)))
        (drainAct fn t.1, b2n t.2, 0)
      | op => vxLaneOp op x.ct fn (av j) (bv j) (cv j))
    let (s, r) := vxStepOut s core x r m i1 i2 i3 k vals
    (s, r.endStep)

/-- All steps in the order of R146; `i` counts them. -/
def vxElemLoop (core : Nat) (x : VxCtx) : Nat → Nat → State × VxRun → State × VxRun
  | 0, _, sr => sr
  | n + 1, i, sr =>
    let steps := cdiv x.n0 x.ec
    let o := i / steps
    vxElemLoop core x n (i + 1) (vxElemStep core x (o % x.n1) (o / x.n1 % x.n2) (o / x.n1 / x.n2) (i % steps) sr)

/-! ### RED and BSCALE (R156, R157) -/

/-- ⊕ of a reduction. -/
def redOp (fn a b : Nat) : LRes :=
  match fn with
  | 0 => let r := rneSat (dyAdd (f32v a) (f32v b)); (r.1, b2n r.2, 0)
  | 1 => (if f32Less a b then b else a, 0, 0)
  | _ => (if f32Less b a then b else a, 0, 0)

/-- The identity of a reduction. -/
def redId (fn : Nat) : Nat := match fn with | 0 => 0 | 1 => f32Max true | _ => f32Max false

/-- The fixed tree: lane j with lane j + half, repeated (R156); the count of saturations beside it. -/
def redTree (fn : Nat) : Nat → List Nat → Nat → Nat × Nat
  | 0, l, t => (l.headD 0, t)
  | d + 1, l, t =>
    let h := l.length / 2
    let p := (l.take h).zip (l.drop h)
    let r := p.map (fun (a, b) => redOp fn a b)
    redTree fn d (r.map (fun v => v.1)) (t + (r.map (fun v => v.2.1)).sum)

/-- Element q of DST is written, or with a false predicate left (R156, R157). -/
def vxPutElem (s : State) (core : Nat) (x : VxCtx) (r : VxRun) (ty q : Nat) (code : Option Nat) : State × VxRun :=
  match x.dst with
  | .reg i => vxWrite s core x.q.seq x.dst (vxBits ty) r (.vreg i) i true q [code]
  | .ten t base =>
    let i0 := q % t.n0
    let o := q / t.n0
    let (row, l0) := tdPos t base i0 (o % t.n1) (o / t.n1 % t.n2) (o / t.n1 / t.n2)
    vxWrite s core x.q.seq x.dst (vxBits ty) r (tdLoc core t.loc row) row (tdRowOk core t.loc row) l0 [code]

/-- One result element goes to element q of DST (R156, R157): value as an F32 pattern. -/
def vxPutResult (s : State) (core : Nat) (x : VxCtx) (r : VxRun) (q : Nat) (v : Nat) : State × VxRun :=
  let ty := match x.dst with | .reg _ => (if x.ct = 2 then 2 else x.ct) | .ten t _ => t.ty
  let ct := 0
  let conv := vxConverts ct ty
  let s := if conv then s.onCore core (fun c => rngStep c x.ec) else s
  let (code, clip) := vxEncode ct ty (rngBits (s.dev.core core) (x.q.f.sr && conv) 0) v
  let s := if x.q.predOk then s.onCore core (fun c => c.count clip 0 0) else s
  vxPutElem s core x r ty q (if x.q.predOk then some code else none)

/-- One step's value of a reduction: lanes that are not live give the identity, and the tree combines them. -/
def redStep (core : Nat) (x : VxCtx) (i1 i2 i3 k : Nat) (s : State) (r : VxRun) : Nat × State :=
  let m := vxLook s core r (.mreg x.q.f.mreg.toNat)
  let (la, s) := vxOperand s core x r 0 true x.a m i1 i2 i3 k
  let vals := (List.range x.ec).map (fun j =>
    if vxLive x m k j then
      (if x.ct = 2 then (rneSat (dyOfInt (sext 32 (laneVal (la.getD j none))))).1 else laneVal (la.getD j none))
    else redId x.q.f.fn.toNat)
  let (v, sat) := redTree x.q.f.fn.toNat (if x.ec = 256 then 8 else 7) vals 0
  (v, if x.q.predOk then s.onCore core (fun c => c.count 0 sat 0) else s)

/-- The steps of one outer index combined in order: result := v0, then ⊕ v1, v2, … (R156). The last step is left to end after the
result is written, so that the result's latency counts from it (R152). -/
def redRow (core : Nat) (x : VxCtx) (i1 i2 i3 : Nat) : Nat → Nat → Option Nat → State × VxRun → Nat × State × VxRun
  | 0, _, acc, (s, r) => (acc.getD 0, s, r)
  | n + 1, k, acc, (s, r) =>
    let r := { r with reads := vxStepReads s core x i1 i2 i3 k }
    let (v, s) := redStep core x i1 i2 i3 k s r
    let (w, t) := match acc with
      | none => (v, 0)
      | some a => let p := redOp x.q.f.fn.toNat a v; (p.1, p.2.1)
    let s := if x.q.predOk then s.onCore core (fun c => c.count 0 t 0) else s
    redRow core x i1 i2 i3 n (k + 1) (some w) (s, if n = 0 then r else r.endStep)

def redLoop (core : Nat) (x : VxCtx) : Nat → Nat → State × VxRun → State × VxRun
  | 0, _, sr => sr
  | n + 1, q, sr =>
    let (v, s, r) := redRow core x (q % x.n1) (q / x.n1 % x.n2) (q / x.n1 / x.n2) (cdiv x.n0 x.ec) 0 none sr
    let (s, r) := vxPutResult s core x r q v
    redLoop core x n (q + 1) (s, r.endStep)

/-- A block's scale as an F32 pattern from its largest magnitude (R157). For FN 0 the exponent saturates; for FN 1 the
quotient by 7 is rounded once, to FP16. -/
def bscaleOf (fn amax : Nat) : Nat × Nat :=
  let d := f32v amax
  if fn = 0 then
    if d.mag = 0 then (0, 0)
    else
      let e : Int := d.ex + (d.mag.log2 : Int) - 2
      if e < -127 then (0, 0) else ((e + 127).toNat, 0)
  else if d.mag = 0 then (0, 0)
  else
    let r := convFmt fmtF16 none (dyDivSticky d ⟨false, 7, 0⟩)
    (r.1, b2n r.2)

/-- A scale code written to element q of DST. -/
def vxPutCode (s : State) (core : Nat) (x : VxCtx) (r : VxRun) (q code clip : Nat) : State × VxRun :=
  let ty := match x.dst with | .reg _ => 0 | .ten t _ => t.ty
  let s := if x.q.predOk then s.onCore core (fun c => c.count clip 0 0) else s
  vxPutElem s core x r ty q (if x.q.predOk then some code else none)

/-- One step of BSCALE: the amax of each block of 32 live elements (R157). -/
def bscaleStep (core : Nat) (x : VxCtx) (i1 i2 i3 k q0 : Nat) (sr : State × VxRun) : State × VxRun :=
  let (s, r) := sr
  let r := { r with reads := vxStepReads s core x i1 i2 i3 k }
  let m := vxLook s core r (.mreg x.q.f.mreg.toNat)
  let (la, s) := vxOperand s core x r 0 true x.a m i1 i2 i3 k
  let s := s.onCore core (fun c => rngStep c x.ec)
  let nb := min 4 ((x.n0 - k * x.ec) / 32)
  let (s, r) := (List.range nb).foldl (fun (s, r) b =>
    let amax := (List.range 32).foldl (fun a j =>
      if vxLive x m k (32 * b + j) then max a (laneVal (la.getD (32 * b + j) none) % 2 ^ 31) else a) 0
    let (code, clip) := bscaleOf x.q.f.fn.toNat amax
    vxPutCode s core x r (q0 + b) code clip) (s, r)
  (s, r.endStep)

def bscaleLoop (core : Nat) (x : VxCtx) : Nat → Nat → State × VxRun → State × VxRun
  | 0, _, sr => sr
  | n + 1, i, sr =>
    let steps := cdiv x.n0 x.ec
    let o := i / steps
    bscaleLoop core x n (i + 1)
      (bscaleStep core x (o % x.n1) (o / x.n1 % x.n2) (o / x.n1 / x.n2) (i % steps) (o * (x.n0 / 32) + 4 * (i % steps)) sr)

/-- The lanes of a directly named destination that hold no result of RED or BSCALE receive +0 when MZ = 1 (R148). -/
def vxTailClear (s : State) (core : Nat) (x : VxCtx) (n : Nat) (sr : VxRun) : State × VxRun :=
  match x.dst with
  | .reg i =>
    let w := if x.ct = 1 then 16 else 32
    if x.q.f.mz && x.q.predOk && decide (n < x.ec) then
      vxWrite s core x.q.seq x.dst w sr (.vreg i) i true n ((List.range (x.ec - n)).map (fun _ => some 0))
    else (s, sr)
  | .ten _ _ => (s, sr)

/-- A VX operation runs all its steps (R145, R146). -/
def vxExec (s : State) (core : Nat) (q : VxOp) : State :=
  let ct := q.f.ty.toNat
  let ec := if ct = 1 then 256 else 128
  let dst := opdOf s core q.f.dst q.bDst
  let a := opdOf s core q.f.srca q.bA
  let b := opdOf s core q.f.srcb q.bB
  let c := opdOf s core q.f.srcc q.bC
  let (n0, n1, n2, n3) := vxSpace q.op ec dst a b c (vxUses q.op q.f.fn.toNat)
  let x : VxCtx := ⟨q, ct, ec, dst, a, b, c, n0, n1, n2, n3⟩
  let (cyc, lat) := vxCost q.op
  let r : VxRun := { seq := q.seq, cyc := cyc, lat := lat, off := !q.predOk, merge := !q.f.mz && (q.f.mreg != 0 || q.f.pred != 0) }
  let outer := n1 * n2 * n3
  let (s, r) :=
    if q.op = 0x0E then
      let (s, r) := redLoop core x outer 0 (s, r)
      vxTailClear s core x outer r
    else if q.op = 0x0F then
      let (s, r) := bscaleLoop core x (outer * cdiv n0 ec) 0 (s, r)
      vxTailClear s core x (outer * (n0 / 32)) r
    else vxElemLoop core x (outer * cdiv n0 ec) 0 (s, r)
  (vxFlush s core q.seq r).1

/-! ### Forms refused at load (R163) -/

/-- Whether an operation accepts a compute type (Table 4.7). -/
def vxTyOk (op ct : Nat) : Bool :=
  match op with
  | 0x08 | 0x0A | 0x0F | 0x10 => ct == 0
  | 0x04 => decide (ct < 2)
  | _ => decide (ct < 3)

/-- Whether FN is among the values the operation defines. -/
def vxFnOk (op fn : Nat) : Bool :=
  match op with
  | 0x09 | 0x0F => decide (fn < 2)
  | 0x0A => decide (fn < 14)
  | 0x0B => decide (fn < 6)
  | 0x0E => decide (fn < 3)
  | 0x10 => fn == 0 || fn == 1 || fn == 9 || fn == 10 || fn == 11 || fn == 12
  | _ => fn == 0

/-- Whether unused fields are 0 (R161, R163). -/
def vxUnusedOk (op : Nat) (f : VxFields) : Bool :=
  let (ua, ub, uc) := vxUses op f.fn.toNat
  (ua || op == 0x0D || f.srca == 0) && (ub || f.srcb == 0) && (uc || f.srcc == 0)

/-- The static form rules of R163 and R155. -/
def vxFormOk (op : Nat) (f : VxFields) : Bool :=
  vxTyOk op f.ty.toNat && vxFnOk op f.fn.toNat && vxUnusedOk op f &&
  (op != 0x0B || (decide (f.dst.toNat < 8) && f.dst.toNat != 0 && decide (f.srca.toNat < 32) && decide (f.srcb.toNat < 32))) &&
  (op != 0x0C || (decide (f.srca.toNat < 32) && decide (f.srcb.toNat < 32))) &&
  (op != 0x0D || decide (f.srca.toNat < 32)) &&
  (op != 0x10 || decide (32 ≤ f.srca.toNat))

/-! ### Meanings -/

/-- A VX operation as issued: predicate, bases and the SPLAT register are read at issue (R126). -/
def vxIssue (s : State) (core : Nat) (op : Nat) (f : VxFields) : VxOp :=
  let c := s.dev.core core
  ⟨op, f, c.pred f.pred.toNat != f.pneg, opdBase s core (if op = 0x0B then 0 else f.dst), opdBase s core f.srca, opdBase s core f.srcb,
    opdBase s core f.srcc, (c.sreg (f.srca.toNat % 32)).toNat % 2 ^ 32, c.seq⟩

/-- An operation issued with a false predicate counts in PRED_OFF (R148, Table 4.11). -/
def CoreSt.predTick (predOk : Bool) (c : CoreSt) : CoreSt :=
  if predOk then c else { c with issue := { c.issue with predOff := c.issue.predOff + 1 } }

/-- A VX slot operation: it starts at once when the engine has no write on its way and no operation queued; otherwise it
enters the two-entry queue; on a full queue the bundle waits and VX_STALL counts (R125, R152). Issue waits for the cycles that the accesses
of one that starts lost (05 R172). -/
def vxOp (core : CoreId) (op : Nat) (f : VxFields) (lost : Nat) (s : State) : State :=
  s.slotOr core false (fun c => decide (c.vxQ.length < 2))
    (fun s =>
      let c := s.dev.core core
      let q := vxIssue s core op f
      let s := s.onCore core (CoreSt.predTick q.predOk)
      if c.vxQ = [] ∧ c.pendW = [] then vxExec (s.onCore core (fun c => c.bankTick lost)) core q
      else s.onCore core (fun c => { c with vxQ := c.vxQ ++ [q] }))
    (fun s => s.onCore core (fun c => { c with issue := { c.issue with vxStall := c.issue.vxStall + 1 } }))

/-- A VX operation in a form the spec refuses at load has no effect of its own (R163). -/
def vxMeaning (core : CoreId) (op : Nat) (f : WithLost VxFields) (s : State) : Res :=
  if vxFormOk op f.op then ok (vxOp core op f.op f.lost s) else .refused (.invalidBundle 0x0A20)

def execVxNop (core : CoreId) (s : State) : Res := ok (s.slot core (fun s => s))
def execVxAdd (core : CoreId) (f : WithLost VxFields) (s : State) : Res := vxMeaning core 0x01 f s
def execVxSub (core : CoreId) (f : WithLost VxFields) (s : State) : Res := vxMeaning core 0x02 f s
def execVxMul (core : CoreId) (f : WithLost VxFields) (s : State) : Res := vxMeaning core 0x03 f s
def execVxFma (core : CoreId) (f : WithLost VxFields) (s : State) : Res := vxMeaning core 0x04 f s
def execVxMin (core : CoreId) (f : WithLost VxFields) (s : State) : Res := vxMeaning core 0x05 f s
def execVxMax (core : CoreId) (f : WithLost VxFields) (s : State) : Res := vxMeaning core 0x06 f s
def execVxAbs (core : CoreId) (f : WithLost VxFields) (s : State) : Res := vxMeaning core 0x07 f s
def execVxDiv (core : CoreId) (f : WithLost VxFields) (s : State) : Res := vxMeaning core 0x08 f s
def execVxCvt (core : CoreId) (f : WithLost VxFields) (s : State) : Res := vxMeaning core 0x09 f s
def execVxFunc (core : CoreId) (f : WithLost VxFields) (s : State) : Res := vxMeaning core 0x0A f s
def execVxCmp (core : CoreId) (f : WithLost VxFields) (s : State) : Res := vxMeaning core 0x0B f s
def execVxSel (core : CoreId) (f : WithLost VxFields) (s : State) : Res := vxMeaning core 0x0C f s
def execVxSplat (core : CoreId) (f : WithLost VxFields) (s : State) : Res := vxMeaning core 0x0D f s
def execVxRed (core : CoreId) (f : WithLost VxFields) (s : State) : Res := vxMeaning core 0x0E f s
def execVxBscale (core : CoreId) (f : WithLost VxFields) (s : State) : Res := vxMeaning core 0x0F f s
def execVxDrain (core : CoreId) (f : WithLost VxFields) (s : State) : Res := vxMeaning core 0x10 f s

/-- The next queued operation starts (R152); its accesses lose banks or ports in some cycles, and issue waits that long
(R125; 05 R172). -/
def execVxStart (core : WithLost CoreId) (s : State) : Res :=
  ok (if s.dev.coreRuns core.op then
        match (s.dev.core core.op).vxQ with
        | q :: t => vxExec (s.onCore core.op (fun c => { c.bankTick core.lost with vxQ := t })) core.op q
        | [] => s
      else s)

/-- A vector write lands at its row, register or mask (R152); M0 is never written (R138). -/
def landWrite (s : State) (core : Nat) (w : PendW) : State :=
  match w.loc with
  | .mem g => s.putRow g w.data
  | .vreg i => s.onCore core (fun c => { c.mend (.vreg i) with v := mapSet (fun _ => 0) c.v i w.data })
  | .mreg i => if i = 0 then s else s.onCore core (fun c => { c.mend (.mreg i) with m := mapSet (fun _ => 0) c.m i (w.data.setWidth 256) })

/-- The oldest vector write on its way lands (R152). -/
def execVxWriteLand (core : CoreId) (s : State) : Res :=
  ok (match (s.dev.core core).pendW with
      | w :: t => landWrite (s.onCore core (fun c => { c with pendW := t })) core w
      | [] => s)

end Sys2Proof.Machine
end

