-- ==== Sys2Proof/Machine/Folio.lean ====
section
/-! DEFINITION. Folios: reading one from its rows, and the load checks of Table 10.9 (10 sections 1 to 4). -/

namespace Sys2Proof.Machine

/-! ### Reading (R338, R339, Tables 10.1 to 10.7) -/

/-- The little-endian value of `n` bytes, at most 512, at byte offset `o` of rows. -/
def rdBytes (row : Nat → RowData) (o n : Nat) : Nat :=
  (((row (o / 512)).toNat + (row (o / 512 + 1)).toNat <<< 4096) >>> (8 * (o % 512))) % 2 ^ (8 * n)

/-- A directory entry (Table 10.2). -/
structure Sec where
  i : Nat
  ty : Nat
  resv : Nat
  count : Nat
  off : Nat
  len : Nat
  deriving DecidableEq, Repr

/-- Record sizes (Table 10.3); 0 for an invalid type. -/
def recSize (ty : Nat) : Nat :=
  match ty with
  | 1 | 8 => 64 | 2 => 288 | 3 => 512 | 4 | 9 => 32 | 5 | 7 => 16 | 6 => 4 | 10 => 8 | _ => 0

def folioSecs (row : Nat → RowData) : List Sec :=
  (List.range (min 16 (rdBytes row 0x34 2))).map (fun i =>
    let o := 0x100 + 24 * i
    ⟨i, rdBytes row o 2, rdBytes row (o + 2) 2, rdBytes row (o + 4) 4, rdBytes row (o + 8) 8, rdBytes row (o + 16) 8⟩)

/-- The records of a section type, each as a number. -/
def secRecs (row : Nat → RowData) (secs : List Sec) (ty : Nat) : List Nat :=
  match secs.find? (fun s => s.ty == ty) with
  | some s => (List.range s.count).map (fun k => rdBytes row (s.off + k * recSize ty) (recSize ty))
  | none => []
/-- The directory index of a section type, 0xFF for none. -/
def secIdx (secs : List Sec) (ty : Nat) : Nat :=
  match secs.find? (fun s => s.ty == ty) with | some s => s.i | none => 0xFF

/-- `n` bytes of a record from byte `b`. -/
def fb (v b n : Nat) : Nat := bits v (8 * (b + n) - 1) (8 * b)

def coreRecOf (v : Nat) : CoreRec :=
  { core := fb v 0 2, first := fb v 2 2, last := fb v 4 2, codeRows := fb v 6 2, codeRow := fb v 8 4, stateRow := fb v 12 4,
    sInit := (List.range 31).map (fun k => fb v (24 + 8 * k) 8), resv := fb v 16 8 + fb v 272 16 }

def netRecOf (v : Nat) : NetRec :=
  match fb v 0 1 with
  | 1 => .resv false (fb v 1 1) (fb v 2 1) (fb v 3 1) (fb v 4 2) (fb v 8 4) (fb v 12 4) (fb v 16 4)
  | 6 => .resv true (fb v 1 1) (fb v 2 1) (fb v 3 1) (fb v 4 2) (fb v 8 4) (fb v 12 4) (fb v 16 4)
  | 2 => .chan (fb v 1 1) (fb v 2 2) (fb v 4 2) (fb v 6 2) (fb v 8 1)
  | 3 => .flow (fb v 1 1) (fb v 2 2) (fb v 4 2) (fb v 6 2)
  | 4 => .sum (fb v 2 1) (fb v 4 2) (fb v 6 2) (fb v 8 1) (fb v 9 1)
  | 5 => .tree (fb v 2 1) (fb v 3 1) (fb v 4 1) (fb v 5 1) ((List.range 8).map (fun k => fb v (8 + k) 1))
  | _ => .bad

def slotRecOf (v : Nat) : SlotRec :=
  match fb v 0 1 with
  | 1 => .demand (fb v 1 1) (fb v 2 1) (fb v 3 1) (fb v 4 2)
  | 2 => .transit (fb v 2 2) (fb v 4 1) (fb v 5 1) (fb v 6 1)
  | _ => .bad

def seqRecOf (v : Nat) : SeqRec :=
  match fb v 0 1 with
  | 1 => .coreSeq (fb v 2 2) (fb v 8 8)
  | 2 => .pull (fb v 1 1) (fb v 2 2) (fb v 4 2) (fb v 6 1) (fb v 8 4)
  | 3 => .push (fb v 1 1) (fb v 2 2) (fb v 4 2) (fb v 6 1) (fb v 8 4)
  | _ => .bad

/-- The folio that rows hold. -/
def folioOf (row : Nat → RowData) : Folio :=
  let h := rdBytes row 0
  let f := fun o n => fb (h 256) o n
  let secs := folioSecs row
  let claim := (secRecs row secs 1).headD 0
  { flags := f 0x0C 4, total := f 0x10 8, sigOff := f 0x18 8, setId := f 0x20 16, device := f 0x30 2, devCount := f 0x32 2,
    holdHops := f 0x36 2, rated := f 0x38 1, log2G := f 0x39 1, holdLead := f 0x3A 1, overlapD := f 0x3B 1, slotK := f 0x3E 2,
    sSchuss := f 0x40 4, sCarve := f 0x44 4, sGlide := f 0x48 4, f := f 0x4C 4, period := f 0x50 8, e := f 0x58 4,
    sequences := f 0x5C 1, srSeed := f 0x60 8, satThr := f 0x68 4,
    clusters := (List.range 72).filter (fun k => bitAt claim k),
    cores := (secRecs row secs 2).map coreRecOf, nets := (secRecs row secs 4).map netRecOf,
    slots := (secRecs row secs 5).map slotRecOf, semas := secRecs row secs 6, seqmap := (secRecs row secs 7).map seqRecOf,
    entries := (secRecs row secs 8).map (fun v => ⟨fb v 0 8, BitVec.ofNat 384 (fb v 8 48), fb v 56 4, fb v 60 4⟩),
    plan := (secRecs row secs 9).map (fun v => ⟨BitVec.ofNat 256 v⟩),
    chains := (secRecs row secs 10).map (fun v => ⟨fb v 0 1, fb v 1 1, fb v 2 2, fb v 4 1, fb v 5 3⟩) }

/-! ### Failures -/

/-- A failed check: code, section and item (R347); the item is 0xFFFF_FFFF for none. -/
abbrev Fail := Nat × Nat × Nat
def noItem : Nat := 0xFFFFFFFF

/-- The first record of a list that a predicate rejects, as a failure. -/
def firstBad {α : Type} (code sec : Nat) (l : List α) (bad : α → Bool) : Option Fail :=
  (l.zipIdx.find? (fun x => bad x.1)).map (fun x => (code, sec, x.2))
/-- A failure where a condition holds. -/
def failIf (c : Bool) (f : Fail) : Option Fail := if c then some f else none

/-! ### 0x0A00: layout (R339, Tables 10.1 to 10.7) -/

/-- Whether any byte of a record outside the listed ones is nonzero. -/
def otherBytes (v n : Nat) (allowed : List Nat) : Bool := (List.range n).any (fun k => !allowed.contains k && fb v k 1 != 0)

/-- Whether a record has a nonzero reserved byte or bit. -/
def recResv (ty v : Nat) : Bool :=
  match ty with
  | 1 => bits v 127 72 != 0 || fb v 33 31 != 0
  | 2 => fb v 16 8 != 0 || fb v 272 16 != 0
  | 4 =>
    (match fb v 0 1 with
      | 1 | 6 => otherBytes v 32 [0, 1, 2, 3, 4, 5, 8, 9, 10, 11, 12, 13, 14, 15, 16, 17, 18, 19]
      | 2 => otherBytes v 32 [0, 1, 2, 3, 4, 5, 6, 7, 8]
      | 3 => otherBytes v 32 [0, 1, 2, 3, 4, 5, 6, 7]
      | 4 => otherBytes v 32 [0, 2, 4, 5, 6, 7, 8, 9] || bits v 63 60 != 0
      | 5 => otherBytes v 32 [0, 2, 3, 4, 5, 8, 9, 10, 11, 12, 13, 14, 15] || bits v 39 37 != 0
      | _ => false)
  | 5 =>
    (match fb v 0 1 with
      | 1 => otherBytes v 16 [0, 1, 2, 3, 4, 5]
      | 2 => otherBytes v 16 [0, 2, 3, 4, 5, 6] || bits v 31 28 != 0
      | _ => false)
  | 7 =>
    (match fb v 0 1 with
      | 1 => otherBytes v 16 [0, 2, 3, 8, 9, 10, 11, 12, 13, 14, 15]
      | 2 | 3 => otherBytes v 16 [0, 1, 2, 3, 4, 5, 6, 8, 9, 10, 11]
      | _ => false)
  | 8 => fb v 60 4 != 0
  | 9 => bits v 109 0 != 0
  | 10 => fb v 5 3 != 0
  | _ => false

/-- Blocks of the folio: header with directory, sections, signature, as (offset, end). -/
def folioBlocks (secs : List Sec) (n sigOff : Nat) : List (Nat × Nat) :=
  (0, 0x100 + 24 * n) :: (sigOff, sigOff + 160) :: secs.map (fun s => (s.off, s.off + s.len))

/-- Whether a byte that no block covers is nonzero; each block but the header starts a row. -/
def strayBytes (row : Nat → RowData) (blocks : List (Nat × Nat)) (rows : Nat) : Bool :=
  (List.range rows).any (fun r =>
    let cov := blocks.foldl (fun a b => if b.1 ≤ 512 * r ∧ 512 * r < b.2 then max a (min 512 (b.2 - 512 * r)) else a) 0
    (row r).toNat >>> (8 * cov) != 0)

/-- Distinct STREAM values of the pull or push points. -/
def streamsOf (l : List SeqRec) (push : Bool) : List Nat :=
  (l.filterMap (fun r => match r with
    | .pull _ st _ _ _ => if push then none else some st
    | .push _ st _ _ _ => if push then some st else none
    | _ => none)).eraseDups

def checkLayout (row : Nat → RowData) (rows : Nat) (fo : Folio) : Option Fail :=
  let hdr := rdBytes row 0 256
  let secs := folioSecs row
  let n := fb hdr 0x34 2
  let none' : Fail := (0x0A00, 0xFF, noItem)
  let claim := (secRecs row secs 1).headD 0
  let nets := secRecs row secs 4
  let cnt := fun (l : List Nat) (ks : List Nat) => (l.filter (fun v => ks.contains (fb v 0 1))).length
  failIf (fb hdr 0 4 != 0x4C4F4643 || fb hdr 6 2 != 256 || fo.sigOff % 512 != 0 || fo.total != fo.sigOff + 160 ||
      rows * 512 != roundUp fo.total 512 || n == 0 || 16 < n) none'
    <|> (secs.find? (fun s => recSize s.ty == 0 || s.off % 512 != 0 || s.off < 0x100 + 24 * n || fo.sigOff < s.off + s.len ||
        s.len != s.count * recSize s.ty || s.resv != 0 || (s.ty == 1 && s.count != 1) ||
        secs.any (fun t => t.i != s.i && (t.ty == s.ty || (s.off < t.off + t.len && t.off < s.off + s.len))))).map
          (fun s => (0x0A00, s.i, noItem))
    <|> failIf ([1, 2, 3, 7, 8, 9].any (fun t => !secs.any (fun s => s.ty == t)) ||
        (fo.flags % 2 == 1 && !secs.any (fun s => s.ty == 5))) none'
    <|> failIf (strayBytes row (folioBlocks secs n fo.sigOff) rows) none'
    <|> failIf (fb claim 16 2 != (streamsOf fo.seqmap false).length || fb claim 18 2 != (streamsOf fo.seqmap true).length ||
        fb claim 20 2 != cnt nets [1, 6] || fb claim 22 2 != cnt nets [3] || fb claim 24 2 != cnt nets [4] ||
        fb claim 26 2 != cnt nets [5] || fb claim 28 2 != cnt nets [2] || fb claim 30 2 != fo.semas.length ||
        fo.clusters.isEmpty) (0x0A00, secIdx secs 1, 0)
    <|> failIf ((secRecs row secs 8).headD 1 != 0) (0x0A00, secIdx secs 8, 0)
    <|> failIf (fo.flags / 2 != 0 || fo.device / 4096 != 0 || fb hdr 0x5D 3 != 0 || fb hdr 0x6C 148 != 0) none'
    <|> [1, 2, 4, 5, 7, 8, 9, 10].findSome? (fun t => firstBad 0x0A00 (secIdx secs t) (secRecs row secs t) (recResv t))

/-! ### 0x0A01 to 0x0A16: signature, versions, device, gates (R340, R341, R38, R465) -/

/-- The KEY_ID of the signature block and its last 16 bytes. -/
def sigKeyId (row : Nat → RowData) (fo : Folio) : BitVec 384 := BitVec.ofNat 384 (rdBytes row fo.sigOff 48)

/-- The first `n` bytes of a folio. -/
def folioBytes (row : Nat → RowData) (n : Nat) : List Nat := ((List.range (cdiv n 512)).flatMap (fun r => toLe 512 (row r).toNat)).take n
/-- The signature block names an operator key in force, under which ECDSA P-384 over SHA-384 of the bytes before the block verifies
(R340). -/
def folioSigned (d : Dev) (row : Nat → RowData) (fo : Folio) : Bool :=
  match d.sec.opKeys.find? (fun k => keyDigest k == sigKeyId row fo) with
  | some k => signedBy k (folioBytes row fo.sigOff) (BitVec.ofNat 768 (rdBytes row (fo.sigOff + 48) 96))
  | none => false
def checkSig (d : Dev) (row : Nat → RowData) (fo : Folio) : Option Fail :=
  failIf (rdBytes row (fo.sigOff + 144) 16 != 0 || !folioSigned d row fo) (0x0A01, 0xFF, noItem)

/-- Whether the firmware accepts a FORMAT and a Tarantek triple (15 R465). -/
def fwTakes (w : FwImage) (format triple : Nat) : Bool :=
  decide (w.folioMin.toNat ≤ format) && decide (format ≤ w.folioMax.toNat) && decide (w.tkMin.toNat ≤ triple) &&
    decide (triple ≤ w.tkMax.toNat)
/-- The FORMAT of a folio and its triple as VERSION codes one: major [31:24], minor [23:16], patch [15:0]. -/
def folioVersion (row : Nat → RowData) : Nat × Nat :=
  (rdBytes row 4 2, rdBytes row 8 1 <<< 24 + rdBytes row 9 1 <<< 16 + rdBytes row 0xA 2)

def checkVersion (d : Dev) (row : Nat → RowData) : Option Fail :=
  let (f, t) := folioVersion row
  failIf (match d.sec.fw with | some w => !fwTakes w f t | none => f != 1) (0x0A02, 0xFF, noItem)

/-- The least spacing of a mode: ceil((G + 2) × T) ticks (R341). -/
def minSpacing (log2G m : Nat) : Nat :=
  let g := 2 ^ log2G + 2
  match m with | 0 => cdiv g 2 | 1 => cdiv (5 * g) 8 | _ => cdiv (5 * g) 6
/-- The spacing a folio lists for a mode. -/
def Folio.listed (fo : Folio) (m : Nat) : Nat := match m with | 0 => fo.sSchuss | 1 => fo.sCarve | _ => fo.sGlide

/-- What a slice start adds to the checks of its folio: the slice ID, and whether the set's members are too many or hold different SET_IDs
(09 R325). -/
structure StartCheck where
  sid : Nat
  setBad : Bool

def checkGates (d : Dev) (fo : Folio) (setBad : Bool) : Option Fail :=
  let hd := fun c => (c, 0xFF, noItem)
  let s := fo.listed fo.rated
  failIf (fo.device != d.coord || fo.devCount == 0 || 4096 < fo.devCount || (1 < fo.devCount && fo.flags % 2 == 0) || setBad) (hd 0x0A03)
    <|> failIf (2 < fo.rated || fo.log2G < 9 || 16 < fo.log2G || fo.holdLead == 0 || 8 < fo.holdLead || fo.sequences == 0 ||
        64 < fo.sequences) (hd 0x0A14)
    <|> failIf (fo.period < 1000 || 1000000000 < fo.period) (hd 0x0A10)
    <|> failIf (fo.period != fo.f * s) (hd 0x0A11)
    <|> failIf (fo.overlapD == 0 || 4 < fo.overlapD) (hd 0x0A12)
    <|> failIf (fo.e == 0 || fo.overlapD * fo.f < fo.e) (hd 0x0A13)
    <|> failIf ((List.range 3).any (fun m => if m < fo.rated then fo.listed m != 0 else fo.listed m < minSpacing fo.log2G m))
        (hd 0x0A15)
    <|> failIf (fo.holdLead * s < 90 * fo.holdHops + 256) (hd 0x0A16)

/-! ### Bundles (04 R123, Table 4.1) and core-state rows as the folio gives them (Table 10.5) -/

/-- Bundle b of a core's program. -/
def bundleOf (row : Nat → RowData) (c : CoreRec) (b : Nat) : Nat :=
  ((row (c.codeRow + b / 16)).toNat >>> (256 * (b % 16))) % 2 ^ 256
/-- The bundles of a core's program-store rows. -/
def bundlesOf (row : Nat → RowData) (c : CoreRec) : List Nat :=
  (List.range (16 * min 512 c.codeRows)).map (bundleOf row c)

/-- 32-byte item k of core-state row `r`, in the order of the twelve rows (Table 10.5). -/
def stateItem (row : Nat → RowData) (c : CoreRec) (r k : Nat) : Nat :=
  let p := if r < 2 then r else r - 2
  ((row (c.stateRow + p)).toNat >>> (256 * (k % 16))) % 2 ^ 256
def ringOf (row : Nat → RowData) (c : CoreRec) (k : Nat) : Nat := stateItem row c (k / 16) k
def ddOf (row : Nat → RowData) (c : CoreRec) (k : Nat) : DmaEntry := ⟨k, BitVec.ofNat 256 (stateItem row c (4 + k / 16) k), 0, 0, 0⟩
def tdRec (row : Nat → RowData) (c : CoreRec) (k : Nat) : Td := tdOf (stateItem row c (0xC + k / 16) k)

/-- Whether a span of rows lies in a core's own pad, or its own pad or store. -/
def spanOwn (core base rows : Nat) (store : Bool) : Bool :=
  let last := base + rows - 1
  graValid base && graValid last && graSpace base == graSpace last && graCluster base == core / 8 &&
    graCluster last == core / 8 &&
    ((graSpace base == 0 && graCore base == core % 8 && graCore last == core % 8) || (store && graSpace base == 1))

/-! ### 0x0A20: invalid bundles (R122, R130, R137, R163, R195, R353) -/

def mxBad (row : Nat → RowData) (c : CoreRec) (m : Nat) : Bool :=
  let ring := fun k => ringOf row c k
  match bits m 63 60 with
  | 0 => m != 0
  | 1 =>
    let w := bits m 59 56
    let a := bits m 55 52
    let r := ring (bits m 49 45)
    !mxPairOk w a || (bitAt m 51 && (a == 3 || a == 4)) || bits m 24 0 != 0 ||
      (bitAt m 50 && (ringSlotRows r != mxImageRows w || !(ringKind r == 1 || ringKind r == 2) ||
        !spanOwn c.core (ringBase r) (ringSlots r * ringSlotRows r) true))
  | 2 =>
    let r := ring (bits m 30 26)
    bits m 59 58 == 3 || 4096 < bits m 47 35 || bits m 5 0 != 0 ||
      (bitAt m 31 && (bits m 34 32 != 0 || !(ringKind r == 1 || ringKind r == 2) ||
        !spanOwn c.core (ringBase r) (ringSlots r * ringSlotRows r) false))
  | _ => true

/-- The causes that R137 lists; a field that an operation does not use is none of them. -/
def sxBad (x : Nat) : Bool :=
  let op := bits x 47 42
  let dd := bits x 37 33
  let imm := bits x 22 0
  match op with
  | 0x00 => x != 0
  | 0x01 | 0x02 | 0x03 | 0x04 | 0x05 | 0x06 | 0x07 | 0x08 | 0x09 | 0x0A | 0x0B | 0x0C | 0x0D | 0x0E | 0x13 => false
  | 0x10 | 0x11 => 5 < imm % 8 || dd == 0 || 7 < dd
  | 0x12 => imm / 16 != 0
  | 0x14 => imm / 128 != 0
  | 0x20 => bits x 8 0 != 0
  | _ => true

/-- The descriptor an operand's encoding names: a register has none. -/
def opdTd (row : Nat → RowData) (c : CoreRec) (o : Nat) : Option Td := if 32 ≤ o then some (tdRec row c (o - 32)) else none

/-- The iteration space of a VX slot as its descriptors fix it: N0, and the count of outer indices (R145). -/
def vxExtent (row : Nat → RowData) (c : CoreRec) (v : Nat) : Nat × Nat :=
  let opd := fun o => match opdTd row c o with | some t => VxOpd.ten t 0 | none => VxOpd.reg o
  let op := bits v 63 58
  let (n0, n1, n2, n3) := vxSpace op (if bits v 48 47 = 1 then 256 else 128) (opd (bits v 46 41)) (opd (bits v 40 35)) (opd (bits v 34 29))
    (opd (bits v 28 23)) (vxUses op (bits v 22 19))
  (n0, n1 * n2 * n3)

def vxBad (row : Nat → RowData) (c : CoreRec) (v : Nat) : Bool :=
  let op := bits v 63 58
  let ct := bits v 48 47
  let fn := bits v 22 19
  let dst := bits v 46 41
  let a := bits v 40 35
  let b := bits v 34 29
  let cc := bits v 28 23
  let ec := if ct = 1 then 256 else 128
  if op = 0 then v != 0
  else if 0x10 < op then true
  else
    let (_, useB, useC) := vxUses op fn
    let opds := if op = 0x0D then [] else [some a, if useB then some b else none, if useC then some cc else none].filterMap id
    let tds := ((if op = 0x0B then [] else [dst]) ++ opds).filterMap (opdTd row c)
    let (n0, outer) := vxExtent row c v
    let results := if op = 0x0F then n0 / 32 * outer else outer
    bits v 18 0 != 0 || (!useB && b != 0) || (!useC && cc != 0) || (op == 0x0D && 32 ≤ a) || ct == 3 || !vxTyOk op ct ||
      -- a TYPE of no element type is the descriptor's fault, 0x0A21
      !vxFnOk op fn || tds.any (fun t => decide (t.ty ≤ 9) && !vxTypeOk t.ty ct) || (op == 0x0B && (8 ≤ dst || dst == 0)) ||
      ((op == 0x0B || op == 0x0C) && (32 ≤ a || 32 ≤ b)) ||
      (dst < 32 && op != 0x0B && op != 0x0E && op != 0x0F && 1 < cdiv n0 ec * outer) ||
      (dst < 32 && (op == 0x0E || op == 0x0F) && ec < results) ||
      (op == 0x10 && (match opdTd row c a with | some t => t.loc != 2 | none => true)) ||
      (op == 0x0F && (n0 % 32 != 0 || (match opdTd row c dst with
        | some t => t.ty != (if fn = 0 then 8 else 9) | none => false))) ||
      (op == 0x09 && fn == 1 && (n0 % 32 != 0 || (match opdTd row c b with
        | some t => !(t.ty == 8 || t.ty == 9) | none => false)))

def gxBad (row : Nat → RowData) (c : CoreRec) (g : Nat) : Bool :=
  let op := bits g 31 26
  match op with
  | 0 => g != 0
  | 1 | 2 | 3 => bits g 25 0 != 0
  | 4 => bits g 21 0 != 0
  | 5 => bits g 25 22 != 0 || bits g 16 0 != 0 || ringKind (ringOf row c (bits g 21 17)) != 1
  | 6 | 7 => bits g 25 17 != 0
  | _ => true

def dxBad (row : Nat → RowData) (c : CoreRec) (x : Nat) : Bool :=
  match bits x 47 44 with
  | 0 => x != 0
  | 1 => bits x 24 0 != 0 || ddOpc (ddOf row c (bits x 41 35)) == 0
  | _ => true

/-- The gates of a stretch of bundles: none, with its length; or the bundles before the first gate, from the last gate on,
the count of gates, and whether every gap between them is G bundles (R353). -/
inductive GateSpan where
  | plain (n : Nat)
  | gates (pre post count : Nat) (ok : Bool)
  deriving DecidableEq, Repr

def GateSpan.then (g : Nat) : GateSpan → GateSpan → GateSpan
  | .plain a, .plain b => .plain (a + b)
  | .plain a, .gates p q n o => .gates (a + p) q n o
  | .gates p q n o, .plain b => .gates p (q + b) n o
  | .gates p q n o, .gates p2 q2 n2 o2 => .gates p q2 (n + n2) (o && o2 && q + p2 == g)
/-- A stretch run `k` times, k at least 1. -/
def GateSpan.times (g k : Nat) : GateSpan → GateSpan
  | .plain a => .plain (a * k)
  | .gates p q n o => .gates p q (n * k) (o && (k ≤ 1 || q + p == g))

/-- An open loop of the walk: counter, END, COUNT and the span before its body. -/
abbrev WalkLoop := Nat × Nat × Nat × GateSpan

/-- Loops that end at a bundle close. -/
def closeWalk (g b : Nat) : Nat → List WalkLoop → GateSpan → List WalkLoop × GateSpan
  | 0, st, acc => (st, acc)
  | n + 1, st, acc => match st with
    | (_, e, k, before) :: t => if e = b then closeWalk g b n t (GateSpan.then g before (acc.times g k)) else (st, acc)
    | [] => (st, acc)

/-- The walk over the iteration body, FIRST to LAST: the failing bundle, or the span. -/
def walk (g last : Nat) : List (Nat × Nat) → List WalkLoop → GateSpan → Nat ⊕ GateSpan
  | [], _, acc => .inr acc
  | (b, w) :: t, st, acc =>
    let one := if bits (bGx w) 31 26 = 1 then GateSpan.gates 0 1 1 true else .plain 1
    let acc := GateSpan.then g acc one
    let x := bSx w
    if bits x 47 42 = 0x20 then
      let lc := bits x 41 38
      let e := bits x 37 25
      let k := bits x 24 9
      if k = 0 ∨ e ≤ b ∨ last < e ∨ st.any (fun l => l.2.1 < e) ∨ 16 ≤ st.length then .inl b
      else walk g last t ((lc, e, k, acc) :: st) (.plain 0)
    else
      let (st, acc) := closeWalk g b 17 st acc
      walk g last t st acc

/-- The first LOOP of a program that is not nested in the loops open there, takes the counter of one, or opens a seventeenth (04 R130). Open
loops are counters with their END. -/
def nestBad : List (Nat × Nat) → List (Nat × Nat) → Option Nat
  | [], _ => none
  | (b, w) :: t, st =>
    let x := bSx w
    if bits x 47 42 = 0x20 then
      let lc := bits x 41 38
      let e := bits x 37 25
      if st.any (fun l => l.2 < e || l.1 == lc) ∨ 16 ≤ st.length then some b else nestBad t ((lc, e) :: st)
    else nestBad t (st.filter (fun l => l.2 != b))

/-- The failing bundle of a core's program, if any. -/
def progBad (row : Nat → RowData) (fo : Folio) (c : CoreRec) : Option Nat :=
  let bs := (bundlesOf row c).zipIdx
  match bs.find? (fun x => mxBad row c (bMx x.1) || vxBad row c (bVx x.1) || sxBad (bSx x.1) || gxBad row c (bGx x.1) ||
      dxBad row c (bDx x.1) ||
      (bits (bSx x.1) 47 42 == 0x20 && (bits (bSx x.1) 24 9 == 0 || bits (bSx x.1) 37 25 ≤ x.2 ||
        bits (bSx x.1) 37 25 < c.first || c.last < bits (bSx x.1) 37 25))) with
  | some x => some x.2
  | none =>
    let all := bs.map (fun x => (x.2, x.1))
    match nestBad all [] with
    | some b => some b
    | none =>
    -- a body that is no stretch of the loaded bundles is the CORE record's fault, 0x0A23
    if c.last < c.first ∨ 16 * c.codeRows ≤ c.last then none else
    match walk (2 ^ fo.log2G) c.last (all.filter (fun x => decide (c.first ≤ x.1 ∧ x.1 ≤ c.last))) [] (.plain 0) with
    | .inl b => some b
    | .inr (.gates 0 q n true) => if q = 2 ^ fo.log2G ∧ n = fo.f then none else some c.first
    | .inr _ => some c.first

def checkBundles (row : Nat → RowData) (fo : Folio) : Option Fail :=
  let secs := folioSecs row
  fo.cores.findSome? (fun c => (progBad row fo c).map (fun b => (0x0A20, secIdx secs 3, b)))

/-! ### 0x0A21: invalid descriptors (R147, R163, R196, R237, Tables 9.4 and 10.9) -/

/-- Lane offsets, modulo the row's elements, that a dimension of extent n and lane stride l adds. -/
def laneSet (per n l : Nat) (s : List Nat) : List Nat :=
  (List.range per).filter (fun x => s.any (fun a => (List.range (min n per)).any (fun i => (a + i * l) % per == x)))

/-- R147: the elements of every step lie in one row, and the type holds at least E_c elements per row. -/
def tdStepsOk (t : Td) (ec : Nat) : Bool :=
  let per := vxPerRow t.ty
  let s := laneSet per t.n3 t.l3 (laneSet per t.n2 t.l2 (laneSet per t.n1 t.l1 [t.lane0 % per]))
  decide (ec ≤ per) && s.all (fun a =>
    (List.range (min (t.n0 / ec) per)).all (fun k => decide ((a + k * ec) % per + ec ≤ per)) &&
    (t.n0 % ec == 0 || decide ((a + t.n0 / ec * ec) % per + t.n0 % ec ≤ per)))

def tdBad (t : Td) (ec : Nat) : Bool :=
  3 < t.loc || 9 < t.ty || t.n0 == 0 || t.n1 == 0 || t.n2 == 0 || t.n3 == 0 || t.resv != 0 || (t.loc == 2 && t.ty != 0) ||
    !tdStepsOk t ec

/-- The descriptors that a VX slot names, each as far as the operation steps it (R147): its number, the descriptor, and the elements of a
step. RED and BSCALE write DST element by element; a block-scaled CVT reads one scale for 32 elements (R156 to R158). -/
def vxTds (row : Nat → RowData) (c : CoreRec) (v : Nat) : List (Nat × Td × Nat) :=
  let op := bits v 63 58
  let ec := if bits v 48 47 = 1 then 256 else 128
  let one := fun (o e : Nat) (f : Td → Td) => if 32 ≤ o then [(o - 32, f (tdRec row c (o - 32)), e)] else []
  let dst := one (bits v 46 41) (if op = 0x0E ∨ op = 0x0F then 1 else ec) id
  if op = 0 ∨ op = 0x0B then []
  else if op = 0x0D then dst
  else
    let scaled := op = 0x09 ∧ bits v 22 19 = 1
    dst ++ one (bits v 40 35) ec id ++
      (if scaled then one (bits v 34 29) (ec / 32) (fun t => { t with n0 := (vxExtent row c v).1 / 32 }) else one (bits v 34 29) ec id) ++
      one (bits v 28 23) ec id

/-- A tensor descriptor that a vector operation names and that is invalid. -/
def tdsBad (row : Nat → RowData) (c : CoreRec) : Option Nat :=
  (bundlesOf row c).findSome? (fun w => ((vxTds row c (bVx w)).find? (fun x =>
    (tdRec row c x.1).n0 == 0 || tdBad x.2.1 x.2.2)).map (fun x => x.1))

/-- A ring that is named and invalid (R196). -/
def ringBad (fo : Folio) (row : Nat → RowData) (coord : Nat) (c : CoreRec) (k : Nat) : Bool :=
  let r := ringOf row c k
  ringKind r == 0 || ringSlots r < 3 || ringSlotRows r == 0 || bits r 174 160 != 0 || bits r 127 0 != 0 ||
    ((ringKind r == 1 || ringKind r == 2) && !spanOwn c.core (ringBase r) (ringSlots r * ringSlotRows r) true) ||
    (ringKind r == 1 && bits r 201 175 != 0) || 576 ≤ ringPeerCore r ||
    (ringKind r == 3 && ringPeerChip r == coord && (match fo.cores.find? (fun p => p.core == ringPeerCore r) with
      | some p => let q := ringOf row p (ringPeerRing r)
                  !(ringKind q == 2 && ringSlots q == ringSlots r && ringSlotRows q == ringSlotRows r)
      | none => true))

def ddBad (fo : Folio) (row : Nat → RowData) (coord : Nat) (c : CoreRec) (e : DmaEntry) : Bool :=
  let opc := ddOpc e
  let sr := ringOf row c (ddSring e)
  let dr := ringOf row c (ddDring e)
  let dk := ringKind dr
  opc != 0 && (6 < opc || 3 < ddSkew e || bitAt e.d.toNat 236 || bitAt e.d.toNat 100 || bits e.d.toNat 79 0 != 0 ||
    (ddSkew e != 0 && (!(opc == 1 || opc == 3 || opc == 6) || ddSre e || ddSstr e != 1 || ddDstr e != 1)) ||
    (ddSre e && (!(ringKind sr == 1 || ringKind sr == 2) || ddSstr e != 1 || ringBad fo row coord c (ddSring e) ||
      ddRows e % ringSlotRows sr != 0)) ||
    (ddDre e && (!(if opc = 3 then dk == 3 else if opc = 1 ∨ opc = 2 ∨ opc = 4 then dk == 1 else true) || ddDstr e != 1 ||
      ringBad fo row coord c (ddDring e) || ddTotal e % ringSlotRows dr != 0 ||
      (ddChan e == 1 && ddChip e != coord))) ||
    (ddChan e == 1 && 3 ≤ opc && fo.quota 0 c.core == 0))

/-- Rings that bundles name: PUBLISH, and ring-mode LOAD and FEED. -/
def namedRings (row : Nat → RowData) (c : CoreRec) : List Nat :=
  (bundlesOf row c).flatMap (fun w =>
    (if bits (bGx w) 31 26 = 5 then [bits (bGx w) 21 17] else []) ++
    (if bits (bMx w) 63 60 = 1 ∧ bitAt (bMx w) 50 then [bits (bMx w) 49 45] else []) ++
    (if bits (bMx w) 63 60 = 2 ∧ bitAt (bMx w) 31 then [bits (bMx w) 30 26] else []))

/-- The destination row of hop k: DST with CLUSTER and CORE replaced (09 R321). -/
def hopDst (fo : Folio) (m : MoverDesc) (i k : Nat) : Nat :=
  let g := strideRow (mdDst m) i (mdDstr m)
  if k = 0 then g
  else match fo.hop (mdCtab m) k with
    | some h => mkGra (graSpace g) (h.core / 8) (if graSpace g = 1 then 0 else h.core % 8) (graRow g)
    | none => g
/-- The destinations of a descriptor. -/
def mdDests (m : MoverDesc) : Nat := if mdOpc m = 2 then mdHops m else 1

def mdBad (fo : Folio) (m : MoverDesc) : Bool :=
  let n := match fo.entries[mdEntry m]? with
    | some e => if mdEntry m = 0 then cdiv fo.total 512 else e.rows
    | none => 0
  23 < mdMover m || fo.entries.length ≤ mdEntry m || n < mdRow0 m + mdRows m ||
    (match mdOpc m with
      | 1 => mdHops m != 0 || mdCtab m != 0
      | 2 => mdHops m < 2 || 16 < mdHops m ||
          (List.range (mdHops m - 1)).any (fun k => (fo.hop (mdCtab m) (k + 1)).isNone)
      | _ => true)

def chainBad (fo : Folio) (h : ChainRec) : Bool :=
  h.hop == 0 || 15 < h.hop || 575 < h.core || 1 < (fo.chains.filter (fun x => x.ctab == h.ctab && x.hop == h.hop)).length

def checkDescs (row : Nat → RowData) (coord : Nat) (fo : Folio) : Option Fail :=
  let secs := folioSecs row
  let rows := secIdx secs 3
  fo.cores.findSome? (fun c =>
      (tdsBad row c).map (fun k => (0x0A21, rows, k))
        <|> ((List.range 128).find? (fun k => ddBad fo row coord c (ddOf row c k))).map (fun k => (0x0A21, rows, k))
        <|> ((namedRings row c).find? (ringBad fo row coord c)).map (fun k => (0x0A21, rows, k)))
    <|> firstBad 0x0A21 (secIdx secs 9) fo.plan (mdBad fo)
    <|> firstBad 0x0A21 (secIdx secs 10) fo.chains (chainBad fo)

/-! ### 0x0A22 and 0x0A23: fixed GRAs and CORE records (R76, R344, Table 10.9) -/

/-- Whether a folio's allocation holds a row. -/
def Folio.holds (fo : Folio) (g : Nat) : Bool := graValid g && fo.clusters.contains (graCluster g)

/-- Whether a side of a descriptor is fixed at load: no DX.RUN adds a register to it, or one adds S0 (R76, R187; DEDUCED, log entry 70).
`hi` and `lo` are the place of the register in the slot. -/
def ddFixed (row : Nat → RowData) (c : CoreRec) (k hi lo : Nat) : Bool :=
  let runs := ((bundlesOf row c).map bDx).filter (fun x => bits x 47 44 == 1 && bits x 41 35 == k)
  runs.isEmpty || runs.any (fun x => bits x hi lo == 0)

/-- A DMA descriptor with a row fixed at load that is invalid, out of its requester's reach (02 Table 2.7) or outside the allocation; of a
row on another device, validity and reach alone are judged. -/
def ddRowsBad (fo : Folio) (row : Nat → RowData) (coord : Nat) (c : CoreRec) (k : Nat) : Bool :=
  let e := ddOf row c k
  let opc := ddOpc e
  let own := fun g => ownRow c.core g && fo.holds g
  let far := fun g => graValid g && graSpace g < 2 && (ddChip e != coord || fo.holds g)
  let srcRows := (List.range (if ddSkew e = 0 then ddRows e else cdiv (ddRows e) (skewQ (ddSkew e)))).map
    (fun i => strideRow (ddSrc e) i (ddSstr e))
  let dstRows := (List.range (ddTotal e)).map (fun i => strideRow (ddDst e) i (ddDstr e))
  let scales := if ddSkew e = 2 then (List.range (cdiv (ddRows e) 64)).map (fun i => (ddSrc e + ddScloff e + i) % 2 ^ 32) else []
  opc != 0 &&
    ((opc != 2 && !ddSre e && ddFixed row c k 34 30 && (srcRows ++ scales).any (fun g => !(if opc = 4 then far g else own g))) ||
     (!ddDre e && ddFixed row c k 29 25 && dstRows.any (fun g => !(if opc = 3 ∨ 5 ≤ opc then far g else own g))))

/-- The first and the last row of a tensor from a base row (R144): an element's row grows with each index or falls with it. -/
def tdEnds (t : Td) (base : Nat) : Int × Int :=
  let per : Int := vxPerRow t.ty
  let span := [(t.n0, (1 : Int)), (t.n1, t.r1 * per + t.l1), (t.n2, t.r2 * per + t.l2), (t.n3, t.r3 * per + t.l3)].map
    (fun x => ((x.1 - 1 : Nat) : Int) * x.2)
  let at0 : Int := base * per + t.lane0
  ((span.foldl (fun a x => a + min 0 x) at0) / per, (span.foldl (fun a x => a + max 0 x) at0) / per)

/-- A tensor in memory with base register S0 whose rows leave the core's own pad or its cluster's store. -/
def tdRowsBad (fo : Folio) (core : Nat) (t : Td) : Bool :=
  let (lo, hi) := tdEnds t t.roff
  let ok := fun (r : Int) => decide (0 ≤ r) && tdRowOk core t.loc r.toNat && fo.holds r.toNat
  t.loc < 2 && t.bsreg == 0 && !(ok lo && ok hi)

/-- The rows of a FEED from a row on, in a layout class: those of its vectors, and their side-band rows in the 64-byte class (03 R101). -/
def feedRows (base voff count cls : Nat) : List Nat :=
  ((List.range count).flatMap (fun i => vecRow cls (voff + i) :: (if cls = 1 then [sideRow (voff + i)] else []))).eraseDups.map (fun r => base + r)

/-- The layout classes that the LOADs of a program give its FEEDs; the class of the planes at launch where it has none. -/
def feedClasses (ws : List Nat) : List Nat :=
  match (((ws.map bMx).filter (fun m => bits m 63 60 == 1)).map (fun m => mxClass (bits m 55 52))).eraseDups with
  | [] => [0]
  | l => l

/-- The rows of a FEED that its bundle fixes: those that it reads in every class that the program's LOADs may give it (log entry 70). -/
def feedFixed (classes : List Nat) (m : Nat) : List Nat :=
  let rows := feedRows (bits m 25 6) (bits m 34 32) (bits m 47 35)
  match classes with
  | [] => []
  | c :: t => (rows c).filter (fun g => t.all (fun k => (rows k).contains g))

/-- A bundle that names a row fixed at load, by S0 as its base, that is invalid, out of reach or outside the allocation: an MX operation,
an LDP, or a semaphore operation, whose offset alone names no cluster-store row. -/
def bundleRowsBad (fo : Folio) (core : Nat) (classes : List Nat) (w : Nat) : Bool :=
  let m := bMx w
  let sx := bSx w
  let gx := bGx w
  let own := fun (store : Bool) (g : Nat) => fo.holds g && (tdRowOk core 0 g || (store && tdRowOk core 1 g))
  (match bits m 63 60 with
    | 1 => !bitAt m 50 && bits m 49 45 == 0 && (List.range (mxImageRows (bits m 59 56))).any (fun i => !own true (bits m 44 25 + i))
    | 2 => !bitAt m 31 && bits m 30 26 == 0 && (feedFixed classes m).any (fun g => !own false g)
    | _ => false) ||
  (bits sx 47 42 == 0x13 && bits sx 32 28 == 0 && 8192 ≤ bits sx 22 6) ||
  ((bits gx 31 26 == 6 || bits gx 31 26 == 7) && bits gx 16 12 == 0)

/-- A ring whose slots, fixed at load, are invalid rows or rows outside the allocation; a mirror's lie on its peer's device. -/
def ringRowsBad (fo : Folio) (coord : Nat) (r : Nat) : Bool :=
  let ends := [ringBase r, ringBase r + (ringSlots r * ringSlotRows r - 1)]
  ringKind r != 0 && ends.any (fun g => !graValid g || 1 < graSpace g ||
    (!(ringKind r == 3 && ringPeerChip r != coord) && !fo.holds g))

/-- A mover descriptor whose DST is an invalid row, or, where it moves rows, one outside the allocation; the rows that strides and hops form
from it are 0x0A25's (Table 10.9; log entry 70). -/
def planGraBad (fo : Folio) (m : MoverDesc) : Bool := !graValid (mdDst m) || (mdRows m != 0 && !fo.holds (mdDst m))

def checkGras (row : Nat → RowData) (coord : Nat) (fo : Folio) : Option Fail :=
  let secs := folioSecs row
  let per : (CoreRec → Option Nat) → Option Fail := fun f => fo.cores.findSome? (fun c => (f c).map (fun k => (0x0A22, secIdx secs 3, k)))
  firstBad 0x0A22 (secIdx secs 6) fo.semas (fun g => !fo.holds g || graSpace g != 1)
    <|> per (fun c => let ws := bundlesOf row c
          (ws.zipIdx.find? (fun x => bundleRowsBad fo c.core (feedClasses ws) x.1)).map (fun x => x.2))
    <|> per (fun c => (List.range 128).find? (ddRowsBad fo row coord c))
    <|> per (fun c => (bundlesOf row c).findSome? (fun w =>
          ((vxTds row c (bVx w)).find? (fun x => tdRowsBad fo c.core x.2.1)).map (fun x => x.1)))
    <|> per (fun c => (List.range 32).find? (fun k => ringRowsBad fo coord (ringOf row c k)))
    <|> firstBad 0x0A22 (secIdx secs 9) fo.plan (planGraBad fo)

def coreBad (fo : Folio) (c : CoreRec) : Bool :=
  !fo.clusters.contains (c.core / 8) || 1 < (fo.cores.filter (fun x => x.core == c.core)).length || c.last < c.first ||
    16 * c.codeRows ≤ c.last || c.codeRows == 0 || 512 < c.codeRows

/-! ### 0x0A24: NET, SLOTS and SEQMAP records -/

def isPow2 (n : Nat) : Bool := (List.range 17).any (fun k => n == 2 ^ k)

def netBad (fo : Folio) (r : NetRec) : Bool :=
  match r with
  | .resv load net cl port chan offset period len =>
    1 < net || 71 < cl || 4 < port || (load && 255 < chan) || !isPow2 period || period < 8 || 2 ^ fo.log2G < period ||
      len == 0 || period < len || period ≤ offset
  | .chan net _ src dst credit =>
    1 < net || 575 < src || 575 < dst || credit == 0 || 16 < credit ||
      16 < fo.nets.foldl (fun a x => match x with | .chan n _ _ t k => if n = net ∧ t = dst then a + k else a | _ => a) 0
  | .flow net src dst _ =>
    1 < net || !(src ≤ 575 || (0x400 ≤ src && src ≤ 0x41A)) || !(dst ≤ 71 || (0x400 ≤ dst && dst ≤ 0x41A))
  | .sum cl _ mask out fmt => !fo.clusters.contains cl || mask == 0 || 4 < out || 1 < fmt
  | .tree cl tree out leaf rings =>
    !fo.clusters.contains cl || 31 < tree || (out == 0 && leaf == 0) || rings.any (fun k => 31 < k && k != 0xFF)
  | .bad => true

def slotBad (r : SlotRec) : Bool :=
  match r with
  | .demand port net kind _ => 11 < port || 1 < net || 1 < kind
  | .transit _ pin pout net => 11 < pin || 11 < pout || 1 < net
  | .bad => true

def seqBad (row : Nat → RowData) (fo : Folio) (r : SeqRec) : Bool :=
  let ring := fun core k => match fo.cores.find? (fun c => c.core == core) with
    | some c => ringKind (ringOf row c k)
    | none => 0
  match r with
  | .coreSeq core mask => !fo.clusters.contains (core / 8) || mask / 2 ^ fo.sequences != 0
  | .pull seq _ core k gate => fo.sequences ≤ seq || fo.e < gate || 31 < k || ring core k != 2
  | .push seq _ core k gate => fo.sequences ≤ seq || fo.e < gate || 31 < k || ring core k != 1
  | .bad => true

/-- A SUMWRITE or MCAST that a bundle runs whose tag or tree has no entry at its source router. -/
def noEntry (row : Nat → RowData) (fo : Folio) (c : CoreRec) (w : Nat) : Bool :=
  let x := bDx w
  let e := ddOf row c (bits x 41 35)
  bits x 47 44 == 1 &&
    ((ddOpc e == 5 && !fo.nets.any (fun r => match r with | .sum cl t _ _ _ => cl == c.core / 8 && t == ddRtag e | _ => false)) ||
     (ddOpc e == 6 && !fo.nets.any (fun r => match r with | .tree cl t _ _ _ => cl == c.core / 8 && t == ddTree e | _ => false)))

def checkNets (row : Nat → RowData) (fo : Folio) : Option Fail :=
  let secs := folioSecs row
  firstBad 0x0A24 (secIdx secs 4) fo.nets (netBad fo)
    <|> firstBad 0x0A24 (secIdx secs 5) fo.slots slotBad
    <|> firstBad 0x0A24 (secIdx secs 7) fo.seqmap (seqBad row fo)
    <|> fo.cores.findSome? (fun c => ((bundlesOf row c).zipIdx.find? (fun x => noEntry row fo c x.1)).map
        (fun x => (0x0A24, secIdx secs 3, x.2)))

/-! ### 0x0A25: the load plan and the entry list -/

/-- Whether a row that a mover writes is allowed: in the allocation, and special rows only from the core's own folio rows. -/
def planRowOk (fo : Folio) (entry src g : Nat) : Bool :=
  fo.holds g && (graSpace g != 3 || (match fo.cores.find? (fun c => c.core == graCoreId g) with
    | some c =>
      let r := graRow g
      entry == 0 && (if r < 0x200 then decide (r < c.codeRows) && src == c.codeRow + r
        else let k := r - 0x10000
          if k < 2 then src == c.stateRow + k else if 4 ≤ k ∧ k < 14 then src == c.stateRow + k - 2 else false)
    | none => false))

/-- The rows a descriptor writes, with their source rows. -/
def planWrites (fo : Folio) (m : MoverDesc) : List (Nat × Nat) :=
  (List.range (mdRows m)).flatMap (fun i => (List.range (mdDests m)).map (fun k => (mdRow0 m + i, hopDst fo m i k)))

def checkPlan (d : Dev) (row : Nat → RowData) (fo : Folio) : Option Fail :=
  let secs := folioSecs row
  let loadChan := fun (ch : Nat) => fo.nets.any (fun r => match r with | .resv true _ _ _ c _ _ _ => c == ch | _ => false)
  firstBad 0x0A25 (secIdx secs 9) fo.plan (fun m =>
      (planWrites fo m).any (fun w => !planRowOk fo (mdEntry m) w.1 w.2) || !loadChan (mdChan m) ||
        (mdOpc m == 2 && (List.range (mdHops m - 1)).any (fun k => match fo.hop (mdCtab m) (k + 1) with
          | some h => !loadChan h.chan | none => false)))
    <|> firstBad 0x0A25 (secIdx secs 2) fo.cores (fun c =>
        let written := fun g => fo.plan.any (fun m => (planWrites fo m).any (fun w => w.2 == g))
        let base := mkGra 3 (c.core / 8) (c.core % 8) 0
        (List.range c.codeRows).any (fun r => !written (base + r)) ||
          [0, 1, 4, 5, 6, 7, 8, 9, 10, 11, 12, 13].any (fun k => !written (base + 0x10000 + k)))
    <|> firstBad 0x0A25 (secIdx secs 8) fo.entries (fun e =>
        match d.entry? e.key with | some x => decide (e.key ≠ 0) && x.digest != e.digest | none => false)

/-! ### 0x0A30 and 0x0A31: resources and parked halves (R345, R232, R238, R251, R256, R277; 11 R371, R373) -/

/-- The reservations of folios on router outputs: network, cluster, port, offset, period, length, and whether a load's. -/
def resvsOf (fo : Folio) : List (Nat × Nat × Nat × Nat × Nat × Nat × Bool) :=
  fo.nets.filterMap (fun r => match r with
    | .resv load net cl port _ o p l => some (net, cl, port, o, p, l, load)
    | _ => none)

/-- Whether two reservations own a common cycle of one output; periods are powers of two. -/
def resvMeet (a b : Nat × Nat × Nat × Nat × Nat × Nat × Bool) : Bool :=
  let (na, ca, pa, oa, qa, la, _) := a
  let (nb, cb, pb, ob, qb, lb, _) := b
  na == nb && ca == cb && pa == pb &&
    (let q := min qa qb
     (List.range q).any (fun t => t % 8 != 7 &&
       (List.range (qa / q)).any (fun i => decide ((t + i * q + qa - oa % qa) % qa < la)) &&
       (List.range (qb / q)).any (fun i => decide ((t + i * q + qb - ob % qb) % qb < lb))))

/-- Whether any two elements of a list meet. -/
def anyPair {α : Type} (p : α → α → Bool) : List α → Bool
  | [] => false
  | a :: t => t.any (p a) || anyPair p t

/-- Express quota per link: whether a sum of all flows exceeds 120 flits (07 R238). -/
def quotaOver (d : Dev) (fos : List Folio) : Bool :=
  let uses := fos.flatMap (fun fo => fo.nets.flatMap (fun r => match r with
    | .flow net s t qx => (d.flowLinks s t).map (fun l => (net, l, qx))
    | _ => []))
  uses.any (fun u => 120 < uses.foldl (fun a v => if v.1 = u.1 ∧ v.2.1 = u.2.1 then a + v.2.2 else a) 0)

/-- Whether a resource of Table 10.8 cannot be granted beside the folios already loaded. -/
def resourceBad (d : Dev) (fo : Folio) (others : List Folio) : Bool :=
  let rs := resvsOf fo
  let run := rs.filter (fun r => !r.2.2.2.2.2.2)
  let load := rs.filter (fun r => r.2.2.2.2.2.2)
  let outs := others.flatMap resvsOf
  let all := fo :: others
  let sums := all.flatMap (fun f => f.nets.filterMap (fun r => match r with | .sum cl _ _ _ _ => some cl | _ => none))
  let trees := all.flatMap (fun f => f.nets.filterMap (fun r => match r with | .tree cl _ _ _ _ => some cl | _ => none))
  d.fld ⟨regAddr 14 0, 5, 5⟩ == 1 || fo.clusters.any (fun c => d.fld (fClState c) == 3) ||
    rs.any (fun r => 64 < ((rs ++ outs).filter (fun q => q.1 == r.1 && q.2.1 == r.2.1 && q.2.2.1 == r.2.2.1)).length) ||
    anyPair resvMeet run || anyPair resvMeet load || rs.any (fun r => outs.any (resvMeet r)) || quotaOver d all ||
    (List.range 72).any (fun c => 64 < sums.count c || 256 < trees.count c) ||
    4096 < all.foldl (fun a f => a + (streamsOf f.seqmap false).length) 0 || 72 < all.length

/-- Whether a folio uses routers or bridges of a parked half, or the compute is in full park (11 R371, R373; 13 R420). -/
def Folio.usesHalf (fo : Folio) (d : Dev) (half : Nat) : Bool :=
  fo.clusters.any (fun c => clHalf c == half) || fo.nets.any (fun r => match r with
    | .resv _ _ cl port _ _ _ _ => clHalf cl == half || (cl % 6 == 2 && port == 1) || (cl % 6 == 3 && port == 3)
    | .sum cl _ _ _ _ => clHalf cl == half
    | .tree cl _ _ _ _ => clHalf cl == half
    | .flow _ s t _ => (d.flowRouters s t).any (fun c => clHalf c == half)
    | _ => false)

def parkBad (d : Dev) (fo : Folio) : Bool :=
  match d.fld fPark with
  | 0 => false
  | 1 => fo.usesHalf d 0
  | 2 => fo.usesHalf d 1
  | _ => true

/-- The scheduled output buffers of a slice's entries on a port: 0 for a demand is refused (08 R277; Table 10.12). -/
def demandNoBuf (d : Dev) (fo : Folio) (sid : Nat) : Bool :=
  fo.slots.any (fun r => match r with
    | .demand port net _ _ =>
      let bufs := (List.range 64).filterMap (fun e =>
        let w0 := d.reg (txAddr port e 0)
        let w1 := d.reg (txAddr port e 1)
        if bitAt w0 31 ∧ bits w0 30 29 = net ∧ bits w1 11 0 = sid then some (bits w1 24 12) else none)
      bufs.any (fun b => b == 0)
    | _ => false)

/-- The checks of Table 10.9 in order, for a folio in rows of the library. `start` stands at a slice start. -/
def loadFail (d : Dev) (row : Nat → RowData) (rows : Nat) (fo : Folio) (others : List Folio)
    (start : Option StartCheck) : Option Fail :=
  let secs := folioSecs row
  checkLayout row rows fo <|> checkSig d row fo <|> checkVersion d row <|> checkGates d fo (start.any (fun c => c.setBad)) <|> checkBundles row fo
    <|> checkDescs row d.coord fo <|> checkGras row d.coord fo <|> firstBad 0x0A23 (secIdx secs 2) fo.cores (coreBad fo)
    <|> checkNets row fo <|> checkPlan d row fo
    <|> failIf (resourceBad d fo others || start.any (fun c => demandNoBuf d fo c.sid))
        (0x0A30, secIdx secs 1, noItem)
    <|> failIf (parkBad d fo) (0x0A31, secIdx secs 1, noItem)
    <|> failIf (start.any (fun c => c.sid == 0)) (0x0A32, 0xFF, noItem)

/-- A refusal by Table 10.9 is counted and kept, and its event sent (R347, R352). -/
def Dev.loadRefused (d : Dev) (f : Fail) : Dev :=
  let (code, sec, item) := f
  (((d.bump (regAddr 10 0x20C) 1).setReg (regAddr 10 0x210) (code <<< 16 + sec <<< 8)).setReg (regAddr 10 0x214) item).event
    10 0 [code, sec, item]

/-! ### FOLIO_COMMIT (12 R387; 09 R332, R334) -/

/-- A deposit is discarded: the entry leaves the directory. -/
def Dev.depositFail (d : Dev) (key : Nat) : Dev := (d.dropEntry key).event 9 8 [key]

/-- The ranges that a refusal by 0x0A02 carries, as Table 15.4 lays them out (15 R465). -/
def Dev.rangeData (d : Dev) : List Byte :=
  match d.sec.fw with
  | some w => bytesOf (toLe 2 w.folioMin.toNat ++ toLe 2 w.folioMax.toNat ++ toLe 4 w.tkMin.toNat ++ toLe 4 w.tkMax.toNat)
  | none => []

/-- The device coordinate carried in RESULT data (10 R347). -/
def Dev.coordData (d : Dev) : List Byte := bytesOf (toLe 2 d.coord)

/-- A commit of a deposit reads every block of the entry (R332). -/
def Dev.commitReads (d : Dev) (e : Entry) (read : CommitRead) : Dev :=
  let d := d.symbolsIn e read.fixed 0 e.rows
  (read.bad.filter (fun b => decide (b.row.toNat < e.rows))).foldl (fun d b => d.noteBad e.key (b.row.toNat * 8 + b.block.val)) d

/-- A deposit is refused: its entry is discarded, and the devices after this one in a pipeline are told (R332, R334). -/
def Dev.refuseDeposit (d : Dev) (h : MsgHdr) (x : Option Session) (e : Entry) (code item : Nat) (data : List Byte) : Dev :=
  let d := ((d.depositAudit x code [2, e.key]).depositFail e.key).depositAnswer h e.key code item data
  match e.nextDev with
  | some c => d.pipeSend (c, .commit e.key code)
  | none => d

/-- A commit verifies the digest, then for a folio the load checks; the entry becomes STORED. Of a pipeline, a device that has verified its
part passes the commit on, and its entry is STORED once every later device has verified its own (R332, R334, R346). -/
def Dev.folioCommit (d : Dev) (h : MsgHdr) (x : Option Session) (key : Nat) (codes : PipeCodes) (read : CommitRead) : Dev :=
  let none' := (d.depositAudit x 0x0C21 [2, key]).depositAnswer h key 0x0C21 noItem []
  match (d.entry? key).filter (fun e => e.depositing) with
  | some _ =>
    let d := (d.entry? key).elim d (fun e => d.commitReads e read)
    (match d.entry? key with
      | some e =>
        if e.pipeLen ≠ 0 ∧ codes.earlier ≠ 0 then d.refuseDeposit h x e codes.earlier.toNat noItem []
        else if !e.bad.isEmpty then
          ((d.bump (regAddr 9 0x20) e.bad.length).refuseDeposit h x e 0x0968 noItem []).loseBlocks e.parts e.bad (read.bad.flatMap (fun b => b.copy))
        else if sha384 e.bytes ≠ e.digest then d.refuseDeposit h x e 0x0962 noItem []
        else
          let fo := folioOf e.row
          match (if e.folio then loadFail d e.row e.rows fo [] none else none) with
          | some f => (d.loadRefused f).refuseDeposit h x e f.1 f.2.2 (if f.1 = 0x0A02 then d.rangeData ++ d.coordData else d.coordData)
          | none =>
            let d := match e.nextDev with | some c => d.pipeSend (c, .commit key 0) | none => d
            if 1 < e.pipeLen ∧ codes.later ≠ 0 then
              ((d.depositAudit x codes.later.toNat [2, key]).depositFail key).depositAnswer h key codes.later.toNat noItem []
            else
              ((d.updEntry key (fun e => { e with
                state := .stored, depositing := false, fo := if e.folio then some fo else none })).depositAudit x 0 [2, key]).depositAnswer
                h key 0 noItem []
      | none => d)
  | none => none'

def msgFolioCommit (h : MsgHdr) (key : BitVec 64) (codes : PipeCodes) (read : CommitRead) (s : State) : State :=
  s.onDev (fun d => d.depositMsg h true (fun x d => d.folioCommit h x key.toNat codes read))

end Sys2Proof.Machine
end

