-- ==== Sys2Proof/Machine/Clusters.lean ====
section
/-! DEFINITION. Kill, release and scrub of clusters (06 R223 to R227; 08 R296; 12 R389). -/

namespace Sys2Proof.Machine

/-! ### The counter rows of a core, as the management path reads them (04 Table 4.11; 03 Table 3.7; 05 section 8) -/

/-- Values of `w` bits each, the first lowest. -/
def packFields (w : Nat) (l : List Nat) : Nat := l.foldr (fun v a => v % 2 ^ w + a <<< w) 0

/-- What is left to move in the running descriptor: destination rows, or with SKEW the positions whose source row has not been taken for a
destination row yet (05 R190, R191, Table 5.11; DESIGN CHOICE, log entry 71). -/
def rowsLeft (e : DmaEntry) (r : DmaRun) : Nat :=
  match ddSkew e with
  | 0 => ddRows e - r.done
  | 2 => ddRows e - (64 * (r.done / 9) + 8 * min 8 (r.done % 9))
  | k => ddRows e - skewQ k * r.done

/-- One queue's field of row 0x1_0002 (05 Table 5.11). -/
def queueField (q : List DmaEntry) (r : DmaRun) : Nat :=
  match q with
  | e :: _ => (rowsLeft e r % 2 ^ 16) <<< 48 + (e.idx % 128) <<< 41 + 1 <<< 40 + q.length <<< 36 + (r.wait % 4) <<< 34
  | [] => 0

/-- Core-state row 0x1_0002 (05 Table 5.10). -/
def CoreSt.rowQueues (c : CoreSt) : RowData :=
  BitVec.ofNat 4096 (packFields 64 [queueField c.q0 c.r0, queueField c.q1 c.r1, queueField c.q2 c.r2, queueField c.q3 c.r3, c.outst.length])

/-- Core-state row 0x1_0003 (05 Table 5.12). -/
def CoreSt.rowDma (c : CoreSt) : RowData :=
  let waits := fun (m : List (Nat × Nat)) => packFields 32 ((List.range 32).map (fun k => mapGet (fun _ => 0) m k))
  BitVec.ofNat 4096 (waits c.dctr.fullWait + waits c.dctr.emptyWait <<< 1024 + c.dctr.dxWait.toNat <<< 2048 +
    c.dctr.bankLoss.toNat <<< 2112 + c.dctr.rowsMoved.toNat <<< 2176 + c.dctr.overflows.toNat <<< 2240 +
    c.dctr.underflows.toNat <<< 2272 + c.dctr.overRings.toNat <<< 2304 + c.dctr.underRings.toNat <<< 2336)

/-- Core-state row 0x1_000E (04 Table 4.11). -/
def CoreSt.rowIssue (c : CoreSt) : RowData :=
  BitVec.ofNat 4096 (packFields 64 [c.issue.bundles.toNat, c.issue.vxStall.toNat, c.issue.sxWait.toNat, c.issue.bankStall.toNat,
    c.issue.predOff.toNat])

/-- Core-state row 0x1_000F (03 Table 3.7): the slots are the frames in flight, in the order in which they began. -/
def CoreSt.rowTally (c : CoreSt) : RowData :=
  let sums := packFields 32 (((List.range 4).map (fun i => (c.tally.slots.getD i (0, 0)).2)))
  let frames := packFields 16 (((List.range 4).map (fun i => (c.tally.slots.getD i (0, 0)).1)))
  BitVec.ofNat 4096 (packFields 64 [c.tally.clip.toNat, c.tally.sat.toNat, c.tally.nan.toNat, c.tally.paired.toNat, c.tally.mxStall.toNat] +
    sums <<< 320 + frames <<< 448)

/-- A counter row of a core (03 R118; 04 R164; 05 R199), its words 0 where they cannot be read (14 Table 14.6); none for another row. -/
def Dev.counterRow (d : Dev) (g : Nat) : Option RowData :=
  let c := d.core (graCoreId g)
  let word := if d.hlth.bad.contains g then fun _ => some 0 else some
  if graSpace g = 3 then
    (match graRow g with
      | 0x10002 => word c.rowQueues
      | 0x10003 => word c.rowDma
      | 0x1000E => word c.rowIssue
      | 0x1000F => word c.rowTally
      | _ => none)
  else none

/-- The counter rows of a core. -/
def counterRows (core : Nat) : List Nat := [2, 3, 14, 15].map (coreStateGra core)

/-- A counter row is read: an error in it counts (14 Table 14.6). -/
def Dev.counterRead (d : Dev) (g : Nat) : Dev :=
  if (d.counterRow g).isNone then d
  else
    let d := if d.hlth.soft.contains g then d.bump (regAddr 14 0x14) 1 else d
    if d.hlth.bad.contains g then (d.bump (regAddr 14 0x18) 1).event 14 11 [g] else d

/-- A row is read through the row window: its errors count as in any read, a word of a pad or the accumulator file for its core, of a store for
core 0 of its cluster (05 R197; log entry 55). -/
def Dev.windowRead (d : Dev) (g : Nat) : Dev :=
  if !graValid g then d
  else if graSpace g < 3 then d.eccRead (graCoreId g) g
  else if (d.counterRow g).isSome then d.counterRead g
  else if d.hlth.soft.contains g then d.bump (regAddr 14 0x14) 1 else d

/-- A row as the MC reads it: the four counter rows of a core hold its counters, every other row its memory. -/
def State.mcRow (s : State) (g : Nat) : RowData := (s.dev.counterRow g).getD (readRow s.mem g)

/-! ### Clusters of a slice -/

/-- Whether the device is failed for compute (14 R440). -/
def Dev.failed (d : Dev) : Bool := d.fld ⟨regAddr 14 0, 5, 5⟩ == 1

/-- Clusters in a state whose SLICE is a slice. -/
def Dev.clustersIn (d : Dev) (st sid : Nat) : List Nat :=
  (List.range 72).filter (fun c => d.fld (fClState c) == st && d.fld (fClSlice c) == sid)

/-- What a core loses at once when its slice leaves it: its queues, its waits and every operation in progress (R223). -/
def CoreSt.halt (c : CoreSt) : CoreSt :=
  { c with
    issued := false, mxQ := [], feedRun := none, loading := none, loadRun := none, stream := [], vxQ := [], pendW := [], sxPend := [], q0 := [], q1 := [], q2 := [], q3 := [],
    r0 := {}, r1 := {}, r2 := {}, r3 := {}, outst := [], deferred := [], wait := .none, relQ := [], rewrite := none }

/-- Every core of a cluster halts. -/
def Dev.haltCluster (d : Dev) (cl : Nat) : Dev := (List.range 8).foldl (fun d k => d.updCore (cl * 8 + k) CoreSt.halt) d

/-- Packets whose last row was not granted yet when their cluster's generation is bumped: answered with STATUS 3 (08 R297). -/
def Dev.refuseDeferred (d : Dev) (cl : Nat) : Dev :=
  (List.range 8).foldl (fun d k => (d.core (cl * 8 + k)).deferred.foldl (fun d x =>
    match x.answer with | some (f, _) => d.ackRows (longHdr f) 3 1 | none => d) d) d

/-- A cluster begins to scrub: isolated, halted, and its generation bumped (R223, R224, R227; 08 R296). -/
def Dev.beginScrub (d : Dev) (cl : Nat) : Dev := (((d.put (fClState cl) 2).refuseDeferred cl).haltCluster cl).bumpGen cl

/-- The clusters assigned to a slice are isolated and begin to scrub; those that scrub for a load of it already are given their new
generation (R223, R227). -/
def Dev.releaseClusters (d : Dev) (sid : Nat) : Dev :=
  let own := match d.slice? sid with | some sl => (d.clustersIn 2 sid).filter sl.fo.clusters.contains | none => []
  own.foldl Dev.bumpGen ((d.clustersIn 1 sid).foldl Dev.beginScrub d)

/-! ### Kill (R223; 12 R389; 01 R47) -/

/-- The last complete frame plus one: every earlier frame's words have been emitted (01 R47). -/
def Slice.framesOut (sl : Slice) : Nat :=
  match (List.range (sl.framesDone.length + 1)).find? (fun n => !sl.framesDone.contains n) with
  | some n => n
  | none => sl.framesDone.length

/-- The last complete frame L, all ones for none. -/
def Slice.lastFrame (sl : Slice) : Nat := if sl.framesOut = 0 then 0xFFFFFFFFFFFFFFFF else sl.framesOut - 1

/-- The kill event for one session: PART 0, then for each core one message, or two without jumbo (12 R389). -/
def killParts (d : Dev) (sl : Slice) (jumbo : Bool) : List EventMsg :=
  let rows := fun (k : Nat) => (counterRows k).map (fun g => ((d.counterRow g).getD 0).toNat)
  let cores := sl.coresOf.flatMap (fun k => if jumbo then [k :: rows k] else [k :: (rows k).take 2, k :: (rows k).drop 2])
  let bodies := [sl.id, d.now, sl.lastFrame] :: cores
  bodies.zipIdx.map (fun (a, i) => { code := 0x0C89, ec := d.now, args := a, part := i, more := decide (i + 1 < bodies.length) })

/-- The kill event to every session that subscribes the Teller block. -/
def Dev.killEvent (d : Dev) (sl : Slice) : Dev :=
  let d := (sl.coresOf.flatMap counterRows).foldl Dev.counterRead (d.put ⟨regAddr 12 0x1C, 9, 9⟩ 1)
  let room := fun (x : Session) (n : Nat) => 4096 - x.evq.length - n
  let lost := d.tel.sessions.foldl (fun a x =>
    if x.takes 12 then a + ((killParts d sl x.jumbo).length - room x 0) else a) 0
  let parts := fun (x : Session) => killParts d sl x.jumbo
  let send := fun (x : Session) => (parts x).foldl (fun x e => queueEvent d.sendAt e x) x
  { d with tel := { d.tel with sessions := mapIf (fun x => x.takes 12) send d.tel.sessions } }.bump (regAddr 12 0x74) lost

/-- A load of a slice is dropped, with what its movers and chains hold. -/
def Dev.dropLoad (d : Dev) (sid : Nat) : Dev :=
  let d : Dev := { d with vault := { d.vault with
    loads := d.vault.loads.filter (fun l => l.slice != sid), chain := d.vault.chain.filter (fun c => c.slice != sid) } }
  d.put ⟨regAddr 9 0, 7, 4⟩ d.vault.loads.length

/-- A repair of a slice is dropped: its units stay to be repaired (14 Table 14.5). -/
def Dev.dropRepair (d : Dev) (sid : Nat) : Dev :=
  let rs := d.hlth.repairs.filter (fun r => r.slice == sid)
  let rows := rs.flatMap (fun r => r.rows)
  let sites := rs.flatMap (fun r => r.sites)
  let d : Dev := { d with hlth := { d.hlth with
    repairs := d.hlth.repairs.filter (fun r => r.slice != sid),
    rowsPending := d.hlth.rowsPending ++ rows, sitesPending := d.hlth.sitesPending ++ sites } }
  d.put ⟨regAddr 14 0, 2, 2⟩ (b2n (!d.hlth.repairs.isEmpty))

/-- The slice's record leaves the device, or stays for the load of a start that waited for its stop (09 R323). -/
def Dev.endSlice (d : Dev) (sid : Nat) : Dev :=
  match d.slice? sid with
  | some sl =>
    if sl.stopping = some 2 then
      d.updSlice sid (fun sl => { sl with
        running := false, fo := {}, key := 0, stopping := none, killAt := none,
        killReq := [], stopReq := [], raises := [], frames := [], pulls := [] })
    else { d with slices := d.slices.filter (fun x => x.id != sid) }
  | none => d

/-- Answers to the requests that waited for the end of a slice: a kill's carries its effective EC, and a stop that the kill
overtook is answered as done (log entry 25). -/
def Dev.endAnswers (d : Dev) (sl : Slice) : Dev :=
  let d := sl.killReq.foldl (fun d (x, q) => d.post x (.result q 0 0xFFFFFFFF (bytesOf (toLe 8 d.now)))) d
  sl.stopReq.foldl (fun d (x, q) => d.post x (.result q 0 0xFFFFFFFF [])) d

/-- A slice is killed at this EC. -/
def Dev.killSlice (d : Dev) (sl : Slice) : Dev :=
  let d := d.killEvent sl
  let d := d.releaseClusters sl.id
  let d := if sl.stopping = some 2 then d else d.dropLoad sl.id
  let d := (d.dropRepair sl.id).closeStreams (fun st => st.slice == sl.id)
  (d.endAnswers sl).endSlice sl.id

/-! ### Core rails (13 R405, R407, R409, R418, R425) -/

/-- VCORE of a clock mode in mV (13 Table 13.2). -/
def modeMv (m : Nat) : Nat := match m with | 0 => 800 | 1 => 700 | _ => 620

/-- Halves parked in a park state: bit 0 West, bit 1 East (13 Table 13.9). -/
def parkBits (p : Nat) : Nat := match p with | 0 => 0 | 1 => 1 | 2 => 2 | _ => 3

/-- The voltage of a rail at a tick: it moves at 2 mV/µs (13 R418). -/
def VRail.at (x : VRail) (now : Nat) : Nat :=
  let moved := (now - x.since) * 2 / 1000
  if x.mv ≤ x.goal then min x.goal (x.mv + moved) else max x.goal (x.mv - moved)

/-- The rail of a region. -/
def Dev.rail (d : Dev) (r : Nat) : VRail := mapGet (fun _ => ⟨0, 0, 0⟩) d.pwr.vcore r

/-- The voltage that a region's rail is to have: that of the mode in force, or of a faster one that is set or that waits for its rails once no
step is set; Glide's for a scrub in full park; off in a parked half and after a thermal trip (13 R405, R409, R418, R425). -/
def Dev.railTarget (d : Dev) (r : Nat) : Nat :=
  let out := fun (p : Nat) => bitAt (parkBits p) (r % 2)
  if d.fld ⟨regAddr 13 0, 2, 2⟩ = 1 then 0
  else
    let now := if out (d.fld fPark) then (if d.pwr.scrubClock then modeMv 2 else 0) else modeMv d.mode
    let set := d.pwr.steps.foldl (fun a st => if out st.park then a else max a (modeMv st.mode)) now
    match d.pwr.rising with
    | some (m, p, _, _) => if d.pwr.steps.isEmpty && !out p then max set (modeMv m) else set
    | none => set

/-- Every core rail sets out for the voltage it is to have; one that goes off is off at once. -/
def Dev.ramp (d : Dev) : Dev :=
  let go := fun (r : Nat) =>
    let x := d.rail r
    let v := d.railTarget r
    (r, if v = 0 then ⟨0, 0, d.time.ticks⟩ else if x.goal = v then x else ⟨x.at d.time.ticks, v, d.time.ticks⟩)
  { d with pwr := { d.pwr with vcore := (List.range 24).map go } }

/-- Whether every core rail has reached its voltage. -/
def Dev.railsSettled (d : Dev) : Bool := (List.range 24).all (fun r => (d.rail r).at d.time.ticks == (d.rail r).goal)

/-! ### Scrub (R225, R226) -/

/-- Every memory of a cluster filled with zeros (Table 6.8). -/
def scrubMem (m : List Host.Cell) (cl : Nat) : List Host.Cell :=
  let m := clearRows m (mkGra 1 cl 0 0) (mkGra 1 cl 0 0x18000)
  (List.range 8).foldl (fun m k =>
    let m := clearRows m (mkGra 0 cl k 0) (mkGra 0 cl k 0x2000)
    let m := clearRows m (mkGra 2 cl k 0) (mkGra 2 cl k 0x200)
    let m := clearRows m (mkGra 3 cl k 0) (mkGra 3 cl k 0x200)
    clearRows m (mkGra 3 cl k 0x10000) (mkGra 3 cl k 0x10010)) m

/-- A cluster's field of CFG.SITE_MAPn (02 Table 2.2). -/
def fSite (cl : Nat) : Fld := ⟨regAddr 10 (0x100 + 4 * (cl / 8)), 4 * (cl % 8) + 3, 4 * (cl % 8)⟩

/-- The check bits of scrubbed rows are valid again (R225). -/
def Dev.cleanRows (d : Dev) (cls : List Nat) : Dev :=
  let keep := fun (g : Nat) => !cls.contains (graCluster g)
  { d with hlth := { d.hlth with bad := d.hlth.bad.filter keep, soft := d.hlth.soft.filter keep } }

/-- A cluster's scrub completes: assigned again where the slice it belongs to keeps it, else free, or withdrawn. -/
def Dev.scrubbed (d : Dev) (keep : Bool) (cl : Nat) : Dev :=
  let d := (List.range 8).foldl (fun d k => d.setCore (cl * 8 + k) {}) d
  if keep then d.put (fClState cl) 1 else (d.put (fClState cl) (if d.fld (fSite cl) = 0xE then 3 else 0)).put (fClSlice cl) 0

/-- What follows the end of scrubs: an unpark's fences lift (11 R374), and the regions are unclocked again in full park
(13 R409). -/
def Dev.afterScrub (d : Dev) : Dev :=
  let d := if !d.pwr.unparking.isEmpty ∧ d.pwr.unparking.all (fun c => d.fld (fClState c) != 2) then
      (({ d with pwr := { d.pwr with unparking := [] } } : Dev).put ⟨regAddr 11 0, 1, 0⟩
        (match d.fld fPark with | 1 => 1 | 2 => 2 | 0 => 0 | _ => 3))
    else d
  if d.pwr.scrubClock ∧ (List.range 72).all (fun c => d.fld (fClState c) != 2) then
    let d := ({ d with pwr := { d.pwr with scrubClock := false } } : Dev).setReg (regAddr 2 0x0C) 0
    (d.put ⟨regAddr 2 0, 3, 2⟩ (d.fld ⟨regAddr 13 0, 11, 10⟩)).ramp
  else d

/-- The scrub of a slice's clusters completes (R226): SCRUB_DONE carries them and the slice. Rows that fail the margin test
become pending for retirement (14 R430). Clusters that a slice keeps wait for a bump of their generation, as they cannot be assigned before it
(08 R296); a free one is not assignable until then. -/
def execScrubComplete (slice : SliceId) (failing : List (BitVec 32)) (s : State) : Res :=
  let d := s.dev
  let sid := slice.toNat
  let cls := d.clustersIn 2 sid
  let keep := match d.slice? sid with | some sl => fun c => sl.fo.clusters.contains c | none => fun _ => false
  if cls.isEmpty ∨ d.failed ∨ cls.any (fun c => !d.clocked (clRegion c) || (keep c && d.fab.genWait.contains c)) then ok s
  else
    let d := cls.foldl (fun d c => d.scrubbed (keep c) c) d
    let mine := cls.filter keep
    let d := if mine.isEmpty then d else d.unifyGen (d.clustersIn 1 sid)
    let d := d.cleanRows cls
    let d := (failing.filter (fun g => cls.contains (graCluster g.toNat))).foldl (fun d g => d.pendRow g.toNat) d
    let done := mapIf (fun (r : Repair) => r.slice == sid && r.tested) (fun r => { r with scrubbed := true }) d.hlth.repairs
    let d : Dev := { d with hlth := { d.hlth with repairs := done } }
    ok { s with mem := cls.foldl scrubMem s.mem, dev := (d.event 8 10 (cls ++ [sid])).afterScrub }

end Sys2Proof.Machine
end

