-- ==== Sys2Proof/Machine/Streams.lean ====
section
/-! DEFINITION. Teller streams: ingress shards, their decision and their slots, and results (12 section 5). -/

namespace Sys2Proof.Machine

/-! ### Opening and closing (R390, R391) -/

/-- Whether a folio has an express flow between two ends with nonzero QX. -/
def Folio.hasFlow (fo : Folio) (net src dst : Nat) : Bool :=
  fo.nets.any (fun r => match r with | .flow n s t q => n == net && s == src && t == dst && q != 0 | _ => false)

/-- The push points of a folio: sequence, stream, core, ring. -/
def Folio.pushes (fo : Folio) : List (Nat × Nat × Nat × Nat) :=
  fo.seqmap.filterMap (fun r => match r with | .push q st c k _ => some (q, st, c, k) | _ => none)

/-- The pull points of a folio at the start of a launch. -/
def Folio.pullRuns (fo : Folio) : List PullRun :=
  fo.seqmap.filterMap (fun r => match r with
    | .pull q st c k g => some { stream := st, seq := q, core := c, ring := k, gate := g }
    | _ => none)

/-- Whether the folio has the flows that a stream of a direction and index needs (R390). -/
def Folio.streamFlows (fo : Folio) (dir index : Nat) : Bool :=
  match dir with
  | 0 => fo.pullRuns.all (fun p => p.stream != index || fo.hasFlow 0 (0x400 + ringStop (p.core / 8)) (p.core / 8))
  | 1 => fo.pushes.all (fun p =>
      let c := p.2.2.1
      p.2.1 != index ||
        (fo.hasFlow 0 (0x400 + ringStop (c / 8)) (c / 8) && fo.hasFlow 1 c (0x400 + ringStop (c / 8))))
  | _ => true

/-- The refusal of a STREAM_OPEN, 0 for none (R390). `slot` is the slot size of the pull ring in bytes. -/
def Dev.openCode (d : Dev) (sid index dir shardBytes lead slot : Nat) : Nat :=
  let n := (d.tel.streams.filter (fun x => x.dir == dir)).length
  match d.slice? sid with
  | none => 0x0C30
  | some sl =>
    if sl.key = 0 then 0x0C30
    else if dir < 2 ∧ (!(streamsOf sl.fo.seqmap (dir == 1)).contains index ∨ !sl.fo.streamFlows dir index) then 0x0C30
    else if (if dir = 2 then 72 else 4096) ≤ n ∨ (d.streamOf sid dir index).isSome then 0x0C35
    else if dir = 0 ∧ (shardBytes = 0 ∨ slot < shardBytes ∨ lead < 4000 + 2000 * cdiv shardBytes 4096) then 0x0C36
    else 0

/-- The smallest slot, in bytes, of the pull rings of a stream. -/
def State.pullSlot (s : State) (sid index : Nat) : Nat :=
  match s.dev.slice? sid with
  | some sl =>
    let ss := (sl.fo.pullRuns.filter (fun p => p.stream == index)).map (fun p => ringSlotRows (ringDesc s p.core p.ring) * 512)
    (match ss with | a :: t => t.foldl min a | [] => 0)
  | none => 0

/-- The lowest device stream ID, from 1, that no stream holds (Table 12.2; log entry 26). -/
def freeStream (l : List Stream) : Nat :=
  match (List.range (l.length + 1)).find? (fun i => l.all (fun x => x.id != i + 1)) with
  | some i => i + 1
  | none => l.length + 1

def msgStreamOpen (h : MsgHdr) (slice : SliceId) (index : BitVec 16) (dir : BitVec 8) (shardBytes lead : BitVec 32) (s : State) : State :=
  let slot := s.pullSlot slice.toNat index.toNat
  s.request h false (fun x d =>
    if 2 < dir.toNat then d.violation x.id h.seq.toNat 0x0C13 0xFFFFFFFF
    else
      let code := d.openCode slice.toNat index.toNat dir.toNat shardBytes.toNat lead.toNat slot
      if code ≠ 0 then d.reply h code
      else
        let id := freeStream d.tel.streams
        let st : Stream := { id := id, session := x.id, slice := slice.toNat, index := index.toNat, dir := dir.toNat,
                             shardBytes := if dir = 0 then shardBytes.toNat else 0, lead := if dir = 0 then lead.toNat else 0 }
        ({ d with tel := { d.tel with streams := d.tel.streams ++ [st] } } : Dev).answer h 0 0xFFFFFFFF (bytesOf (toLe 2 id)))

def msgStreamClose (h : MsgHdr) (stream : BitVec 16) (s : State) : State :=
  s.request h false (fun x d =>
    match d.stream? stream.toNat with
    | some st => if st.session = x.id then (d.closeStream stream.toNat).reply h 0 else d.violation x.id h.seq.toNat 0x0C14 0xFFFFFFFF
    | none => d.violation x.id h.seq.toNat 0x0C14 0xFFFFFFFF)

/-! ### Pull points -/

/-- The frame of an iteration: that of its frame in flight, else i + K (01 R40). -/
def Slice.frameOf (sl : Slice) (i : Nat) : Nat :=
  match sl.frames.find? (fun f => f.firstGate == i * sl.fo.f) with
  | some f => f.n
  | none => i + sl.kSkip

/-- The next frame to be pulled at a pull point: that of the first iteration whose pull gate has not passed. -/
def Slice.nextPull (sl : Slice) (p : PullRun) : Nat := sl.frameOf (if p.gate < sl.gate then cdiv (sl.gate - p.gate) sl.fo.f else 0)

/-- A pull point's copy replaced. -/
def Slice.updPull (sl : Slice) (p : PullRun) (f : PullRun → PullRun) : Slice :=
  { sl with pulls := mapIf (fun x => x.core == p.core && x.ring == p.ring) f sl.pulls }

/-- A bit of one sequence's word of frame n, kept aside while the frame has not begun (01 R49). -/
def Slice.markFrame (sl : Slice) (n seq bit : Nat) : Slice :=
  if sl.frames.any (fun f => f.n == n) then
    { sl with frames := mapIf (fun f => f.n == n) (markFlags (2 ^ seq) bit) sl.frames }
  else { sl with premarks := sl.premarks ++ [(n, seq, bit)] }

/-- Whether frame n's slot is in the ring with its shard (R393). -/
def PullRun.present (p : PullRun) (n : Nat) : Bool := (decide (n < p.publish) || p.ready.contains n) && !p.zeros.any (fun z => z.1 == n)

/-- Whether a copy of frame n's shard was corrupt. -/
def shardCorrupt (st : Option Stream) (n : Nat) : Bool :=
  match st with
  | some st => st.shards.any (fun x => x.frame == n && x.corrupt)
  | none => false

/-- Every pull point of a slice that reads a stream index. -/
def Slice.pullsOn (sl : Slice) (index : Nat) : List PullRun := sl.pulls.filter (fun p => p.stream == index)

/-- Whether the shard of a frame of a stream index has been decided at every pull point, or its frame has been skipped (R393). -/
def Slice.settled (sl : Slice) (index frame : Nat) : Bool :=
  let ps := sl.pullsOn index
  (!ps.isEmpty && ps.all (fun p => decide (frame < sl.frameOf p.iter))) ||
    (decide (frame < sl.unskipped.length + sl.kSkip) && !sl.unskipped.contains frame)

/-- The copies of shards that are decided leave staging. -/
def Dev.dropDecided (d : Dev) (sid index : Nat) : Dev :=
  match d.slice? sid, d.streamOf sid 0 index with
  | some sl, some st => d.updStream st.id (fun z => { z with shards := z.shards.filter (fun x => !sl.settled index x.frame) })
  | _, _ => d

/-- An absent or corrupt decision of iteration i's frame n: the bits, the count and the zero slot (Table 12.9). -/
def Dev.decideZero (d : Dev) (sl : Slice) (p : PullRun) (corrupt : Bool) (i n : Nat) : Dev :=
  let mark := fun (x : Slice) =>
    let x := x.markFrame n p.seq lwIncomplete
    if corrupt then x.markFrame n p.seq lwCorrupt else x
  ((d.updSlice sl.id (fun x => (mark x).updPull p (fun q => { q with
    iter := i + 1, hold := none, zeros := q.zeros ++ [(n, i * sl.fo.f + p.gate)],
    going := q.going.filter (fun g => g.1 != n) }))).bump (regAddr 12 0x68) 1).dropDecided sl.id p.stream

/-- The EC of a cause 4 hold's cap: the deadline less the hold lead less 1,280 (11 Table 11.2). -/
def Dev.shardCap (d : Dev) (sl : Slice) (n : Nat) : Nat :=
  sl.launchEc + (n + sl.fo.overlapD) * sl.fo.period - sl.fo.holdLead * d.spacingNow sl - 1280

/-- A missing shard under POLICY 1: a cause 4 hold until its arrival or the cap. -/
def Dev.shardHold (d : Dev) (sl : Slice) (p : PullRun) (i n : Nat) : Dev :=
  (d.updSlice sl.id (fun x => x.updPull p (fun q => { q with iter := i, hold := some (n, d.shardCap sl n) }))).raiseHold sl.id 4

/-- The state of iteration i's shard decided now. -/
def Dev.decideNow (d : Dev) (sl : Slice) (p : PullRun) (i : Nat) : Dev :=
  let st := d.streamOf sl.id 0 p.stream
  let n := sl.frameOf i
  if p.present n then d.updSlice sl.id (fun x => x.updPull p (fun q => { q with iter := i + 1 }))
  else if sl.policy = 1 ∧ st.isSome then d.shardHold sl p i n
  else d.decideZero sl p (shardCorrupt st n) i n

/-- The EC of a pull point's next decision: the cutoff under POLICY 0, due(p − HOLD_LEAD) under POLICY 1, and due(p) without
a stream (R393). A gate before gate 0 counts back from the launch EC. -/
def Dev.decisionEc (d : Dev) (sl : Slice) (p : PullRun) : Nat :=
  let g := p.iter * sl.fo.f + p.gate
  match d.streamOf sl.id 0 p.stream with
  | some st =>
    if sl.policy = 0 then d.dueOf sl g - st.lead
    else if sl.fo.holdLead ≤ g then d.dueOf sl (g - sl.fo.holdLead)
    else d.dueOf sl 0 - (sl.fo.holdLead - g) * d.spacingNow sl
  | none => d.dueOf sl g

def execShardDecision (slice : SliceId) (stream : BitVec 16) (s : State) : Res :=
  ok (s.onDev (fun d =>
    match d.slice? slice.toNat with
    | some sl =>
      if !sl.launched then d
      else (sl.pullsOn stream.toNat).foldl (fun d p =>
        match d.slice? slice.toNat with
        | some sl => if p.hold.isNone ∧ d.decisionEc sl p ≤ d.now then d.decideNow sl p p.iter else d
        | none => d) d
    | none => d))

/-- Cause 4 clears once no pull point of the slice is held for (11 Table 11.2). -/
def Dev.shardClear (d : Dev) (sid : Nat) : Dev :=
  match d.slice? sid with
  | some sl => if sl.pulls.all (fun p => p.hold.isNone) then d.clearCause sid 4 else d
  | none => d

/-- The cap of a shard hold is reached: the zero slot is read (R393). -/
def execShardHoldCap (slice : SliceId) (s : State) : Res :=
  ok (s.onDev (fun d =>
    match d.slice? slice.toNat with
    | some sl =>
      let late := sl.pulls.filter (fun p => match p.hold with | some (_, e) => decide (e ≤ d.now) | none => false)
      if late.isEmpty then d
      else
        (late.foldl (fun d p =>
          match p.hold with
          | some (n, _) => d.decideZero sl p (shardCorrupt (d.streamOf sl.id 0 p.stream) n) p.iter n
          | none => d) d).shardClear sl.id
    | none => d))

/-! ### Slots of a pull ring (R392) -/

/-- Frames whose slots are ready are published in order: TAIL advances. -/
def flushReady : Nat → PullRun → PullRun × Nat
  | 0, p => (p, 0)
  | k + 1, p =>
    if p.ready.contains p.publish then
      let (q, n) := flushReady k { p with publish := p.publish + 1, ready := p.ready.filter (fun f => f != p.publish) }
      (q, n + 1)
    else (p, 0)

/-- Slots at HEAD that belong to skipped frames are released unread (01 R42). -/
def skippedAtHead (p : PullRun) (occ : Nat) : Nat → Nat
  | 0 => 0
  | k + 1 => if 0 < occ ∧ p.skip.contains (p.publish - occ) then 1 + skippedAtHead p (occ - 1) k else 0

/-- One pull point brought up to date: ready slots published, skipped slots released. -/
def State.pullFlush (s : State) (sid : Nat) (p0 : PullRun) : State :=
  match s.dev.slice? sid with
  | some sl =>
    (match sl.pulls.find? (fun x => x.core == p0.core && x.ring == p0.ring) with
      | some p =>
        let (p', n) := flushReady (p.ready.length + 1) p
        let s := if n = 0 then s else ringPublish s p.core p.ring n
        let occ := ringOcc (ringDesc s p.core p.ring)
        let k := skippedAtHead p' occ (occ + 1)
        let gone := (List.range k).map (fun j => p'.publish - occ + j)
        let s := if k = 0 then s else ringRelease s p.core p.ring k
        s.onDev (fun d => d.updSlice sid (fun x => x.updPull p (fun _ => { p' with skip := p'.skip.filter (fun f => !gone.contains f) })))
      | none => s)
  | none => s

/-- The slots of a pull ring that frame n may use: free once n is fewer than SLOTS frames beyond the frame at HEAD. -/
def State.slotFree (s : State) (p : PullRun) (n : Nat) : Bool :=
  let r := ringDesc s p.core p.ring
  decide (n < p.publish - ringOcc r + ringSlots r)

/-- The bytes of a shard as its fragments stand. -/
def Shard.bytes (x : Shard) (n : Nat) : List Byte :=
  let m := x.frags.foldl (fun m f => putBytes (f.2.length / 512 + 2) m f.1 f.2) []
  ((List.range (cdiv n 512)).flatMap (fun r => bytesOf (toLe 512 (mapGet (fun _ => 0) m r : RowData).toNat))).take n

/-- A slot of a pull ring filled with zeros (R392). -/
def State.zeroSlot (s : State) (p : PullRun) (n : Nat) : State :=
  let r := ringDesc s p.core p.ring
  (List.range (ringSlotRows r)).foldl (fun s i => s.putRow (ringRow r n i) 0) s

/-- Rows of a shard written into its slot, in packets of up to 8 rows on the pull point's express flow, from row `k` on while the quota at the
edge stop admits them; the answer tells how many rows have been granted (R392; 07 R236). -/
def State.shardRows (sid : Nat) (p : PullRun) (n : Nat) (l : List Byte) : Nat → Nat → State → Nat × State
  | 0, k, s => (k, s)
  | fuel + 1, k, s =>
    let stop := ringStop (p.core / 8)
    let m := min 8 (cdiv l.length 512 - k)
    match s.dev.slice? sid with
    | some sl =>
      let used := s.dev.stopUse stop sid 0
      if m = 0 then (k, s)
      else if sl.stopQuota 0 stop ≤ used then (k, s.onDev (fun d => d.bumpWrap (regAddr 7 0x2C) 1))
      else
        let r := ringDesc s p.core p.ring
        let s := (List.range m).foldl (fun s i =>
          s.putRow (ringRow r n (k + i)) (rowBytes 0 0 ((l.drop (512 * (k + i))).take 512))) s
        State.shardRows sid p n l fuel (k + m) (s.onDev (fun d => d.setStopUse stop sid 0 (used + 8 * m + 1)))
    | none => (k, s)

/-- The first complete shard of a stream that a pull point lacks and whose slot is free. -/
def State.nextShard (s : State) (st : Stream) (p : PullRun) : Option Shard :=
  st.shards.find? (fun x => x.complete && !p.present x.frame && decide (p.publish ≤ x.frame) && s.slotFree p x.frame &&
    !p.zeros.any (fun z => z.1 == x.frame))

/-- A complete shard goes to its slot; once its last row has been granted it is published, and a hold for it clears (R392, R393). -/
def State.shardInto (sid : Nat) (s : State) (p : PullRun) : State :=
  match s.dev.streamOf sid 0 p.stream, s.dev.slice? sid with
  | some st, some sl =>
    let begun := p.going.bind (fun g => (st.shards.find? (fun x => x.frame == g.1 && x.complete)).map (fun x => (x, g.2)))
    let next := match begun with | some g => some g | none => (s.nextShard st p).map (fun x => (x, 0))
    (match next with
      | some (x, k) =>
        let s := if k = 0 then s.zeroSlot p x.frame else s
        let (k, s) := s.shardRows sid p x.frame (x.bytes st.shardBytes) (cdiv st.shardBytes 8 + 1) k
        if k < cdiv st.shardBytes 512 then
          s.onDev (fun d => d.updSlice sid (fun y => y.updPull p (fun q => { q with going := some (x.frame, k) })))
        else
          let held := match p.hold with | some (n, _) => n == x.frame | none => false
          let s := s.onDev (fun d => d.updSlice sid (fun y => y.updPull p (fun q => { q with
            ready := q.ready ++ [x.frame], going := none, hold := if held then none else q.hold, iter := if held then q.iter + 1 else q.iter })))
          let s := s.pullFlush sid p
          -- the shard leaves staging once every pull point of the stream has it
          let s := s.onDev (fun d =>
            match d.slice? sid with
            | some y => if (y.pullsOn p.stream).all (fun q => q.present x.frame || decide (x.frame < q.publish)) then
                d.updStream st.id (fun z => { z with shards := z.shards.filter (fun w => w.frame != x.frame) }) else d
            | none => d)
          if held then s.onDev (fun d => d.shardClear sl.id) else s
      | none => s)
  | _, _ => s

def execShardWrite (slice : SliceId) (stream : BitVec 16) (s : State) : Res :=
  ok (match s.dev.slice? slice.toNat with
      | some sl => if sl.running then (sl.pullsOn stream.toNat).foldl (State.shardInto sl.id) s else s
      | none => s)

/-- The zero slot of the next frame to publish, at the due EC of its gate (R393). -/
def State.zeroInto (sid : Nat) (s : State) (p : PullRun) : State :=
  match s.dev.slice? sid with
  | some sl =>
    (match p.zeros.find? (fun z => z.1 == p.publish && decide (s.dev.dueOf sl z.2 ≤ s.dev.now)) with
      | some z =>
        if s.slotFree p z.1 then
          let s := s.zeroSlot p z.1
          let s := s.onDev (fun d => d.updSlice sid (fun y => y.updPull p (fun q => { q with
            ready := q.ready ++ [z.1], zeros := q.zeros.filter (fun w => w.1 != z.1) })))
          s.pullFlush sid p
        else s
      | none => s)
  | none => s

def execZeroSlotPublish (slice : SliceId) (stream : BitVec 16) (s : State) : Res :=
  ok (match s.dev.slice? slice.toNat with
      | some sl => if sl.running then (sl.pullsOn stream.toNat).foldl (State.zeroInto sl.id) s else s
      | none => s)

/-! ### Ingress messages (R392, R393, R398) -/

/-- Bytes of a shard's fragments that are there without a gap from byte 0. -/
def covered (frags : List (Nat × List Byte)) : Nat → Nat → Nat
  | 0, n => n
  | k + 1, n =>
    let m := frags.foldl (fun m f => if f.1 ≤ n then max m (f.1 + f.2.length) else m) n
    if m = n then n else covered frags k m

/-- Bytes of the ingress staging store in use. -/
def stagedBytes (l : List Stream) : Nat :=
  l.foldl (fun a st => st.shards.foldl (fun a x => if x.frags.isEmpty then a else a + st.shardBytes) a) 0

/-- A fragment enters staging: none where it cannot be staged. Copies of a shard are told apart by SHARD_CRC; a copy that follows a good one is
assembled too, and judged when it is whole. `err` answers the message. -/
def Dev.stage (d : Dev) (st : Stream) (sl : Slice) (frame bytes off crc : Nat) (data : List Byte) (err : Dev → Nat → Dev) : Option Dev :=
  let next := match sl.pullsOn st.index with | p :: _ => sl.nextPull p | [] => 0
  let mine := fun (x : Shard) => x.frame == frame && x.crc == crc && !x.complete
  let old := st.shards.find? mine
  let x : Shard := old.getD { frame := frame, crc := crc }
  let put := fun (d : Dev) (l : List Shard) => d.updStream st.id (fun z => { z with shards := z.shards.filter (fun y => !mine y) ++ l })
  let bad := fun (d : Dev) (x : Shard) (code : Nat) => err ((put d [{ x with corrupt := true }]).bump (regAddr 12 0x64) 1) code
  if sl.settled st.index frame then some (err (d.bump (regAddr 12 0x5C) 1) 0x0C32)
  else if next + 8 ≤ frame then some (err (d.bump (regAddr 12 0x60) 1) 0x0C31)
  else if bytes ≠ st.shardBytes ∨ st.shardBytes < off + data.length then some (bad d x 0x0C33)
  else if x.frags.isEmpty ∧ (8 ≤ (st.shards.filter (fun x => !x.frags.isEmpty)).length ∨
      128 * 2 ^ 20 < stagedBytes d.tel.streams + st.shardBytes) then none
  else
    let y := { x with frags := x.frags ++ [(off, data)] }
    if covered y.frags (y.frags.length + 1) 0 < st.shardBytes then some (put d [y])
    else if crc32c ((y.bytes st.shardBytes).map (fun b => b.toNat)) ≠ crc then some (bad d { x with frags := [] } 0x0C37)
    else if (sl.pullsOn st.index).all (fun p => p.present frame) ∨ st.shards.any (fun x => x.frame == frame && x.complete) then some (put d [])
    else some (put d [{ y with complete := true }])

/-- Bytes of a recording: a header row and its records (R400). -/
def Recording.bytes (r : Recording) : Nat := r.records.foldl (fun a m => a + roundUp (40 + m.data.length) 64) 512

/-- A message recorded by the running recordings of its slice; a full area stops the recording (R399, R400). -/
def Dev.record (d : Dev) (sid : Nat) (m : RecMsg) : Dev :=
  (d.tel.recs.filter (fun r => r.running && r.slice == sid)).foldl (fun d r =>
    let used := d.tel.recs.foldl (fun a x => a + x.bytes) 0
    if d.recRows * 512 < used + roundUp (40 + m.data.length) 64 then
      ({ d with tel := { d.tel with
        recs := mapIf (fun x => x.id == r.id) (fun x => { x with running := false }) d.tel.recs } } : Dev).event 12 8 [r.id]
    else { d with tel := { d.tel with
      recs := mapIf (fun x => x.id == r.id) (fun x => { x with records := x.records ++ [m] }) d.tel.recs } }) d

/-- The record of an INGRESS_DATA message of a stream. -/
def Dev.recordIngress (d : Dev) (st : Stream) (b : IngressMsg) : Dev :=
  d.record st.slice ⟨d.now, st.index, b.frame.toNat, b.shardBytes.toNat, b.offset.toNat, b.crc.toNat, b.data⟩

/-- An INGRESS_DATA message that has arrived: recorded, and staged; none where it cannot be staged. -/
def Dev.ingress (d : Dev) (x : Session) (h : MsgHdr) (b : IngressMsg) : Option Dev :=
  match d.stream? b.stream.toNat with
  | none => some (d.violation x.id h.seq.toNat 0x0C14 0xFFFFFFFF)
  | some st =>
    if st.session ≠ x.id ∨ st.dir ≠ 0 then some (d.violation x.id h.seq.toNat 0x0C14 0xFFFFFFFF)
    else
      let d := d.recordIngress st b
      if d.tel.armed.any (fun a => a.2 == st.slice) then
        some ((d.bump (regAddr 12 0x50) 1).sendError x.id h.seq.toNat 0x0C34 0xFFFFFFFF)
      else
        match d.slice? st.slice with
        | none => some d
        | some sl =>
          d.stage st sl b.frame.toNat b.shardBytes.toNat b.offset.toNat b.crc.toNat b.data
            (fun d code => d.sendError x.id h.seq.toNat code 0xFFFFFFFF)

/-! ### Results (R394, R395) -/

/-- Bytes of results in the egress store: sent and not acknowledged, or waiting. -/
def Dev.egressUsed (d : Dev) : Nat :=
  let size := fun (a : Nat) (b : OutBody) => match b with | .egress _ _ _ _ _ _ _ _ data => a + data.length | _ => a
  let mine := d.tel.sessions.foldl (fun a x => x.waitQ.foldl size ((x.sent.map (fun m => m.body)).foldl size a)) 0
  d.tel.streams.foldl (fun a st => st.later.foldl size a) mine

/-- The stream that carries a sequence's ledger words: the egress stream with the lowest ID among those of the sequence, else the slice's
ledger stream (R395). -/
def Dev.wordStream (d : Dev) (sl : Slice) (q : Nat) : Option Stream :=
  let idx := (sl.fo.pushes.filter (fun p => p.1 == q)).map (fun p => p.2.1)
  let low := fun (l : List Stream) => match l with
    | [] => none
    | a :: t => some (t.foldl (fun b x => if x.id < b.id then x else b) a)
  match low (d.tel.streams.filter (fun x => x.slice == sl.id && x.dir == 1 && idx.contains x.index)) with
  | some st => some st
  | none => low (d.tel.streams.filter (fun x => x.slice == sl.id && x.dir == 2))

/-- Whether a push point of a stream index has a frame before n whose slot is not read yet (R394). -/
def Slice.unread (sl : Slice) (index n : Nat) : Bool :=
  sl.fo.pushes.any (fun p => p.2.1 == index &&
    (match sl.unskipped[mapGet (fun _ => 0) sl.pushed (p.2.2.1 * 32 + p.2.2.2)]? with | some m => decide (m < n) | none => false))

/-- Whether a stream still owes a ledger word of a frame in flight before frame n, or a result of a frame before it. -/
def Dev.owes (d : Dev) (sid st n : Nat) : Bool :=
  match d.slice? sid with
  | some sl =>
    (sl.frames.any (fun f => decide (f.n < n)) &&
      (List.range sl.fo.sequences).any (fun q => (d.wordStream sl q).map (fun x => x.id) == some st)) ||
    (match d.stream? st with | some x => x.dir == 1 && sl.unread x.index n | none => false)
  | none => false

/-- A message of a stream leaves, or waits among those of later frames (R395). -/
def Dev.egress (d : Dev) (st : Stream) (b : OutBody) : Dev :=
  if d.owes st.slice st.id b.frame then
    d.updStream st.id (fun z => { z with
      later := z.later.filter (fun x => decide (x.frame ≤ b.frame)) ++ b :: z.later.filter (fun x => decide (b.frame < x.frame)) })
  else d.post st.session b

/-- The messages that no earlier frame holds back any more leave. -/
def Dev.egressFlush (d : Dev) (sid : Nat) : Dev :=
  (d.tel.streams.filter (fun x => x.slice == sid && !x.later.isEmpty)).foldl (fun d st =>
    let (go, stay) := st.later.partition (fun b => !d.owes sid st.id b.frame)
    go.foldl (fun d b => d.post st.session b) (d.updStream st.id (fun z => { z with later := stay }))) d

/-- The messages of a result in fragments of at most `w` bytes, in order. -/
def fragments : Nat → Nat → (Nat → Nat → List Byte → OutBody) → Nat → List Byte → List OutBody
  | 0, _, _, _, _ => []
  | k + 1, w, mk, off, l =>
    if l.length ≤ w then [mk 2 off l] else mk 0 off (l.take w) :: fragments k w mk (off + w) (l.drop w)

/-- Rows of a published push slot read over the push point's express flows, in requests of up to 8 rows, from row `k` on while the quotas of
the edge stop and of the serving core admit them; the answer tells how many rows have been read (R394; 07 R236, R237). -/
def State.pushFetch (sid core : Nat) (rows : List Nat) : Nat → Nat → State → Nat × State
  | 0, k, s => (k, s)
  | fuel + 1, k, s =>
    let stop := ringStop (core / 8)
    let got := (rows.drop k).take 8
    match s.dev.slice? sid with
    | some sl =>
      let used := s.dev.stopUse stop sid 0
      if got.isEmpty then (k, s)
      else if sl.stopQuota 0 stop ≤ used ∨ quotaOf sl 1 core ≤ (s.dev.core core).quotaRep then
        (k, s.onDev (fun d => d.bumpWrap (regAddr 7 0x2C) 1))
      else
        let s := s.onDev (fun d => got.foldl (fun d g => d.eccRead core g) (d.setStopUse stop sid 0 (used + 1)))
        State.pushFetch sid core rows fuel (k + got.length)
          (s.onCore core (fun c => { c with quotaRep := c.quotaRep + 8 * got.length + 1 }))
    | none => (k, s)

/-- A result leaves on its stream; a full egress store drops it (R394, R395). -/
def Dev.sendResult (d : Dev) (sl : Slice) (seq index frame : Nat) (data : List Byte) : Dev :=
  match d.streamOf sl.id 1 index with
  | some st =>
    (match d.session? st.session with
      | some x =>
        if 124 * 2 ^ 20 < d.egressUsed + data.length then (d.bump (regAddr 12 0x6C) 1).event 12 6 [sl.id, st.id, frame]
        else
          let crc := crc32c (data.map (fun b => b.toNat))
          let w := d.maxBody x - 32
          (fragments (data.length / w + 2) w (fun fl off l => .egress st.id frame seq fl data.length off crc 0 l) 0 data).foldl
            (fun d b => d.egress st b) d
      | none => d)
  | none => d

/-- A published push slot is read; once its last row has come it is copied into the egress store and released (R394). -/
def State.pushRead (s : State) (sl : Slice) (seq index core ring : Nat) : State :=
  let r := ringDesc s core ring
  let at_ := core * 32 + ring
  if ringOcc r = 0 then s
  else
    let rows := (List.range (ringSlotRows r)).map (fun i => ringRow r (ringHead r) i)
    let (k, s) := s.pushFetch sl.id core rows (rows.length + 1) (mapGet (fun _ => 0) sl.pushRows at_)
    if k < rows.length then s.onDev (fun d => d.updSlice sl.id (fun x => { x with pushRows := mapPut x.pushRows at_ k }))
    else
      let n := mapGet (fun _ => 0) sl.pushed at_
      let frame := sl.unskipped.getD n (n + sl.kSkip)
      let data := rows.flatMap (fun g => bytesOf (toLe 512 (readRow s.mem g).toNat))
      (ringRelease s core ring 1).onDev (fun d =>
        let d := d.updSlice sl.id (fun x => { x with pushed := mapPut x.pushed at_ (n + 1), pushRows := mapPut x.pushRows at_ 0 })
        (d.sendResult sl seq index frame data).egressFlush sl.id)

/-- The engine reads a published slot of the stream's first push point that has one. -/
def execPushSlotRead (slice : SliceId) (stream : BitVec 16) (s : State) : Res :=
  ok (match s.dev.slice? slice.toNat with
      | some sl =>
        (match sl.fo.pushes.find? (fun p => p.2.1 == stream.toNat && ringOcc (ringDesc s p.2.2.1 p.2.2.2) != 0) with
          | some (seq, index, core, ring) => if sl.running then s.pushRead sl seq index core ring else s
          | none => s)
      | none => s)

end Sys2Proof.Machine
end

