-- ==== Sys2Proof/Machine/Gates.lean ====
section
/-! DEFINITION. Gates: barrier, pass, skips, ledger words and the trace (11 section 1; 01 sections 5 to 7; 03 R117; 14 R449). -/

namespace Sys2Proof.Machine

/-! ### Ledger words (01 R45, R48, Table 1.10; 12 R395) -/

/-- One ledger word leaves in a ledger-only message, or is dropped and counted. -/
def Dev.emitWord (d : Dev) (sl : Slice) (n q span late flags : Nat) : Dev :=
  let w := (n % 65536) <<< 48 + (q % 64) <<< 40 + (min 255 span) <<< 32 + (min 65535 late) <<< 16 + flags
  match d.wordStream sl q with
  | some st => d.egress st (.egress st.id n q 1 0 0 0 (BitVec.ofNat 64 w) [])
  | none => d.bump (regAddr 12 0x70) 1

/-- The words of a frame, one for each sequence. -/
def Dev.emitFrame (d : Dev) (sl : Slice) (n span late : Nat) (flags : List Nat) : Dev :=
  (flags.zipIdx.foldl (fun d (w, q) => d.emitWord sl n q span late w) d).updSlice sl.id (fun x => { x with
    framesDone := x.framesDone ++ [n] })

/-! ### The frame gate (01 R40, R42) -/

/-- The flags of a frame as it begins or is skipped, one word for each sequence: REPLAY, and the bits decided before it (01 R48; 12 R393,
R401). -/
def Slice.newFlags (sl : Slice) (n : Nat) : List Nat :=
  let pre := sl.premarks.filter (fun m => m.1 == n)
  (List.range sl.fo.sequences).map (fun q =>
    pre.foldl (fun w m => if m.2.1 = q then w ||| 2 ^ m.2.2 else w) (if bitAt sl.replayMask q then 2 ^ lwReplay else 0))

/-- Skipped frames: their words, their shards, and the skip count. -/
def State.skipFrames (s : State) (sl : Slice) (n k : Nat) : State :=
  let ns := (List.range k).map (fun j => n + j)
  let s := s.onDev (fun d =>
    let d := ns.foldl (fun d m => d.emitFrame sl m 0 0 ((sl.newFlags m).map (fun w => w ||| 2 ^ lwSkipped))) d
    let drop := fun (p : PullRun) =>
      { p with
        ready := p.ready ++ ns.filter (fun m => decide (p.publish ≤ m) && !p.ready.contains m), skip := p.skip ++ ns,
        zeros := p.zeros.filter (fun z => !ns.contains z.1),
        going := p.going.filter (fun g => !ns.contains g.1) }
    let d := d.updSlice sl.id (fun x => { x with
      kSkip := x.kSkip + k, premarks := x.premarks.filter (fun m => !ns.contains m.1), pulls := x.pulls.map drop })
    let d := sl.pulls.foldl (fun d p => match d.streamOf sl.id 0 p.stream with
      | some st => d.updStream st.id (fun z => { z with shards := z.shards.filter (fun w => !ns.contains w.frame) })
      | none => d) d
    (d.bumpWrap (regAddr 1 0x2C) k).updEntry sl.key (fun en => { en with fresh := en.fresh + k }))
  sl.pulls.foldl (fun s p => s.pullFlush sl.id p) s

/-- A frame begins at its frame gate, with the bits decided before it. -/
def Dev.beginFrame (d : Dev) (sl : Slice) (n g : Nat) : Dev :=
  let fr : FrameFl := { n := n, firstGate := g, lastGate := g + sl.fo.e, flags := sl.newFlags n, heldNum := 0, heldDen := 1 }
  let d := d.updSlice sl.id (fun x => { x with
    frames := x.frames ++ [fr], unskipped := x.unskipped ++ [n],
    premarks := x.premarks.filter (fun m => m.1 != n) })
  sl.coresOf.foldl (fun d k => d.updCore k (fun c => { c with tally := { c.tally with slots := c.tally.slots ++ [(n, 0)] } })) d

/-- The decision of a shard whose frame the skip has replaced, or whose hold the skip has overtaken (12 R393). -/
def Dev.redecide (i : Nat) (d : Dev) (sid : Nat) (p : PullRun) : Dev :=
  match d.slice? sid with
  | some sl =>
    (match sl.pulls.find? (fun x => x.core == p.core && x.ring == p.ring) with
      | some q =>
        if q.hold.isSome ∧ q.iter ≤ i then (d.updSlice sid (fun x => x.updPull q (fun y => { y with hold := none }))).decideNow sl q i
        else if i < q.iter then d.decideNow sl q i else d
      | none => d)
  | none => d

/-- The frame gate of iteration `g / F`, due at `e`: the skip test, then the frame begins. -/
def State.frameGate (s : State) (sid g e : Nat) : State :=
  match s.dev.slice? sid with
  | some sl =>
    let i := g / sl.fo.f
    let n := i + sl.kSkip
    let lag := e - (sl.launchEc + n * sl.fo.period)
    let k := if 1 ≤ sl.skipT ∧ sl.skipT * sl.fo.period ≤ lag ∧ 0 < sl.fo.period then lag / sl.fo.period else 0
    let s := if k = 0 then s else s.skipFrames sl n k
    let s := s.onDev (fun d => match d.slice? sid with | some sl => d.beginFrame sl (n + k) g | none => d)
    if k = 0 then s
    else s.onDev (fun d => (sl.pulls.foldl (fun d p => Dev.redecide i d sid p) d).shardClear sid)
  | none => s

/-! ### The pass (11 R354, R361; 03 R117; 01 R44) -/

/-- Held time added to a frame: a shift in units of the spacing. -/
def FrameFl.addHeld (fr : FrameFl) (shift sp : Nat) : FrameFl :=
  if sp = 0 then fr else { fr with heldNum := fr.heldNum * sp + shift * fr.heldDen, heldDen := fr.heldDen * sp }

/-- A core resumes: its staging rows are dropped, and a ring-mode FEED that starts from now on begins at vector 0 of the slot at HEAD (03
R120; 06 R205). -/
def CoreSt.resumed (c : CoreSt) : CoreSt :=
  let feeds := fun (k : Nat) => match c.feedRun with | some r => r.f.srcsel && r.f.sreg.toNat == k | none => false
  { c.dropStaging with ringPos := c.ringPos.map (fun x => if feeds x.1 then x else (x.1, { x.2 with restart := true })) }

/-- A held gate passes, and the slice resumes: HELD and the span in every frame in flight; the event (R361, Table 11.11). A resume is the
pass of a held gate later than its due EC (DEDUCED, log entry 72). -/
def Dev.heldPass (d : Dev) (sl : Slice) (shift : Nat) : Dev :=
  if shift = 0 then d
  else
    let sp := sl.fo.spacing (d.modeFor sl sl.due)
    let d := sl.coresOf.foldl (fun d k => d.updCore k CoreSt.resumed) d
    let d := (d.markSlice sl.id lwHeld).updSlice sl.id (fun x => { x with
      frames := x.frames.map (fun fr => fr.addHeld shift sp), lastSpan := if sp = 0 then 0 else cdiv shift sp })
    match (sl.at sl.gate).foldl (fun b r => match b, r.resume with
        | some (x, m), some e => if m < e + r.extra then some (r, e + r.extra) else some (x, m)
        | none, some e => some (r, e + r.extra)
        | b, none => b) (none : Option (Raise × Nat)) with
    | some (r, e) => d.event 11 2 [sl.id, r.origin, r.holdId, r.cause, e]
    | none => d

/-- The events of the interval join the frame sums of every frame in flight (03 R117). -/
def Dev.tallyGate (d : Dev) (sl : Slice) : Dev :=
  sl.coresOf.foldl (fun d k => d.updCore k (fun c => { c with
    tally := { c.tally with
      slots := c.tally.slots.map (fun x => (x.1, satAdd 32 x.2 c.tally.interval)), interval := 0 } })) d

/-- A frame's sum at a core. -/
def Dev.frameSum (d : Dev) (k n : Nat) : Nat :=
  match (d.core k).tally.slots.find? (fun x => x.1 == n) with
  | some x => x.2
  | none => 0

/-- A frame's last gate: SAT_OVER, lateness, its words (01 R40, R44; 03 R117). `e` is the finish. -/
def Dev.lastGate (d : Dev) (sid e : Nat) (fr : FrameFl) : Dev :=
  match d.slice? sid with
  | some sl =>
    let fr := sl.coresOf.foldl (fun fr k =>
      if sl.fo.satThr < d.frameSum k fr.n then markFlags (coreSeqMask sl.fo k) lwSatOver fr else fr) fr
    let deadline := sl.launchEc + (fr.n + sl.fo.overlapD) * sl.fo.period
    let late := deadline < e
    let flags := if late then fr.flags.map (fun w => w ||| 2 ^ lwLate) else fr.flags
    let d := d.emitFrame sl fr.n (cdiv fr.heldNum fr.heldDen) (if late then cdiv (e - deadline) 1024 else 0) flags
    let d := if late then d.bumpWrap (regAddr 1 0x28) 1 else d
    let d := (d.updSlice sid (fun x => { x with frames := x.frames.filter (fun f => f.n != fr.n) })).egressFlush sid
    let d := sl.coresOf.foldl (fun d k => d.updCore k (fun c => { c with
      tally := { c.tally with slots := c.tally.slots.filter (fun x => x.1 != fr.n) } })) d
    let d := d.updEntry sl.key (fun en => { en with fresh := en.fresh + 1 })
    (folioKeys sl.key sl.fo).foldl (fun d key => d.updEntry key (fun en => { en with lastUse := e })) d
  | none => d

/-- The trace record of a gate; a record that does not fit stops the trace (14 R449). -/
def Dev.traceGate (d : Dev) (sl : Slice) (g : Nat) : Dev :=
  let tr := d.reg (regAddr 14 8)
  if d.fld ⟨regAddr 14 0, 3, 3⟩ = 0 ∨ bits tr 27 16 ≠ sl.id then d
  else
    let dig := sl.coresOf.flatMap (fun k => toLe 4 (mapGet (fun _ => 0) d.hlth.digests k))
    let rec_ := bytesOf (toLe 8 g ++ dig)
    let pad := roundUp rec_.length 64 - rec_.length
    let d : Dev := { d with hlth := { d.hlth with digests := [] } }
    if bits tr 11 0 * 64000000 < d.hlth.trace.length + rec_.length + pad then
      (d.put ⟨regAddr 14 0, 3, 3⟩ 0).event 14 9 []
    else { d with hlth := { d.hlth with trace := d.hlth.trace ++ rec_ ++ List.replicate pad 0 } }

/-- A core leaves its gate. -/
def CoreSt.leaveGate (c : CoreSt) : CoreSt := if c.wait = .gate then { c with wait := .none } else c

/-- The next due count is set, and the interval's own records begin again (R355). -/
def Dev.nextGate (d : Dev) (sl : Slice) (e : Nat) : Dev :=
  let d := d.updSlice sl.id (fun x => { x with
    gate := sl.gate + 1, dues := e :: x.dues, due := d.nextDue sl e, s0 := sl.fo.spacing (d.modeFor sl e),
    modes := sl.modes.filter (fun x => decide (e < x.1)),
    arrived := [], barrier := false, dueSeen := false, lateAt := none, stretches := 0,
    raises := x.raises.filter (fun r => r.gate != sl.gate || r.openOwn) })
  sl.progCores.foldl (fun d k => d.updCore k CoreSt.leaveGate) d

/-- Gate `sl.gate` passes at `e`. DESIGN CHOICE (log entry 73): where E = D × F, a gate at which one frame ends and another begins counts both
as in flight, so an event there marks D + 1 frames (01 R43). -/
def State.passGate (s : State) (sl : Slice) (e : Nat) : State :=
  let g := sl.gate
  let frame := sl.fo.f = 0 ∨ g % sl.fo.f = 0
  let s := if frame ∧ sl.stopping.isNone then s.frameGate sl.id g e
    else if frame then s.onDev (fun d => d.updSlice sl.id (fun x => { x with boundary := true }))
    else s
  s.onDev (fun d =>
    let d := (d.heldPass sl (e - sl.due)).tallyGate sl
    let last : List FrameFl := match d.slice? sl.id with | some x => x.frames.filter (fun f => f.lastGate == g) | none => []
    let d := last.foldl (fun d fr => d.lastGate sl.id e fr) d
    (d.traceGate sl g).nextGate sl e)

/-- The gate passes if its barrier is complete and its due EC, or resume EC, has come. -/
def State.tryPass (s : State) (sid : Nat) : State :=
  match s.dev.slice? sid with
  | some sl =>
    (match sl.passEc with
      | some e => if sl.barrier ∧ sl.running ∧ e ≤ s.dev.now then s.passGate sl e else s
      | none => s)
  | none => s

/-! ### Frames ended by a repair (14 R435) -/

/-- Every frame in flight ends: its words go out at once with MEM_FAULT and HELD and no lateness, and the tally slots are free. -/
def Dev.endFrames (d : Dev) (sid : Nat) : Dev :=
  match d.slice? sid with
  | some sl =>
    -- no word waits any more for a result of these frames
    let d := d.updSlice sid (fun x => { x with
      pushed := sl.fo.pushes.foldl (fun m p => mapPut m (p.2.2.1 * 32 + p.2.2.2) sl.unskipped.length) x.pushed, pushRows := [] })
    let d := sl.frames.foldl (fun d fr =>
      ((d.emitFrame sl fr.n 0 0 (fr.flags.map (fun w => w ||| (2 ^ lwMemFault + 2 ^ lwHeld)))).updSlice sid
        (fun x => { x with frames := x.frames.filter (fun f => f.n != fr.n) })).egressFlush sid) d
    sl.coresOf.foldl (fun d k => d.updCore k (fun c => { c with tally := { c.tally with slots := [] } })) d
  | none => d

/-- Whether a slice waits at the held gate of a repair of this device (14 R433). -/
def Slice.repairStop (sl : Slice) : Bool := sl.dueSeen && (sl.at sl.gate).any (fun r => r.own && r.causes.contains 8)

/-- Whether a slice waits at the held gate of another device's relaunch repair (14 R435). -/
def Slice.peerStop (sl : Slice) : Bool := sl.peerRelaunch && sl.dueSeen && (sl.at sl.gate).any (fun r => r.resume.isNone)

/-- due(h) of a repair: its stop begins, and for a relaunch of any device of the slice the frames end (14 R434, R435). -/
def Dev.repairGate (d : Dev) (sid : Nat) : Dev :=
  match d.slice? sid with
  | some sl =>
    if sl.repairStop then
      let rs := mapIf (fun (r : Repair) => r.slice == sid && r.stopEc.isNone) (fun r => { r with stopEc := some sl.due }) d.hlth.repairs
      let d : Dev := { d with hlth := { d.hlth with repairs := rs } }
      if sl.peerStop ∨ rs.any (fun r => r.slice == sid && r.relaunch) then d.endFrames sid else d
    else if sl.peerStop then d.endFrames sid else d
  | none => d

/-! ### Due gates -/

/-- A slice begins to wait at a held gate on this device (Table 11.11). -/
def Dev.heldEvent (d : Dev) (sid : Nat) : Dev :=
  match d.slice? sid with
  | some sl =>
    let ahead : Bool := match sl.passEc with | some e => decide (d.now < e) | none => true
    (match sl.at sl.gate with
      | r :: _ => if sl.waiting && ahead then d.event 11 1 [sid, r.origin, r.holdId, r.cause] else d
      | [] => d)
  | none => d

/-- A held gate whose due EC has come is waited at; the gate whose barrier is not complete at its due EC, or resume EC,
raises a late-gate hold (R358, Table 11.2). -/
def Dev.gateDue (d : Dev) (sid : Nat) : Dev :=
  match d.slice? sid with
  | some sl =>
    if !sl.armed ∨ d.now < sl.due then d
    else
      let d := if sl.dueSeen then d
        else
          let d := d.updSlice sid (fun x => { x with dueSeen := true })
          (d.heldEvent sid).repairGate sid
      match sl.passEc with
      | some e =>
        if !sl.barrier ∧ e ≤ d.now ∧ sl.lateAt ≠ some e then
          (d.updSlice sid (fun x => { x with lateAt := some e })).raiseHold sid 0
        else d
      | none => d
  | none => d

def execGateDue (slice : SliceId) (s : State) : Res := ok ((s.onDev (fun d => d.gateDue slice.toNat)).tryPass slice.toNat)

/-- The die barrier completes once every core of the slice has arrived: own holds that wait for it clear (R354, Table 11.2). -/
def Dev.barrierDone (d : Dev) (sid : Nat) : Dev :=
  match d.slice? sid with
  | some sl =>
    let d := d.updSlice sid (fun x => { x with barrier := true })
    let d := if sl.raises.any (fun r => r.openOwn && r.gate == sl.gate) then (d.clearCause sid 0).clearCause sid 1 else d
    (if sl.gate = 0 then d.clearCause sid 7 else d).heldEvent sid
  | none => d

def execBarrierComplete (slice : SliceId) (s : State) : Res :=
  ok (match s.dev.slice? slice.toNat with
      | some sl =>
        if sl.running ∧ !sl.barrier ∧ sl.progCores.all sl.arrived.contains then
          (s.onDev (fun d => d.barrierDone sl.id)).tryPass sl.id
        else s
      | none => s)

end Sys2Proof.Machine
end

