-- ==== Sys2Proof/Machine/Vault.lean ====
section
/-! DEFINITION. Loads and movers, pseudo-channels, and a device that fails for compute (09 sections 2 to 6; 14 R440). -/

namespace Sys2Proof.Machine

/-! ### Pseudo-channels (R314) -/

/-- The hourly check of a pseudo-channel's corrected symbols against PC_CORR_LIMIT × 1,024: those of the hour's reads, and `corrected` more
that the stack's own scrub met. -/
def execPcCorrectionCheck (stack : Fin 12) (pc : Fin 62) (corrected : Nat) (unreadable : List BadBlock) (s : State) : Res :=
  ok (s.onDev (fun d =>
    let id := stack.val * 64 + pc.val
    let hour : Bool := match d.vault.corr.find? (fun x => x.1 == id) with
      | some (_, _, t) => decide (t + 3600000000000 ≤ d.time.ticks)
      | none => true
    if !hour ∨ d.fld (fStackState stack) = 3 then d
    else
      let d := d.symbols stack pc corrected
      let n := match d.vault.corr.find? (fun x => x.1 == id) with | some (_, n, _) => n | none => 0
      let d : Dev := { d with vault := { d.vault with
        corr := d.vault.corr.filter (fun x => x.1 != id) ++ [(id, 0, d.time.ticks)] } }
      if d.fld ⟨regAddr 14 4, 15, 8⟩ * 1024 < n then d.retirePc stack pc unreadable else d))

/-! ### A slice's launch is set (01 R36, R39; 09 R327) -/

/-- Gate 0 of a slice is due at `e`: frames, gates, holds and pull points begin again (01 R39, R40; 12 R392); T and POLICY are those of the
last start (12 R388), and a recording that began before takes this launch EC (12 R400). -/
def Dev.armLaunch (d : Dev) (sid e : Nat) : Dev :=
  let d := d.updSlice sid (fun x => { x with
    launched := true, running := false, launchAt := some e, launchEc := e, gate := 0, due := e, dues := [], s0 := 0, modes := [],
    arrived := [], barrier := false, dueSeen := false, lateAt := none, raises := x.early, early := [], stretches := 0, lastSpan := 0, frames := [],
    peerRelaunch := false, kSkip := 0, skipT := (x.start.map (fun b => b.t.toNat)).getD x.skipT, policy := (x.start.map (fun b => b.policy.toNat)).getD x.policy,
    framesDone := [], premarks := [], pulls := x.fo.pullRuns, pushed := [], pushRows := [], unskipped := [],
    chanUsed := [], chanOwed := [], boundary := false, stopping := none })
  { d with tel := { d.tel with
    streams := mapIf (fun st => st.slice == sid) (fun st => { st with shards := [] }) d.tel.streams,
    recs := mapIf (fun r => r.slice == sid && r.running && !r.launched) (fun r => { r with launchEc := e }) d.tel.recs } }

/-- The smallest multiple of 1,280 that is at least `e` plus RESUME_MARGIN × 10,000 (R327; 14 R436). -/
def Dev.resumeFrom (d : Dev) (e : Nat) : Nat := roundUp (e + d.fld ⟨regAddr 9 4, 7, 4⟩ * 10000) 1280

/-! ### Loads (R319 to R322, R326 to R331) -/

def Dev.load? (d : Dev) (sid : Nat) : Option Load := d.vault.loads.find? (fun l => l.slice == sid)
def Dev.updLoad (d : Dev) (sid : Nat) (f : Load → Load) : Dev :=
  { d with vault := { d.vault with loads := mapIf (fun l => l.slice == sid) f d.vault.loads } }

/-- A slice's clusters are scrubbed in place: isolated until the scrub completes, still the slice's (R326, R330). -/
def Dev.scrubHeld (d : Dev) (sid : Nat) : Dev :=
  (d.clustersIn 1 sid).foldl (fun d c => (d.put (fClState c) 2).haltCluster c) d

/-- A slice is left stopped with no folio; its clusters stay its own and are scrubbed (R329, R330). -/
def Dev.noFolio (d : Dev) (sid : Nat) : Dev :=
  let cls := d.clustersIn 1 sid ++ d.clustersIn 2 sid
  let d := d.scrubHeld sid
  (d.dropRepair sid).updSlice sid (fun x => { x with
    key := 0, fo := { clusters := cls }, launched := false, running := false, launchAt := none, frames := [], raises := [], early := [], pulls := [],
    stopping := none })

/-- A load fails with a cause: 1 uncorrectable, 2 delivery, 3 cluster lost; an entry is SUSPECT on the device that read it (`own`). The first
failure by delivery runs the load once more, in its place in the queue (R329 to R331). -/
def Dev.loadFails (d : Dev) (own : Bool) (sid cause key row : Nat) : Dev :=
  match d.load? sid with
  | some l =>
    let d := (d.bump (regAddr 9 0x28) 1).event 9 1 [sid, key, row, cause]
    let d := if own ∧ cause = 1 then d.suspect key [sid, key, row, cause] else d
    if cause = 2 ∧ !l.retried then
      let d := (d.scrubHeld sid).updLoad sid (fun l => { l with phase := .queued, resumeEc := 0, done := [], sent := [], retried := true })
      let d : Dev := { d with vault := { d.vault with chain := d.vault.chain.filter (fun c => c.slice != sid) } }
      d.updSlice sid (fun x => { x with launchAt := none, raises := [] })
    else (d.dropLoad sid).noFolio sid
  | none => d

/-- The descriptors that name a mover, in the order of the plan. -/
def Load.plan (l : Load) (m : Nat) : List MoverDesc := l.fo.plan.filter (fun x => mdMover x == m)
/-- Rows that a mover moves in all. -/
def Load.rows (l : Load) (m : Nat) : Nat := (l.plan m).foldl (fun a x => a + mdRows x) 0
def Load.doneBy (l : Load) (m : Nat) : Nat := mapGet (fun _ => 0) l.done m

/-- The running descriptor after `n` rows, with the rows of it already moved. -/
def runningDesc : List MoverDesc → Nat → Option (MoverDesc × Nat)
  | [], _ => none
  | x :: t, n => if n < mdRows x then some (x, n) else runningDesc t (n - mdRows x)

/-- The first load whose descriptors for a mover are not all done: the one it works for (R328). -/
def Dev.moverLoad (d : Dev) (m : Nat) : Option Load := d.vault.loads.find? (fun l => decide (l.doneBy m < l.rows m))

/-- The entry key of a descriptor: entry 0 is the folio itself. -/
def Load.entryKey (l : Load) (x : MoverDesc) : Nat :=
  if mdEntry x = 0 then l.key else match l.fo.entries[mdEntry x]? with | some e => e.key | none => 0

/-- Whether a load's clusters are ready for its movers. -/
def Dev.loadSetUp (d : Dev) (l : Load) : Bool :=
  decide (l.phase = .moving) && l.fo.clusters.all (fun c => d.fld (fClState c) == 1 && d.fld (fClSlice c) == l.slice)

/-- A packet of a mover for rows from `i` of a descriptor on, at one hop (R317). -/
def Dev.moverPkt (d : Dev) (l : Load) (x : MoverDesc) (m i k seq : Nat) (rows : List RowData) : Packet :=
  let g := hopDst l.fo x i k
  mkLong { cls := 0, op := 0, slice := l.slice, gen := d.fld (fClGen (graCluster g)), dchip := d.coord, dcl := graCluster g,
           dcore := graCore g, gra := g, len := 8 * rows.length, seq := seq, oparg := 0, schip := d.coord, score := 768 + m,
           squeue := 0, gate := 0, sat := 0, nan := 0, reply := 0, crc := 0 } rows

/-- The packets of a mover not yet acknowledged at every hop, of every load (R322). -/
def Dev.outstanding (d : Dev) (m : Nat) : Nat :=
  d.vault.loads.foldl (fun a l => a + ((l.sent.filter (fun x => x.1 == m)).eraseDups).length) 0

/-- Rows of a descriptor's next packet, from row `i` on: 8 of a stride of 1, fewer at its end, else one (R320). -/
def mdPktRows (x : MoverDesc) (i : Nat) : Nat := if mdDstr x = 1 then min 8 (mdRows x - i) else 1

/-- The record of a chain packet that goes on from a hop; none at the last (R321). -/
def chainOn (slice ctab hop hops : Nat) (p : Packet) : List ChainHold := if hop + 1 < hops then [{ slice := slice, ctab := ctab, hop := hop, hops := hops, pkt := p }] else []

/-- One packet of the running descriptor of a mover (R320 to R322). -/
def Dev.moverSend (d : Dev) (l : Load) (m : Nat) (x : MoverDesc) (i : Nat) : Dev :=
  let e := d.entry? (l.entryKey x)
  let k := mdPktRows x i
  let g := hopDst l.fo x i 0
  let rows := (List.range k).map (fun j => match e with | some e => moverRow (g + j) (e.row (mdRow0 x + i + j)) | none => 0)
  let seq := mapGet (fun _ => 0) l.seq m
  let p := d.moverPkt l x m i 0 seq rows
  let d := (d.send p).updLoad l.slice (fun l => { l with
    done := mapPut l.done m (l.doneBy m + k), seq := mapPut l.seq m ((seq + 1) % 65536),
    sent := l.sent ++ List.replicate (mdDests x) (m, seq) })
  if mdOpc x = 2 then
    { d with vault := { d.vault with chain := d.vault.chain ++ chainOn l.slice (mdCtab x) 0 (mdHops x) p } }
  else d

/-- A mover sends up to `n` packets of its running descriptor, which has the wanted opcode; the symbols corrected in the rows it reads
count (R313). An uncorrectable block fails the load before any row of its packet is sent. A mover whose edge link is fenced serves
nothing (11 R372). -/
def Dev.moverRun (sid m opc : Nat) (read : MoverRead) : Nat → Dev → Dev
  | 0, d => d
  | n + 1, d =>
    match d.moverLoad m with
    | some l =>
      if l.slice ≠ sid ∨ !d.loadSetUp l ∨ 256 ≤ d.outstanding m ∨ d.fenced (clHalf (moverCl m)) then d
      else
        (match runningDesc (l.plan m) (l.doneBy m) with
          | some (x, i) =>
            if mdOpc x ≠ opc then d
            else
              let key := l.entryKey x
              let lo := mdRow0 x + i
              let hi := lo + mdPktRows x i
              let d := match d.entry? key with | some e => d.symbolsIn e read.fixed lo hi | none => d
              let own := match d.entry? key with | some e => e.bad | none => []
              let hit := (own ++ (match read.bad with | some b => [b.row.toNat * 8 + b.block.val] | none => [])).find?
                (fun b => decide (lo ≤ b / 8) && decide (b / 8 < hi))
              (match hit with
                | some b =>
                  let d := ((d.bump (regAddr 9 0x20) 1).noteBad key b).loadFails true sid 1 key (b / 8)
                  (match d.entry? key with
                    | some e => d.loseBlock e.parts b (match read.bad with | some f => f.copy | none => [])
                    | none => d)
                | none => Dev.moverRun sid m opc read n (d.moverSend l m x i))
          | none => d)
    | none => d

/-- A mover's turn; late flits count where it sends (07 R233). -/
def Dev.moverTurn (d : Dev) (sid m opc n : Nat) (read : MoverRead) : Dev :=
  let t := Dev.moverRun sid m opc read n d
  if t.net.flight.length = d.net.flight.length then t else t.deferred 0 read.late

def execMoverLoad (slice : SliceId) (mover : Fin 24) (n : Nat) (read : MoverRead) (s : State) : Res :=
  ok (s.onDev (fun d => d.moverTurn slice.toNat mover 1 n read))

def execMoverChain (slice : SliceId) (mover : Fin 24) (n : Nat) (read : MoverRead) (s : State) : Res :=
  ok (s.onDev (fun d => d.moverTurn slice.toNat mover 2 n read))

/-- A chain packet whose rows have landed at its hop goes on to the next (R321). -/
def execChainForward (slice : SliceId) (hop : Fin 16) (p : Packet) (s : State) : Res :=
  ok (s.onDev (fun d =>
    match d.vault.chain.find? (fun c => c.slice == slice.toNat && c.hop == hop.val && c.pkt == p), d.load? slice.toNat with
    | some c, some l =>
      if !c.granted then d
      else
        let rest : Dev := { d with vault := { d.vault with chain := eraseFirst (fun x => x == c) d.vault.chain } }
        let h := longHdr p.hdr
        (match l.fo.hop c.ctab (c.hop + 1) with
          | some k =>
            let cl := k.core / 8
            let core := if graSpace h.gra = 1 then 0 else k.core % 8
            let g := mkGra (graSpace h.gra) cl core (graRow h.gra)
            let q := mkLong { h with gen := d.fld (fClGen cl), dcl := cl, dcore := core, gra := g } (flitRows (h.len / 8) p.payload)
            ({ rest with vault := { rest.vault with chain := rest.vault.chain ++ chainOn c.slice c.ctab (c.hop + 1) c.hops q } } : Dev).send q
          | none => rest)
    | _, _ => d))

/-- An acknowledgement at a mover: one hop of one packet has answered; a nonzero STATUS fails the load (R322, R331). -/
def Dev.ackMover (d : Dev) (k : ShortPkt) : Dev :=
  let m := k.dcl * 8 + k.dcore - 768
  let st := bits k.arg0 15 8
  match d.load? k.slice with
  | some l =>
    if !l.sent.contains (m, bits k.arg0 31 16) then d
    else if st ≠ 0 then d.loadFails true k.slice 2 0 0
    else d.updLoad k.slice (fun l => { l with sent := eraseFirst (fun x => x == (m, bits k.arg0 31 16)) l.sent })
  | none => d

/-- An acknowledgement reaches its sender, a core or a mover (07 R244; 09 R331). -/
def execPacketAcknowledgement (f : Flit) (s : State) : Res :=
  ok (shortArrive 0 f s (fun k s =>
    if k.dcl < 72 then shortDeliver k s (ackCore k) else s.onDev (fun d => d.ackMover k)))

/-! ### The load sequence (Table 9.6) -/

/-- t₀: the stop and the evictions are complete. The slice's clusters are isolated and scrubbed, those it no longer needs
released; a needed cluster that is withdrawn fails the load (R326, R329). A resume EC that the start gave is the launch EC from
here on (R327; 01 R37). -/
def Dev.loadBegin (d : Dev) (sid : Nat) : Dev :=
  match d.load? sid, d.slice? sid with
  | some l, some sl =>
    let busy := d.hlth.repairs.any (fun r => r.slice == sid && !r.scrubbed)
    if l.phase ≠ .queued ∨ sl.running ∨ sl.stopping.isSome ∨ sl.killAt.isSome ∨ busy then d
    else if l.fo.clusters.any (fun c => d.fld (fClState c) == 3) then d.loadFails true sid 3 0 0
    else if l.fo.clusters.all (fun c =>
        (d.fld (fClState c) == 0 && !d.fab.genWait.contains c) || (d.fld (fClState c) == 1 && d.fld (fClSlice c) == sid)) then
      let d := ((d.clustersIn 1 sid).filter (fun c => !l.fo.clusters.contains c)).foldl Dev.beginScrub d
      let d := l.fo.clusters.foldl (fun d c => ((d.put (fClState c) 2).put (fClSlice c) sid).haltCluster c) d
      let d := (d.updSlice sid (fun x => { x with fo := l.fo, key := 0 })).updLoad sid (fun l => { l with
        phase := .moving, t0 := d.now, done := [], sent := [] })
      if l.resumeEc = 0 then d else d.armLaunch sid l.resumeEc
    else d
  | _, _ => d

def execLoadBegin (slice : SliceId) (s : State) : Res := ok (s.onDev (fun d => d.loadBegin slice.toNat))

/-- Whether every descriptor has run and every acknowledgement has returned (R322). -/
def Dev.loadDone (d : Dev) (l : Load) : Bool :=
  d.loadSetUp l && (List.range 24).all (fun m => l.doneBy m == l.rows m) && l.sent.isEmpty &&
    d.vault.chain.all (fun c => c.slice != l.slice)

/-- A repair ends; the slice's stop lasted from due(h) to an EC (14 R437; Table 14.8, Table 14.13). -/
def Dev.repairDone (d : Dev) (sid resume : Nat) : Dev :=
  match d.hlth.repairs.find? (fun r => r.slice == sid) with
  | some r =>
    let n := match r.stopEc with | some e => resume - e | none => 0
    let rest := d.hlth.repairs.filter (fun r => r.slice != sid)
    let d : Dev := { d with hlth := { d.hlth with repairs := rest, stopTicks := d.hlth.stopTicks + n } }
    let d := (d.put ⟨regAddr 14 0, 2, 2⟩ (b2n (!rest.isEmpty))).setReg (regAddr 14 0x30) (max (d.reg (regAddr 14 0x30)) (min 0xFFFFFFFF (n / 1000)))
    ((d.setReg (regAddr 14 0x34) (min 0xFFFFFFFF (d.hlth.stopTicks / 1000000))).event 14 4 [sid, n]).auditSelf 11 [sid, n]
  | none => d

/-- The relaunch EC of a repair is known (14 R436, Table 14.5): the largest that any repairing device sends. The cause 8 hold
ends and gate 0 is due there. -/
def Dev.relaunchAt (d : Dev) (sid e : Nat) : Dev :=
  let (last, e) := match d.slice? sid with | some sl => (sl.lastFrame, max e (sl.launchAt.getD 0)) | none => (0, e)
  ((d.repairDone sid e).armLaunch sid e).event 14 5 [sid, e, last]

/-- The coordinates of the devices of a slice, weighed by x + 16y + 256z (R325). -/
def coordWeight (c : Nat) : Nat := bits c 11 8 + 16 * bits c 7 4 + 256 * bits c 3 0
/-- Whether this device is the coordinator among a slice's devices. -/
def Dev.coordinates (d : Dev) (sl : Slice) : Bool := sl.gens.all (fun x => decide (coordWeight d.coord ≤ coordWeight x.1))

/-- A load is complete and its resume EC known: LOAD_DONE reports it (R327, R336). -/
def Dev.loadFinish (d : Dev) (l : Load) (e : Nat) : Dev :=
  let d := (d.dropLoad l.slice).updSlice l.slice (fun x => { x with key := l.key, reloaded := l.retried })
  let d := if l.resumeEc ≠ 0 ∧ (d.slice? l.slice).any (fun x => x.launchAt.isSome) then d else d.armLaunch l.slice e
  d.event 9 0 [l.slice, e]

/-- The ready EC of this device (Table 9.6). The resume EC is the start's; else the slice's coordinator sets it, once every device is ready
(R327), and `peers` are the ready ECs of the others. A relaunch repair's load leads to its relaunch EC (14 R435, R436). -/
def Dev.loadReady (d : Dev) (sid : Nat) (peers : List Nat) : Dev :=
  match d.load? sid, d.slice? sid with
  | some l, some sl =>
    let all := decide (sl.gens.length ≤ peers.length)
    let relaunch := d.hlth.repairs.any (fun r => r.slice == sid)
    if !d.loadDone l ∨ (!relaunch ∧ l.resumeEc = 0 ∧ d.coordinates sl ∧ !all) then d
    else
      let us := (d.now - l.t0) / 1000
      let d := (d.bump (regAddr 9 0x24) 1).setReg (regAddr 9 0x34) (max (d.reg (regAddr 9 0x34)) us)
      if relaunch then
        let d := (d.dropLoad sid).updSlice sid (fun x => { x with key := l.key, reloaded := l.retried })
        let e := d.resumeFrom d.now
        (d.event 9 0 [sid, e]).relaunchAt sid e
      else if l.resumeEc ≠ 0 then d.loadFinish l l.resumeEc
      else if d.coordinates sl then d.loadFinish l (d.resumeFrom (peers.foldl max d.now))
      else d.updLoad sid (fun l => { l with phase := .ready })
  | _, _ => d

/-- The coordinator's resume EC reaches a device that is ready (R327). -/
def Dev.loadResume (d : Dev) (sid e : Nat) : Dev :=
  match d.load? sid with
  | some l => if l.phase = .ready then d.loadFinish l e else d
  | none => d

/-- The load of a slice that spans devices has failed on another one, and so it fails here too; where this device has completed its own and
waits for the launch, the load stands again for that (R329 to R331). -/
def Dev.loadFailed (d : Dev) (sid cause key row : Nat) : Dev :=
  match d.load? sid, d.slice? sid with
  | some _, _ => d.loadFails false sid cause key row
  | none, some sl =>
    if sl.key ≠ 0 ∧ sl.launchAt.isSome ∧ !sl.running ∧ sl.stopping.isNone ∧ !sl.gens.isEmpty then
      let l : Load := { slice := sid, key := sl.key, fo := sl.fo, phase := .ready, resumeEc := 0, retried := sl.reloaded }
      let loads := d.vault.loads ++ [l]
      let d : Dev := ({ d with vault := { d.vault with loads := loads } } : Dev).put ⟨regAddr 9 0, 7, 4⟩ loads.length
      (d.updSlice sid (fun x => { x with key := 0 })).loadFails false sid cause key row
    else d
  | none, none => d

def execLoadReady (slice : SliceId) (news : LoadNews) (s : State) : Res :=
  ok (s.onDev (fun d =>
    match news with
    | .ready peers => d.loadReady slice.toNat (peers.map (fun p => p.toNat))
    | .resume e => d.loadResume slice.toNat e.toNat
    | .failed cause key row => d.loadFailed slice.toNat cause.toNat key.toNat row.toNat))

/-! ### A device failed for compute (14 R440) -/

/-- Every loaded slice is killed, the regions are unclocked, and no step is taken any more. -/
def Dev.deviceFail (d : Dev) : Dev :=
  if d.failed then d
  else
    let d := (d.put ⟨regAddr 14 0, 5, 5⟩ 1).event 14 8 []
    let d := (d.vault.loads.map (fun l => l.slice)).foldl (fun d sid =>
      (d.updLoad sid (fun l => { l with retried := true })).loadFails true sid 3 0 0) d
    let d := (d.slices.map (fun sl => sl.id)).foldl (fun d sid =>
      match d.slice? sid with
      | some sl =>
        let d := d.updSlice sid (fun x => { x with stopping := none })
        if sl.key ≠ 0 then d.killSlice { sl with stopping := none } else (d.releaseClusters sid).endSlice sid
      | none => d) d
    let d := if d.pwr.scrubClock then d.put ⟨regAddr 2 0, 3, 2⟩ (d.fld ⟨regAddr 13 0, 11, 10⟩) else d
    let d : Dev := { d with pwr := { d.pwr with steps := [], rising := none, settled := false, scrubClock := false } }
    ((d.put ⟨regAddr 13 0, 6, 6⟩ 0).setReg (regAddr 2 0x0C) 0).ramp

end Sys2Proof.Machine
end

