-- ==== Sys2Proof/Machine/Start.lean ====
section
/-! DEFINITION. Slice start, stop, kill and launch (12 R388, R389; 09 R323 to R325; 08 R294; 01 R36, R37, R39, R47). -/

namespace Sys2Proof.Machine

/-! ### Checks of a start -/

/-- The refusal of an EC by R36 (01); an EC of 0 for a load means as soon as ready (09 R327). -/
def Dev.ecCode (d : Dev) (e : Nat) (load multi : Bool) (peers : List Nat) : Nat :=
  let asap := load && e == 0
  if !asap ∧ e < d.now + 100000 then 0x0110
  else if !asap ∧ e % 1280 ≠ 0 then 0x0111
  else if multi ∧ d.fld ⟨regAddr 1 0x18, 7, 7⟩ = 0 then 0x0112
  else if !asap ∧ d.now + 60000000000 < e then 0x0114
  else if peers.any (fun p => p != e) then 0x0115
  else 0

/-- The refusal of a folio's fabric needs (08 Table 8.12). A slice of one device has no route of its own to check. -/
def Dev.fabricCode (d : Dev) (sid : Nat) (fo : Folio) (ex : Option Exchange) : Nat :=
  let transits : Bool := match ex with | some x => x.transitsOk | none => true
  let joined : Bool := match ex with | some x => x.joined | none => true
  let demand := fun (f : Nat → Nat → Nat → Bool) => fo.slots.any (fun r => match r with | .demand p n _ k => f p n k | _ => false)
  if demand (fun p _ _ => !d.portUp p || d.fld (fPortSched p) == 0) then 0x0840
  else if demand (fun p n k => decide ((slotsOf (d.entries true p) (.sched sid n)).length < k)) then 0x0841
  else if bits (d.routeReg sid 3) 31 30 ≠ 3 then 0x0842
  else if !transits ∧ fo.slots.any (fun r => match r with | .transit .. => true | _ => false) then 0x0843
  else if 1000 < fo.slotK then 0x0845
  else if !joined then 0x0846
  else 0

/-- The refusal of an entry by the directory (Table 9.5): a folio and every shard it names. -/
def Dev.dirCode (d : Dev) (key : Nat) : Nat :=
  match d.entry? key with
  | none => 0x0940
  | some e =>
    if !e.folio then 0x0940
    else
      let shards : List (Option Entry) := match e.fo with | some fo => (fo.entries.drop 1).map (fun (r : EntryRec) => d.entry? r.key) | none => []
      if shards.any (fun (x : Option Entry) => match x with | some y => y.folio | none => true) then 0x0940
      else
        let st := e.state :: shards.filterMap (fun (x : Option Entry) => x.map (fun (y : Entry) => y.state))
        if st.contains EntryState.suspect then 0x0941 else if st.contains EntryState.arriving then 0x0942 else 0

/-- Whether a slice is an eviction candidate (R324). -/
def Dev.evictable (d : Dev) (sl : Slice) : Bool :=
  let pinned := match d.entry? sl.key with | some e => e.pin | none => false
  let stopped := !sl.launched && !sl.running
  let idle := sl.key != 0 && d.tel.streams.all (fun st => !(st.slice == sl.id && st.dir == 0)) &&
    decide (sl.idleSince + d.fld ⟨regAddr 9 4, 15, 8⟩ * 1000000000 ≤ d.now)
  d.fld ⟨regAddr 9 4, 2, 2⟩ == 1 && !pinned && (stopped || idle)

/-- The slices that hold a cluster a folio needs, other than the slice itself. -/
def Dev.holders (d : Dev) (sid : Nat) (fo : Folio) : List Slice :=
  d.slices.filter (fun sl => sl.id != sid && (sl.fo.clusters.any fo.clusters.contains ||
    (match d.load? sl.id with | some l => l.fo.clusters.any fo.clusters.contains | none => false)))

/-- The sum of U over the eviction set of a folio; none where a cluster is withdrawn or not to be had (R324). -/
def Dev.evictSum (d : Dev) (sid : Nat) (fo : Folio) : Option Nat :=
  let hs := d.holders sid fo
  if fo.clusters.any (fun c => d.fld (fClState c) == 3) ∨ hs.any (fun sl => !d.evictable sl) then none
  else some (hs.foldl (fun a sl => a + (match d.entry? sl.key with | some e => d.useOf e | none => 0)) 0)

/-- One variant's outcome: its folio, and the eviction sum or the first failing code, with the section and item of a load
check (R388). -/
structure Variant where
  key : Nat
  fo : Folio
  res : Except (Nat × Option Fail) Nat

/-- The folios whose resources count beside a folio: those loaded and those of queued loads, but for the slice itself and its eviction set
(R324; 10 R345). -/
def Dev.beside (d : Dev) (sid : Nat) (fo : Folio) : List Folio :=
  let out := fun (id : Nat) => id == sid || (d.holders sid fo).any (fun h => h.id == id)
  (d.slices.filter (fun sl => !out sl.id)).map (fun sl => sl.fo) ++
    (d.vault.loads.filter (fun l => l.phase == .queued && !out l.slice)).map (fun l => l.fo)

/-- One variant, of index `i`, checked in the order of R388: R36, Table 8.12, Table 9.5, Table 10.9. -/
def Dev.variant (d : Dev) (b : StartReq) (load : Bool) (i key : Nat) : Variant :=
  let sid := b.slice.toNat
  let e := d.entry? key
  let fo := match e with | some e => e.fo.getD {} | none => {}
  let peers := match b.exchange with | some x => x.peers | none => []
  let ec := if load then b.resumeEc.toNat else b.launchEc.toNat
  let c36 := d.ecCode ec load (decide (1 < fo.devCount)) (peers.map (fun p => p.launchEc.toNat))
  let c8 := if e.any (fun e => e.fo.isSome) then d.fabricCode sid fo b.exchange else 0
  let c9 := d.dirCode key
  let members := peers.length + 1
  let setBad := decide (fo.devCount < members) || peers.any (fun p => (p.setIds.getD i 0).toNat != fo.setId)
  let row := match e with | some e => e.row | none => fun _ => 0
  let rows := match e with | some e => e.rows | none => 0
  let fail := fun (c : Nat) (f : Option Fail) => (Variant.mk key fo (.error (c, f)))
  if c36 ≠ 0 then fail c36 none
  else if c8 ≠ 0 then fail c8 none
  else if c9 ≠ 0 then fail c9 none
  else
    match d.evictSum sid fo with
    | none => fail 0x0943 none
    | some u =>
      if load ∧ 8 ≤ d.vault.loads.length then fail 0x0944 none
      else if 1 < fo.devCount ∧ members < fo.devCount then fail 0x0945 none
      else
        match loadFail d row rows fo (d.beside sid fo) (some ⟨sid, setBad⟩) with
        | some f => fail f.1 (some f)
        | none => ⟨key, fo, .ok u⟩

/-- Whether every peer of the slice holds the same SET_ID for a variant, and their eviction sums for it. -/
def peerSum (ex : Option Exchange) (i : Nat) : Option Nat :=
  match ex with
  | none => some 0
  | some x => x.peers.foldl (fun a p => match a, p.hosts.getD i none with
      | some s, some u => some (s + u.toNat)
      | _, _ => none) (some 0)

/-- The variant chosen: the smallest total sum, ties to the lowest index (R324, R325). -/
def chooseVariant (ex : Option Exchange) : List (Variant × Nat) → Option (Variant × Nat × Nat)
  | [] => none
  | (v, i) :: t =>
    let rest := chooseVariant ex t
    match v.res, peerSum ex i with
    | .ok u, some p =>
      (match rest with
        | some (w, j, s) => if s < u + p then some (w, j, s) else some (v, i, u + p)
        | none => some (v, i, u + p))
    | _, _ => rest

/-- The refusal of the device with the smallest x + 16y + 256z among those that refuse: its coordinate, code and load check (10 R347). -/
def firstRefusal : List (Nat × Nat × Option Fail) → Option (Nat × Nat × Option Fail)
  | [] => none
  | (c, k, f) :: t =>
    match firstRefusal t with
    | some r => if k ≠ 0 ∧ coordWeight c ≤ coordWeight r.1 then some (c, k, f) else some r
    | none => if k ≠ 0 then some (c, k, f) else none

/-- What another device's answer refuses; a code of Table 10.9 comes with the section and the item that failed there. -/
def peerRefusal (p : PeerAnswer) : Nat × Nat × Option Fail :=
  (p.coord.toNat, p.code.toNat,
    if 0x0A00 ≤ p.code.toNat ∧ p.code.toNat ≤ 0x0A32 then some (p.code.toNat, p.sec.toNat, p.item.toNat) else none)

/-! ### Effects of a start -/

/-- One slice of the eviction set goes: stopped at a frame boundary, or by a kill where it waits at a held gate, then released
(R324; 11 R363). -/
def Dev.evict (d : Dev) (sl : Slice) : Dev :=
  let d := (d.bump (regAddr 9 0x2C) 1).event 9 3 [sl.id]
  if sl.running ∧ sl.waiting then d.updSlice sl.id (fun x => { x with stopping := some 3, killAt := some d.now })
  else if sl.running then (d.dropLoad sl.id).updSlice sl.id (fun x => { x with stopping := some 3 })
  else ((d.releaseClusters sl.id).dropLoad sl.id |>.closeStreams (fun st => st.slice == sl.id)).endSlice sl.id

/-- A load of a variant is queued for a slice, after the evictions and the stop that it needs (R323, R328). -/
def Dev.startLoad (d : Dev) (sid : Nat) (v : Variant) (resumeEc : Nat) : Dev :=
  let d := (d.holders sid v.fo).foldl Dev.evict d
  let l : Load := { slice := sid, key := v.key, fo := v.fo, resumeEc := resumeEc }
  let loads := d.vault.loads.filter (fun x => x.slice != sid) ++ [l]
  let d := ({ d with vault := { d.vault with loads := loads } } : Dev).put ⟨regAddr 9 0, 7, 4⟩ loads.length
  let same := fun (a : Nat × Nat) => d.tel.recs.any (fun r => r.id == a.1 && r.key == v.key)
  let d : Dev := { d with tel := { d.tel with armed := d.tel.armed.filter (fun a => a.2 != sid || same a) } }
  match d.slice? sid with
  | some sl =>
    let d := d.updSlice sid (fun x => { x with launched := true, launchAt := none })
    if sl.running ∧ sl.waiting then d.updSlice sid (fun x => { x with stopping := some 2, killAt := some d.now })
    else if sl.running then d.updSlice sid (fun x => { x with stopping := some 2 })
    else d.closeStreams (fun st => st.slice == sid)
  | none => d

/-- A relaunch of the folio that the slice's clusters hold. Where the stop is carried out as a kill, the start becomes a load when the kill
takes effect (R323; 11 R363). -/
def Dev.startRelaunch (d : Dev) (sl : Slice) (e : Nat) : Dev :=
  if sl.running ∧ sl.waiting then d.updSlice sl.id (fun x => { x with stopping := some 1, killAt := some d.now, launchAt := none })
  else if sl.running then d.updSlice sl.id (fun x => { x with stopping := some 1, launchAt := some e })
  else d.armLaunch sl.id e

/-- The named variants with their indices, checked for a relaunch or a load. -/
def Dev.variants (d : Dev) (b : StartReq) (load : Bool) : List (Variant × Nat) :=
  b.keys.zipIdx.map (fun (k, i) => (d.variant b load i k.toNat, i))
/-- Those that the device can host. -/
def hosted (l : List (Variant × Nat)) : List (Variant × Nat) :=
  l.filter (fun v => match v.1.res with | .ok _ => true | .error _ => false)

/-- SLICE_START with the answers of its exchange (R323 to R325; 12 R388). -/
def Dev.sliceStart (d : Dev) (h : MsgHdr) (x : Session) (b : StartReq) : Dev :=
  let sid := b.slice.toNat
  let held := match d.slice? sid with
    | some sl => if sl.key ≠ 0 ∧ b.keys.any (fun k => k.toNat == sl.key) then some sl else none
    | none => none
  let load := held.isNone
  let vs := d.variants b load
  let mine : List (Variant × Nat) := match held with
    | some sl => (vs.filter (fun v => v.1.key == sl.key)).take 1
    | none => vs
  let peers := match b.exchange with | some y => y.peers | none => []
  let own : Nat × Option Fail := match hosted mine, mine with
    | _ :: _, _ => (0, none)
    | [], l =>
      if l.all (fun v => match v.1.res with | .error (c, _) => c == 0x0943 | .ok _ => false) then (0x0943, none)
      else (match l.head? with | some (⟨_, _, .error f⟩, _) => f | _ => (0x0940, none))
  let d := d.auditReq x 6 own.1 [1, sid]
  match firstRefusal ((d.coord, own) :: peers.map peerRefusal) with
  | some (c, code, f) =>
    let d := match f with | some f => d.loadRefused f | none => d
    d.answer h code (match f with | some f => f.2.2 | none => noItem)
      ((if code = 0x0A02 then d.rangeData else []) ++ bytesOf (toLe 2 c))
  | none =>
    match chooseVariant b.exchange (hosted mine) with
    | none => d.answer h 0x0943 noItem d.coordData
    | some (v, i, _) =>
      let d := if (d.slice? sid).isSome then d else { d with slices := d.slices ++ [{ id := sid }] }
      let d := d.updSlice sid (fun y => { y with
        launched := true, start := some b, gens := peers.map (fun p => (p.coord.toNat, p.gen.toNat)) })
      let d := if (d.load? sid).isSome then d.dropLoad sid else d
      let d := match held with
        | some sl => d.startRelaunch sl b.launchEc.toNat
        | none => d.startLoad sid v b.resumeEc.toNat
      d.answer h 0 0xFFFFFFFF (bytesOf (toLe 1 i ++ toLe 1 (b2n load) ++ (if load then [] else toLe 8 b.launchEc.toNat)))

/-- The load of a start that was accepted as a relaunch and whose stop was carried out as a kill: a variant is chosen as for any load, at a
resume EC that R36 no longer admits as soon as ready; where none can be loaded the slice stays without a folio (R323; log entry 42). -/
def Dev.loadAfterKill (d : Dev) (b : StartReq) : Dev :=
  let multi := match b.exchange with | some x => !x.peers.isEmpty | none => false
  let b := if d.ecCode b.resumeEc.toNat true multi [] = 0 then b else { b with resumeEc := 0 }
  match chooseVariant b.exchange (hosted (d.variants b true)) with
  | some (v, _, _) => d.startLoad b.slice.toNat v b.resumeEc.toNat
  | none => d.updSlice b.slice.toNat (fun x => { x with launched := false })

/-- A kill takes effect at its effective EC (06 R223). Where it carries out the stop of a relaunch, the start becomes a load (R323). -/
def execKillEffective (slice : SliceId) (s : State) : Res :=
  ok (s.onDev (fun d =>
    match d.slice? slice.toNat with
    | some sl =>
      (match sl.killAt with
        | some e =>
          if d.now < e then d
          else match sl.stopping, sl.start with
            | some 1, some b =>
              let sl := { sl with stopping := some 2 }
              ((d.updSlice sl.id (fun _ => sl)).killSlice sl).loadAfterKill b
            | _, _ => d.killSlice sl
        | none => d)
    | none => d))

/-- A SLICE_START message. Without the answers of the exchange a start that spans devices waits for them. -/
def msgSliceStart (h : MsgHdr) (b : StartReq) (s : State) : State :=
  s.request h true (fun x d =>
    let sid := b.slice.toNat
    let multi := b.keys.any (fun k => match d.entry? k.toNat with
      | some e => (match e.fo with | some fo => decide (1 < fo.devCount) | none => false)
      | none => false)
    if b.keys.isEmpty ∨ 4 < b.keys.length ∨ 15 < b.t.toNat ∨ 1 < b.policy.toNat ∨ 4095 < sid then
      d.violation x.id h.seq.toNat 0x0C13 0xFFFFFFFF
    else if d.hibernate then (d.auditReq x 6 0x0D42 [1, sid]).reply h 0x0D42
    else if multi ∧ b.exchange.isNone then
      { d with tel := { d.tel with starts := d.tel.starts ++ [(sid, d.time.ticks, x.id, h.seq.toNat)] } }
    else d.sliceStart h x b)

/-- A device of the set has not answered the start exchange within 10 ms (10 R347). -/
def execStartExchangeTimeout (slice : SliceId) (s : State) : Res :=
  ok (s.onDev (fun d =>
    match d.tel.starts.find? (fun x => x.1 == slice.toNat && decide (x.2.1 + 10000000 ≤ d.time.ticks)) with
    | some w =>
      let d : Dev := { d with tel := { d.tel with starts := eraseFirst (fun y => y == w) d.tel.starts } }
      let d := match d.session? w.2.2.1 with | some x => d.auditReq x 6 0x0945 [1, slice.toNat] | none => d
      d.post w.2.2.1 (.result w.2.2.2 0x0945 0xFFFFFFFF d.coordData)
    | none => d))

/-! ### Stop and kill (R329; 11 R363; 12 R389) -/

/-- A slice that stands stopped: the event and the answers (12 R389, Table 12.21). -/
def Dev.stopped (d : Dev) (sid : Nat) : Dev :=
  match d.slice? sid with
  | some sl =>
    let d := d.event 12 10 [sid, sl.lastFrame]
    (sl.stopReq.foldl (fun d (x, q) => d.post x (.result q 0 0xFFFFFFFF [])) d).updSlice sid (fun x => { x with stopReq := [] })
  | none => d

def Dev.sliceStop (d : Dev) (h : MsgHdr) (sl : Slice) : Dev :=
  let req := (h.session.toNat, h.seq.toNat)
  if sl.running ∧ sl.waiting then
    (d.dropLoad sl.id).updSlice sl.id (fun x => { x with killAt := some d.now, stopping := none, killReq := x.killReq ++ [req] })
  else if sl.running then
    (d.dropLoad sl.id).updSlice sl.id (fun x => { x with stopping := some 0, launchAt := none, early := [], stopReq := x.stopReq ++ [req] })
  else
    let d := d.updSlice sl.id (fun x => { x with stopReq := x.stopReq ++ [req] })
    let d := d.closeStreams (fun st => st.slice == sl.id)
    let d := if (d.load? sl.id).isSome then (d.dropLoad sl.id).noFolio sl.id
      else d.updSlice sl.id (fun x => { x with launched := false, launchAt := none, raises := [], early := [] })
    d.stopped sl.id

/-- Whether a slice is loaded, or a load of it is queued or running. -/
def Dev.loaded (d : Dev) (sl : Slice) : Bool := sl.key != 0 || (d.load? sl.id).isSome

def msgSliceStop (h : MsgHdr) (slice : SliceId) (s : State) : State :=
  s.request h true (fun x d =>
    match d.slice? slice.toNat with
    | some sl => if d.loaded sl then (d.auditReq x 6 0 [2, sl.id]).sliceStop h sl
      else (d.auditReq x 6 0x0C38 [2, sl.id]).reply h 0x0C38
    | none => (d.auditReq x 6 0x0C38 [2, slice.toNat]).reply h 0x0C38)

/-- A kill is ordered: its effective EC is that of KILL_EFFECTIVE, no later than 20 µs from now. It ends a start that waits
(R323). -/
def msgSliceKill (h : MsgHdr) (slice : SliceId) (s : State) : State :=
  s.request h true (fun x d =>
    match d.slice? slice.toNat with
    | some sl =>
      if d.loaded sl then
        (d.auditReq x 6 0 [3, sl.id]).updSlice sl.id (fun y => { y with
          killAt := some (match y.killAt with | some e => e | none => d.now), stopping := none, launchAt := none,
          killReq := y.killReq ++ [(h.session.toNat, h.seq.toNat)] })
      else (d.auditReq x 6 0x0C38 [3, sl.id]).reply h 0x0C38
    | none => (d.auditReq x 6 0x0C38 [3, slice.toNat]).reply h 0x0C38)

/-- The stop takes effect once the frames begun before its frame boundary have completed (01 R47). A repair of the slice is left
for its clusters' next window. -/
def Dev.stopDone (d : Dev) (sl : Slice) : Dev :=
  let e := sl.launchAt
  let d := if (d.hlth.repairs.any (fun r => r.slice == sl.id)) then d.dropRepair sl.id else d
  let d := sl.coresOf.foldl (fun d k => d.updCore k CoreSt.halt) d
  let d := d.updSlice sl.id (fun x => { x with running := false, stopping := none, boundary := false, raises := [], launchAt := none })
  match sl.stopping with
  | some 1 => (d.stopped sl.id).armLaunch sl.id (e.getD 0)
  | some 2 => (d.closeStreams (fun st => st.slice == sl.id)).stopped sl.id
  | some 3 =>
    let d := (d.closeStreams (fun st => st.slice == sl.id)).stopped sl.id
    (d.releaseClusters sl.id).endSlice sl.id
  | _ =>
    let d := (d.closeStreams (fun st => st.slice == sl.id)).stopped sl.id
    d.updSlice sl.id (fun x => { x with launched := false })

/-- Whether a relaunch repair has ended the slice's frames at its held gate (14 R435). -/
def Dev.framesEnded (d : Dev) (sl : Slice) : Bool :=
  sl.peerStop || sl.repairStop && d.hlth.repairs.any (fun r => r.slice == sl.id && r.relaunch)

def execStopAtFrameBoundary (slice : SliceId) (s : State) : Res :=
  ok (s.onDev (fun d =>
    match d.slice? slice.toNat with
    | some sl =>
      if sl.running ∧ sl.stopping.isSome ∧ (sl.boundary ∨ d.framesEnded sl) ∧ sl.frames.isEmpty ∧ sl.killAt.isNone then d.stopDone sl
      else d
    | none => d))

/-! ### Launch (01 R39; 03 R94, R118; 04 R131, R138, R164; 05 R177, R199; 06 R205, R215) -/

/-- The start of a lane's generator (03 R94). -/
def rngSeed (seed core lane : Nat) : DWord :=
  let x := BitVec.ofNat 64 seed ^^^ BitVec.ofNat 64 (core * 0x9E3779B97F4A7C15) ^^^ BitVec.ofNat 64 (lane * 0xC2B2AE3D27D4EB4F)
  if x = 0 then 0x2545F4914F6CDD1D else x

/-- A core at launch: registers, queues, counters and staging as the launch sets them. DESIGN CHOICE (log entry 21): both weight planes are
cleared and plane A is active, as R81 states for resets. -/
def launchCore (fo : Folio) (k : Nat) : CoreSt :=
  let rng := (List.range 256).map (fun l => (l, rngSeed fo.srSeed k l))
  match fo.cores.find? (fun r => r.core == k) with
  | some r =>
    let regs := (r.sInit.zipIdx.map (fun (v, i) => (i + 1, BitVec.ofNat 64 v))).filter (fun x => x.2 != 0)
    { s := regs, pc := r.first, first := r.first, last := r.last, rng := rng }
  | none => { rng := rng }

/-- Memory at a launch: rings emptied, listed semaphores zero, pull slots zero (06 R215; 12 R392). -/
def launchMem (s : State) (sl : Slice) : State :=
  let s := sl.coresOf.foldl (fun s k => [0, 1].foldl (fun s j =>
    let g := coreStateGra k j
    s.putRow g (resetRings (readRow s.mem g))) s) s
  let s := sl.fo.semas.foldl (fun s g => s.putRow g 0) s
  sl.fo.pullRuns.foldl (fun s p => let r := ringDesc s p.core p.ring; ringZero s r 0 (ringSlots r)) s

/-- Whether the slice's folio and clusters are in place for its launch. -/
def Dev.launchReady (d : Dev) (sl : Slice) : Bool :=
  sl.launched && !sl.running && sl.launchAt.isSome && sl.stopping.isNone && sl.killAt.isNone && sl.key != 0 && (d.load? sl.id).isNone &&
    sl.fo.clusters.all (fun c => d.fld (fClState c) == 1 && d.fld (fClSlice c) == sl.id)

/-- A recording armed for the slice begins its replay at the launch (12 R401). -/
def Dev.beginReplay (d : Dev) (sid : Nat) : Dev :=
  let old := d.tel.replays.filter (fun r => r.1 != sid)
  let fed := fun (rid : Nat) (sl : Slice) => match d.tel.recs.find? (fun r => r.id == rid) with
    | some r => sl.fo.pullRuns.foldl (fun m p => if r.records.any (fun x => x.index == p.stream) then m ||| 2 ^ p.seq else m) 0
    | none => 0
  match d.tel.armed.find? (fun a => a.2 == sid) with
  | some (rid, _) =>
    ({ d with tel := { d.tel with replays := old ++ [(sid, rid, 0)] } } : Dev).updSlice sid (fun x => { x with replayMask := fed rid x })
  | none => ({ d with tel := { d.tel with replays := old } } : Dev).updSlice sid (fun x => { x with replayMask := 0 })

def execSliceLaunch (slice : SliceId) (s : State) : Res :=
  ok (match s.dev.slice? slice.toNat with
      | some sl =>
        if s.dev.launchReady sl then
          let s := launchMem s sl
          s.onDev (fun d =>
            let d := sl.coresOf.foldl (fun d k => d.setCore k (launchCore sl.fo k)) d
            let d := d.updSlice sl.id (fun x => { x with running := true, launchAt := none, idleSince := x.launchEc })
            let recs := mapIf (fun (r : Recording) => r.slice == sl.id && r.running) (fun r => { r with launched := true }) d.tel.recs
            ({ d with tel := { d.tel with recs := recs } } : Dev).beginReplay sl.id)
        else s
      | none => s)

/-- A "not ready" raise for a launch that is not armed yet: gate 0 of it is held (01 R37). -/
def Dev.raiseEarly (d : Dev) (sid : Nat) : Dev :=
  let (d, h) := d.ownWord sid 0 7 d.now
  let r : Raise := { origin := d.coord, holdId := h, cause := 7, causes := [7], raiseEc := d.now, gate := 0, own := true }
  (((d.updSlice sid (fun x => { x with early := x.early ++ [r] })).bump (regAddr 11 0x08) 1).setReg (regAddr 11 0x24)
    (7 <<< 28 + sid <<< 16 + h)).event 11 0 [sid, d.coord, h, 7]

/-- The launch EC of a slice's next launch, with its folio: of a launch or relaunch that is set, or of a load that was given its resume EC
(01 R36; 09 R327). -/
def Dev.nextLaunch (d : Dev) (sl : Slice) : Option (Nat × Folio) :=
  match sl.launchAt, d.load? sl.id with
  | some e, _ => some (e, sl.fo)
  | none, some l => if l.resumeEc = 0 then none else some (l.resumeEc, l.fo)
  | none, none => none

/-- At launch EC − hold lead × S, a device that is not ready to run gate 0 raises a hold with cause 7 (01 R37): its folio is still loading,
its load or its relaunch waits for the old frames, or its cores have not been released. -/
def execNotReadyCheck (slice : SliceId) (s : State) : Res :=
  ok (s.onDev (fun d =>
    match d.slice? slice.toNat with
    | some sl =>
      (match d.nextLaunch sl with
        | some (e, fo) =>
          if !sl.launched ∨ d.now + fo.holdLead * fo.spacing (d.modeFor sl d.now) < e ∨ sl.stopping = some 0 ∨ sl.stopping = some 3 then d
          else if sl.launchAt.isSome ∧ !sl.running ∧ sl.stopping.isNone then
            (if sl.raises.any (fun r => r.openOwn && r.causes.contains 7) then d else d.raiseHold sl.id 7)
          else if (sl.running ∧ sl.stopping.isNone) ∨ sl.early.any Raise.openOwn then d
          else d.raiseEarly sl.id
        | none => d)
    | none => d))

end Sys2Proof.Machine
end

