-- ==== Sys2Proof/Machine/Epoch.lean ====
section
/-! DEFINITION. References, distribution trees, discipline, sets and pulses (01 sections 1 to 4; 17 R499). -/

namespace Sys2Proof.Machine

/-- A field of EPOCH.STATUS, by its bit (Table 1.7). -/
def fTime (k : Nat) : Fld := ⟨regAddr 1 0x18, k, k⟩
/-- EPOCH.CTRL.REF_SEL (Table 1.4). -/
def fRefSel : Fld := ⟨regAddr 1 8, 5, 4⟩

/-! ### References (R15 to R17) -/

/-- The reference that the generator takes: 0 REFA, 1 REFB; none in holdover. In Auto it stays on REFB until REFA has been
valid for 1 s. -/
def Dev.refPick (d : Dev) (returns : Bool) : Option Nat :=
  let a := d.fld (fTime 0) == 1
  let b := d.fld (fTime 1) == 1
  match d.fld fRefSel with
  | 1 => if a then some 0 else none
  | 2 => if b then some 1 else none
  | 0 =>
    if a && (returns || !b || d.fld (fTime 3) == 1 || d.fld (fTime 2) == 0) then some 0
    else if b then some 1 else none
  | _ => none

/-- The reference in use taken again, with the events and the audit record of a switch. -/
def Dev.refEval (d : Dev) (returns : Bool) : Dev :=
  match d.refPick returns with
  | some r =>
    let d := d.put (fTime 9) 1
    let d := if d.fld (fTime 3) = 1 then (d.put (fTime 3) 0).event 1 2 [] else d
    if d.fld (fTime 2) = r then d else ((d.put (fTime 2) r).event 1 0 []).auditSelf 15 []
  | none =>
    let d := d.put (fTime 9) 0
    if d.fld (fTime 3) = 1 then d else (d.put (fTime 3) 1).event 1 1 []

/-- The bit of EPOCH.STATUS that says a reference is valid. -/
def refBit (r : RefInput) : Nat := match r with | .a => 0 | .b => 1

/-- A reference becomes invalid. -/
def execReferenceInvalid (r : RefInput) (s : State) : Res :=
  ok (if s.dev.fld (fTime (refBit r)) = 1 then s.onDev (fun d => (d.put (fTime (refBit r)) 0).refEval false) else s)

/-- A reference becomes valid. -/
def execReferenceValid (r : RefInput) (s : State) : Res :=
  ok (if s.dev.fld (fTime (refBit r)) = 0 then
        s.onDev (fun d =>
          let d := d.put (fTime (refBit r)) 1
          let d : Dev := match r with | .a => { d with time := { d.time with refASince := d.time.ticks } } | .b => d
          d.refEval false)
      else s)

/-- In Auto, REFA has been valid for 1 s. -/
def execReferenceReturnTimer (s : State) : Res :=
  ok (s.onDev (fun d =>
    if d.fld fRefSel = 0 ∧ d.fld (fTime 0) = 1 ∧ d.time.refASince + 1000000000 ≤ d.time.ticks then d.refEval true else d))

/-! ### Distribution trees (R20, R22) -/

/-- The broadcast of both trees every 1,024 ticks: a fault on the active tree moves the regions to the other; with both
faulty the device has failed. -/
def execEcBroadcast (faultA faultB : Bool) (s : State) : Res :=
  ok (s.onDev (fun d =>
    if d.now % 1024 ≠ 0 then d
    else
      let d := if faultA then d.put (fTime 5) 0 else d
      let d := if faultB then d.put (fTime 6) 0 else d
      let a := d.fld (fTime 5) == 1
      let b := d.fld (fTime 6) == 1
      let t := d.fld (fTime 4)
      if !a && !b then d.deviceFail
      else if t = 0 ∧ !a then ((d.put (fTime 4) 1).event 1 3 []).auditSelf 15 []
      else if t = 1 ∧ !b then ((d.put (fTime 4) 0).event 1 3 []).auditSelf 15 []
      else d))

/-! ### Sets and the step at the first lock (R27, R28, R30) -/

/-- Whether any slice is launched on the device (R29). -/
def Dev.anyLaunched (d : Dev) : Bool := d.slices.any (fun sl => sl.launched)

/-- PWR.NEXT_STEP and PWR.STATUS.STEP_PENDING show the first step that is set (13 Table 13.8, Table 13.9). -/
def Dev.stepRegs (d : Dev) : Dev :=
  let e := match d.pwr.steps with | st :: _ => st.ec | [] => 0
  ((d.setReg (regAddr 13 0x24) (e % 2 ^ 32)).setReg (regAddr 13 0x28) (e / 2 ^ 32)).put ⟨regAddr 13 0, 6, 6⟩ (b2n (!d.pwr.steps.isEmpty))

/-- An EC carried across a change of EC by `delta`. -/
def carry (delta : Int) (e : Nat) : Nat := toField 64 ((e : Int) + delta)

/-- EC set to a value, every pending target carried (R30). `own` is the target of the commit that sets it: commits with the
same target run in this tick after it. -/
def Dev.setEc (d : Dev) (new : Nat) (own : Option Nat) : Dev :=
  let delta : Int := (new : Int) - (d.now : Int)
  let c := carry delta
  let armed := d.mg.armed.map (fun (a : Armed) => if own = some a.target then { a with due := true } else { a with target := c a.target })
  let steps := d.pwr.steps.map (fun (st : StepRec) => { st with ec := c st.ec })
  let lib := d.vault.lib.map (fun (e : Entry) => { e with lastUse := c e.lastUse })
  let slices := d.slices.map (fun (sl : Slice) => { sl with killAt := sl.killAt.map c })
  let hand := d.sec.handover.map (fun (h : Handover) => { h with h := c h.h })
  let act := d.sec.activate.map (fun x => (c x.1, x.2))
  let expiry := if d.fld ⟨regAddr 15 0, 22, 20⟩ = 0 then d.sec.expiry else c d.sec.expiry
  let d : Dev := { d with
    time := { d.time with ec := BitVec.ofNat 64 new }, mg := { d.mg with armed := armed }, pwr := { d.pwr with steps := steps },
    vault := { d.vault with lib := lib }, slices := slices,
    sec := { d.sec with handover := hand, activate := act, expiry := expiry } }
  (d.stepRegs).event 1 7 []

/-- The audit DETAIL of a set: the old value, the new one, and their difference. -/
def setDetail (old new : Nat) : List Nat := [old, new, toField 64 ((new : Int) - (old : Int))]

/-! ### Measurements (R26, R28, R31, R32) -/

/-- EPOCH.SYNC_CFG.BOUND. -/
def Dev.bound (d : Dev) : Nat := d.fld ⟨regAddr 1 0xC, 15, 0⟩

/-- SYNCED by R31 and R28. -/
def Dev.syncedNow (d : Dev) : Bool :=
  d.fld fSrc == 0 ||
    (!d.time.stepWaits && (match d.time.measured with
      | some o => decide (o.natAbs ≤ d.bound) && decide (d.time.ticks < d.time.measTick + 1000000000)
      | none => false))

/-- SYNCED taken again, with its event. -/
def Dev.syncEval (d : Dev) : Dev :=
  let was := d.fld (fTime 7)
  let now := b2n d.syncedNow
  let d := d.put (fTime 7) now
  if was = 1 ∧ now = 0 then d.event 1 4 [] else if was = 0 ∧ now = 1 then d.event 1 5 [] else d

/-- The one step at the first lock: the measured offset is removed at once, and recorded (R27, R28). -/
def Dev.lockStep (d : Dev) (off : Int) : Dev :=
  let old := d.now
  let new := toField 64 ((old : Int) - off)
  let d : Dev := { d with time := { d.time with stepDone := true, stepWaits := false } }
  (d.setEc new none).auditSelf 2 (setDetail old new)

/-- The slew of R26. -/
def slew (off limit : Int) : Int := max (-limit) (min limit (-10 * off))

/-- R32's hold: raised while |offset| exceeds 4 × BOUND, cleared once it is within BOUND. DESIGN CHOICE (log entry 69): a
hold that stands when SRC is committed to FREE stays, since no measurement follows that could clear it. -/
def Dev.timeHolds (d : Dev) (off : Int) : Dev :=
  let ids := (d.slices.filter (fun sl => sl.launched && decide (1 < sl.fo.devCount))).map (fun sl => sl.id)
  if 4 * d.bound < off.natAbs then ids.foldl (fun d sid =>
      match d.slice? sid with
      | some sl => if sl.raises.any (fun r => r.openOwn && r.causes.contains 6) then d else d.raiseHold sid 6
      | none => d) d
  else if off.natAbs ≤ d.bound then ids.foldl (fun d sid => d.clearCause sid 6) d
  else d

/-- A measurement completes with an offset in ticks. -/
def Dev.timeMeasured (d : Dev) (off : Int) : Dev :=
  let d : Dev := { d with time := { d.time with measured := some off, measTick := d.time.ticks } }
  let sat : Int := max (-2147483648) (min 2147483647 off)
  let d := d.setReg (regAddr 1 0x20) (toField 32 sat)
  let d :=
    if !d.time.stepDone then
      (if d.anyLaunched then ({ d with time := { d.time with stepWaits := true } } : Dev) else d.lockStep off)
    else
      let limit := d.fld ⟨regAddr 1 8, 31, 16⟩
      if limit = 0 then d else d.setReg (regAddr 1 0x24) (toField 32 (slew off limit))
  (d.timeHolds off).syncEval

/-- The measurement that stands ready: of the last PPS_IN edge, of the last valid PTP exchange, or of the parent's last time
word, in whole ticks (Table 1.1; R23, R24; 17 R499). -/
def Dev.measurement (d : Dev) : Option Int :=
  match d.fld fSrc with
  | 1 => d.time.ppsOffset
  | 2 => if d.time.ptpFrozen then none else d.time.ptpOffset
  | 3 =>
    let p := d.fld fCur
    if d.parentOk p ∧ (d.time.measured.isNone ∨ d.time.measTick ≤ (d.port p).timeTick) then
      (d.port p).offset.map (fun o => o / 65536)
    else none
  | _ => none

/-- The measurement that stands ready is taken. -/
def Dev.takeMeasurement (d : Dev) : Dev :=
  match d.measurement with
  | some off => ({ d with time := { d.time with ppsOffset := none, ptpOffset := none } } : Dev).timeMeasured off
  | none => d

/-- No measurement within 1 s (R31). -/
def execSyncTimeout (s : State) : Res :=
  ok (if s.dev.fld fSrc ≠ 0 ∧ s.dev.time.measTick + 1000000000 ≤ s.dev.time.ticks then s.onDev Dev.syncEval else s)

/-- The step of a late first lock, at the first EC at which no slice is launched (R28). -/
def execFirstLockStep (s : State) : Res :=
  ok (s.onDev (fun d =>
    match d.time.stepWaits, d.time.measured with
    | true, some off => if d.anyLaunched then d else (d.lockStep off).syncEval
    | _, _ => d))

/-! ### PTP (R23) -/

/-- The active host port (12 Table 12.14). -/
def Dev.activePort (d : Dev) : Nat := d.fld ⟨regAddr 12 0, 1, 1⟩

/-- How PTP messages of this device travel: over the transport of EPOCH.SYNC_CFG.PTP_TRANSPORT, with the VLAN tag when VLAN_EN = 1 and MACsec
protection when MACSEC_EN = 1 (12 R380). -/
def Dev.ptpOut (d : Dev) : PtpVia :=
  { transport := match d.fld ⟨regAddr 1 0xC, 25, 24⟩ with | 0 => .udp6 | 1 => .udp4 | _ => .layer2,
    vlan := d.fld ⟨regAddr 12 4, 6, 6⟩ == 1, macsec := d.fld ⟨regAddr 12 4, 8, 8⟩ == 1 }

/-- The client sends its Delay_Req on the active port once it knows the times of a Sync (DESIGN CHOICE, log entry 76: at once). -/
def Dev.delayReq (d : Dev) (x : PtpRun) : Dev :=
  if x.t1.isSome ∧ x.t2.isSome ∧ x.req.isNone then
    { d with time := { d.time with
      ptp := { x with req := some ⟨d.time.ptpSeq, d.activePort, d.ptpOut⟩ }, ptpSeq := (d.time.ptpSeq + 1) % 2 ^ 16 } }
  else { d with time := { d.time with ptp := x } }

/-- A message of the client's exchange: Sync, Follow_Up, Delay_Resp to the request sent. -/
def Dev.ptpStep (d : Dev) (m : PtpMsg) : Dev :=
  let x := d.time.ptp
  match m with
  | .sync q two t1 t2 => d.delayReq { seq := q.toNat, t1 := if two then none else some t1.toNat, t2 := some t2.toNat }
  | .followUp q t1 => if x.seq = q.toNat ∧ x.t2.isSome then d.delayReq { x with t1 := some t1.toNat } else d
  | .delayResp q t3 t4 =>
    match x.t1, x.t2, x.req with
    | some t1, some t2, some r =>
      if r.seq = q.toNat then
        let off := (diff64 t2 t1 - diff64 t4.toNat t3.toNat) / 2
        { d with time := { d.time with ptp := {}, ptpOffset := some off, ptpFrozen := false } }
      else d
    | _, _, _ => d

/-- Whether a message travels as PTP messages of this device do: over the transport of EPOCH.SYNC_CFG.PTP_TRANSPORT, with the VLAN tag when
VLAN_EN = 1 and MACsec protection when MACSEC_EN = 1 (12 R380). -/
def Dev.ptpVia (d : Dev) (v : PtpVia) : Bool := d.fld ⟨regAddr 1 0xC, 25, 24⟩ != 3 && v == d.ptpOut

def execPtpMessage (hp : HostPort) (domain : BitVec 8) (m : PtpRx) (s : State) : Res :=
  ok (s.onDev (fun d =>
    if d.fld fSrc = 2 ∧ hp.val = d.activePort ∧ domain.toNat = d.fld ⟨regAddr 1 0xC, 23, 16⟩ ∧ d.ptpVia m.via then d.ptpStep m.msg else d))

/-! ### Pulses (R33; 17 R499) -/

/-- The offset of an EC from the nearest whole second. -/
def secondOffset (e : Nat) : Int :=
  if e % 1000000000 < 500000000 then ((e % 1000000000 : Nat) : Int) else ((e % 1000000000 : Nat) : Int) - 1000000000

/-- A rising edge of PPS_IN: used when the last edge used came at least 900 ms before. -/
def execPpsInEdge (s : State) : Res :=
  ok (s.onDev (fun d =>
    let used : Bool := match d.time.ppsUsed with | some t => decide (t + 900000000 ≤ d.time.ticks) | none => true
    if d.fld fSrc = 1 ∧ used then
      { d with time := { d.time with
        ppsTick := d.time.ticks, ppsUsed := some d.time.ticks, ppsOffset := some (secondOffset d.now), ppsMissed := false } }
    else d))

/-- No edge of PPS_IN for 1.1 s while SRC = 1 (Table 1.8). -/
def execPpsMissing (s : State) : Res :=
  ok (s.onDev (fun d =>
    if d.fld fSrc = 1 ∧ !d.time.ppsMissed ∧ d.time.ppsTick + 1100000000 ≤ d.time.ticks then
      ({ d with time := { d.time with ppsMissed := true } } : Dev).event 1 8 []
    else d))

/-- PPS_OUT rises at each EC that is a multiple of 1,000,000,000 while it is enabled. -/
def execPpsOutRise (s : State) : Res :=
  ok (s.onDev (fun d =>
    if d.fld ⟨regAddr 1 8, 6, 6⟩ = 1 ∧ d.now % 1000000000 = 0 then { d with pins := { d.pins with ppsOut := true } } else d))

/-- PPS_OUT falls 100,000 ticks after it rose. -/
def execPpsOutFall (s : State) : Res :=
  ok (s.onDev (fun d =>
    if d.pins.ppsOut ∧ 100000 ≤ d.now % 1000000000 then { d with pins := { d.pins with ppsOut := false } } else d))

end Sys2Proof.Machine
end

