-- ==== Sys2Proof/Machine/Wire.lean ====
section
/-! DEFINITION. Teller datagrams as bytes: the header, the bodies, and their protection by AES-256-GCM (12 R381, R382, R396). -/

namespace Sys2Proof.Machine

/-! ### Bodies -/

/-- An accept body up to SIG (Table 12.4). -/
def acceptBytes (version role flags mask : Nat) (nonce : BitVec 256) (key : PubKey) (cert : List Byte) : List Nat :=
  [version, 0, role, flags] ++ toLe 4 mask ++ toLe 32 nonce.toNat ++ toLe 97 key.toNat ++ toLe 3 0 ++ toLe 2 cert.length ++
    cert.map (fun b => b.toNat)

/-- The bytes of an argument of an event. The spec gives those of the kill event (R389) and a digest its 48; the other arguments take 8, a
role 1 (DESIGN CHOICE, log entry 76). -/
def argWidth (code part i : Nat) : Nat :=
  if code = 0x0C89 then (if i = 0 then 2 else if part = 0 then 8 else 512)
  else if code = 0x0C83 then (if i = 0 then 1 else 48)
  else 8

/-- An EVENT body (R396). -/
def EventMsg.bytes (e : EventMsg) : List Nat :=
  let args := e.args.zipIdx.flatMap (fun (v, i) => toLe (argWidth e.code e.part i) v)
  toLe 2 e.code ++ toLe 2 (b2n e.more) ++ toLe 2 e.part ++ toLe 2 0 ++ toLe 8 e.ec ++ toLe 2 args.length ++ toLe 6 0 ++ args

/-- The bytes of a body. The spec gives a close no layout: its CODE takes 2 bytes (DESIGN CHOICE, log entry 76). -/
def OutBody.bytes : OutBody → List Nat
  | .accept v role flags mask nonce key cert sig => acceptBytes v role flags mask nonce key cert ++ toLe 96 sig.toNat
  | .refuse code lo hi => toLe 2 code ++ [lo, hi] ++ toLe 4 0
  | .close code => toLe 2 code
  | .ack cum bitmap => toLe 8 cum ++ toLe 32 bitmap
  | .error q code item => toLe 8 q ++ toLe 2 code ++ toLe 2 0 ++ toLe 4 item
  | .result q code item data => toLe 8 q ++ toLe 2 code ++ toLe 2 0 ++ toLe 4 item ++ data.map (fun b => b.toNat)
  | .egress _ frame seq flags bytes off crc word data =>
    toLe 8 frame ++ [seq, flags] ++ toLe 2 0 ++ toLe 4 bytes ++ toLe 4 off ++ toLe 4 crc ++ toLe 8 word.toNat ++ data.map (fun b => b.toNat)
  | .event e => e.bytes

/-- The TYPE of a body (Table 12.3), and its STREAM. -/
def OutBody.type : OutBody → Nat
  | .accept .. => 0x02
  | .refuse .. => 0x03
  | .close .. => 0x04
  | .ack .. => 0x05
  | .error .. => 0x06
  | .result .. => 0x07
  | .egress .. => 0x33
  | .event .. => 0x40
def OutBody.stream : OutBody → Nat
  | .egress st .. => st
  | _ => 0

/-! ### Datagrams -/

/-- The 32 header bytes (Table 12.2). -/
def headerBytes (version type session seq ec stream length flags : Nat) : List Nat :=
  toLe 2 0x544C ++ [version, type] ++ toLe 4 session ++ toLe 8 seq ++ toLe 8 ec ++ toLe 2 stream ++ toLe 2 length ++ toLe 2 flags ++ toLe 2 0

/-- The key and the IV of a direction, host to device or device to host (R383). -/
def dirKey (keys : BitVec 704) (fromHost : Bool) : List Nat := ((toLe 88 keys.toNat).drop (if fromHost then 0 else 32)).take 32
def dirIv (keys : BitVec 704) (fromHost : Bool) : List Nat := ((toLe 88 keys.toNat).drop (if fromHost then 64 else 76)).take 12
/-- The nonce of a message (R382). -/
def dirNonce (keys : BitVec 704) (fromHost : Bool) (seq : Nat) : List Nat := xorBytes (dirIv keys fromHost) (toLe 4 0 ++ toBe 8 seq)

/-- A datagram that the device sends: a refusal in clear with a tag of zeros, an accept in clear under its tag, any other body encrypted. -/
def datagram (version session : Nat) (keys : BitVec 704) (seq ec : Nat) (again : Bool) (b : OutBody) : List Nat :=
  let body := b.bytes
  let hd := headerBytes version b.type session seq ec b.stream body.length (b2n again)
  match b with
  | .refuse .. => hd ++ body ++ toLe 16 0
  | .accept .. => hd ++ body ++ gcmTag (aesKeys (dirKey keys false)) (dirNonce keys false seq) (hd ++ body) []
  | _ =>
    let (ct, tag) := gcmSeal (dirKey keys false) (dirNonce keys false seq) hd body
    hd ++ ct ++ tag

/-- The datagrams of a session's messages, and of one sent outside any session that stands. -/
def Session.sentBytes (x : Session) (m : SentMsg) : List Nat := datagram x.version x.id x.keys m.seq m.ec (m.tries != 0) m.body
def Session.looseBytes (x : Session) (m : LooseMsg) : List Nat := datagram x.version x.id x.keys m.seq m.ec false m.body
def LastMsg.bytes (m : LastMsg) : List Nat := datagram m.version m.session m.keys m.msg.seq m.msg.ec false m.msg.body

/-- The Ethernet frame in which a datagram leaves, but for the addresses: the tag and the protection in force, and its bytes with the Ethernet,
IPv6 and UDP headers and the frame check (R376, R381). -/
def Dev.sentFrame (d : Dev) (datagram : List Nat) : HostFrame :=
  let vlan := d.fld ⟨regAddr 12 4, 6, 6⟩ = 1
  let sec := d.fld ⟨regAddr 12 4, 8, 8⟩ == 1
  { vlan := if vlan then some (BitVec.ofNat 12 (d.fld ⟨regAddr 12 8, 11, 0⟩)) else none, macsec := sec,
    bytes := BitVec.ofNat 16 (18 + 40 + 8 + datagram.length + (if vlan then 4 else 0) + (if sec then 32 else 0)) }

/-! ### A datagram as received -/

/-- A little-endian field of a datagram. -/
def fieldOf (l : List Nat) (off n : Nat) : Nat := leNat ((l.drop off).take n)

/-- The plaintext of a datagram of a session, if its tag is right. -/
def Session.opened (x : Session) (l : List Nat) : Option (List Nat) :=
  let n := l.length
  gcmOpen (dirKey x.keys true) (dirNonce x.keys true (fieldOf l 8 8)) (l.take 32) ((l.take (n - 16)).drop 32) (l.drop (n - 16))

/-- The bytes that a body of a TYPE and OP takes (Tables 12.4 to 12.8, R389, R390, R397, R399); none where the spec gives it no layout. -/
def typeLength (type : Nat) (body : List Nat) : Option Nat :=
  let op := body.getD 0 0
  match type with
  | 0x05 => some 40
  | 0x10 => if op = 1 then some 72 else if op = 2 then some (16 + 56 * body.getD 2 0) else if op = 3 then some (32 + fieldOf body 24 4) else none
  | 0x11 => some 16
  | 0x12 => some 16
  | 0x20 => some 56
  | 0x21 => some 8
  | 0x22 => some 8
  | 0x30 => some 14
  | 0x32 => some (max 24 body.length)
  | 0x50 => some 8
  | 0x51 => some (8 + 4 * fieldOf body 2 2)
  | 0x52 => some 16
  | 0x60 => some 8
  | _ => none

/-- The reserved bytes of a body: offset and number (Tables 12.6 to 12.8, R389, R390, R397, R399). -/
def typeReserved (type : Nat) (body : List Nat) : List (Nat × Nat) :=
  match type with
  | 0x10 => if body.getD 0 0 = 1 then [(4, 4), (20, 4)] else if body.getD 0 0 = 2 then [(3, 5)] else [(1, 7)]
  | 0x11 => [(1, 7)]
  | 0x12 => [(1, 7)]
  | 0x20 => [(5, 3)]
  | 0x21 => [(2, 6)]
  | 0x22 => [(2, 6)]
  | 0x30 => [(5, 1)]
  | 0x32 => [(20, 4)]
  | 0x50 => [(1, 1)]
  | 0x51 => [(1, 1)]
  | 0x52 => [(1, 7)]
  | 0x60 => [(4, 4)]
  | _ => []

/-- Whether a field of a body holds a value that its table does not define (R398). -/
def fieldBad (type : Nat) (body : List Nat) : Bool :=
  let at_ := fun (o : Nat) => body.getD o 0
  match type with
  | 0x10 =>
    if at_ 0 = 1 then (at_ 1 != 1 && at_ 1 != 2) || (decide (12 ≤ at_ 2) && at_ 2 != 0xFF)
    else if at_ 0 = 2 then at_ 2 == 0 || decide (150 < at_ 2) else at_ 0 != 3
  | 0x12 => at_ 0 == 0 || decide (4 < at_ 0) || (at_ 0 == 4 && decide (65535 < fieldOf body 8 8))
  | 0x20 => at_ 2 == 0 || decide (4 < at_ 2) || decide (15 < at_ 3) || decide (1 < at_ 4) || decide (4095 < fieldOf body 0 2)
  | 0x30 => decide (2 < at_ 4)
  | 0x50 => fieldOf body 2 2 == 0 || decide (256 < fieldOf body 2 2)
  | 0x51 => fieldOf body 2 2 == 0 || decide (256 < fieldOf body 2 2)
  | 0x60 => at_ 0 == 0 || decide (6 < at_ 0) || (at_ 0 != 6 && (at_ 1 == 0 || decide (16 < at_ 1)))
  | _ => false

/-- The TYPEs that a host sends, with those that an operator alone may send (Table 12.3). -/
def hostTypes : List Nat := [0x04, 0x05, 0x10, 0x11, 0x12, 0x20, 0x21, 0x22, 0x30, 0x31, 0x32, 0x50, 0x51, 0x52, 0x60]
def operatorType (t : Nat) : Bool := decide (0x10 ≤ t) && t != 0x50 && t != 0x51 && t != 0x52

/-- The violation of a datagram whose tag is right, by its header and its body, in the order of Table 12.11; none for one that breaks no rule. -/
def Dev.judge (d : Dev) (x : Session) (l body : List Nat) : Option Nat :=
  let type := l.getD 3 0
  let stream := fieldOf l 24 2
  let long : Bool := match typeLength type body with | some n => n != body.length | none => false
  let reserved := 2 ≤ fieldOf l 28 2 ∨ fieldOf l 30 2 ≠ 0 ∨ (typeReserved type body).any (fun r => fieldOf body r.1 r.2 != 0)
  let ingress := d.tel.streams.any (fun st => st.id == stream && st.session == x.id && (type != 0x32 || st.dir == 0))
  if l.getD 2 0 ≠ x.version then some 0x0C17
  else if !hostTypes.contains type then some 0x0C11
  else if operatorType type ∧ x.role ≠ 1 then some 0x0C10
  else if d.maxBody x < body.length ∨ fieldOf l 26 2 ≠ body.length ∨ long then some 0x0C12
  else if reserved ∨ fieldBad type body then some 0x0C13
  else if (type = 0x31 ∨ type = 0x32) ∧ !ingress then some 0x0C14
  else none

end Sys2Proof.Machine
end

