-- ==== Sys2Proof/Machine/Sessions.lean ====
section
/-! DEFINITION. Opening, acknowledging and closing sessions; recordings and replay (12 sections 3, 7 and 9; 15 R461, R464). -/

namespace Sys2Proof.Machine

/-! ### Opening (R383; 15 R461, R464) -/

/-- The protocol versions that the running image accepts (15 Table 15.4). -/
def Dev.versions (d : Dev) : Nat × Nat :=
  match d.sec.fw with
  | some f => (f.tellerMin.toNat, f.tellerMax.toNat)
  | none => (1, 1)

/-- Bytes 0–191 of a certificate, which its issuer signs, and all of it (15 Table 15.7). -/
def certSigned (c : Cert) : List Nat :=
  toLe 4 c.magic.toNat ++ toLe 2 c.format.toNat ++ [c.kind.toNat, c.role.toNat] ++ toLe 16 c.serial.toNat ++ toLe 16 c.certId.toNat ++
    toLe 48 c.issuer.toNat ++ toLe 97 c.key.toNat ++ toLe 7 c.reserved.toNat
def certBytes (c : Cert) : List Nat := certSigned c ++ toLe 96 c.sig.toNat

/-- An open body up to SIG, and all of it (Table 12.4). -/
def openSigned (o : OpenReq) : List Nat :=
  [o.minVer.toNat, o.maxVer.toNat, o.role.toNat, o.flags.toNat] ++ toLe 4 o.mask.toNat ++ toLe 32 o.nonce.toNat ++ toLe 97 o.key.toNat ++
    toLe 3 o.zero.toNat ++ toLe 2 (288 * o.chain.length) ++ o.chain.flatMap certBytes
def openBytes (o : OpenReq) : List Nat := openSigned o ++ toLe 96 o.sig.toNat
/-- The digest of an open body. -/
def openDigestOf (o : OpenReq) : BitVec 384 := sha384 (bytesOf (openBytes o))

/-- Whether each certificate's ISSUER is the digest of the next one's key. -/
def chained : List Cert → Bool
  | a :: b :: t => a.issuer == keyDigest b.key && chained (b :: t)
  | _ => true

/-- Whether a chain ends at its own root: KIND 3, ROLE 2, self-issued (R464). -/
def selfRooted (l : List Cert) : Bool :=
  match l.getLast? with
  | some c => c.kind == 3 && c.role == 2 && c.issuer == keyDigest c.key
  | none => false

/-- The digest of a chain's last ISSUER. -/
def rootOf (l : List Cert) : BitVec 384 := match l.getLast? with | some c => c.issuer | none => 0

/-- Whether the last ISSUER is the anchor of a role (R461). -/
def Dev.anchored (d : Dev) (role : Nat) (root : BitVec 384) : Bool :=
  match role with
  | 1 => d.sec.opKeys.any (fun k => keyDigest k == root)
  | 2 => d.sec.owners.getLast? == some root
  | 3 => d.sec.makerRoot == root
  | _ => false

/-- Whether an open is a claimant's: an installer chain that ends at its own root on an unclaimed device (R464). -/
def Dev.claims (d : Dev) (o : OpenReq) : Bool := d.sec.owners.isEmpty && o.role == 2 && selfRooted o.chain

/-- Whether a certificate's form holds, its SERIAL admits this device and nothing of it is revoked (R461). -/
def Dev.certOk (d : Dev) (c : Cert) : Bool :=
  c.magic == 0x54524543 && c.format == 1 && c.reserved == 0 && (c.serial == 0 || c.serial == d.sec.serial) &&
    !d.sec.revoked.contains (sha384 (bytesOf (certSigned c))) && !d.sec.revoked.contains (keyDigest c.key)

/-- Whether the chain's signatures and that of the body verify: each certificate's under the key that its ISSUER names, the body's under
the leaf's (R383; 15 R461). -/
def openVerifies (o : OpenReq) : Bool :=
  let named := fun (id : BitVec 384) => (o.chain.map (fun c => c.key) ++ [o.rootKey]).find? (fun k => keyDigest k == id)
  (match o.chain with | c :: _ => signedBy c.key (openSigned o) o.sig | [] => false) &&
    o.chain.all (fun c => match named c.issuer with | some k => signedBy k (certSigned c) c.sig | none => false)

/-- The refusal of an open, 0 for none: version, chain, signature, role, ephemeral key, sessions (Table 12.11; 15 R461). An unconfigured
device takes no operator session (15 R455), as a role that it does not accept, and a reserved bit of the body counts as a reserved byte of
the chain (DEDUCED; log entry 52). -/
def Dev.openSessionCode (d : Dev) (o : OpenReq) : Nat :=
  let (lo, hi) := d.versions
  let leaf := match o.chain with | c :: t => c.kind == 2 && t.all (fun x => x.kind == 3) | [] => false
  let form := o.chain.all d.certOk && o.zero == 0 && o.flags.toNat / 2 == 0
  let roleOk := decide (1 ≤ o.role.toNat) && decide (o.role.toNat ≤ 3)
  if o.maxVer.toNat < lo ∨ hi < o.minVer.toNat ∨ o.maxVer.toNat < o.minVer.toNat then 0x0C01
  else if !leaf ∨ 3 < o.chain.length ∨ !chained o.chain ∨ !form then 0x0C02
  else if roleOk ∧ !d.anchored o.role.toNat (rootOf o.chain) ∧ !d.claims o then 0x0C02
  else if !openVerifies o then 0x0C03
  else if !roleOk ∨ o.chain.any (fun c => c.role != o.role) ∨ (d.bootState = 2 ∧ o.role = 1) then 0x0C04
  else if (ecKey (toLe 97 o.key.toNat)).isNone then 0x0C06
  else if 32 ≤ d.tel.sessions.length then 0x0C05
  else 0

/-- A refusal, sent outside any session. -/
def Dev.refuseOpen (d : Dev) (hp code : Nat) : Dev :=
  let (lo, hi) := d.versions
  { d with tel := { d.tel with refused := d.tel.refused ++ [{ hp := hp, msg := ⟨0, .refuse code lo hi, d.now⟩ }] } }

/-- The digest of the leaf's key. -/
def leafKey (o : OpenReq) : BitVec 384 := match o.chain with | c :: _ => keyDigest c.key | [] => 0

/-- The audit record of an open. -/
def Dev.auditOpen (d : Dev) (o : OpenReq) (code : Nat) : Dev :=
  d.auditRaw 7 o.role.toNat code (BitVec.ofNat 128 (leafKey o).toNat) (auditDetail [o.role.toNat, (leafKey o).toNat])

/-- The session keys and IVs, 88 bytes, from the nonces, the shared secret and the two bodies (R383). -/
def sessionKeys (hostNonce : BitVec 256) (nonce : BitVec 256) (z bodies : List Nat) : BitVec 704 :=
  let prk := hkdfExtract (toLe 32 hostNonce.toNat ++ toLe 32 nonce.toNat) z
  BitVec.ofNat 704 (leNat (hkdfExpand prk ("teller v1 keys".toList.map Char.toNat ++ sha384Bytes bodies) 88))

/-- Whether a port holds its own addresses: in LINK_MODE 1 until they are taken over, in LINK_MODE 0 as the active port that has taken over
none (R379). -/
def Dev.ownsAddr (d : Dev) (p : Nat) : Bool :=
  let x := d.hport p
  x.own && (d.fld ⟨regAddr 12 4, 5, 4⟩ == 1 || (d.activePort == p && !x.taken))

/-- An open that passes: the session is OPENING, its keys are formed and the accept is sent (R383). Its ID is the next one not used since
the last power-up (log entry 28); the device's nonce and ephemeral private key are free values (log entry 14). -/
def Dev.accept (d : Dev) (hp : Nat) (o : OpenReq) : Dev :=
  let (_, hi) := d.versions
  let (k, d) := d.draw
  let (e, d) := d.draw
  let nonce := (Config.freeValue k).setWidth 256
  let priv := 1 + (Config.freeValue e).toNat % (ecN - 1)
  let key : PubKey := BitVec.ofNat 776 (leNat (ecMul priv ecG).bytes)
  let jumbo := bitAt o.flags.toNat 0 && d.fld ⟨regAddr 12 4, 9, 9⟩ == 1
  let ver := min o.maxVer.toNat hi
  let body := acceptBytes ver o.role.toNat (b2n jumbo) o.mask.toNat nonce key d.sec.identity
  let z := match ecKey (toLe 97 o.key.toNat) with | some q => ecdh priv q | none => []
  let x : Session := {
    id := d.tel.nextSession, hp := hp, home := if d.ownsAddr hp then hp else 1 - hp, role := o.role.toNat, claimant := d.claims o && d.sec.owners.getLast? != some (rootOf o.chain),
    root := rootOf o.chain, keyDigest := (leafKey o), version := ver, jumbo := jumbo, mask := o.mask.toNat, openDigest := openDigestOf o,
    keys := sessionKeys o.nonce nonce z (openBytes o ++ body), since := d.time.ticks, lastTick := d.time.ticks,
    loose := [⟨0, .accept ver o.role.toNat (b2n jumbo) o.mask.toNat nonce key d.sec.identity
      (Config.identitySignature (sha384 (bytesOf (openBytes o ++ body)))), d.now⟩] }
  { d with tel := { d.tel with sessions := d.tel.sessions ++ [x], nextSession := d.tel.nextSession + 1 } }

/-- A SESSION_OPEN: the same open again is answered by the same accept; a port in quarantine drops it. -/
def Dev.sessionOpen (d : Dev) (hp : Nat) (o : OpenReq) : Dev :=
  match d.tel.sessions.find? (fun x => !x.open_ && x.openDigest == openDigestOf o) with
  | some x => d.updSession x.id (fun x => { x with loose := x.loose ++ x.loose.take 1 })
  | none =>
    if d.ledgerFull then d.refuseOpen hp 0x0F30
    else
      let code := d.openSessionCode o
      let d := d.auditOpen o code
      if code = 0 then d.accept hp o
      else if code = 0x0C05 then d.refuseOpen hp code
      else
        let d := (d.bump (regAddr 12 0x50) 1).refuseOpen hp code
        if code = 0x0C01 then d else d.unauth hp

def execSessionOpen (hp : HostPort) (o : OpenReq) (s : State) : Res :=
  ok (if s.dev.tel.opened ∧ s.dev.fld ⟨regAddr 12 0, 2 + hp.val, 2 + hp.val⟩ = 0 ∧ s.dev.frameOk o.frame then s.onDev (fun d => d.sessionOpen hp o) else s)

/-! ### Closing (Table 12.5) -/

/-- The host closes its session: an ACK, and its streams close. -/
def msgSessionClose (h : MsgHdr) (s : State) : State :=
  s.request h false (fun x d => d.dropSession x.id (some x.ackBody))

/-- An ACK of the host releases what it names from the window (R384). -/
def Dev.tellerAck (d : Dev) (h : MsgHdr) (cum bitmap : Nat) : Dev :=
  match d.arrive h false with
  | (some x, d) =>
    let acked := fun (m : SentMsg) => decide (m.seq ≤ cum) || (decide (cum < m.seq) && bitAt bitmap (m.seq - cum - 1))
    (d.updSession x.id (fun y => { y with sent := y.sent.filter (fun m => !acked m) }.pump d.sendAt)).seqEnd x.id
  | (none, d) => d

/-! ### Timers (R384, R396; Table 12.5) -/

/-- The first sent message whose interval, RTO doubled by each try, has passed; none while the port is paused. -/
def Dev.retryDue (d : Dev) (x : Session) : Option SentMsg :=
  if d.sendAt.paused.contains x.hp then none
  else x.sent.find? (fun m => decide (m.tick + d.fld ⟨regAddr 12 4, 23, 16⟩ * 10000 * 2 ^ m.tries ≤ d.time.ticks))

def execRetransmitTimeout (session : Word) (s : State) : Res :=
  ok (s.onDev (fun d =>
    match d.session? session.toNat with
    | some x =>
      (match d.retryDue x with
        | some m =>
          if d.fld ⟨regAddr 12 4, 15, 12⟩ ≤ m.tries then d.closeSession x.id 0x0C51
          else
            let again := mapIf (fun (y : SentMsg) => y.seq == m.seq) (fun y => { y with tick := d.time.ticks, tries := y.tries + 1, ec := d.now }) x.sent
            (d.bump (regAddr 12 0x80) 1).updSession x.id (fun y => { y with sent := again })
        | none => d)
    | none => d))

/-- 20 µs after the first message not yet acknowledged. What waited for the end of a pause leaves (R376). -/
def execAckTimer (session : Word) (s : State) : Res :=
  ok (s.onDev (fun d =>
    match d.session? session.toNat with
    | some x =>
      let d := if 0 < x.unacked ∧ x.ackTick + 20000 ≤ d.time.ticks then d.updSession x.id (fun x => x.sendAck d.now) else d
      (d.updSession x.id (fun x => x.pump d.sendAt)).seqEnd x.id
    | none => d))

def execSessionIdleTimeout (session : Word) (s : State) : Res :=
  ok (s.onDev (fun d =>
    match d.session? session.toNat with
    | some x =>
      if x.open_ ∧ x.lastTick + d.fld ⟨regAddr 12 4, 31, 24⟩ * 1000000000 ≤ d.time.ticks then d.closeSession x.id 0x0C52 else d
    | none => d))

def execOpeningTimeout (session : Word) (s : State) : Res :=
  ok (s.onDev (fun d =>
    match d.session? session.toNat with
    | some x => if !x.open_ ∧ x.since + 1000000000 ≤ d.time.ticks then d.dropSession x.id none else d
    | none => d))

/-- A queue that was full has space again: the count lost is reported. -/
def execEventsLost (session : Word) (s : State) : Res :=
  ok (s.onDev (fun d =>
    match d.session? session.toNat with
    | some x =>
      if 0 < x.evLost ∧ x.evq.length < 4096 then (d.updSession x.id (fun y => { y with evLost := 0 })).event 12 11 [x.evLost] else d
    | none => d))

/-! ### Violations (R398) -/

/-- The code of an ERROR for a violation; a failed tag is dropped without one, and a datagram is judged. -/
def Violation.code : Violation → Nat
  | .tag => 0
  | .datagram _ => 0
  | .version => 0x0C17
  | .type => 0x0C11
  | .role => 0x0C10
  | .length => 0x0C12
  | .reserved => 0x0C13
  | .stream => 0x0C14

/-- A datagram whose tag fails: counted, and more than TAG_FAIL_MAX in 1 s close the session. -/
def Dev.tagFail (d : Dev) (id : Nat) : Dev :=
  let d := d.bump (regAddr 12 0x44) 1
  match d.session? id with
  | some x =>
    let l := lastSecond d.time.ticks x.tagFails ++ [d.time.ticks]
    let d := d.updSession id (fun x => { x with tagFails := l })
    if d.limit 31 24 < l.length then d.closeSession id 0x0C53 else d
  | none => d

/-- The violation of a datagram of a session whose tag is right. -/
def Dev.judgeRaw (d : Dev) (x : Session) (l : List Nat) : Option Nat := (x.opened l).bind (fun body => d.judge x l body)

/-- The turn of a message that breaks the protocol. -/
def msgProtocolViolation (h : MsgHdr) (k : Violation) (s : State) : State :=
  s.request h false (fun x d =>
    let code := match k with | .datagram l => d.judgeRaw x (l.map (fun b => b.toNat)) | k => some (Violation.code k)
    match code with
    | some code => d.violation x.id h.seq.toNat code 0xFFFFFFFF
    | none => d)

/-- The header of a datagram as it arrives at a port. -/
def rawHdr (h : MsgHdr) (l : List Nat) : MsgHdr :=
  { h with session := BitVec.ofNat 32 (fieldOf l 4 4), seq := BitVec.ofNat 64 (fieldOf l 8 8), ec := BitVec.ofNat 64 (fieldOf l 16 8) }

/-- A datagram that is none of Teller's: dropped and counted (R378, R398). -/
def Dev.notTeller (d : Dev) (hp : Nat) : Dev := (d.bump (regAddr 12 0x40) 1).unauth hp

/-! ### Recordings (R399 to R401) -/

/-- A recording. -/
def Dev.rec? (d : Dev) (id : Nat) : Option Recording := d.tel.recs.find? (fun r => r.id == id)

/-- Whether a REC_ID lies in 1 to 16; else the message breaks its table (R398). -/
def Dev.replayControl (d : Dev) (h : MsgHdr) (rid : Nat) (act : Dev → Dev) : Dev :=
  d.request h false (fun x d =>
    if rid = 0 ∨ 16 < rid then d.violation x.id h.seq.toNat 0x0C13 0xFFFFFFFF else act d)

/-- The folio key and digest that a slice holds. -/
def Dev.sliceKey (d : Dev) (sid : Nat) : Option (Nat × BitVec 384) :=
  match d.slice? sid with
  | some sl => if sl.key = 0 then none else (d.entry? sl.key).map (fun e => (e.key, e.digest))
  | none => none

/-- RECORD_START. -/
def Dev.recordStart (d : Dev) (h : MsgHdr) (rid sid : Nat) : Dev :=
  let used := d.tel.recs.foldl (fun a x => a + x.bytes) 0
  if d.fld ⟨regAddr 12 0x18, 31, 31⟩ = 0 then d.reply h 0x0C40
  else if d.recRows * 512 < used + 512 then d.reply h 0x0C42
  else if (d.rec? rid).isSome then d.reply h 0x0C43
  else
    let (key, dig) := (d.sliceKey sid).getD (0, 0)
    let (launch, runs) := match d.slice? sid with | some sl => (sl.launchEc, sl.running) | none => (0, false)
    let r : Recording := { id := rid, slice := sid, key := key, digest := dig, launchEc := launch, running := true, launched := runs }
    ({ d with tel := { d.tel with recs := d.tel.recs ++ [r] } } : Dev).reply h 0

def msgRecordStart (h : MsgHdr) (recId : BitVec 8) (slice : SliceId) (s : State) : State :=
  s.onDev (fun d => d.replayControl h recId.toNat (fun d => d.recordStart h recId.toNat slice.toNat))

def msgRecordStop (h : MsgHdr) (recId : BitVec 8) (s : State) : State :=
  s.onDev (fun d => d.replayControl h recId.toNat (fun d =>
    let recs := mapIf (fun (r : Recording) => r.id == recId.toNat) (fun r => { r with running := false }) d.tel.recs
    ({ d with tel := { d.tel with recs := recs } } : Dev).reply h 0))

/-- ARM: refused where the slice's folio differs from the recording's. -/
def msgArm (h : MsgHdr) (recId : BitVec 8) (slice : SliceId) (s : State) : State :=
  s.onDev (fun d => d.replayControl h recId.toNat (fun d =>
    let same : Bool := match d.rec? recId.toNat, d.sliceKey slice.toNat with
      | some r, some (k, dig) => r.key == k && r.digest == dig
      | _, _ => false
    if same then
      let armed := d.tel.armed.filter (fun a => a.2 != slice.toNat) ++ [(recId.toNat, slice.toNat)]
      ({ d with tel := { d.tel with armed := armed } } : Dev).reply h 0
    else d.reply h 0x0C41))

def msgDisarm (h : MsgHdr) (recId : BitVec 8) (slice : SliceId) (s : State) : State :=
  s.onDev (fun d => d.replayControl h recId.toNat (fun d =>
    let armed := d.tel.armed.filter (fun a => a != (recId.toNat, slice.toNat))
    ({ d with tel := { d.tel with armed := armed } } : Dev).reply h 0))

/-- DELETE: the recording leaves, with what is attached to it. -/
def msgRecordingDelete (h : MsgHdr) (recId : BitVec 8) (s : State) : State :=
  s.onDev (fun d => d.replayControl h recId.toNat (fun d =>
    let id := recId.toNat
    let recs := d.tel.recs.filter (fun r => r.id != id)
    let armed := d.tel.armed.filter (fun a => a.1 != id)
    let replays := d.tel.replays.filter (fun r => r.2.1 != id)
    ({ d with tel := { d.tel with recs := recs, armed := armed, replays := replays } } : Dev).reply h 0))

/-- LIST: the stored recordings. The layout of the answer's data is open (log entry 27). -/
def msgRecordingList (h : MsgHdr) (s : State) : State :=
  s.request h false (fun _ d =>
    let l := d.tel.recs.map (fun r => (r.id, r.key, r.digest, r.slice, r.launchEc, r.records.length))
    d.answer h 0 0xFFFFFFFF (Config.recordingList l))

/-- A recorded body enters staging at its shifted arrival EC, as if it arrived then (R401). -/
def Dev.replayFeed (d : Dev) (sid : Nat) : Dev :=
  match d.tel.replays.find? (fun r => r.1 == sid), d.slice? sid with
  | some (_, rid, i), some sl =>
    let next := fun (d : Dev) (l : List (Nat × Nat × Nat)) =>
      ({ d with tel := { d.tel with replays := d.tel.replays.filter (fun r => r.1 != sid) ++ l } } : Dev)
    (match d.rec? rid with
      | none => next d []
      | some r =>
        match r.records[i]? with
        | none => next d []
        | some m =>
          if d.now < m.arrival + sl.launchEc - r.launchEc ∨ !sl.running then d
          else
            let d := next d (if i + 1 < r.records.length then [(sid, rid, i + 1)] else [])
            (match d.streamOf sid 0 m.index with
              | some st => (d.stage st sl m.frame m.shardBytes m.offset m.crc m.data (fun d _ => d)).getD d
              | none => d))
  | _, _ => d

def execReplayFeed (slice : SliceId) (s : State) : Res := ok (s.onDev (fun d => d.replayFeed slice.toNat))

end Sys2Proof.Machine
end

