-- ==== Sys2Proof/Machine/Teller.lean ====
section
/-! DEFINITION. Host ports: links, addresses, failover, flow control and quarantine (12 sections 1, 2 and 8). -/

namespace Sys2Proof.Machine

/-- Fields of TELLER.PORTn (Table 12.20). -/
def fLink (hp : Nat) : Fld := ⟨regAddr 12 (0x20 + 4 * hp), 31, 30⟩
def fRate (hp : Nat) : Fld := ⟨regAddr 12 (0x20 + 4 * hp), 29, 27⟩
def fFec (hp : Nat) : Fld := ⟨regAddr 12 (0x20 + 4 * hp), 26, 26⟩
/-- The other host port. -/
def otherPort (hp : Nat) : Nat := 1 - hp

/-! ### Dropped and echoed packets (R378, R398) -/

/-- A packet that is not Teller's: dropped and counted. -/
def execNonTellerPacket (hp : HostPort) (s : State) : Res :=
  ok (s.onDev (fun d => d.notTeller hp))

/-- An echo request: answered, up to 1,000 a second. -/
def execEchoRequest (hp : HostPort) (s : State) : Res :=
  ok (s.onDev (fun d =>
    let l := lastSecond d.time.ticks (d.hport hp).echoes
    if l.length < 1000 then
      d.updHport hp (fun x => { x with echoes := l ++ [d.time.ticks], answered := x.answered + 1 })
    else d.updHport hp (fun x => { x with echoes := l })))

/-- The quarantine of a port ends. -/
def execQuarantineExpiry (hp : HostPort) (s : State) : Res :=
  ok (s.onDev (fun d =>
    if d.fld ⟨regAddr 12 0, 2 + hp.val, 2 + hp.val⟩ = 1 ∧ (d.hport hp).quarEnd ≤ d.time.ticks then
      ((d.put ⟨regAddr 12 0, 2 + hp.val, 2 + hp.val⟩ 0).put ⟨regAddr 12 (0x20 + 4 * hp.val), 25, 25⟩ 0).updHport hp (fun x => { x with drops := [] })
    else d))

/-! ### Links (R377) -/

/-- The attempts of a port in order: 4 stands for Clause 73, 0 to 3 for C2M at 800, 400, 200 and 100 Gb/s. -/
def Dev.attempts (d : Dev) : List Nat :=
  let speed := d.fld ⟨regAddr 12 4, 2, 0⟩
  let rates := if speed = 4 then [0, 1, 2, 3] else [0, 1, 2, 3].filter (fun r => decide (speed ≤ r))
  match d.fld ⟨regAddr 12 4, 11, 10⟩ with
  | 0 => 4 :: rates
  | 1 => [4]
  | _ => rates

/-- The link of a port comes up at a rate that SPEED allows, and its IPv6 addresses are probed (R376). In dual mode a port that failed takes
back its addresses with their sessions, and PTP returns with PRIMARY (R379). -/
def Dev.linkUp (d : Dev) (hp rate : Nat) : Dev :=
  let d := (((d.put (fLink hp) 2).put (fRate hp) rate).put (fFec hp) 1).event 12 0 [hp]
  let was := (d.hport hp).failed
  let d := d.updHport hp (fun x => { x with failed := false, v6Since := d.time.ticks, dup6 := [] })
  if was ∧ d.fld ⟨regAddr 12 4, 5, 4⟩ = 1 then
    let d := (d.updHport hp (fun x => { x with own := true })).updHport (otherPort hp) (fun x => { x with taken := false })
    let d : Dev := { d with tel := { d.tel with sessions := mapIf (fun x => x.home == hp) (fun x => { x with hp := hp }) d.tel.sessions } }
    if d.fld ⟨regAddr 12 4, 3, 3⟩ = hp then
      ({ d with time := { d.time with ptpFrozen := true, ptp := {}, ptpOffset := none } } : Dev).put ⟨regAddr 12 0, 1, 1⟩ hp
    else d
  else d

/-- Whether the attempt in progress may bring the link up at a rate: Clause 73 at any rate that SPEED allows, C2M at its own. -/
def Dev.tries (d : Dev) (hp rate : Nat) : Bool :=
  let speed := d.fld ⟨regAddr 12 4, 2, 0⟩
  match d.attempts[(d.hport hp).attempt]? with
  | some 4 => decide (rate < 4) && (speed == 4 || decide (speed ≤ rate))
  | some r => r == rate
  | none => false

def execHostLinkUp (hp : HostPort) (rate : BitVec 3) (s : State) : Res :=
  ok (s.onDev (fun d => if d.fld (fLink hp) ≠ 2 ∧ d.tries hp rate.toNat then d.linkUp hp rate.toNat else d))

/-- 500 ms without a page or FEC lock: the next attempt. -/
def execMediaTimeout (hp : HostPort) (s : State) : Res :=
  ok (s.onDev (fun d =>
    let x := d.hport hp
    if d.fld (fLink hp) ≠ 2 ∧ x.attemptTick + 500000000 ≤ d.time.ticks then
      (d.put (fLink hp) 1).updHport hp (fun x => { x with
        attempt := (x.attempt + 1) % d.attempts.length, attemptTick := d.time.ticks })
    else d))

/-- The link of a port goes down. -/
def execHostLinkDown (hp : HostPort) (s : State) : Res :=
  ok (s.onDev (fun d =>
    if d.fld (fLink hp) = 2 then
      let d := ((d.put (fLink hp) 0).put (fRate hp) 7).put (fFec hp) 0
      (d.updHport hp (fun x => { x with
        downTick := d.time.ticks, attempt := 0, attemptTick := d.time.ticks })).event 12 1 [hp.val]
    else d))

/-! ### Failover (R379; 01 R23) -/

/-- The other port takes over what a port holds with the sessions that it carries, announces it, and becomes active where the failed port
was. -/
def Dev.failover (d : Dev) (hp : Nat) : Dev :=
  let q := otherPort hp
  let x := d.hport hp
  let owned := d.ownsAddr hp
  let d := d.updHport q (fun y => { y with
    taken := y.taken || owned, own := y.own || x.taken, failed := false, announced := y.announced + 1 })
  let d : Dev := { d with tel := { d.tel with sessions := mapIf (fun y => y.hp == hp) (fun y => { y with hp := q }) d.tel.sessions } }
  let d := d.updHport hp (fun y => { y with own := false, taken := false, failed := true })
  let d := if d.activePort = hp then
      ({ d with time := { d.time with ptpFrozen := true, ptp := {}, ptpOffset := none } } : Dev).put ⟨regAddr 12 0, 1, 1⟩ q
    else d
  d.event 12 2 [hp]

/-- A port has been down for 10 ms: in LINK_MODE 0 the active port, in LINK_MODE 1 either. The other port must be up. -/
def execFailover (hp : HostPort) (s : State) : Res :=
  ok (s.onDev (fun d =>
    let x := d.hport hp
    let dual := d.fld ⟨regAddr 12 4, 5, 4⟩ == 1
    if d.fld (fLink hp) ≠ 2 ∧ !x.failed ∧ x.downTick + 10000000 ≤ d.time.ticks ∧ d.fld (fLink (otherPort hp)) = 2 ∧
        (dual ∨ d.activePort = hp.val) then d.failover hp
    else d))

/-! ### Addresses (R376; Table 12.17) -/

/-- Whether a port holds an IPv4 or IPv6 address: its own, static or leased, or one taken over. -/
def Dev.addr4 (d : Dev) (p : Nat) : Option Nat :=
  if d.fld ⟨regAddr 12 0xC, 1, 1⟩ = 0 then none
  else if d.fld ⟨regAddr 12 0xC, 31, 31⟩ = 0 then some (d.reg (regAddr 12 0x10))
  else (d.hport p).lease4.map (fun a => a.toNat)
def Dev.addr6 (d : Dev) (p : Nat) : Option Nat :=
  if d.fld ⟨regAddr 12 0xC, 0, 0⟩ = 0 then none
  else if d.fld ⟨regAddr 12 0xC, 30, 30⟩ = 0 then
    some (packFields 32 ((List.range 4).map (fun k => d.reg (regAddr 12 (0x30 + 4 * k)))))
  else (d.hport p).lease6.map (fun a => a.toNat)
/-- The link-local IPv6 address of a port: fe80::/64 with the interface identifier formed from its MAC address (R376; log entry 76). -/
def Dev.linkLocal (d : Dev) (p : Nat) : Nat :=
  let mac := d.reg (regAddr 12 0x28) + d.fld ⟨regAddr 12 0x2C, 15, 0⟩ * 2 ^ 32 + p
  let eui := (mac / 2 ^ 24 ^^^ 0x020000) * 2 ^ 40 + 0xFFFE * 2 ^ 24 + mac % 2 ^ 24
  0xFE80 * 2 ^ 112 + eui
/-- The IPv6 addresses of a port that duplicate address detection has passed: no other node has shown that it uses them in the second after
the probe (R376; log entry 76). -/
def Dev.addrs6 (d : Dev) (p : Nat) : List Nat :=
  let x := d.hport p
  if d.fld ⟨regAddr 12 0xC, 0, 0⟩ = 0 ∨ d.time.ticks < x.v6Since + 1000000000 then []
  else (d.linkLocal p :: (d.addr6 p).toList).filter (fun a => !x.dup6.any (fun b => b.toNat == a))
def Dev.holds4 (d : Dev) (p a : Nat) : Bool :=
  (d.ownsAddr p && d.addr4 p == some a) || ((d.hport p).taken && d.addr4 (otherPort p) == some a)
def Dev.holds6 (d : Dev) (p a : Nat) : Bool :=
  (d.ownsAddr p && (d.addrs6 p).contains a) || ((d.hport p).taken && (d.addrs6 (otherPort p)).contains a)

/-- TELLER.STATUS.ADDR_OK: an address is held, static or leased. -/
def Dev.addrEval (d : Dev) : Dev :=
  let held := [0, 1].any (fun p => (d.addr4 p).isSome || (d.addr6 p).isSome)
  d.put ⟨regAddr 12 0, 0, 0⟩ (b2n held)

/-- A lease gained or lost while its client runs, or a solicitation: an address that the port holds is defended. -/
def Dev.addrMsg (d : Dev) (hp : Nat) (m : AddrMsg) : Dev :=
  let dhcp4 := d.fld ⟨regAddr 12 0xC, 31, 31⟩ == 1 && d.fld ⟨regAddr 12 0xC, 1, 1⟩ == 1
  let dhcp6 := d.fld ⟨regAddr 12 0xC, 30, 30⟩ == 1 && d.fld ⟨regAddr 12 0xC, 0, 0⟩ == 1
  match m with
  | .lease4 a => if dhcp4 then (d.updHport hp (fun x => { x with lease4 := some a })).addrEval else d
  | .lost4 => if dhcp4 then (d.updHport hp (fun x => { x with lease4 := none })).addrEval else d
  | .lease6 a => if dhcp6 then (d.updHport hp (fun x => { x with lease6 := some a, v6Since := d.time.ticks })).addrEval else d
  | .lost6 => if dhcp6 then (d.updHport hp (fun x => { x with lease6 := none })).addrEval else d
  | .solicit4 a => if d.holds4 hp a.toNat then d.updHport hp (fun x => { x with answered := x.answered + 1 }) else d
  | .solicit6 a => if d.holds6 hp a.toNat then d.updHport hp (fun x => { x with answered := x.answered + 1 }) else d
  | .duplicate6 a => d.updHport hp (fun x => if d.time.ticks < x.v6Since + 1000000000 then { x with dup6 := x.dup6 ++ [a] } else x)

def execDhcpNdpArpMessage (hp : HostPort) (m : AddrMsg) (s : State) : Res := ok (s.onDev (fun d => d.addrMsg hp m))

/-- The ticks of a pause: a quantum is 512 bit times at the rate of the link (IEEE 802.1Qbb). -/
def Dev.pauseTicks (d : Dev) (hp quanta : Nat) : Nat :=
  cdiv (quanta * 512) (match d.fld (fRate hp) with | 0 => 800 | 1 => 400 | 2 => 200 | _ => 100)

/-- A priority flow control frame pauses the Teller priority for its quanta, or resumes it with 0: messages that waited leave (R376). -/
def execPriorityFlowControlFrame (hp : HostPort) (priorities : BitVec 8) (quanta : BitVec 16) (s : State) : Res :=
  ok (s.onDev (fun d =>
    let pcp := d.fld ⟨regAddr 12 8, 15, 13⟩
    if d.fld ⟨regAddr 12 4, 7, 7⟩ = 1 ∧ bitAt priorities.toNat pcp then
      let d := d.updHport hp (fun x => { x with
        paused := if quanta = 0 then [] else [(pcp, d.time.ticks + d.pauseTicks hp quanta.toNat)] })
      { d with tel := { d.tel with sessions := d.tel.sessions.map (fun x => x.pump d.sendAt) } }
    else d))

end Sys2Proof.Machine
end

