-- ==== Sys2Proof/Machine/Power.lean ====
section
/-! DEFINITION. Operating modes, steps, park states, the loops, blades, phases and generators (13; 11 R369 to R374; 16 R486). -/

namespace Sys2Proof.Machine

/-! ### Modes (R411; Table 13.9) -/

def fCeiling : Fld := ⟨regAddr 13 0, 13, 12⟩
def fMode : Fld := ⟨regAddr 13 0, 11, 10⟩
def fReqMode : Fld := ⟨regAddr 13 8, 31, 30⟩
def fMaxMode : Fld := ⟨regAddr 13 4, 31, 30⟩
def fReqPark : Fld := ⟨regAddr 13 8, 28, 26⟩
def fAutoUp : Fld := ⟨regAddr 13 8, 29, 29⟩

/-- Whether the loops are paused: an MC handover or takeover (R417; 14 R439). -/
def Dev.paused (d : Dev) : Bool := d.fld ⟨regAddr 13 0, 5, 5⟩ == 1

/-- The effective clock mode: the slowest of REQ_MODE, MAX_MODE and the ceiling (R411). -/
def Dev.effective (d : Dev) : Nat := max (d.fld fReqMode) (max (d.fld fMaxMode) (d.fld fCeiling))

/-- Whether the generator of a mode is locked (16 Table 16.6). -/
def Dev.locked (d : Dev) (m : Nat) : Bool := d.fld ⟨regAddr 2 0, 4 + m, 4 + m⟩ == 1

/-- The fastest locked mode that is no faster than `m` (16 R486). -/
def Dev.available (d : Dev) (m : Nat) : Option Nat := [0, 1, 2].find? (fun k => decide (m ≤ k) && d.locked k)

/-! ### Steps (11 R369; 13 R416, R418) -/

/-- The largest listed spacing of any loaded slice. -/
def Dev.maxSpacing (d : Dev) : Nat :=
  (d.slices.filter (fun sl => sl.key != 0)).foldl (fun a sl => max a (max sl.fo.sSchuss (max sl.fo.sCarve sl.fo.sGlide))) 0

/-- The steps that are set, replaced: slices take their due ECs again, and the rails their voltages (11 R355; R418). -/
def Dev.setSteps (d : Dev) (l : List StepRec) : Dev :=
  (({ d with pwr := { d.pwr with steps := l } } : Dev).stepRegs).respaceAll.ramp
/-- What waits for its rails, replaced (R418). -/
def Dev.setRising (d : Dev) (x : Option (Nat × Nat × Nat × Nat)) : Dev :=
  ({ d with pwr := { d.pwr with rising := x, settled := false } } : Dev).ramp

/-- The earliest step EC that R369 allows after a notice. -/
def Dev.stepEc (d : Dev) (notice : Nat) : Nat :=
  let apart := max 100000 (d.maxSpacing + 1)
  let last := match d.pwr.steps.getLast? with
    | some st => st.ec + apart
    | none => (match d.pwr.lastTick with | some t => d.now + (apart - (d.time.ticks - t)) | none => 0)
  max (d.now + notice) last

/-- A step put in its place by EC. -/
def insertStep (st : StepRec) : List StepRec → List StepRec
  | [] => [st]
  | x :: t => if st.ec < x.ec then st :: x :: t else x :: insertStep st t

/-- The clock mode in force, as PWR.STATUS.MODE keeps it while a scrub in full park runs at Glide (R409). -/
def Dev.clockMode (d : Dev) : Nat := if d.pwr.scrubClock then d.fld fMode else d.mode

/-- The mode and park state after every step that is set. -/
def Dev.planned (d : Dev) : Nat × Nat :=
  match d.pwr.steps.getLast? with
  | some st => (st.mode, st.park)
  | none => (d.clockMode, d.fld fPark)

/-- The park state that holds after the steps set: what a decision on the mode alone keeps. -/
def Dev.parkNow (d : Dev) : Nat :=
  match d.pwr.rising with
  | some (_, p, _, _) => p
  | none => d.planned.2

/-- The steps that stand from a mode on, without those to a faster mode than the one before them; the blade step stays (R416). -/
def downSteps : Nat → List StepRec → List StepRec
  | _, [] => []
  | m, st :: t => if st.blade ∨ m ≤ st.mode then st :: downSteps st.mode t else downSteps m t

/-- Whether a decision at a tick falls in the running sample: not before its first decision, and within 100 µs (R416; log entry 19). -/
def Dev.inSample (d : Dev) (t : Nat) : Bool :=
  match d.pwr.sampleBase with
  | some (t0, _) => decide (t0 ≤ t) && decide (d.time.ticks < t0 + 100000)
  | none => false

/-- The ceiling as it stood before the decisions of the running sample. -/
def Dev.baseCeiling (d : Dev) : Nat :=
  match d.pwr.sampleBase with
  | some (_, c) => if d.inSample d.time.ticks then c else d.fld fCeiling
  | none => d.fld fCeiling

/-- A decision falls in a sample: its first one fixes the ceiling from which the loops of that sample lower. -/
def Dev.markSample (d : Dev) : Dev :=
  if d.inSample d.time.ticks then d
  else { d with pwr := { d.pwr with sampleBase := some (d.time.ticks, d.fld fCeiling) } }

/-- The decisions of the running sample taken back, with their cause bits: they combine with the one that comes now (R416). -/
def Dev.reopen (d : Dev) : Nat × Dev :=
  let mine := fun (st : StepRec) => !st.blade && d.inSample st.decided
  let c1 := (d.pwr.steps.filter mine).foldl (fun c st => c ||| st.causes) 0
  let d := if d.pwr.steps.any mine then d.setSteps (d.pwr.steps.filter (fun st => !mine st)) else d
  match d.pwr.rising with
  | some (_, _, c, t) => if d.inSample t then (c1 ||| c, d.setRising none) else (c1, d)
  | none => (c1, d)

/-- A decision for a mode and a park state, with its cause bits (R416, R418). It combines with the others of its sample. A set step up is
cancelled by a decision for a mode slower than the present one; a step up or an unpark waits for its rails; any other step is set at the
earliest EC that R369 allows. -/
def Dev.decideFor (d : Dev) (target park causes : Nat) : Dev :=
  if d.failed then d
  else
    match d.available target with
    | none => d
    | some m =>
      let (c0, d) := d.markSample.reopen
      let causes := c0 ||| causes
      let d := if d.clockMode < m then d.setSteps (downSteps d.clockMode d.pwr.steps) else d
      let keep : Bool := match d.pwr.rising with | some (rm, rp, _, _) => rm == m && rp == park | none => false
      if keep then d
      else
        let d := d.setRising none
        let (pm, pp) := d.planned
        if pm = m ∧ pp = park then d
        else if m < pm ∨ parkBits park &&& parkBits pp ≠ parkBits pp then d.setRising (some (m, park, causes, d.time.ticks))
        else d.setSteps (d.pwr.steps ++ [{ ec := d.stepEc 20000, mode := m, park := park, causes := causes, decided := d.time.ticks }])

/-- A decision on the mode, in the present park state. -/
def Dev.decideMode (d : Dev) (causes : Nat) : Dev := d.decideFor d.effective d.parkNow causes

/-- The rails have settled after a rise: the step EC is set at least 60,000 ticks after the decision (R418). -/
def Dev.railsUp (d : Dev) : Dev :=
  match d.pwr.rising with
  | some (m, p, c, t) =>
    let d := d.setRising none
    if d.locked m ∧ !d.failed then
      d.setSteps (d.pwr.steps ++ [{
        ec := d.stepEc (max 1 (60000 - (d.time.ticks - t))), mode := m, park := p, causes := c, decided := t }])
    else d
  | none => d

/-- Every rail reports that it has settled. While a step is set the rails have not begun to rise; while a handover pauses the MC the report
waits for it (R417, R418). -/
def execVcoreSettled (s : State) : Res :=
  ok (s.onDev (fun d =>
    if d.pwr.rising.isNone ∨ !d.pwr.steps.isEmpty ∨ !d.railsSettled then d
    else if d.paused then { d with pwr := { d.pwr with settled := true } }
    else d.railsUp))

/-! ### Park and unpark (11 R371 to R374; 13 R420, R421) -/

/-- The regions of a set of halves: region r is row × 2 + half (02 R65). -/
def regionMask (halves : Nat) : Nat :=
  (List.range 24).foldl (fun a r => if bitAt halves (r % 2) then a + 2 ^ r else a) 0
/-- Whether a cluster lies in a set of halves. -/
def inHalves (halves cl : Nat) : Bool := bitAt halves (clRegion cl % 2)

/-- A cluster returns stale: it is scrubbed under a new generation before any use (14 R441; 11 R374). -/
def Dev.staleCluster (d : Dev) (cl : Nat) : Dev :=
  if 2 ≤ d.fld (fClState cl) then d else (d.put (fClSlice cl) 0).beginScrub cl

/-- A change of park state at its step EC: fences and regions of the halves parked, and clocks and scrubs of the halves that
return. -/
def Dev.parkTo (d : Dev) (p : Nat) : Dev :=
  let was := parkBits (d.fld fPark)
  let now := parkBits p
  let d : Dev := { d with pwr := { d.pwr with scrubClock := d.pwr.scrubClock && now == 3 } }
  let d := d.put fPark p
  let d := d.put ⟨regAddr 11 0, 1, 0⟩ (now ||| was)
  let d := if d.pwr.scrubClock then d else d.setReg (regAddr 2 0x0C) (0xFFFFFF - regionMask now)
  let back := was - (was &&& now)
  let cls := (List.range 72).filter (fun c => inHalves back c && d.fld (fClState c) != 3)
  let d := cls.foldl Dev.staleCluster d
  let d : Dev := { d with pwr := { d.pwr with unparking := d.pwr.unparking ++ cls } }
  let d := if p = 4 then d.put ⟨regAddr 9 0, 3, 3⟩ 1 else d
  if back = 0 then d else if d.pwr.unparking.isEmpty then d.put ⟨regAddr 11 0, 1, 0⟩ now else d

/-- The device leaves Hibernate: the stacks leave self-refresh first (R421). -/
def Dev.wake (d : Dev) : Dev := { d with pwr := { d.pwr with waking := some (d.pwr.waking.getD d.time.ticks) } }

/-- A step is taken: the regions change generator, park states take effect, and every slice takes its new spacing (11 R355,
R369; 13 R419); VCORE then falls to the new mode's voltage (R418). A step that would leave Hibernate wakes the stacks first (R421). -/
def Dev.takeStep (d : Dev) (st : StepRec) : Dev :=
  let old := d.clockMode
  let wakes := decide (d.fld fPark = 4) && decide (st.park ≠ 4)
  let park := if wakes then 4 else st.park
  let d := if wakes then d.wake else d
  let d := if d.fld fPark = park then d else d.parkTo park
  let d := (if d.pwr.scrubClock then d else d.put ⟨regAddr 2 0, 3, 2⟩ st.mode).put fMode st.mode
  let met := fun (sl : Slice) => if sl.launched then { sl with modes := sl.modes ++ [(st.ec, old, st.mode)] } else sl
  let d : Dev := { d with slices := d.slices.map met, pwr := { d.pwr with lastTick := some d.time.ticks } }
  ((d.bump (regAddr 13 0x2C) 1).event 13 0 [st.ec, old, st.mode, park, st.causes]).respaceAll.ramp

/-- A step EC is reached. A step to a mode whose generator has lost lock is not taken (16 R486). -/
def execStepEcReached (s : State) : Res :=
  ok (s.onDev (fun d =>
    match d.pwr.steps with
    | st :: rest =>
      if d.now < st.ec then d
      else if d.locked st.mode ∧ !d.failed then (d.setSteps rest).takeStep st
      else (d.setSteps rest).decideMode (2 ^ 7)
    | [] => d))

/-- The stacks have left self-refresh: the device enters the requested park state (R421). -/
def execSelfRefreshExit (s : State) : Res :=
  ok (s.onDev (fun d =>
    match d.pwr.waking with
    | some _ =>
      let d := ({ d with pwr := { d.pwr with waking := none } } : Dev).put ⟨regAddr 9 0, 3, 3⟩ 0
      (d.put fPark 3).decideFor d.effective (d.fld fReqPark) 1
    | none => d))

/-! ### Loops (R414, R415; Table 13.5) -/

/-- The package-input limit of a mode in W (Table 13.2). -/
def modeLimit (m : Nat) : Nat := match m with | 0 => 4600 | 1 => 2900 | _ => 1700

/-- The ceiling lowered by one mode, never below Glide. -/
def lower (c : Nat) : Nat := min 2 (c + 1)

/-- A loop lowers the ceiling by one mode; those that fire in one sample lower it once (R414, R416). -/
def Dev.lowerCeiling (d : Dev) : Dev :=
  let d := d.markSample
  d.put fCeiling (max (d.fld fCeiling) (lower d.baseCeiling))

/-- Mean of the samples after a tick. -/
def meanSince (l : List (Nat × Nat)) (t : Nat) : Nat :=
  let x := l.filter (fun p => decide (t < p.1))
  if x.isEmpty then 0 else (x.foldl (fun a p => a + p.2) 0) / x.length

/-- PWR.CAP.POWER_CAP and T_TARGET; PWR.LOOP.UP_WAIT in ticks. -/
def Dev.powerCap (d : Dev) : Nat := d.fld ⟨regAddr 13 4, 28, 16⟩
def Dev.tTarget (d : Dev) : Nat := d.fld ⟨regAddr 13 4, 15, 8⟩
def Dev.upWait (d : Dev) : Nat := d.fld ⟨regAddr 13 0xC, 23, 16⟩ * 10000000

/-- The counts of stretches now, kept with those of the last 10 ms. -/
def Dev.stretchRead (d : Dev) : Dev :=
  let t := d.time.ticks
  let now := (List.range 24).map (fun r => d.reg (regAddr 11 (0x80 + 4 * r)))
  let old := d.pwr.stretchLog.filter (fun x => decide (t ≤ x.1 + 10000000))
  { d with pwr := { d.pwr with stretchLog := (t, now) :: old } }

/-- Whether a region has stretched more than 16 × STRETCH_RATE periods a millisecond over the last 10 ms. -/
def Dev.stretchesTooOften (d : Dev) (r : Nat) : Bool :=
  let rate := d.fld ⟨regAddr 13 0xC, 15, 8⟩
  match d.pwr.stretchLog.getLast? with
  | some (t, l) => decide (t + 10000000 ≤ d.time.ticks) && rate != 0 &&
      decide (160 * rate < (d.reg (regAddr 11 (0x80 + 4 * r)) + 2 ^ 32 - l.getD r 0) % 2 ^ 32)
  | none => false

/-- The regions for which the stretch loop fires: at the sample at which their condition begins, and again after 10 ms through which it has
held. -/
def Dev.stretchLoop (d : Dev) : List Nat × Dev :=
  let t := d.time.ticks
  let hot := (List.range 24).filter d.stretchesTooOften
  let last := fun (r : Nat) => (d.pwr.stretchFired.find? (fun x => x.1 == r)).map (fun x => x.2)
  let fires := hot.filter (fun r => match last r with | some f => decide (f + 10000000 ≤ t) | none => true)
  (fires, { d with pwr := { d.pwr with
    stretchFired := hot.map (fun r => (r, if fires.contains r then t else (last r).getD t)) } })

/-- Whether the ceiling may rise by one mode (R415). -/
def Dev.mayRise (d : Dev) : Bool :=
  let c := d.fld fCeiling
  let p := meanSince d.pwr.samples (d.time.ticks - d.upWait)
  let up := modeLimit (d.mode - 1)
  let full := d.pwr.samples.any (fun x => decide (x.1 + d.upWait ≤ d.time.ticks + 100000))
  let cool : Bool := match d.pwr.coolSince with | some t => decide (t + d.upWait ≤ d.time.ticks) | none => false
  let dwell : Bool := match d.pwr.lastTick with
    | some t => decide (t + d.fld ⟨regAddr 13 0xC, 7, 0⟩ * 10000000 ≤ d.time.ticks)
    | none => true
  d.fld fAutoUp == 1 && decide (d.fld fReqMode < c) && decide (d.fld fMaxMode < c) && full && cool && dwell &&
    decide (p * up + d.fld ⟨regAddr 13 0xC, 31, 24⟩ * 10 * modeLimit d.mode ≤ min d.powerCap up * modeLimit d.mode) &&
    d.pwr.bladeA && d.pwr.bladeB && d.pwr.phases.all (fun x => decide (x.2 ≤ 2))

/-- The readings of a power sample: registers, energy and throttled time (Table 13.8). -/
def Dev.powerRead (d : Dev) (wA wB mvA mvB : Nat) : Dev :=
  let t := d.time.ticks
  let keep := max 10000000 (d.upWait + 200000)
  let l := (t, wA + wB) :: d.pwr.samples.filter (fun x => decide (t < x.1 + keep))
  let slow := decide (d.fld fReqMode < d.fld fCeiling) && decide (d.fld fMaxMode < d.fld fCeiling)
  let d : Dev := { d with pwr := { d.pwr with
    wattsA := wA, wattsB := wB, samples := l, energy := d.pwr.energy + wA + wB, throttle := d.pwr.throttle + b2n slow, sampleBase := none } }
  let d := d.setReg (regAddr 13 0x14) (meanSince l (t - 10000000) % 65536 * 65536 + (wA + wB) % 65536)
  let d := d.setReg (regAddr 13 0x18) (mvB % 65536 * 65536 + mvA % 65536)
  ((d.setReg (regAddr 13 0x1C) (d.pwr.energy / 10000 % 2 ^ 32)).setReg (regAddr 13 0x4C) (min (d.pwr.throttle / 10) (2 ^ 32 - 1))).stretchRead

/-- The power and stretch loops and the rise of the ceiling, as one decision (R414 to R416). -/
def Dev.powerLoops (d : Dev) : Dev :=
  let t := d.time.ticks
  let above := decide (d.powerCap < meanSince d.pwr.samples (t - 10000000))
  let again : Bool := match d.pwr.powerFired with | some f => decide (f + 10000000 ≤ t) | none => true
  let fires := above && again
  let d : Dev := { d with pwr := { d.pwr with powerFired := if !above then none else if fires then some t else d.pwr.powerFired } }
  let (hot, d) := d.stretchLoop
  let d := if fires then d.event 13 1 [] else d
  let d := hot.foldl (fun d r => d.event 13 4 [r]) d
  let c := d.fld fCeiling
  if fires ∨ !hot.isEmpty then
    d.lowerCeiling.decideMode ((if fires then 2 ^ 1 else 0) + (if hot.isEmpty then 0 else 2 ^ 3))
  else if d.mayRise then (d.markSample.put fCeiling (c - 1)).decideMode (2 ^ 6)
  else d

/-- What a handover deferred is decided when the loops resume: losses of blades and converters, and a step for settled rails (R417). -/
def Dev.takeDeferred (d : Dev) : Dev :=
  let c := d.pwr.deferred
  let d : Dev := { d with pwr := { d.pwr with deferred := 0 } }
  let d := if c = 0 then d else (if bitAt c 5 then d.lowerCeiling else d).decideMode c
  if d.pwr.settled ∧ d.pwr.steps.isEmpty then d.railsUp else d

/-- A decision of the blade or the converter loop; an MC handover defers it (R417). -/
def Dev.decideOrDefer (d : Dev) (causes : Nat) : Dev :=
  if d.paused then { d with pwr := { d.pwr with deferred := d.pwr.deferred ||| causes } }
  else (if bitAt causes 5 then d.lowerCeiling else d).decideMode causes

/-- A power sample every 100 µs. No loop decides during an MC handover (R417). -/
def execPowerSample (wattsA wattsB millivoltsA millivoltsB : BitVec 16) (s : State) : Res :=
  ok (s.onDev (fun d =>
    let d := d.powerRead wattsA.toNat wattsB.toNat millivoltsA.toNat millivoltsB.toNat
    if d.paused ∨ d.failed then d else d.takeDeferred.powerLoops))

/-! ### Temperature (R414, R424, R425) -/

/-- The hottest of a list with its index, the first among equals. -/
def hottest (l : List Nat) : Nat × Nat :=
  l.zipIdx.foldl (fun a x => if a.1 < x.1 then x else a) (0, 0)

/-- Whether the cooling is outside its table: Glide, and above T_TARGET for 100 ms (R424). -/
def Dev.coolingBad (d : Dev) : Bool :=
  match d.pwr.hotSince with
  | some t => d.mode == 2 && decide (t + 100000000 ≤ d.time.ticks)
  | none => false

/-- ALERT_N and PWR.STATUS.ALERT (R424; 15 R456: also in recovery). -/
def Dev.alertEval (d : Dev) : Dev :=
  let a := decide (105 ≤ d.fld ⟨regAddr 13 0x48, 7, 0⟩) || decide (95 < d.fld ⟨regAddr 13 0x48, 23, 16⟩) ||
    !d.pwr.bladeA || !d.pwr.bladeB || d.coolingBad || d.bootState == 3
  ({ d with pins := { d.pins with alert := a } } : Dev).put ⟨regAddr 13 0, 3, 3⟩ (b2n a)

/-- The readings of a thermal sample: TEMPk, T_MAX, the stacks, and the runs that the loops and R415 watch. -/
def Dev.thermalRead (d : Dev) (j st : List Nat) : Dev :=
  let (tj, r) := hottest (j.take 24)
  let (ts, _) := hottest (st.take 12)
  let d := (List.range 6).foldl (fun d k =>
    d.setReg (regAddr 13 (0x30 + 4 * k)) (packFields 8 ((List.range 4).map (fun i => j.getD (4 * k + i) 0)))) d
  let d := d.setReg (regAddr 13 0x48) (ts % 256 * 65536 + r * 256 + tj % 256)
  let d := (List.range 12).foldl (fun d k => d.put (fStackTemp k) (st.getD k 0)) d
  let hot := decide (d.tTarget < tj)
  let t := d.time.ticks
  { d with pwr := { d.pwr with
    hotRun := if hot then d.pwr.hotRun + 1 else 0,
    hotSince := if hot && d.mode == 2 then some (d.pwr.hotSince.getD t) else none,
    coolSince := if tj + 5 ≤ d.tTarget then some (d.pwr.coolSince.getD t) else none } }

/-- The thermal and critical loops as one decision. -/
def Dev.thermalLoops (d : Dev) : Dev :=
  let tj := d.fld ⟨regAddr 13 0x48, 7, 0⟩
  let cond := decide (5 ≤ d.pwr.hotRun) || decide (95 < d.fld ⟨regAddr 13 0x48, 23, 16⟩)
  let fires : Bool := cond && (match d.pwr.hotFired with | some n => decide (5 ≤ n + 1) | none => true)
  let since := if !cond then none else if fires then some 0 else d.pwr.hotFired.map (fun n => n + 1)
  let d : Dev := { d with pwr := { d.pwr with hotFired := since } }
  let crit := decide (105 ≤ tj)
  let d := if fires then d.event 13 2 [] else d
  let d := if crit then d.event 13 3 [d.fld ⟨regAddr 13 0x48, 12, 8⟩] else d
  if fires ∨ crit then d.lowerCeiling.decideMode (2 ^ 2) else d

/-- A thermal sample every 1 ms. -/
def execThermalSample (junction stackTemps : List (BitVec 8)) (s : State) : Res :=
  ok (s.onDev (fun d =>
    let d := d.thermalRead (junction.map (fun x => x.toNat)) (stackTemps.map (fun x => x.toNat))
    let d := if d.paused ∨ d.failed then d else d.thermalLoops
    let bad := d.coolingBad
    let d := if bad ∧ !d.pwr.cooling then d.event 13 6 [] else d
    let tj := d.fld ⟨regAddr 13 0x48, 7, 0⟩
    let st := d.fld ⟨regAddr 13 0x48, 23, 16⟩
    let warn := if 105 ≤ tj ∨ 95 < st then d.pins.tempStat ||| 0x40 else d.pins.tempStat
    ({ d with pwr := { d.pwr with cooling := bad }, pins := { d.pins with tempStat := warn } } : Dev).alertEval))

/-- A comparator trips at 115 °C: the device is failed for compute until a cold reset, and its core rails are off (R425; 14
R440). -/
def execThermalTrip (_region : Fin 24) (s : State) : Res :=
  ok (s.onDev (fun d =>
    if d.fld ⟨regAddr 13 0, 2, 2⟩ = 1 then d
    else
      let d := (d.deviceFail.put ⟨regAddr 13 0, 2, 2⟩ 1).ramp
      ({ d with pins := { d.pins with thermtrip := true, tempStat := d.pins.tempStat ||| 0x80 } } : Dev).event 13 7 []))

/-! ### Blades and phases (R404 to R406; 17 R497; 14 R430) -/

def bladeNo (bl : Blade) : Nat := match bl with | .a => 0 | .b => 1
/-- Whether a blade is connected and in range. -/
def Dev.bladeOk (d : Dev) (bl : Blade) : Bool := match bl with | .a => d.pwr.bladeA | .b => d.pwr.bladeB
def Dev.setBlade (d : Dev) (bl : Blade) (v : Bool) : Dev :=
  match bl with
  | .a => { d with pwr := { d.pwr with bladeA := v } }
  | .b => { d with pwr := { d.pwr with bladeB := v } }
/-- A bit of STATUS_INPUT latched for a blade (17 Table 17.9). -/
def Dev.inputBit (d : Dev) (bl : Blade) (v : BitVec 8) : Dev :=
  match bl with
  | .a => { d with pins := { d.pins with inputA := d.pins.inputA ||| v } }
  | .b => { d with pins := { d.pins with inputB := d.pins.inputB ||| v } }

/-- The park state in force at an EC, by the steps that are set. -/
def Dev.parkAt (d : Dev) (e : Nat) : Nat := d.pwr.steps.foldl (fun p st => if st.ec ≤ e then st.park else p) (d.fld fPark)

/-- The blade step: Carve 1,000 ticks on, free of R369's notice and separation; none where a step set before leads to a slower mode by then. What
is set or waits after it goes on at Carve (R406). -/
def Dev.bladeStep (d : Dev) : Dev :=
  let ec := d.now + 1000
  let d := d.setRising (d.pwr.rising.map (fun (m, p, c, t) => (max 1 m, p, c, t)))
  let later := d.pwr.steps.map (fun x => if ec < x.ec then { x with mode := max 1 x.mode } else x)
  if d.modeAt ec = 0 then
    d.setSteps (insertStep { ec := ec, mode := 1, park := d.parkAt ec, causes := 2 ^ 4, blade := true, decided := d.time.ticks } later)
  else d.setSteps later

/-- A blade is lost: the ceiling is Carve at most, and at Schuss the sequencer takes its step; with both blades lost the N6 pulls PWROK low
(R406; 17 R507). -/
def Dev.bladeLost (d : Dev) (bl : Blade) : Dev :=
  if !d.bladeOk bl then d
  else
    let d := d.setBlade bl false
    if !d.pwr.bladeA ∧ !d.pwr.bladeB then { d with pins := { d.pins with pwrok := false } }
    else
      let d := (d.put ⟨regAddr 13 0, 4, 4⟩ 1).event 13 5 [bladeNo bl]
      let d := d.markSample.put fCeiling (max 1 (d.fld fCeiling))
      let d := if d.failed then d else if d.mode = 0 then d.bladeStep else d.decideOrDefer (2 ^ 4)
      d.alertEval

def execBladeLoss (bl : Blade) (s : State) : Res :=
  ok (s.onDev (fun d =>
    let mv := match bl with | .a => d.reg (regAddr 13 0x18) % 65536 | .b => d.reg (regAddr 13 0x18) / 65536
    (if mv < 40000 then d.inputBit bl 0x10 else d).bladeLost bl))

/-- A blade above 62 V for 10 µs: its switch opens. -/
def execBladeOvervoltage (bl : Blade) (s : State) : Res :=
  ok (s.onDev (fun d =>
    let d : Dev := match bl with
      | .a => { d with pwr := { d.pwr with ovA := true } }
      | .b => { d with pwr := { d.pwr with ovB := true } }
    (d.inputBit bl 0x80).bladeLost bl))

/-- A blade that has read 40–60 V for 100 ms joins again. -/
def execBladeReconnect (bl : Blade) (s : State) : Res :=
  ok (s.onDev (fun d =>
    if d.bladeOk bl then d
    else
      let d := d.setBlade bl true
      let d : Dev := match bl with
        | .a => { d with pwr := { d.pwr with ovA := false } }
        | .b => { d with pwr := { d.pwr with ovB := false } }
      if !d.pins.pwrok then d
      else ((d.put ⟨regAddr 13 0, 4, 4⟩ (b2n (!(d.pwr.bladeA && d.pwr.bladeB)))).event 13 5 [bladeNo bl]).alertEval))

/-- The number of a rail: the core rails by region, then VRING, VSERDES, VVAULT (Table 13.1). -/
def railNo (r : Rail) : Nat := match r with | .vcore k => k.val | .vring => 24 | .vserdes => 25 | .vvault => 26

/-- A converter phase is retired; past two on a rail the converter loop fires. -/
def execPhaseFault (rail : Rail) (s : State) : Res :=
  ok (s.onDev (fun d =>
    let r := railNo rail
    let n := mapGet (fun _ => 0) d.pwr.phases r + 1
    let d := (({ d with pwr := { d.pwr with phases := mapPut d.pwr.phases r n } } : Dev).bump (regAddr 14 0x38) 1).event 14 6 [r]
    let d := if 2 ≤ n then d.put ⟨regAddr 14 0, 4, 4⟩ 1 else d
    if 2 < n ∧ !d.failed then d.decideOrDefer (2 ^ 5) else d))

/-! ### Generators (16 R486, R488) -/

/-- The bit of CLK.STATUS of a generator. -/
def genBit (g : Generator) : Nat := match g with | .schuss => 4 | .carve => 5 | .glide => 6 | .ring => 7

/-- A generator loses lock: the fastest slower mode that is locked is set; without one, or for the ring domain's, the device
fails. -/
def execGeneratorUnlock (g : Generator) (s : State) : Res :=
  ok (s.onDev (fun d =>
    let bit := genBit g
    if d.fld ⟨regAddr 2 0, bit, bit⟩ = 0 then d
    else
      let d := (d.put ⟨regAddr 2 0, bit, bit⟩ 0).bump (regAddr 2 0x10) 1
      if bit = 7 then (d.event 2 2 []).deviceFail
      else
        let d := d.event 2 0 [bit - 4]
        if (d.available d.mode).isNone then d.deviceFail
        else if d.mode = bit - 4 then d.decideFor (max d.mode d.effective) d.parkNow (2 ^ 7)
        else d))

/-- A generator regains lock: its mode is available again. -/
def execGeneratorRelock (g : Generator) (s : State) : Res :=
  ok (s.onDev (fun d =>
    let bit := genBit g
    if d.fld ⟨regAddr 2 0, bit, bit⟩ = 1 then d
    else
      let d := d.put ⟨regAddr 2 0, bit, bit⟩ 1
      if bit = 7 then d else (d.event 2 1 [bit - 4]).decideMode (2 ^ 7)))

end Sys2Proof.Machine
end

