-- ==== Sys2Proof/Machine/Health.lean ====
section
/-! DEFINITION. Measurements, spares, retirements, repairs, router failures (14; 02 R57 to R64;
07 R248). -/

namespace Sys2Proof.Machine

/-! ### Withdrawal and retirement (02 R58 to R64; 05 R198) -/

/-- A slice is unloaded: its frames in flight end without words, unless a relaunch repair's stop has emitted them (01 R48), its streams
close, its clusters are released (14 R435, R438). -/
def Dev.unloadSlice (d : Dev) (sl : Slice) : Dev :=
  let d := d.releaseClusters sl.id
  let d := if sl.stopping = some 2 then d else d.dropLoad sl.id
  let d := (d.dropRepair sl.id).closeStreams (fun st => st.slice == sl.id)
  (d.endAnswers sl).endSlice sl.id

/-- A load that needs a cluster now lost fails; the cluster is no longer the slice's (09 R329). -/
def Dev.loadLoses (cl : Nat) (d : Dev) (l : Load) : Dev :=
  if l.fo.clusters.contains cl then
    (d.loadFails true l.slice 3 0 0).updSlice l.slice (fun x => { x with fo := { x.fo with clusters := x.fo.clusters.filter (fun c => c != cl) } })
  else d

/-- A cluster is withdrawn (02 R61, R64): the slice that holds it is unloaded. The event carries the cluster, the site whose retirement
withdrew it, the new field value, and the slice; where its store or its router did, the site is 0xF (DESIGN CHOICE, log entry 75). -/
def Dev.withdraw (d : Dev) (cl site : Nat) : Dev :=
  if d.fld (fSite cl) = 0xE then d
  else
    let d := d.vault.loads.foldl (Dev.loadLoses cl) ((d.put (fSite cl) 0xE).bump (regAddr 14 0x24) 1)
    let st := d.fld (fClState cl)
    let holder := d.slices.find? (fun sl => sl.fo.clusters.contains cl && (st == 1 || st == 2) && d.fld (fClSlice cl) == sl.id)
    let sid := match holder with | some sl => sl.id | none => 0
    let d : Dev := match holder with | some sl => d.unloadSlice sl | none => d
    let d := if d.fld (fClState cl) = 0 then d.put (fClState cl) 3 else d
    let sites := d.hlth.sitesPending.filter (fun x => x.1 != cl)
    let since := d.hlth.since.filter (fun x => !(decide (2 ^ 32 ≤ x.1) && (x.1 - 2 ^ 32) / 16 == cl))
    let d : Dev := { d with hlth := { d.hlth with sitesPending := sites, since := since } }
    (d.event 14 2 [cl, site, 0xE, sid]).auditSelf 3 [cl, site, 0xE, sid]

/-- Where a retired row of a pad is served once a site is retired: rows stay with their site, and a logical core above it moves on to the
next site (R58; 05 R198). Rows of the retired site are gone. -/
def rowAfter (cl site g : Nat) : Option Nat :=
  if graSpace g ≠ 0 ∨ graCluster g ≠ cl ∨ graCore g < site then some g
  else if graCore g = site then none
  else some (mkGra 0 cl (graCore g - 1) (graRow g))
/-- The rows retired, spare rows that failed and rows that wait, as a site's retirement leaves them. -/
def Dev.moveRows (d : Dev) (cl site : Nat) : Dev :=
  { d with hlth := { d.hlth with
    rowsRetired := d.hlth.rowsRetired.filterMap (rowAfter cl site), sparesDead := d.hlth.sparesDead.filterMap (rowAfter cl site),
    rowsPending := d.hlth.rowsPending.filterMap (rowAfter cl site),
    since := d.hlth.since.filterMap (fun x => if 2 ^ 32 ≤ x.1 then some x else (rowAfter cl site x.1).map (fun g => (g, x.2))) } }

/-- A site is retired: the mapping of R58 changes; a second one withdraws the cluster. -/
def Dev.retireSite (d : Dev) (cl site : Nat) : Dev :=
  let f := d.fld (fSite cl)
  if f = 0xE ∨ f = site then d
  else
    let d := d.bump (regAddr 14 0x20) 1
    if f = 0xF then
      let d := d.moveRows cl site
      (((d.put (fSite cl) site).put ⟨regAddr 14 0, 4, 4⟩ 1).event 14 1 [cl, site, site]).auditSelf 3 [cl, site, site]
    else d.withdraw cl site

/-- The physical site of a logical core (R58). -/
def Dev.siteOf (d : Dev) (cl k : Nat) : Nat := if d.fld (fSite cl) ≤ k then k + 1 else k

/-- Rows of one bank share a key (05 R166, Table 5.1). -/
def bankOf (g : Nat) : Nat :=
  if graSpace g = 1 then mkGra 1 (graCluster g) 0 (graRow g % 64) else mkGra (graSpace g) (graCluster g) (graCore g) (graRow g % 16)

/-- Whether a row's bank has a spare row left beside those in use, those that failed and those that open repairs will use: 2 for a pad bank,
6 for a store bank (05 R198). -/
def Dev.spareLeft (d : Dev) (g : Nat) : Bool :=
  let taken := d.hlth.repairs.flatMap (fun r => r.rows)
  let used := ((d.hlth.rowsRetired ++ d.hlth.sparesDead ++ taken).filter (fun x => bankOf x == bankOf g)).length
  decide (used < (if graSpace g = 1 then 6 else 2))

/-- A row leaves the list of pending retirements. -/
def Dev.unpendRow (d : Dev) (g : Nat) : Dev :=
  { d with hlth := { d.hlth with
    rowsPending := d.hlth.rowsPending.filter (fun x => x != g), since := d.hlth.since.filter (fun x => x.1 != g) } }
def siteKey (cl site : Nat) : Nat := 2 ^ 32 + cl * 16 + site
def Dev.unpendSite (d : Dev) (cl site : Nat) : Dev :=
  { d with hlth := { d.hlth with
    sitesPending := d.hlth.sitesPending.filter (fun x => x != (cl, site)),
    since := d.hlth.since.filter (fun x => x.1 != siteKey cl site) } }

/-- A row is served from a spare of its bank: the copy holds what the row held (05 R198; 14 R434). -/
def Dev.retireRow (d : Dev) (g : Nat) : Dev :=
  let d := d.unpendRow g
  let d : Dev := { d with hlth := { d.hlth with
    rowsRetired := d.hlth.rowsRetired ++ [g], corrections := d.hlth.corrections.filter (fun x => x.1 != g), bad := d.hlth.bad.filter (fun x => x != g), soft := d.hlth.soft.filter (fun x => x != g) } }
  ((d.bump (regAddr 14 0x1C) 1).event 14 0 [g]).auditSelf 11 [g]

/-- A site's retirement becomes pending. -/
def Dev.pendSite (d : Dev) (cl site : Nat) : Dev :=
  if d.hlth.sitesPending.contains (cl, site) ∨ d.fld (fSite cl) = site ∨ d.fld (fSite cl) = 0xE then d
  else { d with hlth := { d.hlth with
    sitesPending := d.hlth.sitesPending ++ [(cl, site)], since := d.hlth.since ++ [(siteKey cl site, d.time.ticks)] } }

/-! ### Router failure (07 R248) -/

/-- Whether a folio's channels, sums or trees use the router of a cluster. -/
def Folio.through (fo : Folio) (cl : Nat) : Bool :=
  fo.clusters.contains cl || fo.nets.any (fun r => match r with
    | .resv _ _ c _ _ _ _ _ => c == cl
    | .sum c _ _ _ _ => c == cl
    | .tree c _ _ _ _ => c == cl
    | _ => false)

/-- The rewrite of the express route tables is due, 20 µs from now at the latest. -/
def Dev.routeAround (d : Dev) : Dev := { d with net := { d.net with rewriteAt := some (d.net.rewriteAt.getD (d.time.ticks + 20000)) } }

/-- A router fails its checks: its cluster is withdrawn, every slice that uses the router is unloaded, and the express routes are rewritten.
-/
def Dev.routerFail (d : Dev) (cl : Nat) : Dev :=
  let f : Fld := ⟨regAddr 7 (4 * (cl / 32)), cl % 32, cl % 32⟩
  if d.fld f = 1 then d
  else
    let d := (d.put f 1).event 7 0 [cl]
    let hit := d.slices.filter (fun sl => sl.key != 0 && sl.fo.through cl && !sl.fo.clusters.contains cl)
    ((hit.foldl (fun d sl => d.unloadSlice sl) d).withdraw cl 0xF).routeAround

def execRouterFail (cl : Cl) (s : State) : Res := ok (s.onDev (fun d => d.routerFail cl))

/-! ### Measurements (R430) -/

/-- Ageing losses of one cluster's sites and router, in units of 0.01 %, against AGE_LIMIT in units of 0.1 %. -/
def Dev.ageing (d : Dev) (cl : Nat) (sites : List Nat) (router : Nat) : Dev :=
  let limit := d.fld ⟨regAddr 14 4, 7, 0⟩ * 10
  let a := regAddr 14 (0x40 + 4 * clRegion cl)
  let d := d.setReg a (max (d.reg a) ((router :: sites.take 9).foldl max 0))
  let lost := ((sites.take 9).zipIdx.filter (fun x => decide (limit < x.1))).map (fun x => x.2)
  let d := lost.foldl (fun d k =>
    if d.fld (fSite cl) = k ∨ d.fld (fSite cl) = 0xE then d
    else if k = 8 ∧ d.fld (fSite cl) = 0xF then d.retireSite cl 8
    else d.pendSite cl k) d
  if limit < router then d.routerFail cl else d

def execAgeingCheck (cl : Cl) (sites : List (BitVec 16)) (router : BitVec 16) (s : State) : Res :=
  ok (s.onDev (fun d => d.ageing cl (sites.map (fun x => x.toNat)) router.toNat))

/-- The hourly test of a cluster's unused spare site and of spare rows, each named by a row of its bank: a failing spare is
retired at once. -/
def execSpareTest (cl : Cl) (siteFails : Bool) (failingRows : List (BitVec 32)) (s : State) : Res :=
  ok (s.onDev (fun d =>
    let d := if siteFails ∧ d.fld (fSite cl) = 0xF then (d.retireSite cl 8).event 14 10 [cl.val, 8] else d
    (failingRows.filter (fun g => graCluster g.toNat == cl.val)).foldl (fun d g =>
      ({ d with hlth := { d.hlth with sparesDead := d.hlth.sparesDead ++ [g.toNat] } } : Dev).event 14 10 [g.toNat]) d))

/-! ### Repairs (R431 to R436; Table 14.4, Table 14.5) -/

/-- The running slice that holds a cluster: a launched one. -/
def Dev.unitHeld (d : Dev) (cl : Nat) : Option Slice :=
  match d.sliceOf cl with
  | some sl => if sl.launched then some sl else none
  | none => none

/-- Whether the repair window of a unit is open: no running slice holds it, or DEFER_S seconds have passed (R431). -/
def Dev.windowOpen (d : Dev) (key cl : Nat) : Bool :=
  (d.unitHeld cl).isNone ||
    (match d.hlth.since.find? (fun x => x.1 == key) with
      | some (_, t) => decide (t + d.fld ⟨regAddr 14 4, 31, 24⟩ * 1000000000 ≤ d.time.ticks)
      | none => true)

/-- A unit joins the repair of a slice, or begins one with a cause 8 hold (R432, R433, Table 14.5). -/
def Dev.joinRepair (d : Dev) (sid : Nat) (rows : List Nat) (sites : List (Nat × Nat)) (relaunch : Bool) : Dev :=
  let mine := fun (r : Repair) => r.slice == sid
  let kind := if relaunch then 2 else 1
  match d.hlth.repairs.find? mine with
  | some r =>
    let d := if relaunch ∧ !r.relaunch then d.bump (regAddr 14 0x2C) 1 else d
    let rs := mapIf mine (fun r => { r with
      rows := r.rows ++ rows, sites := r.sites ++ sites, relaunch := r.relaunch || relaunch,
      tested := r.tested && !relaunch, scrubbed := r.scrubbed && !relaunch }) d.hlth.repairs
    ({ d with hlth := { d.hlth with repairs := rs } } : Dev).repairGate sid
  | none =>
    let r : Repair := { slice := sid, relaunch := relaunch, rows := rows, sites := sites, raiseEc := d.now }
    let d := d.bump (regAddr 14 0x28) 1
    let d := if relaunch then d.bump (regAddr 14 0x2C) 1 else d
    let d : Dev := { d with hlth := { d.hlth with repairs := d.hlth.repairs ++ [r] } }
    (((d.put ⟨regAddr 14 0, 2, 2⟩ 1).raiseHold sid 8).event 14 3 [sid, kind]).repairGate sid

/-- The regions run for a scrub in full park, at Glide (13 R409). -/
def Dev.clockForScrub (d : Dev) : Dev :=
  if d.fld fPark = 3 ∧ d.reg (regAddr 2 0x0C) = 0 ∧ !d.failed then
    ((({ d with pwr := { d.pwr with scrubClock := true } } : Dev).setReg (regAddr 2 0x0C) 0xFFFFFF).put ⟨regAddr 2 0, 3, 2⟩ 2).ramp
  else d

/-- The cores of a slice whose load has begun have moved to other sites: its clusters are scrubbed and the load begins again (R431, R441;
log entry 29). -/
def Dev.loadAgain (d : Dev) (sid : Nat) : Dev :=
  match d.load? sid with
  | some l =>
    if l.phase = .queued then d.updSlice sid (fun x => { x with key := 0 })
    else
      let d := (d.scrubHeld sid).updLoad sid (fun l => { l with phase := .queued, done := [], sent := [] })
      { d with vault := { d.vault with chain := d.vault.chain.filter (fun c => c.slice != sid) } }
  | none => d.noFolio sid

/-- A site, or with 0xF a cluster's store, that no core can use any more is taken out: a second site of a cluster, or a store without a spare
row left, withdraws the cluster (02 R61; 05 R198). -/
def Dev.takeOut (d : Dev) (cl site : Nat) : Dev := if site = 0xF then d.withdraw cl 0xF else d.retireSite cl site

/-- A pending site, or a store for 0xF, is repaired: in place where it is the unused spare or no gate of a slice waits for it, else by a relaunch
repair of its slice (R431, R432, Table 14.1, Table 14.3). -/
def Dev.repairSite (d : Dev) (cl site : Nat) : Dev :=
  let d := d.unpendSite cl site
  if site = 8 ∧ d.fld (fSite cl) = 0xF then d.retireSite cl 8
  else
    match d.unitHeld cl with
    | some sl =>
      if sl.armed then d.joinRepair sl.id [] [(cl, site)] true
      else
        let d := d.takeOut cl site
        if d.fld (fSite cl) = 0xE then d else d.loadAgain sl.id
    | none =>
      let d := d.takeOut cl site
      if d.fld (fSite cl) = 0xE then d
      else
        (match d.sliceOf cl with
          | some sl => (d.dropLoad sl.id).noFolio sl.id
          | none => if d.fld (fClState cl) = 0 then (d.staleCluster cl).clockForScrub else d)

/-- The spare row that serves a retired row fails in its turn: it is a failed spare, and the row is served by another (05 R198). -/
def Dev.spareFails (d : Dev) (g : Nat) : Dev :=
  if d.hlth.rowsRetired.contains g then
    { d with hlth := { d.hlth with rowsRetired := d.hlth.rowsRetired.filter (fun x => x != g), sparesDead := d.hlth.sparesDead ++ [g] } }
  else d

/-- A pending row is repaired: into a spare row of its bank, or by its site or cluster where the bank has none left. -/
def Dev.repairRow (d : Dev) (g : Nat) : Dev :=
  let cl := graCluster g
  let d := d.unpendRow g
  if 2 ≤ graSpace g ∨ d.fld (fSite cl) = 0xE ∨ d.hlth.repairs.any (fun r => r.rows.contains g) then d
  else
    let d := d.spareFails g
    if d.spareLeft g then
      (match d.unitHeld cl with
        | some sl => if sl.armed then d.joinRepair sl.id [g] [] false else d.retireRow g
        | none => d.retireRow g)
    else d.repairSite cl (if graSpace g = 0 then d.siteOf cl (graCore g) else 0xF)

/-- The copies of HEAD or TAIL of a core's ring differ: MEM_FAULT as a core event, and a relaunch repair at once of the running slice that
holds the core (14 Table 14.3, Table 14.6). -/
def Dev.ringFault (d : Dev) (core : Nat) : Dev :=
  let d := (d.updCore core (fun c => { c with cells := { c.cells with rings := [] } })).markCore core lwMemFault
  match d.unitHeld (core / 8) with
  | some sl => if sl.armed ∧ sl.key ≠ 0 then d.joinRepair sl.id [] [] true else d
  | none => d

/-- The repair window of the first pending unit whose window is open. -/
def execRepairWindow (s : State) : Res :=
  ok (s.onDev (fun d =>
    match d.hlth.rowsPending.find? (fun g => d.windowOpen g (graCluster g)) with
    | some g => d.repairRow g
    | none =>
      match d.hlth.sitesPending.find? (fun x => d.windowOpen (siteKey x.1 x.2) x.1) with
      | some (cl, k) => d.repairSite cl k
      | none =>
        match (List.range 576).find? (fun k => !(d.core k).cells.rings.isEmpty) with
        | some k => d.ringFault k
        | none => d))

/-- The repair of a slice, and one changed. -/
def Dev.repair? (d : Dev) (sid : Nat) : Option Repair := d.hlth.repairs.find? (fun r => r.slice == sid)
def Dev.updRepair (d : Dev) (sid : Nat) (f : Repair → Repair) : Dev :=
  { d with hlth := { d.hlth with repairs := mapIf (fun r => r.slice == sid) f d.hlth.repairs } }

/-- Every device of the slice has confirmed its stop at the held gate (R433); from another device comes with it that its repair is a relaunch,
which ends the frames here too, at due(h) (R435). -/
def execRepairStopConfirmed (stop : RepairStop) (s : State) : Res :=
  ok (s.onDev (fun d =>
    match d.slice? stop.slice.toNat with
    | some sl =>
      let d := if sl.repairStop then d.updRepair sl.id (fun r => { r with confirmed := true }) else d
      if stop.relaunch ∧ sl.armed then (d.updSlice sl.id (fun x => { x with peerRelaunch := true })).repairGate sl.id else d
    | none => d))

/-- The rows of a repair are retired. -/
def Dev.retireRows (d : Dev) (sid : Nat) : Dev :=
  match d.repair? sid with
  | some r => (r.rows.foldl Dev.retireRow d).updRepair sid (fun r => { r with rows := [] })
  | none => d

/-- The copies of a held repair have landed: cause 8 clears and the slice resumes by R359; in a relaunch repair the rows are
done. The slice's staging rows are dropped as it resumes (06 R205, R220). -/
def execRowCopyComplete (slice : SliceId) (s : State) : Res :=
  ok (s.onDev (fun d =>
    let sid := slice.toNat
    match d.repair? sid, d.slice? sid with
    | some r, some _ =>
      if !r.confirmed ∨ r.rows.isEmpty then d
      else
        let d := d.retireRows sid
        if r.relaunch then d
        else
          let d := d.clearCause sid 8
          let resume := match d.slice? sid with
            | some x => (match x.raises.find? Raise.openOwn with | some y => y.resume.getD d.now | none => d.now)
            | none => d.now
          d.repairDone sid resume
    | _, _ => d))

/-- The spare site's margin test ends (Table 14.4): the new mapping applies, the slice's clusters are scrubbed under new
generations and the load plan is set up; a failing spare withdraws its cluster. -/
def Dev.marginDone (d : Dev) (r : Repair) (sl : Slice) (passes : Bool) : Dev :=
  let d := d.retireRows sl.id
  let fails := r.sites.filter (fun x => !passes || x.2 == 0xF || d.fld (fSite x.1) != 0xF)
  if !fails.isEmpty then
    let d := d.updRepair sl.id (fun r => { r with sites := r.sites.filter (fun x => !fails.contains x) })
    fails.foldl (fun d (cl, k) =>
      let d := if k ≠ 0xF ∧ d.fld (fSite cl) = 0xF then (d.retireSite cl 8).event 14 10 [cl, 8] else d
      d.takeOut cl k) d
  else
    let d := r.sites.foldl (fun d (cl, k) => d.retireSite cl k) d
    let d := d.updRepair sl.id (fun r => { r with tested := true, sites := [] })
    let d := ((d.dropLoad sl.id).clustersIn 1 sl.id ++ d.clustersIn 2 sl.id).foldl Dev.beginScrub (d.dropLoad sl.id)
    let l : Load := { slice := sl.id, key := sl.key, fo := sl.fo, phase := .moving, resumeEc := 0, t0 := d.now }
    let d : Dev := { d with vault := { d.vault with loads := d.vault.loads ++ [l] } }
    (d.put ⟨regAddr 9 0, 7, 4⟩ d.vault.loads.length).updSlice sl.id (fun x => { x with running := false })

def execSpareMarginTestDone (slice : SliceId) (passes : Bool) (s : State) : Res :=
  ok (s.onDev (fun d =>
    match d.repair? slice.toNat, d.slice? slice.toNat with
    | some r, some sl => if r.relaunch ∧ r.confirmed ∧ !r.tested then d.marginDone r sl passes else d
    | _, _ => d))

/-- The slice launches again here at a relaunch EC; a stop that waited for the frames is then complete (R436; 01 R47). -/
def Dev.relaunchHere (d : Dev) (sl : Slice) (e : Nat) : Dev :=
  if sl.running ∧ sl.stopping.isSome then d.stopDone sl
  else (if sl.running then sl.coresOf.foldl (fun d k => d.updCore k CoreSt.halt) d else d).armLaunch sl.id e

/-- A repairing device has sent its relaunch EC: the cause 8 hold ends here and the slice launches again there, at the largest
EC received, with the sender's new generation (08 R296). Its hold may have been raised under another cause, which cause 8 joined (R433). A
relaunch repair of this device goes on to its own; a row of a held one is copied in the stop (R436, Table 14.5). -/
def execRelaunchEcReceived (slice : SliceId) (relaunch : RelaunchEc) (s : State) : Res :=
  ok (s.onDev (fun d =>
    match d.slice? slice.toNat with
    | some sl =>
      let held := sl.dueSeen && (sl.at sl.gate).any (fun r => r.causes.contains 8 || (!r.own && r.resume.isNone))
      let e := max relaunch.ec.toNat (sl.launchAt.getD 0)
      if sl.launched ∧ (held ∨ (sl.launchAt.isSome ∧ !sl.running)) then
        let hit := fun (x : Nat × Nat) => x.1 == relaunch.coord.toNat
        let d := d.updSlice sl.id (fun x => { x with gens := mapIf hit (fun x => (x.1, relaunch.gen.toNat)) x.gens })
        (match d.repair? sl.id with
          | some r =>
            if r.relaunch then d.updSlice sl.id (fun x => { x with launchAt := some e })
            else (((d.retireRows sl.id).repairDone sl.id e).endFrames sl.id).relaunchHere sl e
          | none => (d.endFrames sl.id).relaunchHere sl e)
      else d
    | none => d))

/-- The vault copy that a running slice's row needs has an uncorrectable block: its channel is retired, and the slice is left stopped with no
folio (R442; 09 R313, R314, R330). -/
def Dev.copyLost (d : Dev) (sl : Slice) (e : Entry) (b : Nat) (copy : List BadBlock) : Dev :=
  let args := [sl.id, sl.key, b / 8, 1]
  let d := ((((d.bump (regAddr 9 0x20) 1).bump (regAddr 9 0x28) 1).event 9 1 args).noteBad sl.key b).suspect sl.key args
  let d := d.loseBlock e.parts b copy
  ((d.dropLoad sl.id).closeStreams (fun st => st.slice == sl.id)).noFolio sl.id

/-- A ring descriptor row from the folio, with HEAD and TAIL of each ring as they stand (14 Table 14.6). -/
def keepPointers (old new : RowData) : RowData :=
  BitVec.ofNat 4096 ((List.range 16).foldl (fun a k =>
    setBits a (256 * k + 159) (256 * k + 128) (bits old.toNat (256 * k + 159) (256 * k + 128))) new.toNat)

/-- A program-store or descriptor row of a running slice has been rewritten from the vault copy of the folio (06 R220;
14 Table 14.6). -/
def execRowRewriteComplete (core : CoreId) (row : RewrittenRow) (s : State) : Res :=
  let g := row.gra.toNat
  let c := s.dev.core core
  ok (if c.rewrite = some g then
        let s := s.onCore core (fun c => { c with rewrite := none })
        let s := s.onDev (fun d => { d with hlth := { d.hlth with bad := d.hlth.bad.filter (fun x => x != g) } })
        match s.dev.sliceOf (core / 8) with
        | some sl =>
          (match s.dev.entry? sl.key, sl.fo.cores.find? (fun r => r.core == core.val) with
            | some e, some r =>
              let k := graRow g
              let j := k - 0x10000
              let n := if k < 0x200 then r.codeRow + k else r.stateRow + (if j < 2 then j else j - 2)
              let s := s.onDev (fun d => d.symbolsIn e row.fixed n (n + 1))
              let new := match row.bad with | some b => [b.row.toNat * 8 + b.block.val] | none => []
              (match (e.bad ++ new).find? (fun b => b / 8 == n) with
                | some b => s.onDev (fun d => d.copyLost sl e b (match row.bad with | some f => f.copy | none => []))
                | none => s.putRow g (if k = 0x10000 ∨ k = 0x10001 then keepPointers (readRow s.mem g) (e.row n) else e.row n))
            | _, _ => s)
        | none => s
      else s)

end Sys2Proof.Machine
end

