-- ==== Sys2Proof/Machine/Access.lean ====
section
/-! DEFINITION. The checks of a management access, and the arming of a commit (16 sections 2 and 3; 15 R463, R464). -/

namespace Sys2Proof.Machine

/-- Who makes an access: its roles as bits 0 to 2 (operator, installer, maker), the role of its shadow, whether it is a claimant, its
session, whether it comes by JTAG, and the first 16 bytes of its key's digest. -/
structure Actor where
  roles : Nat
  role : Nat
  claimant : Bool
  session : Nat
  jtag : Bool
  key : BitVec 128
  deriving DecidableEq, Repr

/-- The first 16 bytes of a key's digest, as an audit record's ACTOR. -/
def actorKey (x : Session) : BitVec 128 := BitVec.ofNat 128 x.keyDigest.toNat

/-- The actor of a session (R477). -/
def sessionActor (x : Session) : Actor := ⟨2 ^ (x.role - 1), x.role, x.claimant, x.id, false, actorKey x⟩
/-- JTAG: the rights of all three roles, the maker shadow, ROLE 3 (R477, R480). -/
def jtagActor : Actor := ⟨7, 3, false, 0, true, 0⟩

/-- SEC fields (15 Table 15.14, Table 15.16, Table 15.17). -/
def fBoot : Fld := ⟨regAddr 15 0, 31, 28⟩
def fFwSlot : Fld := ⟨regAddr 15 0, 27, 27⟩
def fCfgSlot : Fld := ⟨regAddr 15 0, 26, 26⟩
def fOwner : Fld := ⟨regAddr 15 0, 25, 23⟩
def fScope : Fld := ⟨regAddr 15 0, 22, 20⟩
def fHand : Fld := ⟨regAddr 15 0, 19, 18⟩
def fAttReady : Fld := ⟨regAddr 15 0, 17, 17⟩
def fTarget : Fld := ⟨regAddr 15 8, 31, 30⟩
def fStState : Fld := ⟨regAddr 15 0x10, 31, 30⟩
def fStCode : Fld := ⟨regAddr 15 0x10, 15, 0⟩

/-- Whether a register is a CFG row window register (R489). -/
def rowWindow (b off : Nat) : Bool := b == 10 && (off == 4 || off == 8 || (decide (0x400 ≤ off) && decide (off < 0x600)))

/-- Whether an actor may use a staging target: firmware is the maker's, configuration the installer's (15 Table 15.16). -/
def Actor.stages (a : Actor) (target : Nat) : Bool :=
  match target with
  | 1 => bitAt a.roles 2
  | 2 => bitAt a.roles 1
  | _ => false

/-- Whether an actor may write a value to a register: a register whose fields are all RO is judged by 0x0012 alone (R478;
15 R463, R464). -/
def Dev.may (d : Dev) (a : Actor) (b off v : Nat) : Bool :=
  match regRow b off with
  | none => true
  | some r =>
    if r.w1c + r.cw + r.rw + r.wo = 0 then true
    else if rowWindow b off then a.jtag
    else
      let stageReg := b == 15 && (off == 8 || off == 0xC || (decide (0x1000 ≤ off) && decide (off < 0x1400)))
      let commitReg := b == 15 && (off == 0xF00 || off == 0xF04)
      if a.claimant ∧ !stageReg ∧ !commitReg then false
      else if a.jtag then true
      else if stageReg then
        (if off = 8 then (if bits v 31 30 = 1 ∨ bits v 31 30 = 2 then a.stages (bits v 31 30) else a.roles &&& r.writers != 0)
         else a.stages (d.fld fTarget))
      else a.roles &&& r.writers != 0

/-- Whether a warm reset in progress has made a register unavailable (R483). -/
def Dev.unavailable (d : Dev) (b off : Nat) : Bool :=
  d.sec.warm.isSome && (b == 2 || b == 7 || b == 8 || (b == 10 && decide (0x400 ≤ off) && decide (off < 0x600)))

/-- Whether a row window access names a row of a scrubbing cluster (R489; 06 R224). -/
def Dev.rowScrubs (d : Dev) (b off : Nat) : Bool :=
  let g := d.reg (regAddr 10 4)
  rowWindow b off && off != 4 && graValid g && d.fld (fClState (graCluster g)) == 2

/-- Whether a second claimant reaches for the staging window that another holds (15 R464). -/
def Dev.heldStage (d : Dev) (a : Actor) (b off : Nat) : Bool :=
  a.claimant && b == 15 && (off == 8 || off == 0xC || (decide (0x1000 ≤ off) && decide (off < 0x1400))) && d.sec.holder != 0 &&
    d.sec.holder != a.session

/-- Whether a nonzero value is given to an RO field. -/
def roWrite (b off v : Nat) : Bool := match regRow b off with | some r => v &&& r.ro != 0 | none => false

/-- The JTAG check: debug unlocked at scope 2, and at scope 3 for the row window (R477, R489). -/
def Dev.jtagBars (d : Dev) (b off : Nat) : Bool := decide (d.fld fScope < 2) || (rowWindow b off && d.fld fScope != 3)

/-! ### Arming a commit (R481, R485) -/

/-- The target EC that a commit asks for: 0 means the first multiple of 1,280 at least 10,000 ticks on. -/
def Dev.commitTarget (d : Dev) (t : Nat) : Nat := if t = 0 then roundUp (d.now + 10000) 1280 else t

/-- Whether a role has a commit armed on a block. -/
def Dev.hasArmed (d : Dev) (b role : Nat) : Bool := d.mg.armed.any (fun x => x.block == b && x.role == role)

/-- The code of arming: 0x0013, 0x0014, and 0x0F30 while its record cannot be added (15 R469). -/
def Dev.armCode (d : Dev) (role b t : Nat) : Nat :=
  if t ≠ 0 ∧ (t < d.now + 10000 ∨ d.now + 60000000000 < t) then 0x0013
  else if d.hasArmed b role then 0x0014
  else if d.ledgerFull then 0x0F30
  else 0

/-- The registers that a shadow holds. -/
def Dev.shadowOf (d : Dev) (b role : Nat) : List (Nat × Word) :=
  (d.mg.shadow.filter (fun x => x.1 == role && x.2.1 / 0x40000 == b)).map (fun x => (x.2.1 % 0x40000, x.2.2))

/-- A value of a shadow copy over the value in force. -/
def Dev.over (d : Dev) (b : Nat) (sh : List (Nat × Word)) (off : Nat) : Nat :=
  match sh.find? (fun x => x.1 == off) with
  | some (_, v) => v.toNat
  | none => d.reg (regAddr b off)

/-- The bit of COMMIT_STATUS.ARMED of a role, and COMMIT_STATUS.STATE. -/
def fArmed (b role : Nat) : Fld := ⟨regAddr b 0xF08, 15 + role, 15 + role⟩
def fCommitState (b : Nat) : Fld := ⟨regAddr b 0xF08, 31, 30⟩

/-- A commit armed: it takes the role's shadow (R481). A set shows in EPOCH.STATUS.SET_PENDING, and an activation of
firmware is ordered at once, for its handover EC (15 R466). -/
def Dev.arm (d : Dev) (a : Actor) (b target : Nat) : Dev :=
  let sh := d.shadowOf b a.role
  let early := b == 15 && decide (target < d.now + 2000000000)
  let c : Armed := { block := b, role := a.role, target := target, shadow := sh, actor := a.key, early := early }
  let d : Dev := { d with mg := {
    shadow := d.mg.shadow.filter (fun x => !(x.1 == a.role && x.2.1 / 0x40000 == b)), armed := d.mg.armed ++ [c] } }
  let d := (d.put (fArmed b a.role) 1).put (fCommitState b) 1
  let d := if b = 1 ∧ bitAt (d.over 1 sh 8) 3 then d.put ⟨regAddr 1 0x18, 8, 8⟩ 1 else d
  let stage := d.over 15 sh 8
  if b = 15 ∧ bitAt stage 27 ∧ bits stage 31 30 = 1 ∧ !early then
    { d with sec := { d.sec with activate := some (target, 1), stageRole := a.role, stageActor := a.key } }
  else d

/-- A refused arming is reported in the ledger alone (R484). -/
def Dev.armRefused (d : Dev) (a : Actor) (b target code : Nat) : Dev :=
  d.auditRaw 1 a.role code a.key (BitVec.ofNat 384 (b + target <<< 64))

/-! ### The code of an access (Table 16.2) -/

/-- The target of a write that includes COMMIT_HI: with COMMIT_LO of the same write, or the one last written. -/
def commitOf (lo : Nat) (ws : List (Nat × Nat)) : Option Nat :=
  match ws.find? (fun x => x.1 == 0xF04) with
  | some (_, hi) =>
    some (hi * 2 ^ 32 + (match ws.find? (fun x => x.1 == 0xF00) with | some (_, l) => l | none => lo))
  | none => none

/-- The first failing row of Table 16.2 for a write of values at offsets; `lo` is COMMIT_LO as last written. -/
def Dev.writeCode (d : Dev) (a : Actor) (b lo : Nat) (ws : List (Nat × Nat)) : Nat :=
  let badRow := ws.any (fun x => b == 10 && x.1 == 8 && bitAt x.2 0) && !graValid (d.reg (regAddr 10 4))
  if ws.any (fun x => x.1 % 4 != 0 || (regRow b x.1).isNone) ∨ (badRow ∧ a.jtag) then 0x0011
  else if ws.any (fun x => !d.may a b x.1 x.2) then 0x0010
  else if ws.any (fun x => roWrite b x.1 x.2) then 0x0012
  else if ws.any (fun x => d.rowScrubs b x.1 || d.unavailable b x.1 || d.heldStage a b x.1) then 0x0015
  else
    let c := match commitOf lo ws with | some t => d.armCode a.role b t | none => 0
    if c ≠ 0 then c
    else if a.jtag ∧ ws.any (fun x => d.jtagBars b x.1) then 0x0016
    else 0

/-- The first failing row of Table 16.2 for a read. -/
def Dev.readCode (d : Dev) (a : Actor) (b : Nat) (offs : List Nat) : Nat :=
  if offs.any (fun o => o % 4 != 0 || (regRow b o).isNone) then 0x0011
  else if offs.any (fun o => rowWindow b o) ∧ !a.jtag then 0x0010
  else if offs.any (fun o => d.rowScrubs b o || d.unavailable b o) then 0x0015
  else if a.jtag ∧ offs.any (fun o => d.jtagBars b o) then 0x0016
  else 0

end Sys2Proof.Machine
end

