-- ==== Sys2Proof/Machine/Security.lean ====
section
/-! DEFINITION. Staging, activation, handover, management cores, debug, attestation and ordered repairs (15 sections 3 to 10;
14 R439, R440). -/

namespace Sys2Proof.Machine

/-- An audit record under the role and key of a staging commit. -/
def Dev.auditStage (d : Dev) (kind result : Nat) (args : List Nat) : Dev :=
  d.auditRaw kind d.sec.stageRole result d.sec.stageActor (auditDetail args)

/-! ### Images as staged bytes (R457, R458) -/

/-- A byte of a staged slot; an erased byte reads 0xFF (log entry 30). -/
def stByte (m : List (Nat × Byte)) (o : Nat) : Nat := (mapGet (fun _ => 0xFF) m o).toNat
def stBytes (m : List (Nat × Byte)) (o n : Nat) : List Nat := (List.range n).map (fun k => stByte m (o + k))
def stNum (m : List (Nat × Byte)) (o n : Nat) : Nat := leNat (stBytes m o n)
/-- A digest as its 48 bytes, the first lowest. -/
def digestOf (l : List Nat) : BitVec 384 := BitVec.ofNat 384 (leNat l)

/-- Sizes of a firmware and of a configuration slot (Table 15.3). -/
def fwSlotBytes : Nat := 64 * 2 ^ 20
def cfgSlotBytes : Nat := 16 * 2 ^ 20

/-- Whether the signature block at byte `n` names a key and holds its signature over the bytes before the block (R340, R457, R458). -/
def stSigned (m : List (Nat × Byte)) (n : Nat) (key : PubKey) : Bool :=
  digestOf (stBytes m n 48) == keyDigest key && (stBytes m (n + 144) 16).all (fun x => x == 0) &&
    signedBy key (stBytes m 0 n) (BitVec.ofNat 768 (stNum m (n + 48) 96))

/-- The staged firmware image: its header (Table 15.4) and its signature block after IMAGE_BYTES, under the maker root's key. -/
def fwOf (root : BitVec 384) (m : List (Nat × Byte)) (key : PubKey) : FwImage :=
  let n := stNum m 0xC 4
  let ok := stNum m 0 4 == 0x58594441 && (stBytes m 0x1F 97).all (fun x => x == 0) && decide (128 ≤ n) &&
    decide (n + 160 ≤ fwSlotBytes) && keyDigest key == root && stSigned m n key
  { version := BitVec.ofNat 32 (stNum m 4 4), svn := BitVec.ofNat 32 (stNum m 8 4), tellerMin := BitVec.ofNat 8 (stByte m 0x10),
    tellerMax := BitVec.ofNat 8 (stByte m 0x11), folioMin := BitVec.ofNat 16 (stNum m 0x12 2), folioMax := BitVec.ofNat 16 (stNum m 0x14 2),
    tkMin := BitVec.ofNat 32 (stNum m 0x16 4), tkMax := BitVec.ofNat 32 (stNum m 0x1A 4), linkver := BitVec.ofNat 8 (stByte m 0x1E),
    digest := sha384 (bytesOf (stBytes m 0 (if ok then n else 0))), ok := ok }

/-- The records of a configuration section from an offset to its end: TYPE and value (R458); none where one overruns. -/
def cfgRecs (m : List (Nat × Byte)) (last : Nat) : Nat → Nat → Option (List (Nat × List Nat))
  | 0, _ => none
  | k + 1, o =>
    if o = last then some []
    else
      let n := stNum m (o + 2) 2
      let next := o + roundUp (4 + n) 8
      if last < next ∨ (stBytes m (o + 4 + n) (next - (o + 4 + n))).any (fun x => x != 0) then none
      else (cfgRecs m last k next).map (fun t => (stNum m o 2, stBytes m (o + 4) n) :: t)

/-- Records of one TYPE. -/
def recsOf (l : List (Nat × List Nat)) (ty : Nat) : List (List Nat) := (l.filter (fun x => x.1 == ty)).map (fun x => x.2)

/-- Types, limits and the lengths that Table 15.5 fixes. -/
def recsOk (l : List (Nat × List Nat)) : Bool :=
  let upTo := fun (ty n : Nat) => decide ((recsOf l ty).length ≤ n)
  let len := fun (ty n : Nat) => (recsOf l ty).all (fun x => x.length == n)
  l.all (fun x => decide (1 ≤ x.1) && decide (x.1 ≤ 8)) && upTo 1 1 && upTo 2 12 && upTo 3 4095 && upTo 4 1024 && upTo 5 16 &&
    upTo 6 256 && upTo 7 8 && upTo 8 1 && len 4 8 && len 5 113 && len 6 48 && len 8 144 &&
    (recsOf l 4).all (fun x => x.getD 1 0 == 0)

/-- The staged configuration section, signed by its ANCHOR. A TRANSFER record is signed by the previous anchor, or by the maker root
(R458, R459). -/
def cfgOf (root : BitVec 384) (m : List (Nat × Byte)) (keys : StageKeys) : CfgImage :=
  let n := stNum m 16 8
  let head := stNum m 0 4 == 0x47464E43 && stNum m 4 2 == 1 && stNum m 6 2 == 0 && decide (121 ≤ n) && decide (n + 160 ≤ cfgSlotBytes)
  let recs := if head then cfgRecs m n (n / 8 + 1) 121 else none
  let l := recs.getD []
  let anchor := sha384 (bytesOf (stBytes m 24 97))
  let ok := head && recs.isSome && recsOk l && stSigned m n (BitVec.ofNat 776 (stNum m 24 97))
  let plan := match recsOf l 1 with | x :: _ => Config.planRecord (bytesOf x) | [] => (0, (0, 0, 0), [])
  { seq := BitVec.ofNat 64 (stNum m 8 8), anchor := anchor, digest := sha384 (bytesOf (stBytes m 0 (if ok then n else 0))),
    planId := plan.1, dims := plan.2.1, plan := plan.2.2,
    slots := (recsOf l 2).flatMap (fun x => Config.slotsRecord (bytesOf x)),
    routes := (recsOf l 3).map (fun x => Config.routesRecord (bytesOf x)),
    regs := (recsOf l 4).map (fun x => (BitVec.ofNat 8 (x.getD 0 0), BitVec.ofNat 16 (leNat ((x.drop 2).take 2)), BitVec.ofNat 32 (leNat (x.drop 4)))),
    opKeys := (recsOf l 5).map (fun x => BitVec.ofNat 776 (leNat (x.take 97))),
    revoked := (recsOf l 6).map digestOf,
    saks := (recsOf l 7).map (fun x => Config.sakRecord (bytesOf x)),
    transfer := match recsOf l 8 with
      | x :: _ =>
        let by_ := fun (k : PubKey) => signedBy k (stBytes m 24 97) (BitVec.ofNat 768 (leNat (x.drop 48)))
        let prev := digestOf (x.take 48)
        some (prev, (keyDigest keys.previous == prev && by_ keys.previous) || (keyDigest keys.maker == root && by_ keys.maker))
      | [] => none,
    ok := ok }

/-- Whether a TRANSFER record admits a new ANCHOR (R459). -/
def Dev.transfers (d : Dev) (c : CfgImage) : Bool :=
  match c.transfer with
  | some (prev, sig) => sig && d.sec.owners.getLast? == some prev && decide (d.sec.owners.length < 4)
  | none => false

/-- Whether a configuration verifies (R459); `root` is the root of a claimant that stages it (R464). -/
def Dev.cfgVerifies (d : Dev) (c : CfgImage) (root : Option (BitVec 384)) : Bool :=
  c.ok && decide (d.sec.lastSeq.toNat ≤ c.seq.toNat) &&
    (if d.sec.owners.isEmpty then (match root with | some r => c.anchor == r | none => true)
     else d.sec.owners.getLast? == some c.anchor || d.transfers c)

/-! ### Staging (R457, R466; Table 15.16, Table 15.17) -/

/-- Bytes written into the inactive slot of the TARGET in force at STAGE_ADDR; those past the slot's end are lost. -/
def Dev.stageWrite (d : Dev) (o : Nat) (vals : List Nat) : Dev :=
  let addr := d.reg (regAddr 15 0xC)
  let base := addr - addr % 1024 + (o - 0x1000)
  let put := fun (size : Nat) (m : List (Nat × Byte)) =>
    ((bytesOf (vals.flatMap (toLe 4))).zipIdx.filter (fun x => decide (base + x.2 < size))).foldl
      (fun m x => mapSet (fun _ => (0xFF : Byte)) m (base + x.2) x.1) m
  let d : Dev := if d.fld fTarget = 1 then
      { d with sec := { d.sec with stageFw := put fwSlotBytes d.sec.stageFw, stagedFw := none } }
    else { d with sec := { d.sec with stageCfg := put cfgSlotBytes d.sec.stageCfg, stagedCfg := none } }
  d.put fStState 1

/-- A management write through a session: checked by Table 16.2, refused whole or carried out. -/
def Dev.mgmtCheck (d : Dev) (h : MsgHdr) (b : Nat) (ws : List (Nat × Nat)) (act : Session → Dev → Dev) : Dev :=
  d.request h false (fun x d =>
    let lo := mapGet (fun _ => 0) x.commitLo b
    let code := d.writeCode (sessionActor x) b lo ws
    if code = 0 then (act x d).reply h 0 else d.reply h code)

/-- Successive registers and their values. -/
def regPairs (off : Nat) (vals : List Word) : List (Nat × Nat) := vals.zipIdx.map (fun (v, i) => (off + 4 * i, v.toNat))

def msgStageWinWrite (h : MsgHdr) (offset : BitVec 32) (vals : List Word) (s : State) : State :=
  s.onDev (fun d => d.mgmtCheck h 15 (regPairs offset.toNat vals) (fun _ d =>
    if d.pins.vnvm then d.stageWrite offset.toNat (vals.map (fun v => v.toNat)) else d))

/-- The inactive slot of a target holds an image or nothing. -/
def Dev.setInactive (d : Dev) (target : Nat) (fw : Option FwImage) (cfg : Option CfgImage) : Dev :=
  if target = 1 then
    (if d.sec.activeFw then { d with sec := { d.sec with fw0 := fw } } else { d with sec := { d.sec with fw1 := fw } })
  else
    (if d.sec.activeCfg then { d with sec := { d.sec with cfg0 := cfg } } else { d with sec := { d.sec with cfg1 := cfg } })

def execStageErase (s : State) : Res :=
  ok (s.onDev (fun d =>
    match d.sec.erase with
    | some t =>
      if !d.pins.vnvm then d
      else
        let d := d.setInactive t none none
        let d : Dev := if t = 1 then { d with sec := { d.sec with erase := none, stageFw := [], stagedFw := none } }
          else { d with sec := { d.sec with erase := none, stageCfg := [], stagedCfg := none } }
        (d.put fStState 0).auditStage 8 0 [t, 0]
    | none => d))

/-- The root of the claimant that holds the staging window. -/
def Dev.claimRoot (d : Dev) : Option (BitVec 384) :=
  match d.session? d.sec.holder with
  | some x => if x.claimant then some x.root else none
  | none => none

/-- A verification ends: STATE 2 or 3, and the code of a failure. A configuration's failure has no code in the spec: a free
value (log entry 14). -/
def Dev.stageVerify (d : Dev) (t : Nat) (keys : StageKeys) : Dev :=
  let d : Dev := { d with sec := { d.sec with verify := none } }
  if t = 1 then
    let f := fwOf d.sec.makerRoot d.sec.stageFw keys.maker
    let code := if !f.ok then 0x0F40 else if f.svn.toNat < d.sec.svn.toNat then 0x0F41 else 0
    let pass := decide (code = 0)
    let d : Dev := { d with sec := { d.sec with stagedFw := if pass then some f else none } }.setInactive 1 (some { f with ok := pass }) none
    let d := d.put fStState (if pass then 2 else 3)
    let d := if pass then d else d.put fStCode code
    (d.event 15 3 [1, if pass then 2 else 3]).auditStage 8 code [1, if pass then 2 else 3]
  else
    let c := cfgOf d.sec.makerRoot d.sec.stageCfg keys
    let pass := d.cfgVerifies c d.claimRoot
    let (k, d) := d.draw
    let code := if pass then 0 else (Config.freeValue k).toNat % 2 ^ 16
    let d : Dev := { d with sec := { d.sec with stagedCfg := if pass then some c else none } }.setInactive 2 none (some { c with ok := pass })
    let d := d.put fStState (if pass then 2 else 3)
    let d := if pass then d else d.put fStCode code
    (d.event 15 3 [2, if pass then 2 else 3]).auditStage 8 code [2, if pass then 2 else 3]

def execStageVerify (keys : StageKeys) (s : State) : Res :=
  ok (s.onDev (fun d => match d.sec.verify with | some t => if d.pins.vnvm then d.stageVerify t keys else d | none => d))

/-! ### Activation and claim (R464, R466; Table 15.16) -/

/-- The owner digest burned into the next fuse slot: a claim or a transfer (R459, R464). -/
def Dev.burnOwner (d : Dev) (anchor : BitVec 384) : Dev :=
  let d : Dev := { d with sec := { d.sec with owners := d.sec.owners ++ [anchor] } }
  (d.put fOwner d.sec.owners.length).event 15 2 []

/-- The claim at an activation: its session holds full rights, and any other claimant session closes (R464). -/
def Dev.claim (d : Dev) (anchor : BitVec 384) : Dev :=
  let d := (d.burnOwner anchor).auditStage 12 0 []
  let keep := d.sec.holder
  let others := (d.tel.sessions.filter (fun x => x.claimant && x.id != keep)).map (fun x => x.id)
  let d := d.updSession keep (fun x => { x with claimant := false })
  let d : Dev := { d with sec := { d.sec with holder := 0 } }
  others.foldl (fun d id => d.closeSession id 0x0C02) d

/-- An activated configuration: its OPKEY and REVOKE records apply and ACTIVE_CFG switches; the rest waits for the next cold
reset (Table 15.16). -/
def Dev.activateCfg (d : Dev) (c : CfgImage) : Dev :=
  let d := if d.sec.owners.isEmpty then d.claim c.anchor else d
  let d := d.setInactive 2 none (some c)
  let d : Dev := { d with sec := { d.sec with
    opKeys := c.opKeys, revoked := c.revoked, cfg := some c, activeCfg := !d.sec.activeCfg, stagedCfg := none, stageCfg := [] } }
  (d.put fCfgSlot (b2n d.sec.activeCfg)).auditStage 8 0 [2, 2, c.seq.toNat]

/-- A firmware handover armed for h: the staged image loads onto the spare core (Table 15.10). It waits while a takeover
runs (R468), and is not armed while another handover is, or with no spare core (R466). -/
def Dev.armHandover (d : Dev) (h : Nat) : Dev :=
  if d.hlth.takeover then d
  else
    let d : Dev := { d with sec := { d.sec with activate := none } }
    match d.sec.stagedFw, d.hlth.mcSpare, d.sec.handover with
    | some f, some k, none =>
      let x : Handover := { h := h, phase := 1, image := f, core := k, old := d.sec.fw }
      ({ d with sec := { d.sec with handover := some x } } : Dev).put fHand 1 |>.auditStage 8 0 [1, 2, h]
    | _, _, _ => d

def execStageActivate (s : State) : Res :=
  ok (s.onDev (fun d =>
    match d.sec.activate with
    | some (e, 1) => if d.now < e then d.armHandover e else { d with sec := { d.sec with activate := none } }
    | some (_, _) =>
      (match d.sec.stagedCfg with
        | some c => ({ d with sec := { d.sec with activate := none } } : Dev).activateCfg c
        | none => { d with sec := { d.sec with activate := none } })
    | none => d))

/-! ### Management cores and handover (14 R439, R440; 15 R467, R468) -/

/-- A spare management core takes over the state of the pair; the firmware loops pause (14 R439). -/
def Dev.beginTakeover (d : Dev) : Dev :=
  match d.hlth.mcSpare with
  | some _ =>
    ({ d with hlth := { d.hlth with mcSpare := none, takeover := true, takeoverWaits := false } } : Dev).put ⟨regAddr 13 0, 5, 5⟩ 1
  | none => { d with hlth := { d.hlth with takeoverWaits := false } }

/-- The handover leaves; a takeover that waited for it begins (R468). -/
def Dev.dropHandover (d : Dev) : Dev :=
  let d := ({ d with sec := { d.sec with handover := none } } : Dev).put fHand 0
  if d.hlth.takeoverWaits then d.beginTakeover else d

/-- An audit record of a handover, with its h and VERSION. -/
def Dev.auditHand (d : Dev) (x : Handover) (code : Nat) : Dev :=
  d.auditRaw 9 0 code 0 (auditDetail [x.h, x.image.version.toNat])

/-- A handover aborted before h; the old image runs on. -/
def Dev.abortHandover (d : Dev) : Dev :=
  match d.sec.handover with
  | some x =>
    let d := (d.auditHand x 0x0F46).dropHandover
    if x.phase = 2 then d.put ⟨regAddr 13 0, 5, 5⟩ (b2n d.hlth.takeover) else d
  | none => d

/-- The old cores load the new image: one joins lockstep and the other becomes the spare; ACTIVE_FW is switched and the fused
SVN raised (Table 15.10). -/
def Dev.confirmHandover (d : Dev) : Dev :=
  match d.sec.handover with
  | some x =>
    let olds := (List.range 3).filter (fun k => k != x.core && d.fld ⟨regAddr 14 0, 8 + k, 8 + k⟩ == 1)
    let spare := match olds with | [_, k] => some k | _ => none
    let svn := max d.sec.svn.toNat x.image.svn.toNat
    let d : Dev := { d with
      hlth := { d.hlth with mcSpare := spare, takeoverWaits := false },
      sec := { d.sec with activeFw := !d.sec.activeFw, svn := BitVec.ofNat 32 svn, stagedFw := none, stageFw := [] } }
    (((d.put fFwSlot (b2n d.sec.activeFw)).setReg (regAddr 15 0x2C) svn).auditHand x 0).dropHandover
  | none => d

def execHandoverReadyCheck (ready : Bool) (s : State) : Res :=
  ok (s.onDev (fun d =>
    match d.sec.handover with
    | some x =>
      if x.phase = 1 ∧ !x.ready ∧ x.h ≤ d.now + 100000000 then
        (if ready then { d with sec := { d.sec with handover := some { x with ready := true } } } else d.abortHandover)
      else d
    | none => d))

/-- At h, its commit applied, the loops pause and the pair stops changing state. -/
def execHandoverEc (s : State) : Res :=
  ok (s.onDev (fun d =>
    match d.sec.handover with
    | some x =>
      if x.phase = 1 ∧ x.ready ∧ x.h ≤ d.now ∧ !d.mg.armed.any (fun c => c.block == 15 && c.target == x.h) ∧ !d.hlth.takeover then
        (({ d with sec := { d.sec with handover := some { x with phase := 2 } } } : Dev).put fHand 2).put ⟨regAddr 13 0, 5, 5⟩ 1
      else d
    | none => d))

/-- The spare is the active MC, with the new image; the loops resume. -/
def Dev.handoverResume (d : Dev) : Dev :=
  match d.sec.handover with
  | some x =>
    if x.phase = 2 then
      let d : Dev := { d with
        hlth := { d.hlth with mcSpare := none },
        sec := { d.sec with handover := some { x with phase := 3 }, fw := some x.image } }
      let d := ((d.put fHand 3).put ⟨regAddr 13 0, 5, 5⟩ 0).setReg (regAddr 15 0x28) x.image.version.toNat
      (d.event 15 4 [x.h, x.image.version.toNat]).auditHand x 0
    else d
  | none => d

/-- The handover is reversed: the old pair, which still holds the old image, is active again. -/
def Dev.revertHandover (d : Dev) (x : Handover) : Dev :=
  let d : Dev := { d with
    hlth := { d.hlth with mcSpare := if d.fld ⟨regAddr 14 0, 8 + x.core, 8 + x.core⟩ = 1 then some x.core else none },
    sec := { d.sec with fw := x.old } }
  let d := d.setReg (regAddr 15 0x28) (match x.old with | some f => f.version.toNat | none => 0)
  ((d.event 15 5 []).auditHand x 0).dropHandover

def execHandoverRevert (s : State) : Res :=
  ok (s.onDev (fun d =>
    match d.sec.handover with
    | some x => if x.phase = 3 ∧ d.now < x.h + 1000000000 then d.revertHandover x else d
    | none => d))

def execHandoverConfirm (s : State) : Res :=
  ok (s.onDev (fun d =>
    match d.sec.handover with
    | some x => if x.phase = 3 ∧ x.h + 1000000000 ≤ d.now ∧ d.pins.vnvm then d.confirmHandover else d
    | none => d))

/-- A management core is retired: the spare takes over an active one; the last one lost fails the device. A loss of the spare
aborts an armed handover; one of an old core in the confirmation window ends the window (14 R439, R440; 15 R468). -/
def Dev.mcFault (d : Dev) (k : Nat) : Dev :=
  let f : Fld := ⟨regAddr 14 0, 8 + k, 8 + k⟩
  if d.fld f = 0 then d
  else
    let d := (d.put f 0).event 14 7 [k]
    let d := if d.hlth.mcSpare = some k then { d with hlth := { d.hlth with mcSpare := none } } else d
    if d.fld ⟨regAddr 14 0, 10, 8⟩ = 0 then d.deviceFail
    else
      match d.sec.handover with
      | some x =>
        if x.phase = 3 then (if x.core = k then d.revertHandover x else d.confirmHandover)
        else if x.core = k then d.abortHandover
        else { d with hlth := { d.hlth with takeoverWaits := true } }
      | none => d.beginTakeover

/-- The spare enters lockstep: the loops resume. -/
def execMcTakeoverComplete (s : State) : Res :=
  ok (s.onDev (fun d =>
    if d.hlth.takeover then
      ({ d with hlth := { d.hlth with takeover := false } } : Dev).put ⟨regAddr 13 0, 5, 5⟩ (b2n d.handing)
    else d))

/-! ### Debug (R471, R472) -/

/-- Every cluster is scrubbed and returns stale; a slice that still holds one is unloaded first (R472; 14 R441). -/
def Dev.scrubAll (d : Dev) : Dev :=
  let d := d.slices.foldl Dev.unloadSlice d
  ((List.range 72).foldl Dev.staleCluster d).clockForScrub

/-- Debug locks. -/
def Dev.lockDebug (d : Dev) : Dev :=
  let old := d.fld fScope
  if old = 0 then d
  else
    let d := ((d.put fScope 0).event 15 6 [0]).auditRaw 10 3 0 0 (auditDetail [0])
    if old = 3 then d.scrubAll else d

/-- The nonce of SEC.DBG_CHAL drawn anew; the response words are gone. -/
def Dev.newChallenge (d : Dev) : Dev :=
  let (k, d) := d.draw
  { d with sec := { d.sec with nonce := Config.freeValue k, resp := [] } }

/-- Whether a response is signed by the maker root, over the serial, the nonce and the response's bytes 0–15 (R471). -/
def Dev.debugSigned (d : Dev) (scope reserved expiry : Nat) (g : DebugSig) : Bool :=
  keyDigest g.maker == d.sec.makerRoot &&
    signedBy g.maker (toLe 16 d.sec.serial.toNat ++ toLe 48 d.sec.nonce.toNat ++ [scope] ++ toLe 7 reserved ++ toLe 8 expiry) g.sig

/-- The rules of Table 15.19 for a response, 0 for none. -/
def Dev.debugCode (d : Dev) (scope reserved expiry : Nat) (g : DebugSig) : Nat :=
  if reserved ≠ 0 ∨ 3 < scope then 0x0F20
  else if d.ledgerFull then 0x0F30
  else if scope = 0 then 0
  else if d.fld ⟨regAddr 15 4, 31, 31⟩ = 0 ∧ d.bootState ≠ 3 then 0x0F50
  else if !d.debugSigned scope reserved expiry g then 0x0F51
  else if (scope = 1 ∨ scope = 3) ∧ (d.slices.any (fun sl => d.loaded sl) ∨ d.fld fPark ≠ 3) then 0x0F52
  else if expiry < d.now ∨ d.now + 86400000000000 < expiry then 0x0F53
  else 0

/-- A debug response is checked: it unlocks its scope, locks with SCOPE 0, or is refused. -/
def Dev.debugResponse (d : Dev) (scope reserved expiry : Nat) (g : DebugSig) (actor : BitVec 128) : Nat × Dev :=
  let code := d.debugCode scope reserved expiry g
  let d :=
    if code ≠ 0 then (d.bump (regAddr 15 0x30) 1).auditRaw 10 3 code actor (auditDetail [scope])
    else if scope = 0 then d.lockDebug
    else
      let d : Dev := { d with sec := { d.sec with expiry := expiry, unlocked := true } }
      ((d.put fScope scope).event 15 6 [scope]).auditRaw 10 3 0 actor (auditDetail [scope])
  (code, d.newChallenge)

def msgDebugResponse (via : DebugVia) (scope : BitVec 8) (reserved : BitVec 56) (expiry : BitVec 64) (sig : DebugSig) (s : State) : State :=
  s.onDev (fun d =>
    match via with
    | .jtag =>
      if !d.pins.rails then d
      else
        let (code, d) := d.debugResponse scope.toNat reserved.toNat expiry.toNat sig 0
        { d with sec := { d.sec with jtagCode := code } }
    | .session h =>
      d.request h false (fun x d =>
        let code := d.writeCode (sessionActor x) 15 0 [(0x216C, 0)]
        if code ≠ 0 then d.reply h code
        else
          let (code, d) := d.debugResponse scope.toNat reserved.toNat expiry.toNat sig (actorKey x)
          d.reply h code))

def execDebugExpiry (s : State) : Res :=
  ok (s.onDev (fun d => if d.fld fScope ≠ 0 ∧ d.sec.expiry ≤ d.now then d.lockDebug else d))

/-! ### Attestation (R470) -/

/-- Nonce words written; the last one starts a report. -/
def Dev.nonceWrite (d : Dev) (ws : List (Nat × Nat)) : Dev :=
  let words := ws.foldl (fun m x => mapPut m ((x.1 - 0x200) / 4) (BitVec.ofNat 32 x.2)) d.sec.attNonce
  let d : Dev := { d with sec := { d.sec with attNonce := words } }
  if ws.any (fun x => x.1 == 0x22C) then
    let n := packFields 32 ((List.range 12).map (fun k => (mapGet (fun _ => (0 : Word)) words k).toNat))
    ({ d with sec := { d.sec with attRun := some (BitVec.ofNat 384 n) } } : Dev).put fAttReady 0
  else d

def msgAttNonceWrite (h : MsgHdr) (first : Fin 12) (vals : List Word) (s : State) : State :=
  s.onDev (fun d =>
    let ws := regPairs (0x200 + 4 * first) vals
    d.mgmtCheck h 15 ws (fun _ d => d.nonceWrite ws))

/-- The report of Table 15.12. -/
def Dev.attReport (d : Dev) (nonce : BitVec 384) : List Byte :=
  let dig := fun (x : Option (BitVec 384)) => toLe 48 (match x with | some v => v.toNat | none => 0)
  let ver := match d.sec.fw with | some f => f.version.toNat | none => 0
  let dbg := d.fld fScope + (if d.sec.unlocked then 128 else 0)
  let sites := packFields 4 ((List.range 72).map (fun c => d.fld (fSite c)))
  let lanes := packFields 4 ((List.range 12).map (fun p => d.fld (fLane p)))
  let spares := packFields 2 ((List.range 12).map (fun k => d.fld (fStackSpares k)))
  let body := bytesOf (toLe 4 0x54544E41 ++ toLe 2 1 ++ toLe 2 512 ++ toLe 16 d.sec.serial.toNat ++ toLe 8 d.now ++
    toLe 48 nonce.toNat ++ toLe 48 Config.romDigest.toNat ++ dig (d.sec.fw.map (fun f => f.digest)) ++
    dig (d.sec.cfg.map (fun c => c.digest)) ++ dig (match d.sec.ledger with | r :: _ => some (auditDigest r) | [] => none) ++
    toLe 4 ver ++ toLe 4 d.sec.svn.toNat ++ [dbg, 0, 0, 0] ++ toLe 36 sites ++ toLe 6 lanes ++ toLe 3 spares ++
    [d.fld ⟨regAddr 14 0, 10, 8⟩] ++ toLe 2 (min 0xFFFF (d.reg (regAddr 14 0x1C))) ++ [min 255 (d.reg (regAddr 14 0x38))] ++ toLe 83 0)
  body ++ bytesOf (toLe 96 (Config.identitySignature (sha384 body)).toNat)

def execAttestationReady (s : State) : Res :=
  ok (s.onDev (fun d =>
    match d.sec.attRun with
    | some n => ({ d with sec := { d.sec with attRun := none, report := d.attReport n } } : Dev).put fAttReady 1
    | none => d))

/-! ### Ordered repairs (R463; Table 15.13) -/

/-- A lane retired by order: the two ends agree on a later wheel, a free value (08 R270; log entry 14). -/
def Dev.orderLane (d : Dev) (p lane : Nat) : Dev :=
  if !d.laneLive p ∨ d.fld (fLane p) = lane ∨ d.laneGoing p lane then d
  else if d.laneUsed p then d.laneFail p
  else
    let (k, d) := d.draw
    let w := d.wheel + 1 + (Config.freeValue k).toNat
    (d.updPort p (fun x => { x with laneSwitch := some (lane, w) })).ctrl p (laneWord 1 lane w)

/-- A retirement ordered by a maker; that of an unused spare site needs no stop and runs at once (14 R431, Table 14.1); a unit that does not exist orders nothing. -/
def Dev.orderRepair (d : Dev) (v : Nat) (copy : List BadBlock) : Dev :=
  let n := bits v 29 0
  match bits v 31 30 with
  | 0 =>
    if n / 16 < 72 ∧ n % 16 < 9 then
      (if n % 16 = 8 ∧ d.fld (fSite (n / 16)) = 0xF then d.repairSite (n / 16) 8 else d.pendSite (n / 16) (n % 16))
    else d
  | 1 => if graValid n ∧ graSpace n = 0 then d.pendRow n else d
  | 2 => if n / 16 < 12 ∧ n % 16 < 9 then d.orderLane (n / 16) (n % 16) else d
  | _ => if n / 64 < 12 ∧ n % 64 < 62 ∧ !d.vault.lost.contains (n / 64, n % 64) ∧ d.fld (fStackState (n / 64)) ≠ 3 then
      d.retirePc (n / 64) (n % 64) copy else d

def msgRepairReq (h : MsgHdr) (v : RepairOrder) (s : State) : State :=
  s.onDev (fun d =>
    d.request h false (fun x d =>
      let code := d.writeCode (sessionActor x) 15 0 [(0x18, v.value.toNat)]
      if code ≠ 0 then d.reply h code
      else if d.ledgerFull then d.reply h 0x0F30
      else ((d.auditRaw 11 3 0 (actorKey x) (auditDetail [v.value.toNat])).orderRepair v.value.toNat v.copy).reply h 0))

end Sys2Proof.Machine
end

