-- ==== Sys2Proof/Machine/Commit.lean ====
section
/-! DEFINITION. Commits: the agreement rules of every block, and what an applied commit does (16 section 3; the agreement
tables of 01, 08, 09, 11, 12, 13, 14, 15 and 16). Each rule is judged on the device `n` with the shadow over the values in
force, `d` being the device as it stands. -/

namespace Sys2Proof.Machine

/-- The first rule of a table that a commit fails: its code, 0 for none. -/
def firstRule : List (Bool × Nat) → Nat
  | [] => 0
  | (c, code) :: t => if c then code else firstRule t

/-- Whether a shadowed value has a reserved bit set (16 R478). -/
def reservedSet (b : Nat) (sh : List (Nat × Word)) : Bool :=
  sh.any (fun x => match regRow b x.1 with
    | some r => x.2.toNat != x.2.toNat &&& (r.cw ||| r.rw ||| r.wo)
    | none => true)

/-- The device with the shadowed registers over the values in force. -/
def Dev.overlay (d : Dev) (b : Nat) (sh : List (Nat × Word)) : Dev := sh.foldl (fun d x => d.setReg (regAddr b x.1) x.2.toNat) d

/-- EPOCH (01 Table 1.6). -/
def epochRules (d n : Dev) (sh : List (Nat × Word)) : Nat :=
  let src := n.fld fSrc
  let pa := n.fld fParent
  let al := n.fld fAlt
  let none_ := fun (p : Nat) => decide (12 ≤ p) && decide (p ≤ 14)
  firstRule [
    (decide (4 ≤ src), 0x0120), (n.fld fRefSel == 3, 0x0121), (src == 3 && decide (11 < pa), 0x0122),
    (none_ pa || none_ al, 0x0123), (pa == al && decide (pa ≤ 11), 0x0124), (n.bound == 0, 0x0125),
    (n.fld ⟨regAddr 1 0xC, 25, 24⟩ == 3, 0x0126), (bitAt (n.reg (regAddr 1 8)) 3 && d.anyLaunched, 0x0127),
    (reservedSet 1 sh, 0x0128)]

/-- CLK (16 Table 16.9). -/
def clkRules (d n : Dev) (sh : List (Nat × Word)) : Nat :=
  let rise := fun (hi lo : Nat) => decide (d.fld ⟨regAddr 2 4, hi, lo⟩ + 1 < n.fld ⟨regAddr 2 4, hi, lo⟩)
  firstRule [
    (decide (10 < n.fld ⟨regAddr 2 4, 3, 0⟩), 0x0220), (reservedSet 2 sh, 0x0221),
    (d.slices.any (fun sl => d.loaded sl) && (rise 7 4 || rise 3 0), 0x0222)]

/-- Whether two ranges of slots share an assignable slot (08 R274, R275). -/
def slotsMeet (a b : Nat × Nat × Nat × Nat × Nat) : Bool :=
  let lo := max a.1 b.1
  let hi := min a.2.1 b.2.1
  (List.range 3).any (fun k => decide (lo + k ≤ hi) && (lo + k) % 25 != 24 && (lo + k) % 100 != 0)

/-- Ports whose tables a FAB commit writes (log entry 31). -/
def portsWritten (sh : List (Nat × Word)) : List Nat :=
  (List.range 12).filter (fun p => sh.any (fun x => decide (0x4000 + 0x400 * p ≤ x.1) && decide (x.1 < 0x4400 + 0x400 * p)))

/-- The slots that a folio demands of a port on a network (10 Table 10.7). -/
def Folio.demandOn (fo : Folio) (p net : Nat) : Nat :=
  (fo.slots.filterMap (fun (r : SlotRec) => match r with
    | .demand q m _ k => if q = p ∧ m = net then some k else none
    | _ => none)).foldl (fun a k => a + k) 0

/-- Whether a slice uses its entries of a port and network: a loaded slice with a demand there, for its transmit table, or one that transits
the device. -/
def Dev.usesEntry (d : Dev) (tx : Bool) (p sid net : Nat) : Bool :=
  match d.slices.find? (fun sl => sl.id == sid && d.loaded sl) with
  | some sl => !tx || decide (0 < sl.fo.demandOn p net)
  | none => bits (d.routeReg sid 3) 31 30 == 2

/-- Whether a commit removes or shrinks an entry that a slice uses, in the transmit or the receive table: a slot of the slice is no longer
its own (0x0825). -/
def takesSlots (d n : Dev) (p : Nat) : Bool :=
  [true, false].any (fun tx => ((d.entries tx p).filter (fun e => decide (e.2.2.1 < 2))).any (fun e =>
    let u := SlotUse.sched e.2.2.2.1 e.2.2.1
    d.usesEntry tx p e.2.2.2.1 e.2.2.1 && (slotsOf (d.entries tx p) u).any (fun s => !slotIs (n.entries tx p) u s)))

/-- FAB (08 Table 8.22). A commit of boot has no target EC. Of the tables in force, those that the commit does not write have been judged by
the commit that wrote them, but for 0x0824 (R482). -/
def fabRules (d n : Dev) (sh : List (Nat × Word)) (target : Nat) : Nat :=
  let ps := portsWritten sh
  let both := fun (f : List (Nat × Nat × Nat × Nat × Nat) → Bool) => ps.any (fun p => f (n.entries true p) || f (n.entries false p))
  let bufs : Nat → Nat → Nat := fun (p net : Nat) => ((n.entries true p).filter (fun e => e.2.2.1 == net)).foldl (fun a e => a + e.2.2.2.2) 0
  let routes := ((sh.filter (fun x => decide (0x10000 ≤ x.1))).map (fun x => (x.1 - 0x10000) / 16)).eraseDups
  let dir := fun (i k v : Nat) => bits (n.routeReg i k) (2 * v + 1) (2 * v)
  let badDir := fun (i k : Nat) => (List.range 16).any (fun v => (v == axisOf d.coord k) != (dir i k v == 0))
  firstRule [
    (both (fun l => l.any (fun e => decide (e.2.1 < e.1) || decide (3999 < e.2.1))), 0x0820),
    (both (fun l => l.any (fun e => e.2.2.1 == 3 || (e.2.2.1 == 2 && e.2.2.2.1 != 0))), 0x0821),
    (both (anyPair slotsMeet), 0x0822),
    (ps.any (fun p => decide (4096 < bufs p 0) || decide (4096 < bufs p 1)), 0x0823),
    -- also a table that no commit has written yet leaves open-request slots
    ((List.range 12).any (fun p => (n.entries true p).all (fun e => e.2.2.1 != 2) && (List.range 4000).any (slotIs (n.entries true p) (.open_ 0))), 0x0824),
    (ps.any (takesSlots d n), 0x0825),
    (target % 1280 != 0, 0x0826),
    (routes.any (fun i => (List.range 3).any (fun k => (List.range 16).any (fun v => dir i k v == 3))), 0x0827),
    (routes.any (fun i => bitAt (n.routeReg i 3) 31 && (List.range 3).any (badDir i)), 0x0828),
    (reservedSet 8 sh, 0x0829)]

/-- VAULT (09 Table 9.14). -/
def vaultRules (d n : Dev) (sh : List (Nat × Word)) : Nat :=
  let cap := n.reg (regAddr 9 8) * 1000000000
  firstRule [
    (n.fld ⟨regAddr 9 4, 27, 16⟩ == 0, 0x0920), (decide (d.libCap * 512 < cap), 0x0921), (decide (cap < d.pinned), 0x0922),
    (reservedSet 9 sh, 0x0923)]

/-- TELLER (12 Table 12.22). -/
def tellerRules (d n : Dev) (sh : List (Nat × Word)) : Nat :=
  let cfg := fun (hi lo : Nat) => n.fld ⟨regAddr 12 4, hi, lo⟩
  let adr := fun (hi lo : Nat) => n.fld ⟨regAddr 12 0xC, hi, lo⟩
  let udp := n.fld ⟨regAddr 12 8, 31, 16⟩
  let used := d.tel.recs.foldl (fun a x => a + x.bytes) 0
  firstRule [
    (decide (5 ≤ cfg 2 0) || decide (2 ≤ cfg 5 4) || cfg 11 10 == 3, 0x0C60),
    (cfg 31 24 == 0 || cfg 23 16 == 0 || cfg 15 12 == 0, 0x0C61),
    (udp == 0 || udp == 319 || udp == 320, 0x0C62),
    ((adr 31 31 == 0 && adr 1 1 == 1 && decide (32 < adr 29 24)) || (adr 30 30 == 0 && adr 0 0 == 1 && decide (128 < adr 23 16)), 0x0C63),
    (n.fld ⟨regAddr 12 8, 11, 0⟩ == 0xFFF, 0x0C64),
    (decide (d.libFree d.vault.lib + d.recRows < n.recRows) || decide (n.recRows * 512 < used), 0x0C65),
    (cfg 8 8 == 1 && d.sec.saks == 0, 0x0C66),
    (reservedSet 12 sh, 0x0C67)]

/-- Half-park refusals (11 Table 11.6); `half` 0 West, 1 East. -/
def Dev.halfParkCode (d : Dev) (half : Nat) : Nat :=
  let holds := (List.range 72).any (fun c => clRegion c % 2 == half && (d.fld (fClState c) == 1 || d.fld (fClState c) == 2))
  let uses := d.slices.any (fun sl => d.loaded sl && sl.fo.usesHalf d half)
  firstRule [(holds, 0x0B40), (uses, 0x0B41), (bitAt (parkBits (d.fld fPark)) (1 - half) && d.fld fPark != 3 && d.fld fPark != 4, 0x0B42)]

/-- PWR (13 Table 13.14; 11 Table 11.6). A park request is one that differs from the park state that holds after the steps set. -/
def pwrRules (d n : Dev) (sh : List (Nat × Word)) (boot : Bool) : Nat :=
  let cap := n.fld ⟨regAddr 13 4, 28, 16⟩
  let park := n.fld fReqPark
  let asks := !boot && park != d.parkNow && !(d.pwr.waking.isSome && park == d.fld fReqPark)
  let busy := (List.range 72).any (fun c => d.fld (fClState c) == 1 || d.fld (fClState c) == 2)
  let live := d.slices.any (fun sl => d.loaded sl) || !d.vault.loads.isEmpty || d.vault.lib.any (fun e => e.depositing) ||
    d.tel.recs.any (fun r => r.running)
  firstRule [
    (n.fld fMaxMode == 3 || n.fld fReqMode == 3, 0x0D20),
    (decide (cap < 1700) || decide (4600 < cap) || decide (n.tTarget < 80) || decide (100 < n.tTarget), 0x0D21),
    (sh.any (fun x => x.1 == 8) && decide (n.fld fReqMode < n.fld fMaxMode), 0x0D22),
    (decide (5 ≤ park), 0x0D23),
    (n.fld ⟨regAddr 13 0xC, 31, 24⟩ == 0 || n.fld ⟨regAddr 13 0xC, 23, 16⟩ == 0 || n.fld ⟨regAddr 13 0xC, 7, 0⟩ == 0, 0x0D24),
    (reservedSet 13 sh, 0x0D25),
    (asks && park == 3 && busy, 0x0D40), (asks && park == 4 && live, 0x0D41),
    (decide (1 ≤ park) && decide (park ≤ 3) && n.fld ⟨regAddr 13 4, 7, 7⟩ == 0, 0x0D43),
    (park == 4 && n.fld ⟨regAddr 13 4, 6, 6⟩ == 0, 0x0D44),
    (asks && (park == 1 || park == 2) && d.halfParkCode (park - 1) != 0, d.halfParkCode (park - 1))]

/-- HEALTH (14 Table 14.14). -/
def healthRules (d n : Dev) (sh : List (Nat × Word)) : Nat :=
  let cfg := fun (hi lo : Nat) => n.fld ⟨regAddr 14 4, hi, lo⟩
  let tr := n.reg (regAddr 14 8)
  firstRule [
    (cfg 23 16 == 0 || cfg 15 8 == 0 || cfg 7 0 == 0, 0x0E20),
    (bitAt tr 31 && (bits tr 27 16 == 0 || bits tr 11 0 == 0), 0x0E21),
    (decide (d.libFree d.vault.lib + d.traceRows < n.traceRows), 0x0E22),
    (reservedSet 14 sh, 0x0E23)]

/-- Whether an image accepts a loaded folio. -/
def Dev.folioFits (d : Dev) (f : FwImage) (sl : Slice) : Bool :=
  match d.entry? sl.key with
  | some e => let (fmt, t) := folioVersion e.row; fwTakes f fmt t
  | none => true

/-- SEC (15 Table 15.19); the handover that a firmware activation has armed is the one at the commit's target EC. -/
def secRules (d n : Dev) (sh : List (Nat × Word)) (c : Armed) : Nat :=
  let st := n.reg (regAddr 15 8)
  let target := bits st 31 30
  let act := bitAt st 27
  let fw : Bool := act && target == 1
  let f : FwImage := d.sec.stagedFw.getD ⟨0, 0, 0, 0, 0, 0, 0, 0, 0, 0, false⟩
  let staged := if target = 1 then d.sec.stagedFw.isSome else if target = 2 then d.sec.stagedCfg.isSome else false
  let old : Bool := match d.sec.stagedCfg, d.sec.cfg with | some x, some y => decide (x.seq.toNat ≤ y.seq.toNat) | _, _ => false
  let mine : Bool := match d.sec.handover with | some h => h.h == c.target && h.phase == 1 | none => false
  let ready : Bool := match d.sec.handover with | some h => h.ready | none => false
  let fits := (d.slices.filter (fun sl => sl.key != 0)).all (d.folioFits f)
  let vers := d.tel.sessions.all (fun x => !x.open_ || (decide (f.tellerMin.toNat ≤ x.version) && decide (x.version ≤ f.tellerMax.toNat)))
  firstRule [
    (reservedSet 15 sh || target == 3, 0x0F20),
    (act && (d.fld fStState != 2 || !staged), 0x0F21),
    (act && target == 2 && old, 0x0F22),
    (fw && c.early, 0x0F23),
    (d.ledgerFull, 0x0F30),
    (fw && !f.ok, 0x0F40), (fw && decide (f.svn.toNat < d.sec.svn.toNat), 0x0F41), (fw && !fits, 0x0F42), (fw && !vers, 0x0F43),
    (fw && d.hlth.mcSpare.isNone && d.sec.handover.isNone, 0x0F44), (fw && d.sec.handover.isSome && !mine, 0x0F45),
    (fw && !(mine && ready), 0x0F46)]

/-- The rules of a block; blocks without CW fields have none (R485). -/
def blockRules (d n : Dev) (sh : List (Nat × Word)) (c : Armed) (boot : Bool) : Nat :=
  match c.block with
  | 1 => epochRules d n sh
  | 2 => clkRules d n sh
  | 8 => fabRules d n sh (if boot then 0 else c.target)
  | 9 => vaultRules d n sh
  | 12 => tellerRules d n sh
  | 13 => pwrRules d n sh boot
  | 14 => healthRules d n sh
  | 15 => secRules d n sh c
  | _ => 0

/-! ### What an applied commit does -/

/-- EPOCH: the set, the source, the parent and the pulse output (01 R17, R25 to R33). -/
def Dev.afterEpoch (old d : Dev) (c : Armed) : Dev :=
  let d := if old.fld fSrc = d.fld fSrc then d
    else
      let d : Dev := { d with time := { d.time with
        measured := none, ppsOffset := none, ptpOffset := none, ptp := {}, ppsTick := d.time.ticks, ppsMissed := false } }
      if d.fld fSrc = 0 then d.setReg (regAddr 1 0x24) 0 else d
  let d := if d.fld ⟨regAddr 1 8, 6, 6⟩ = 0 then { d with pins := { d.pins with ppsOut := false } } else d
  let d := (d.refEval false).parentCheck true
  let d := if d.fld ⟨regAddr 1 8, 3, 3⟩ = 0 then d
    else
      let from_ := d.now
      let new := d.reg (regAddr 1 0x14) * 2 ^ 32 + d.reg (regAddr 1 0x10)
      let d := (d.put ⟨regAddr 1 8, 3, 3⟩ 0).setEc new (some c.target)
      d.auditRaw 2 c.role 0 c.actor (auditDetail (setDetail from_ new))
  d.syncEval

/-- A port that PORT_EN leaves goes DOWN, with FENCE_WHY 7; one that is FAILED or fenced by its straps stays so until a cold reset (08 R290;
Table 8.2). -/
def Dev.disable (d : Dev) (p : Nat) : Dev :=
  if d.pstate p = 6 ∨ (d.pstate p = 5 ∧ d.fld (fPortWhy p) = 5) then d
  else (if d.portUp p then d.portLoss p 0 else if d.pstate p = 0 then d else d.enter p 0).put (fPortWhy p) 7 |>.degradeCheck

/-- FAB: frames take slots of the new tables, discovery runs again on the ports, and a port that PORT_EN leaves goes DOWN (08 R271, R276,
R289). -/
def Dev.afterFab (old d : Dev) (sh : List (Nat × Word)) : Dev :=
  let d := (portsWritten sh).foldl (Dev.replan old) d
  (List.range 12).foldl (fun d p =>
    if !d.portEn p then d.disable p
    else if d.pstate p = 0 ∧ (d.port p).signal ∧ !(d.port p).retry ∧ !d.portsHeld then (d.put (fPortWhy p) 0).enter p 1
    else
      let d := d.updPort p (fun x => { x with rediscover := true })
      if d.portUp p then d.sendDiscovery p else d) d

/-- The runtime slot and route tables in the system area follow those in force (08 R302; 09 R315). -/
def Dev.mirrorTables (d : Dev) (sh : List (Nat × Word)) : Dev :=
  { d with vault := { d.vault with mirror := (sh.filter (fun x => decide (0x4000 ≤ x.1))).foldl (fun m x => mapPut m x.1 (BitVec.ofNat 32 (d.reg (regAddr 8 x.1)))) d.vault.mirror } }

/-- TELLER: changed addresses close every session; EN = 0 stops recordings; the active port follows PRIMARY (12 R379, R399,
R403). -/
def Dev.afterTeller (old d : Dev) (boot : Bool) : Dev :=
  let moved := ([8, 0xC, 0x10, 0x30, 0x34, 0x38, 0x3C]).any (fun o => old.reg (regAddr 12 o) != d.reg (regAddr 12 o))
  let d := if moved ∧ !boot then (d.tel.sessions.map (fun x => x.id)).foldl (fun d id => d.closeSession id 0x0C54) d else d
  let d : Dev := if d.fld ⟨regAddr 12 0x18, 31, 31⟩ = 1 then d
    else { d with tel := { d.tel with recs := d.tel.recs.map (fun r => { r with running := false }) } }
  let d := [0, 1].foldl (fun d p => d.updHport p (fun x => { x with
    lease4 := if d.fld ⟨regAddr 12 0xC, 31, 31⟩ = 1 then x.lease4 else none,
    lease6 := if d.fld ⟨regAddr 12 0xC, 30, 30⟩ = 1 then x.lease6 else none,
    paused := if d.fld ⟨regAddr 12 4, 7, 7⟩ = 1 then x.paused else [],
    v6Since := if moved then d.time.ticks else x.v6Since, dup6 := if moved then [] else x.dup6 })) d
  let prim := d.fld ⟨regAddr 12 4, 3, 3⟩
  let d := if boot then d.put ⟨regAddr 12 0, 1, 1⟩ prim
    else if old.fld ⟨regAddr 12 4, 3, 3⟩ ≠ prim ∧ d.activePort ≠ prim ∧ d.fld (fLink prim) = 2 then
      let d := ({ d with time := { d.time with ptpFrozen := true, ptp := {}, ptpOffset := none } } : Dev).put ⟨regAddr 12 0, 1, 1⟩ prim
      if d.fld ⟨regAddr 12 4, 5, 4⟩ = 1 then d
      else
        let d := [0, 1].foldl (fun d p => d.updHport p (fun x => { x with own := true, taken := false })) d
        { d with tel := { d.tel with sessions := d.tel.sessions.map (fun x => { x with hp := prim, home := prim }) } }
    else d
  d.addrEval

/-- PWR: the ceiling of R415, at most Carve while a blade is lost, the end of Hibernate, and the decision (13 R406, R411, R415,
R421). -/
def Dev.afterPwr (d : Dev) (sh : List (Nat × Word)) : Dev :=
  let writes := sh.any (fun x => x.1 == 4 || x.1 == 8)
  let fastest := b2n (!(d.pwr.bladeA && d.pwr.bladeB))
  let d := if writes ∧ d.fld fAutoUp = 0 then d.put fCeiling fastest else d
  if d.fld fPark = 4 ∧ d.fld fReqPark ≠ 4 then { d with pwr := { d.pwr with waking := some d.time.ticks } }
  else if d.pwr.waking.isSome then d
  else d.decideFor d.effective (d.fld fReqPark) 1

/-- HEALTH: the trace begins anew at a write of TRACE with EN = 1, and ends with EN = 0 (14 R449). -/
def Dev.afterHealth (d : Dev) (sh : List (Nat × Word)) : Dev :=
  if sh.any (fun x => x.1 == 8) then
    let en := d.fld ⟨regAddr 14 8, 31, 31⟩
    let d := d.put ⟨regAddr 14 0, 3, 3⟩ en
    if en = 1 then { d with hlth := { d.hlth with trace := [], digests := [] } } else d
  else d

/-- SEC: the staging commands and a warm reset that the commit orders (15 Table 15.15, Table 15.16). -/
def Dev.afterSec (d : Dev) (c : Armed) : Dev :=
  let st := d.reg (regAddr 15 8)
  let target := bits st 31 30
  let some_ := fun (bit : Nat) => bitAt st bit && (target == 1 || target == 2)
  let d : Dev := { d with sec := { d.sec with
    erase := if some_ 29 then some target else d.sec.erase,
    verify := if some_ 28 then some target else d.sec.verify,
    activate := if some_ 27 && target == 2 then some (d.now, 2) else d.sec.activate,
    stageRole := if bits st 29 27 = 0 then d.sec.stageRole else c.role,
    stageActor := if bits st 29 27 = 0 then d.sec.stageActor else c.actor,
    warmReq := d.sec.warmReq || bitAt (d.reg (regAddr 15 4)) 30 } }
  (d.put ⟨regAddr 15 8, 29, 27⟩ 0).put ⟨regAddr 15 4, 30, 30⟩ 0

/-- The effects of an applied commit of a block. -/
def Dev.applied (old d : Dev) (c : Armed) (boot : Bool) : Dev :=
  match c.block with
  | 1 => old.afterEpoch d c
  | 8 =>
    let d := d.mirrorTables c.shadow
    if boot then (List.range 12).foldl (fun d p => if d.portEn p then d else d.disable p) d else old.afterFab d c.shadow
  | 12 => old.afterTeller d boot
  | 13 => if boot then d else d.afterPwr c.shadow
  | 14 => d.afterHealth c.shadow
  | 15 => d.afterSec c
  | _ => d

/-- The rules judged and the shadow applied: the code, and the device (R482). -/
def Dev.tryCommit (d : Dev) (c : Armed) (boot : Bool) : Nat × Dev :=
  let n := d.overlay c.block c.shadow
  let code := blockRules d n c.shadow c boot
  (code, if code = 0 then n else d)

/-! ### The run of a commit (R482 to R484) -/

/-- SHA-384 of the shadowed values, by ascending offset, four bytes each. -/
def shadowDigest (sh : List (Nat × Word)) : BitVec 384 := sha384 (bytesOf (sh.flatMap (fun x => toLe 4 x.2.toNat)))

/-- COMMIT_STATUS, COMMIT_EC, the commit event and its audit record, at the EC at which it runs (R484, R485). -/
def Dev.commitDone (d : Dev) (c : Armed) (code : Nat) : Dev :=
  let st := if code = 0 then 2 else 3
  let ran := d.now
  let d := d.put (fArmed c.block c.role) 0
  let more := d.mg.armed.any (fun x => x.block == c.block)
  let d := ((d.put (fCommitState c.block) (if more then 1 else st)).put ⟨regAddr c.block 0xF08, 29, 28⟩ c.role).put
    ⟨regAddr c.block 0xF08, 15, 0⟩ code
  let d := d.setReg (regAddr c.block 0xF0C) (ran % 2 ^ 32)
  let dig := (shadowDigest c.shadow).toNat
  let d := d.sendEvent (c.block * 256 + 0x7F) [c.role, c.target, st, code, dig % 2 ^ 64, dig / 2 ^ 64 % 2 ^ 64]
  d.auditRaw 1 c.role code c.actor (BitVec.ofNat 384 (c.block + c.target <<< 64 + (dig % 2 ^ 256) <<< 128))

/-- A firmware activation that is refused at h aborts its handover (15 R466, Table 15.10). -/
def Dev.refusedHand (d : Dev) (c : Armed) (code : Nat) : Dev :=
  match d.sec.handover with
  | some x => if c.block = 15 ∧ x.phase = 1 ∧ x.h = c.target ∧ bitAt (d.over 15 c.shadow 8) 27 then (d.auditHand x code).dropHandover else d
  | none => d

/-- A commit runs: it leaves the list of armed commits, is judged, and applied or refused as a whole. -/
def Dev.runCommit (d : Dev) (c : Armed) : Dev :=
  let d : Dev := { d with mg := { d.mg with armed := eraseFirst (fun x => x.block == c.block && x.role == c.role) d.mg.armed } }
  let setWaits := d.mg.armed.any (fun x => x.block == 1 && bitAt (d.over 1 x.shadow 8) 3)
  let d := if c.block = 1 then d.put ⟨regAddr 1 0x18, 8, 8⟩ (b2n setWaits) else d
  let (code, n) := d.tryCommit c false
  let n := n.commitDone c code
  if code = 0 then d.applied n c false
  else
    let n := if c.block = 15 then n.bump (regAddr 15 0x30) 1 else n
    n.refusedHand c code

/-- The order of armed commits: those of a set's own tick first, then by target EC, block number, and the roles maker,
installer, operator (R483). -/
def Armed.rank (c : Armed) : Nat := ((if c.due then 0 else c.target) * 256 + c.block) * 4 + (3 - c.role)

/-- The armed commit that runs next. -/
def Dev.nextCommit (d : Dev) : Option Armed :=
  let due := d.mg.armed.filter (fun c => c.due || decide (c.target ≤ d.now))
  match due with
  | [] => none
  | a :: t => some (t.foldl (fun m c => if c.rank < m.rank then c else m) a)

/-- The commit of a block that is next runs; none runs in a warm reset or between h and the resumption of a handover (R483). -/
def execCommitRun (block : BitVec 8) (s : State) : Res :=
  ok (s.onDev (fun d =>
    match d.nextCommit with
    | some c => if c.block = block.toNat ∧ d.sec.warm.isNone ∧ !d.handing then d.runCommit c else d
    | none => d))

end Sys2Proof.Machine
end

