-- ==== Sys2Proof/Machine/Boot.lean ====
section
/-! DEFINITION. Power, resets and boot (15 sections 1 and 2; 17 sections 7 and 8; 02 R64; 08 R287, R302; 13 R422). -/

namespace Sys2Proof.Machine

/-! ### What a cold reset keeps (15 Table 15.1; 17 R508) -/

/-- Argument k of an audit record's DETAIL. -/
def AuditRec.arg (r : AuditRec) (k : Nat) : Nat := bits r.detail.toNat (64 * k + 63) (64 * k)

/-- The fuses and the NVM as the last power-up left them, or as they were programmed since. -/
def Dev.provisioned (old : Dev) (e : BootEnv) : SecSt :=
  let s := old.sec
  match e.provision with
  | some p => {
      serial := p.serial, identity := p.identity, makerRoot := p.makerRoot, owners := p.owners, svn := p.svn, siteMap := p.siteMap, activeFw := p.activeFw,
      activeCfg := p.activeCfg, fw0 := p.fw0, fw1 := p.fw1, cfg0 := p.cfg0, cfg1 := p.cfg1, lastSeq := s.lastSeq,
      ledger := s.ledger, nextSeq := s.nextSeq, unflushed := s.unflushed }
  | none => {
      serial := s.serial, identity := s.identity, makerRoot := s.makerRoot, owners := s.owners, svn := s.svn, siteMap := s.siteMap, activeFw := s.activeFw,
      activeCfg := s.activeCfg, fw0 := s.fw0, fw1 := s.fw1, cfg0 := s.cfg0, cfg1 := s.cfg1, stageFw := s.stageFw, stageCfg := s.stageCfg,
      lastSeq := s.lastSeq, ledger := s.ledger, nextSeq := s.nextSeq, unflushed := s.unflushed }

/-- The MAC address as manufacture set it. -/
def Dev.macOf (old : Dev) (e : BootEnv) : Nat :=
  match e.provision with
  | some p => p.mac.toNat
  | none => old.reg (regAddr 12 0x28) + old.reg (regAddr 12 0x2C) * 2 ^ 32

/-- The rising edge of PWROK: EC is 0, the straps are latched, registers hold their reset values, the device is in full park at
Glide, and the ceiling is at most Carve with one blade (01 R18; 08 R287; 13 R406, R422; 17 R506). A limit of VNVM_1V8 that
tripped in this same power-up stays (17 R497). DESIGN CHOICE (log entry 69): HOLD.STATUS.WEST_FENCED and EAST_FENCED read 1, as the full
park of a cold reset has its fences in place (13 R409, R420, R422), although the Reset column of 11 Table 11.8 gives 0. -/
def Dev.powerUp (old : Dev) (e : BootEnv) : Dev :=
  let pins : PinSt := { old.pins with
    pwrok := true, thermtrip := false, ppsOut := false, alert := false, vnvm := old.pins.vnvm || !old.pins.pwrok, answer := [] }
  let pwr : PwrSt := { bladeA := old.pwr.bladeA, bladeB := old.pwr.bladeB, ovA := old.pwr.ovA, ovB := old.pwr.ovB }
  let d : Dev := { pins := pins, pwr := pwr, sec := old.provisioned e, fresh := old.fresh }
  let d := d.setReg (regAddr 8 0) (e.posX.toNat + e.posY.toNat <<< 4 + e.posZ.toNat <<< 8 + e.boardSlot.toNat <<< 12)
  let d := (d.setReg (regAddr 12 0x28) (old.macOf e % 2 ^ 32)).setReg (regAddr 12 0x2C) (old.macOf e / 2 ^ 32)
  let d := (List.range 4).foldl (fun d k => d.setReg (regAddr 15 (0x100 + 4 * k)) (bits d.sec.serial.toNat (32 * k + 31) (32 * k))) d
  let d := ((d.setReg (regAddr 15 0x2C) d.sec.svn.toNat).put fOwner d.sec.owners.length).put ⟨regAddr 11 0, 1, 0⟩ 3
  let d := d.put ⟨regAddr 2 0, 7, 4⟩ e.locks.toNat
  let oneBlade := b2n (!(old.pwr.bladeA && old.pwr.bladeB))
  let d := (d.put ⟨regAddr 13 0, 4, 4⟩ oneBlade).put fCeiling oneBlade
  let d := ((d.put (fTime 0) (b2n e.refA)).put (fTime 1) (b2n e.refB)).put (fTime 2) (b2n (!e.refA && e.refB))
  (d.refEval false).newChallenge

/-- The health record as the system area holds it: the retirements of sites, rows, spares, lanes, channels, phases and management cores
(14 R429; 09 Table 9.12). What waited for its repair window is found again by the boot tests. The site maps read 0xF until the step that
reads the fuses (02 R64). -/
def Dev.keepHealth (old d : Dev) : Dev :=
  let d := (List.range 12).foldl (fun d k => (d.put (fStackState k) (old.fld (fStackState k))).put (fStackSpares k) (old.fld (fStackSpares k))) d
  let d := d.put ⟨regAddr 14 0, 10, 8⟩ (old.fld ⟨regAddr 14 0, 10, 8⟩)
  let maps := ((List.range 72).map (fun c => (c, old.fld (fSite c)))).filter (fun x => x.2 != 0xF)
  { d with
    vault := { d.vault with lost := old.vault.lost }, pwr := { d.pwr with phases := old.pwr.phases },
    hlth := { d.hlth with
      rowsRetired := old.hlth.rowsRetired, sparesDead := old.hlth.sparesDead, lanesRetired := old.hlth.lanesRetired,
      mapRec := old.hlth.mapRec ++ maps } }

/-- The retirements that audit records of KIND 3 and KIND 11 tell of, from the oldest on; a record of a repair's end carries the length of its
stop and retires no row. -/
def rebuildRows : List AuditRec → HealthSt → HealthSt
  | [], h => h
  | r :: t, h =>
    rebuildRows t (if r.kind = 11 ∧ r.arg 1 = 0 then { h with rowsRetired := h.rowsRetired ++ [r.arg 0] }
      else if r.kind = 3 then { h with
        mapRec := h.mapRec.filter (fun x => x.1 != r.arg 0) ++ [(r.arg 0, r.arg 2)],
        rowsRetired := if r.arg 2 = 0xE then h.rowsRetired else h.rowsRetired.filterMap (rowAfter (r.arg 0) (r.arg 2)) }
      else h)

/-- The system area is lost: records that had not reached the NVM area go with it, and the record is rebuilt from the records of
KIND 3 and KIND 11, the last CONFIG_SEQ from those of KIND 8 (17 R508). -/
def Dev.rebuildHealth (d : Dev) : Dev :=
  let gone := d.sec.unflushed
  let kept := d.sec.ledger.drop gone
  let own := kept.filter (fun r => r.role == 0)
  let seqs := (kept.filter (fun r => r.kind == 8 && r.arg 0 == 2)).map (fun r => r.arg 2)
  { d with
    sec := { d.sec with
      ledger := kept, nextSeq := d.sec.nextSeq - gone, unflushed := 0, lostSeq := if gone = 0 then none else some (d.sec.nextSeq - gone),
      lastSeq := BitVec.ofNat 64 (seqs.foldl max 0) },
    hlth := rebuildRows own.reverse d.hlth }

/-! ### Boot steps 1 to 7 (15 Table 15.2) -/

/-- Recovery: every port DOWN, ALERT_N asserted (15 R456). -/
def Dev.recover (d : Dev) : Dev := (d.put fBoot 3).alertEval

/-- The image of a slot. -/
def SecSt.fwSlot (s : SecSt) (k : Bool) : Option FwImage := if k then s.fw1 else s.fw0
def SecSt.cfgSlot (s : SecSt) (k : Bool) : Option CfgImage := if k then s.cfg1 else s.cfg0

/-- The firmware slot that verifies: the one that the header names, else the other. -/
def Dev.pickFw (d : Dev) : Option (Bool × FwImage) :=
  [d.sec.activeFw, !d.sec.activeFw].findSome? (fun k => match d.sec.fwSlot k with
    | some f => if f.ok ∧ d.sec.svn.toNat ≤ f.svn.toNat then some (k, f) else none
    | none => none)

/-- The configuration slot that verifies (R459). -/
def Dev.pickCfg (d : Dev) : Option (Bool × CfgImage) :=
  [d.sec.activeCfg, !d.sec.activeCfg].findSome? (fun k => match d.sec.cfgSlot k with
    | some c => if d.cfgVerifies c none then some (k, c) else none
    | none => none)

/-- Step 3: the configuration in force, a claim or a transfer burned (R459), and the association keys that unwrap; one that does
not sets CONFIG_REFUSED, whose code the spec does not give (R462; log entry 14). -/
def Dev.bootCfg (d : Dev) : Dev :=
  match d.pickCfg with
  | some (k, c) =>
    let d := if d.sec.owners.getLast? = some c.anchor then d else (d.burnOwner c.anchor).auditSelf 12 []
    let d : Dev := { d with sec := { d.sec with
      cfg := some c, opKeys := c.opKeys, revoked := c.revoked, saks := (c.saks.filter (fun x => x.2.2)).length, lastSeq := c.seq } }
    let d := d.put fCfgSlot (b2n k)
    if c.saks.all (fun x => x.2.2) then d
    else
      let (n, d) := d.draw
      d.event 15 1 [12, (Config.freeValue n).toNat % 2 ^ 16]
  | none => d

/-- Step 4: the management cores that fail their self-check are retired; two form the pair, a third is the spare (14 R439). -/
def Dev.bootCores (d : Dev) (mcOk : Nat) : Dev :=
  let d := (List.range 3).foldl (fun d k =>
    let f : Fld := ⟨regAddr 14 0, 8 + k, 8 + k⟩
    if d.fld f = 1 ∧ !bitAt mcOk k then (d.put f 0).event 14 7 [k] else d) d
  { d with hlth := { d.hlth with mcSpare := if d.fld ⟨regAddr 14 0, 10, 8⟩ = 7 then some 2 else none } }

/-- Step 5: the stacks train; one that fails is failed (09 R314). Stack 0 holds the system area (17 R508). -/
def Dev.bootStacks (d : Dev) (stackOk : Nat) : Dev :=
  let d : Dev := { d with pins := { d.pins with areaLost := !bitAt stackOk 0 } }
  let d := (List.range 12).foldl (fun d k => if bitAt stackOk k then d else (d.put (fStackState k) 3).event 9 6 [k]) d
  (d.put ⟨regAddr 9 0, 0, 0⟩ 1).put ⟨regAddr 9 0, 1, 1⟩ (b2n ((List.range 12).any (fun k => d.fld (fStackState k) != 0)))

/-- A site field merged from the fused map and the health record (02 R64). -/
def mergeSite (fused rec_ : Nat) : Nat :=
  if fused = 0xF then rec_ else if rec_ = 0xF then fused else if fused = rec_ then fused else 0xE

/-- Step 6: the site maps; every cluster is scrubbed and margin-tested, and what fails waits for its repair window. -/
def Dev.bootSites (d : Dev) (e : BootEnv) : Dev :=
  let kept := d.hlth.mapRec
  let d : Dev := { d with hlth := { d.hlth with mapRec := [] } }
  let d := (List.range 72).foldl (fun d c =>
    let f := mergeSite (match d.sec.siteMap[c]? with | some v => v.toNat | none => 0xF) (mapGet (fun _ => 0xF) kept c)
    let d := d.put (fSite c) f
    if f = 0xE then d.put (fClState c) 3 else d) d
  let used := (List.range 72).any (fun c => d.fld (fSite c) != 0xF && d.fld (fSite c) != 0xE)
  let d := d.put ⟨regAddr 14 0, 4, 4⟩ (b2n (used || d.pwr.phases.any (fun x => decide (2 ≤ x.2))))
  let d := e.failingSites.foldl (fun d x =>
    if x.toNat / 16 < 72 ∧ x.toNat % 16 < 9 then d.pendSite (x.toNat / 16) (x.toNat % 16) else d) d
  e.failingRows.foldl (fun d g => if graValid g.toNat then d.pendRow g.toNat else d) d

/-- The values of a configuration for the CW registers of a block: its REG records, and for FAB the slot and route tables. -/
def cfgShadow (c : CfgImage) (b : Nat) : List (Nat × Word) :=
  let regs := (c.regs.filter (fun x => x.1.toNat == b)).map (fun x => (x.2.1.toNat, x.2.2))
  let tabs := if b = 8 then
      c.slots.map (fun x => (x.1.toNat, x.2)) ++
        c.routes.flatMap (fun r => [(0x10000 + 16 * r.1.toNat, r.2.1), (0x10004 + 16 * r.1.toNat, r.2.2.1),
          (0x10008 + 16 * r.1.toNat, r.2.2.2.1), (0x1000C + 16 * r.1.toNat, r.2.2.2.2)])
    else []
  let cw := fun (o : Nat) => match regRow b o with | some r => r.cw != 0 | none => false
  ((tabs ++ regs).filter (fun x => cw x.1)).foldl (fun m x => mapPut m x.1 x.2) []

/-- One block's values committed at boot; a refused block keeps its reset values. -/
def Dev.bootBlock (c : CfgImage) (d : Dev) (b : Nat) : Dev :=
  let x : Armed := { block := b, role := 2, target := 0, shadow := cfgShadow c b, actor := 0 }
  if x.shadow.isEmpty then d
  else
    let (code, n) := d.tryCommit x true
    if code = 0 then d.applied n x true else d.event 15 1 [b, code]

/-- The plan of the configuration and the strap check (08 R287, R288). -/
def Dev.bootPlan (d : Dev) (c : CfgImage) : Dev :=
  let (nx, ny, nz) := c.dims
  let d := d.put ⟨regAddr 8 0, 31, 20⟩ (nx.val + ny.val <<< 4 + nz.val <<< 8)
  let d : Dev := { d with fab := { d.fab with
    planId := c.planId, plan := c.plan.map (fun (r : PlanRec) => (r.port.val, ⟨r.coord.toNat, r.nbrPort.toNat, r.serial⟩)) } }
  if (List.range 3).any (fun k => decide (d.dim k ≤ axisOf d.coord k)) then
    (List.range 12).foldl (fun d p => d.fence p 5) ((d.put ⟨regAddr 8 4, 1, 1⟩ 1).event 8 9 [])
  else d

/-- Step 7: the plan, then the blocks in the order of Table 15.2. -/
def Dev.bootCommits (d : Dev) : Dev :=
  match d.sec.cfg with
  | some c => ([1, 2, 13, 14, 9, 12, 8]).foldl (Dev.bootBlock c) (d.bootPlan c)
  | none => d.addrEval

/-! ### Warm reset (15 R453; 08 R302; 09 R329; 13 R422) -/

/-- Ports leave UP and pass ALIGN again without training. -/
def Dev.portsAlign (d : Dev) : Dev :=
  (List.range 12).foldl (fun d p =>
    (if d.portUp p then d.portLoss p 2 else if d.pstate p = 3 then d.enter p 2 else d).updPort p (fun x => { x with rx := [] })) d

/-- A warm reset begins: loaded slices are killed and loads are lost, every cluster becomes stale under a new generation (08 R296),
every core's registers, queues and counters are zero (04 R131, R138, R164; 05 R199), the mesh and the port logic are reset, and the compute enters full park at Glide. -/
def Dev.beginWarm (d : Dev) : Dev :=
  let scrubbing := (List.range 72).filter (fun c => decide (2 ≤ d.fld (fClState c)))
  let d := d.auditSelf 14 []
  let d := (match d.sec.handover with
    | some x => if x.phase = 1 then d.abortHandover else if x.phase = 3 then d.confirmHandover else d
    | none => d)
  let d := (d.slices.map (fun sl => sl.id)).foldl (fun d sid =>
    match d.slice? sid with
    | some sl =>
      let d := d.updSlice sid (fun x => { x with stopping := none })
      if sl.key ≠ 0 then d.killSlice { sl with stopping := none } else ((d.dropLoad sid).releaseClusters sid).endSlice sid
    | none => d) d
  let d := d.lockDebug.newChallenge
  let d := scrubbing.foldl Dev.bumpGen ((List.range 72).foldl Dev.staleCluster d)
  let d := d.portsAlign
  let d : Dev := { d with
    cores := [], net := { around := d.net.around, rewriteAt := d.net.rewriteAt }, fab := { d.fab with out := [], wait := [], adds := [] }, vault := { d.vault with loads := [], chain := [] },
    pwr := { d.pwr with
      steps := [], rising := none, settled := false, deferred := 0, sampleBase := none, unparking := [], scrubClock := false, waking := none },
    sec := { d.sec with warm := some d.time.ticks, warmReq := false } }
  let d := ((d.stepRegs.put fPark 3).put ⟨regAddr 11 0, 1, 0⟩ 3).setReg (regAddr 2 0x0C) 0
  let d := if d.failed then d else (d.put fMode 2).put ⟨regAddr 2 0, 3, 2⟩ 2
  ((d.put ⟨regAddr 9 0, 3, 3⟩ 1).put ⟨regAddr 9 0, 7, 4⟩ 0).ramp

/-- RESET_N low for 1 µs: from boot step 10 on it starts a warm reset, or extends the one in progress (17 R500). -/
def execWarmReset (s : State) : Res :=
  ok (s.onDev (fun d =>
    let d : Dev := { d with pins := { d.pins with resetN := false } }
    if d.pins.rails ∧ (d.bootState = 1 ∨ d.bootState = 2) ∧ d.sec.warm.isNone then d.beginWarm else d))

/-- A warm reset that a commit of SEC.CTRL ordered. -/
def execCtrlWarmReset (s : State) : Res :=
  ok (s.onDev (fun d => if d.sec.warmReq ∧ d.sec.warm.isNone then d.beginWarm else d))

/-- After 100 µs, and once RESET_N is high: the regions run at Glide for the scrub of full park, and the stacks leave
self-refresh (R453; 13 R409). -/
def execWarmResetEnd (s : State) : Res :=
  ok (s.onDev (fun d =>
    match d.sec.warm with
    | some t =>
      if t + 100000 ≤ d.time.ticks ∧ d.pins.resetN then
        ({ d with sec := { d.sec with warm := none }, pwr := { d.pwr with waking := some d.time.ticks } } : Dev).clockForScrub
      else d
    | none => d))

/-! ### Boot steps 8 to 10 -/

/-- Step 10: Teller opens, the boot record is appended, and the compute leaves full park for the state in PWR.REQ. A RESET_N
that is low then starts a warm reset. -/
def Dev.bootOpen (d : Dev) : Dev :=
  let boot := if d.sec.cfg.isSome then 1 else 2
  let d : Dev := { d with tel := { d.tel with opened := true }, sec := { d.sec with lockWait := false } }
  let d := d.put fBoot boot
  let slots := [d.fld fFwSlot, d.fld fCfgSlot, boot]
  let lost := match d.sec.lostSeq with | some n => [n] | none => []
  let d := (d.auditSelf 13 (slots ++ lost)).event 15 0 slots
  let d := d.decideFor d.effective (d.fld fReqPark) 1
  if d.pins.resetN then d else d.beginWarm

/-- Step 9: the first lock to the time source steps EC; without it boot waits. -/
def Dev.bootLock (d : Dev) (lock : Option Int) : Dev :=
  if d.fld fSrc = 0 then d.syncEval.bootOpen
  else
    match lock with
    | some off => (d.timeMeasured off).bootOpen
    | none => { d with sec := { d.sec with lockWait := true }, time := { d.time with measTick := d.time.ticks } }

/-- Step 8 waits for RESET_N; with it high, boot goes on. -/
def Dev.bootLinks (d : Dev) (e : BootEnv) : Dev :=
  if d.pins.resetN then ({ d with sec := { d.sec with holdBoot := none } } : Dev).bootLock e.lock
  else { d with sec := { d.sec with holdBoot := some e } }

/-- Boot from the rising edge of PWROK (R454). The system area is read before step 3 needs its CONFIG_SEQ. -/
def Dev.boot (old : Dev) (e : BootEnv) : Dev :=
  let d := old.powerUp e
  let intact := e.systemArea && !old.pins.areaLost && bitAt e.stackOk.toNat 0
  let d := if intact then old.keepHealth d else d.rebuildHealth
  if !d.pins.vnvm ∨ !e.romOk then d.recover
  else
    match d.pickFw with
    | none => d.recover
    | some (k, f) =>
      let d : Dev := { d with sec := { d.sec with fw := some f } }
      let d := ((d.put fFwSlot (b2n k)).setReg (regAddr 15 0x28) f.version.toNat).bootCfg
      let d := d.bootCores e.mcOk.toNat
      if d.fld ⟨regAddr 14 0, 10, 8⟩ = 0 then d.recover
      else ((((d.bootStacks e.stackOk.toNat).bootSites e).bootCommits).alertEval).bootLinks e

/-- PWROK rises: the rails have settled, and PWROK was low, or its boot has not run. Every memory is filled with 0 (06 R225). -/
def execColdReset (b : BootEnv) (s : State) : Res :=
  let d := s.dev
  ok (if d.pins.rails ∧ d.pins.standby ∧ (!d.pins.pwrok ∨ (d.bootState = 0 ∧ d.sec.holdBoot.isNone ∧ !d.sec.lockWait)) then
        { s with mem := [], dev := d.boot b }
      else s)

/-- After 30 s without a lock, boot goes on with SYNCED = 0 (R454, step 9). -/
def execTimeLockTimeout (s : State) : Res :=
  ok (s.onDev (fun d => if d.sec.lockWait ∧ d.time.measTick + 30000000000 ≤ d.time.ticks then d.syncEval.bootOpen else d))

/-- A measurement against the time source completes (01 R26); one that boot step 9 waits for lets boot go on. -/
def execTimeMeasurement (s : State) : Res :=
  ok (s.onDev (fun d =>
    let d := d.takeMeasurement
    if d.sec.lockWait ∧ d.time.stepDone then d.bootOpen else d))

/-- RESET_N rises: a held boot goes on (17 R500). -/
def execResetNRise (s : State) : Res :=
  ok (s.onDev (fun d =>
    let d : Dev := { d with pins := { d.pins with resetN := true } }
    match d.sec.holdBoot with
    | some e => d.bootLinks e
    | none => d))

/-! ### Power (17 R497, R504 to R507) -/

def execStandbyPowerValid (s : State) : Res :=
  ok (s.onDev (fun d =>
    if d.pins.standby then d
    else { d with pins := { d.pins with
      standby := true, slot := none, page := 0xFF, cml := false, inputA := 0, inputB := 0, tempStat := 0, answer := [] } }))

def execBoardSlotSample (slot : BitVec 3) (s : State) : Res :=
  ok (s.onDev (fun d => if d.pins.standby ∧ d.pins.slot.isNone then { d with pins := { d.pins with slot := some slot } } else d))

/-- The core rails all at a voltage, or on their way from one to another. -/
def Dev.allRails (d : Dev) (mv goal : Nat) : Dev :=
  { d with pwr := { d.pwr with vcore := (List.range 24).map (fun r => (r, ⟨mv, goal, d.time.ticks⟩)) } }

/-- The converters start; the core rails come up for Glide (R505, Worked example 17.1). -/
def execConverterStart (s : State) : Res :=
  ok (s.onDev (fun d =>
    if d.pins.standby ∧ d.pins.slot.isSome ∧ (d.pwr.bladeA ∨ d.pwr.bladeB) ∧ !d.pins.converters then
      { d with pins := { d.pins with converters := true } }.allRails 0 (modeMv 2)
    else d))

def execRailsSettled (s : State) : Res :=
  ok (s.onDev (fun d =>
    if d.pins.converters ∧ !d.pins.rails then { d with pins := { d.pins with rails := true } }.allRails (modeMv 2) (modeMv 2) else d))

/-- VSTBY3V3 falls below 3.0 V: PWROK low, and the standby domain is lost, the system area with it (R507, R508). -/
def execStandbyUndervoltage (s : State) : Res :=
  ok (s.onDev (fun d => { d with pins := { d.pins with standby := false, slot := none, pwrok := false, areaLost := true } }))

/-- PWROK low for 1 µs, whoever drives it: regions unclocked, ports DOWN, loaded slices end without events, the rails switch off
(R507). -/
def execPowerDown (s : State) : Res :=
  ok (s.onDev (fun d =>
    if !d.pins.rails then d
    else
      let d := (d.slices.map (fun sl => sl.id)).foldl Dev.releaseClusters d
      let d := (List.range 12).foldl (fun d p => (d.put (fPortState p) 0).put (fPortSched p) 0) d
      let d : Dev := { d with
        slices := [], net := {}, tel := {}, mg := {}, fab := { d.fab with out := [], wait := [], ports := [] },
        vault := { d.vault with loads := [], chain := [] },
        pwr := { d.pwr with
          steps := [], rising := none, settled := false, deferred := 0, sampleBase := none, unparking := [], scrubClock := false, waking := none },
        hlth := { d.hlth with repairs := [] },
        sec := { d.sec with holdBoot := none, lockWait := false, warm := none, warmReq := false, handover := none },
        pins := { d.pins with pwrok := false, rails := false, converters := false, ppsOut := false } }
      ((d.put fBoot 0).setReg (regAddr 2 0x0C) 0).allRails 0 0))

/-- The current limit of VNVM_1V8 trips until the next cold reset: the NVM cannot be read, and a boot that has not run enters
recovery when it does. -/
def execVnvm1v8CurrentLimit (s : State) : Res :=
  ok (s.onDev (fun d => if d.pins.rails then { d with pins := { d.pins with vnvm := false } } else d))

end Sys2Proof.Machine
end

