-- ==== Sys2Proof/Machine/Mgmt.lean ====
section
/-! DEFINITION. Management reads, writes and commits through a session (12 R397; 16 sections 2 to 4). -/

namespace Sys2Proof.Machine

/-! ### Values read -/

/-- The 64-bit value whose low half a register gives; its read latches the high half (R479). -/
def Dev.wide (d : Dev) (b off : Nat) : Option Nat :=
  if b = 1 ∧ off = 0 then some d.now
  else if b = 13 ∧ off = 0x1C then some (d.pwr.energy / 10000)
  else if b = 13 ∧ off = 0x24 then some (d.reg (regAddr 13 0x24) + d.reg (regAddr 13 0x28) * 2 ^ 32)
  else if b = 15 ∧ off = 0x20 then some d.sec.nextSeq
  else none

/-- Registers that give a latched high half. -/
def latched (b off : Nat) : Bool :=
  (b == 1 && off == 4) || (b == 13 && (off == 0x20 || off == 0x28)) || (b == 15 && off == 0x24)

/-- The latches after a read of registers of a block. -/
def Dev.latch (d : Dev) (b : Nat) (offs : List Nat) (l : List (Nat × Nat)) : List (Nat × Nat) :=
  offs.foldl (fun l o => match d.wide b o with | some v => mapPut l (regAddr b (o + 4)) (v / 2 ^ 32) | none => l) l

/-- Bytes of 512-byte rows as units of the VAULT registers. -/
def rowUnits (rows unit : Nat) : Nat := rows * 512 / unit

/-- HOLD.SLICEn (11 Table 11.10): the slice whose lowest cluster is n. -/
def Dev.holdSlice (d : Dev) (n : Nat) : Nat :=
  match d.slices.find? (fun sl => sl.launched && sl.fo.clusters.foldl min 72 == n) with
  | some sl =>
    let state := if sl.waiting then 3 else if sl.raises.isEmpty then 1 else 2
    let causes := (List.range 9).foldl (fun a k => if sl.raises.any (fun r => r.causes.contains k) then a + 2 ^ k else a) 0
    let first := match sl.raises with | r :: t => t.foldl (fun g r => min g r.gate) r.gate | [] => 0
    state <<< 30 + causes <<< 16 + min 255 (sl.at first).length <<< 8 + min 255 sl.lastSpan
  | none => 0

/-- The record shown in LEDGER_WIN, as its 256 bytes; none when the area no longer holds it (15 Table 15.13, Table 15.11). -/
def Dev.ledgerWin (d : Dev) : List Byte :=
  let idx := d.reg (regAddr 15 0x1C)
  match d.sec.ledger.find? (fun r => r.seq % 2 ^ 32 == idx && decide (d.sec.nextSeq ≤ r.seq + 262144)) with
  | some r => auditBytes r ++ bytesOf (toLe 96 (Config.identitySignature (auditDigest r)).toNat)
  | none => []

/-- Word k of bytes; bytes past the end are 0. -/
def wordOf (l : List Byte) (k : Nat) : Nat := leNat (((l.drop (4 * k)).take 4).map (fun x => x.toNat))

/-- The row at ROW_GRA; an invalid GRA reads zeros (16 R489). -/
def State.rowShown (s : State) : RowData :=
  let g := s.dev.reg (regAddr 10 4)
  if graValid g then s.mcRow g else 0

/-- The bytes of SEC.DBG_CHAL: the serial and the nonce (15 R471). -/
def Dev.challenge (d : Dev) : List Byte := bytesOf (toLe 16 d.sec.serial.toNat ++ toLe 48 d.sec.nonce.toNat)

/-- Registers whose value follows from other state; none for a register that holds its value. -/
def State.computed (s : State) (b off : Nat) : Option Nat :=
  let d := s.dev
  match b with
  | 9 =>
    if off = 0 then some (setBits (d.reg (regAddr 9 0)) 2 2 (b2n (decide (d.libFree d.vault.lib * 100 < d.libCap))))
    else if off = 0x10 then some (rowUnits (d.libFree d.vault.lib) 1000000)
    else if off = 0x14 then some (d.pinned / 1000000)
    else if off = 0x18 then some d.vault.lib.length
    else if 0x40 ≤ off ∧ off < 0x70 then
      let k := (off - 0x40) / 4
      some (setBits (d.reg (regAddr 9 off)) 27 16 (rowUnits (d.freeRows d.vault.lib k) 1000000000))
    else none
  | 10 => if 0x400 ≤ off ∧ off < 0x600 then some (bits s.rowShown.toNat ((off - 0x400) * 8 + 31) ((off - 0x400) * 8)) else none
  | 11 =>
    if off = 0 then
      some (setBits (setBits (d.reg (regAddr 11 0)) 23 16 (d.slices.filter Slice.waiting).length) 15 8
        ((d.slices.foldl (fun a sl => a + (sl.raises.filter Raise.openOwn).length) 0) + d.fab.transitHolds.length))
    else if 0x100 ≤ off ∧ off < 0x220 then some (d.holdSlice ((off - 0x100) / 4))
    else none
  | 12 =>
    if off = 0 then
      some (setBits (setBits (d.reg (regAddr 12 0)) 23 16 d.tel.sessions.length) 15 8 (d.tel.recs.filter (fun r => r.running)).length)
    else none
  | 14 => if off = 0x10 then some (min 0xFFFF d.hlth.rowsPending.length <<< 16 + d.hlth.sitesPending.length <<< 8) else none
  | 15 =>
    if 0x400 ≤ off ∧ off < 0x600 then some (wordOf d.sec.report ((off - 0x400) / 4))
    else if 0x800 ≤ off ∧ off < 0x900 then some (wordOf d.ledgerWin ((off - 0x800) / 4))
    else if 0x2000 ≤ off ∧ off < 0x2040 then some (wordOf d.challenge ((off - 0x2000) / 4))
    else none
  | _ => none

/-- The value a read returns, with the latches as they stand after the read (R479); a WO field reads 0. -/
def State.readReg (s : State) (l : List (Nat × Nat)) (b off : Nat) : Word :=
  let v := match s.dev.wide b off with
    | some v => v
    | none => if latched b off then mapGet (fun _ => 0) l (regAddr b off) else (s.computed b off).getD (s.dev.reg (regAddr b off))
  let wo := match regRow b off with | some r => r.wo | none => 0
  BitVec.ofNat 32 v &&& ~~~(BitVec.ofNat 32 wo)

/-- Offsets of successive registers. -/
def regOffs (off count : Nat) : List Nat := (List.range count).map (fun i => off + 4 * i)

/-- A read of registers as one snapshot (12 R397). -/
def msgMgmtRead (h : MsgHdr) (block : BitVec 8) (count : BitVec 16) (offset : BitVec 32) (s : State) : State :=
  s.request h false (fun x d =>
    if count = 0 ∨ 256 < count.toNat then d.violation x.id h.seq.toNat 0x0C13 0xFFFFFFFF
    else
      let b := block.toNat
      let offs := regOffs offset.toNat count.toNat
      let code := d.readCode (sessionActor x) b offs
      if code ≠ 0 then d.reply h code
      else
        let l := d.latch b offs x.latches
        let s : State := { s with dev := d }
        let data := offs.flatMap (fun o => bytesOf (toLe 4 (s.readReg l b o).toNat))
        (d.updSession x.id (fun x => { x with latches := l })).answer h 0 0xFFFFFFFF data)

/-! ### Values written (R478, R480; 00 R11 to R13) -/

/-- A value held in a role's shadow, the entries in order of role and address. -/
def putShadow (role a : Nat) (v : Word) : List (Nat × Nat × Word) → List (Nat × Nat × Word)
  | [] => [(role, a, v)]
  | x :: t =>
    if role < x.1 ∨ (role = x.1 ∧ a < x.2.1) then (role, a, v) :: x :: t
    else if role = x.1 ∧ a = x.2.1 then (role, a, v) :: t
    else x :: putShadow role a v t

/-- Event bits cleared; clearing CONTRACT_EVENTS.OOA re-arms the capture of out-of-allocation accesses (10 R352). -/
def Dev.clearEvents (d : Dev) (b off v : Nat) : Dev :=
  let a := regAddr b off
  let d := d.setReg a (d.reg a &&& (2 ^ 32 - 1 - v % 2 ^ 32))
  if b = 10 ∧ off = 0x218 ∧ bitAt v 1 then d.put ⟨regAddr 10 0x204, 31, 31⟩ 0 else d

/-- A WO register's own effect. -/
def Dev.writeOnly (d : Dev) (off v : Nat) : Dev :=
  if off = 0x18 then d.orderRepair v []
  else if 0x200 ≤ off ∧ off < 0x230 then d.nonceWrite [(off, v)]
  else if 0x1000 ≤ off ∧ off < 0x1400 then (if d.pins.vnvm then d.stageWrite off [v] else d)
  else if 0x2100 ≤ off ∧ off < 0x2170 then
    { d with sec := { d.sec with resp := mapPut d.sec.resp ((off - 0x2100) / 4) (BitVec.ofNat 32 v) } }
  else d

/-- One register written, its commit registers apart: CW into the shadow, W1C bits cleared, RW stored, WO acted on. -/
def Dev.writeReg (d : Dev) (a : Actor) (b : Nat) (w : Nat × Nat) : Dev :=
  match regRow b w.1 with
  | none => d
  | some r =>
    if r.cw ≠ 0 then
      let d : Dev := { d with mg := { d.mg with shadow := putShadow a.role (regAddr b w.1) (BitVec.ofNat 32 w.2) d.mg.shadow } }
      if a.claimant ∧ b = 15 ∧ w.1 = 8 then { d with sec := { d.sec with holder := a.session } } else d
    else if r.w1c ≠ 0 then d.clearEvents b w.1 (w.2 &&& r.w1c)
    else if r.rw ≠ 0 then d.setReg (regAddr b w.1) (w.2 &&& r.rw)
    else if b = 15 then d.writeOnly w.1 w.2
    else d

/-- Arming by an actor, at a target as given (R481). -/
def Dev.armFor (d : Dev) (a : Actor) (b t : Nat) : Dev := d.arm a b (d.commitTarget t)

/-- The code of a write: Table 16.2, and 0x0F30 for a repair order whose record cannot be added (15 R469). -/
def Dev.mgmtWriteCode (d : Dev) (a : Actor) (b lo : Nat) (ws : List (Nat × Nat)) : Nat :=
  let code := d.writeCode a b lo ws
  if code ≠ 0 then code
  else if d.ledgerFull ∧ (a.jtag ∨ (b = 15 ∧ ws.any (fun w => w.1 == 0x18))) then 0x0F30
  else 0

/-- COMMIT_LO after a write. -/
def commitLoAfter (lo : Nat) (ws : List (Nat × Nat)) : Nat := match ws.find? (fun w => w.1 == 0xF00) with | some (_, v) => v | none => lo

/-- A write that passed its checks: its registers in order, then a commit that it arms; a repair order is recorded. -/
def Dev.writeAll (d : Dev) (a : Actor) (b lo : Nat) (ws : List (Nat × Nat)) : Dev :=
  let order := fun (d : Dev) (w : Nat × Nat) => if b = 15 ∧ w.1 = 0x18 then d.auditRaw 11 3 0 a.key (auditDetail [w.2]) else d
  let d := ws.foldl (fun d w => (order d w).writeReg a b w) d
  match commitOf lo ws with
  | some t => d.armFor a b t
  | none => d

/-- A commit's refusal at arming goes to the ledger (R484). -/
def Dev.noteRefusal (d : Dev) (a : Actor) (b code : Nat) (t : Option Nat) : Dev :=
  match t with
  | some t => d.armRefused a b t code
  | none => d

def msgMgmtWrite (h : MsgHdr) (block : BitVec 8) (offset : BitVec 32) (vals : List Word) (s : State) : State :=
  s.request h false (fun x d =>
    if vals.isEmpty ∨ 256 < vals.length then d.violation x.id h.seq.toNat 0x0C13 0xFFFFFFFF
    else
      let b := block.toNat
      let a := sessionActor x
      let ws := regPairs offset.toNat vals
      let lo := mapGet (fun _ => 0) x.commitLo b
      let code := d.mgmtWriteCode a b lo ws
      if code ≠ 0 then (d.noteRefusal a b code (commitOf lo ws)).reply h code
      else
        let d := d.updSession x.id (fun x => { x with commitLo := mapPut x.commitLo b (commitLoAfter lo ws) })
        (d.writeAll a b lo ws).reply h 0)

/-! ### Commits (R481, R485) -/

/-- MGMT_COMMIT is a write of COMMIT_LO and COMMIT_HI; its RESULT carries the target EC. -/
def msgMgmtCommit (h : MsgHdr) (block : BitVec 8) (target : BitVec 64) (s : State) : State :=
  s.request h false (fun x d =>
    let b := block.toNat
    let a := sessionActor x
    let t := target.toNat
    let code := d.writeCode a b 0 [(0xF00, t % 2 ^ 32), (0xF04, t / 2 ^ 32)]
    if code ≠ 0 then (d.armRefused a b t code).reply h code
    else
      let d := d.updSession x.id (fun x => { x with commitLo := mapPut x.commitLo b (t % 2 ^ 32) })
      (d.armFor a b t).answer h 0 0xFFFFFFFF (bytesOf (toLe 8 (d.commitTarget t))))

end Sys2Proof.Machine
end

