-- ==== Sys2Proof/Machine/Inbox.lean ====
section
/-! DEFINITION. The messages of the host's sessions: their order, the checks before their turn, and the commands that bring them
(12 R385, R398; 15 Table 15.10). -/

namespace Sys2Proof.Machine

/-! ### Turns -/

/-- The largest body that a message of varying length has: its bytes (Tables 12.6 and 12.8, R397). -/
def bodyBytes : Instr → Nat
  | .folioPutPipe _ _ _ recs => 16 + 56 * recs.length
  | .folioPutData _ _ _ _ data => 32 + data.length
  | .ingressData _ b => 24 + b.data.length
  | .mgmtWrite _ _ _ vals => 8 + 4 * vals.length
  | .stageWinWrite _ _ vals => 8 + 4 * vals.length
  | .attNonceWrite _ _ vals => 8 + 4 * vals.length
  | _ => 0

/-- Whether every role may send a message; an operator alone sends the others (Table 12.3). -/
def anyRole : Instr → Bool
  | .sessionClose _ => true
  | .mgmtRead .. => true
  | .mgmtWrite .. => true
  | .mgmtCommit .. => true
  | .stageWinWrite .. => true
  | .debugResponse .. => true
  | .attNonceWrite .. => true
  | .repairReq .. => true
  | _ => false

/-- The violation of a message by its role and its length, 0 for none (R398). -/
def Dev.turnCode (d : Dev) (x : Session) (i : Instr) : Nat :=
  if !anyRole i ∧ x.role ≠ 1 then 0x0C10 else if d.maxBody x < bodyBytes i then 0x0C12 else 0

/-- What a message does in its turn. -/
def State.act (i : Instr) (s : State) : State :=
  match i with
  | .folioPutBegin h b => msgFolioPutBegin h b s
  | .folioPutPipe h key first recs => msgFolioPutPipe h key first recs s
  | .folioPutData h key offset crc data => msgFolioPutData h key offset crc data s
  | .folioCommit h key codes read => msgFolioCommit h key codes read s
  | .libraryDelete h key => msgLibraryDelete h key s
  | .libraryPin h key => msgLibraryPin h key s
  | .libraryUnpin h key => msgLibraryUnpin h key s
  | .libraryList h first => msgLibraryList h first s
  | .sessionClose h => msgSessionClose h s
  | .sliceStart h b => msgSliceStart h b s
  | .sliceStop h slice => msgSliceStop h slice s
  | .sliceKill h slice => msgSliceKill h slice s
  | .streamOpen h slice index dir bytes lead => msgStreamOpen h slice index dir bytes lead s
  | .streamClose h stream => msgStreamClose h stream s
  | .mgmtRead h block count offset => msgMgmtRead h block count offset s
  | .mgmtWrite h block offset vals => msgMgmtWrite h block offset vals s
  | .mgmtCommit h block target => msgMgmtCommit h block target s
  | .recordStart h recId slice => msgRecordStart h recId slice s
  | .recordStop h recId => msgRecordStop h recId s
  | .arm h recId slice => msgArm h recId slice s
  | .disarm h recId slice => msgDisarm h recId slice s
  | .recordingDelete h recId => msgRecordingDelete h recId s
  | .recordingList h => msgRecordingList h s
  | .stageWinWrite h offset vals => msgStageWinWrite h offset vals s
  | .debugResponse via scope reserved expiry sig => msgDebugResponse via scope reserved expiry sig s
  | .attNonceWrite h first vals => msgAttNonceWrite h first vals s
  | .repairReq h v => msgRepairReq h v s
  | _ => s

/-- The turn of a message of a session: refused for its role or its length, else carried out. -/
def State.turn (s : State) (id seq : Nat) (m : Held) : State :=
  match s.dev.session? id, m with
  | some x, .cmd i =>
    let code := s.dev.turnCode x i
    if code = 0 then s.act i else s.onDev (fun d => d.violation id seq code 0xFFFFFFFF)
  | some _, .bad h k => msgProtocolViolation h k s
  | none, _ => s

/-! ### SEQ order (R385) -/

/-- The message whose turn has come: of those that wait, the one with the lowest SEQ, once every SEQ up to it has been received. -/
def Session.nextTurn (x : Session) : Option (Nat × Held) :=
  x.ahead.find? (fun a => decide (a.1 ≤ x.cum) && x.ahead.all (fun b => decide (a.1 ≤ b.1)))

/-- The messages of a session whose turn has come are applied, `n` at most; during a handover they wait (15 Table 15.10). -/
def State.drain (id : Nat) : Nat → State → State
  | 0, s => s
  | n + 1, s =>
    match (if s.dev.handing then none else s.dev.session? id).bind Session.nextTurn with
    | some (q, i) =>
      let s := s.onDev (fun d => d.updSession id (fun x => { x with ahead := x.ahead.filter (fun a => a.1 != q) }))
      State.drain id n (s.turn id q i)
    | none => s

/-- The messages that wait in a session, once its turns may have come. -/
def State.turns (s : State) (id : Nat) : State :=
  match s.dev.session? id with
  | some x => State.drain id x.ahead.length s
  | none => s

/-- A message that is applied in SEQ order: it waits for its turn, and those whose turn has come are applied. -/
def State.inOrderMsg (s : State) (i : Held) (h : MsgHdr) : State :=
  match s.dev.arrive h true with
  | (some x, d) => State.turns { s with dev := d.updSession x.id (fun x => { x with ahead := x.ahead ++ [(h.seq.toNat, i)] }) } x.id
  | (none, d) => { s with dev := d }

/-- A message that is applied as it arrives; it may fill the gap that others wait for. -/
def State.atOnceMsg (s : State) (i : Held) (h : MsgHdr) : State :=
  match s.dev.arrive h true with
  | (some x, d) => (State.turn { s with dev := d } x.id h.seq.toNat i).turns x.id
  | (none, d) => { s with dev := d }

/-- A message of a deposit: of a session, or of the previous device of a pipeline (09 R334). -/
def State.depositMsg (s : State) (i : Instr) (h : MsgHdr) : State := if h.pipe then s.act i else s.inOrderMsg (.cmd i) h

/-- The messages that waited in every session are applied at the end of a handover. -/
def State.drainAll (s : State) : State :=
  s.dev.tel.sessions.foldl (fun s x => s.turns x.id) s

/-! ### Commands -/

def execFolioPutBegin (h : MsgHdr) (b : PutBegin) (s : State) : Res := ok (s.depositMsg (.folioPutBegin h b) h)
def execFolioPutPipe (h : MsgHdr) (key : BitVec 64) (first : BitVec 8) (recs : List PipeRec) (s : State) : Res :=
  ok (s.depositMsg (.folioPutPipe h key first recs) h)
def execFolioPutData (h : MsgHdr) (key offset : BitVec 64) (crc : BitVec 32) (data : List Byte) (s : State) : Res :=
  ok (if h.pipe then s.act (.folioPutData h key offset crc data) else s.atOnceMsg (.cmd (.folioPutData h key offset crc data)) h)
def execFolioCommit (h : MsgHdr) (key : BitVec 64) (codes : PipeCodes) (read : CommitRead) (s : State) : Res :=
  ok (s.depositMsg (.folioCommit h key codes read) h)
def execLibraryDelete (h : MsgHdr) (key : BitVec 64) (s : State) : Res := ok (s.inOrderMsg (.cmd (.libraryDelete h key)) h)
def execLibraryPin (h : MsgHdr) (key : BitVec 64) (s : State) : Res := ok (s.inOrderMsg (.cmd (.libraryPin h key)) h)
def execLibraryUnpin (h : MsgHdr) (key : BitVec 64) (s : State) : Res := ok (s.inOrderMsg (.cmd (.libraryUnpin h key)) h)
def execLibraryList (h : MsgHdr) (first : BitVec 64) (s : State) : Res := ok (s.inOrderMsg (.cmd (.libraryList h first)) h)
def execSessionClose (h : MsgHdr) (s : State) : Res := ok (s.inOrderMsg (.cmd (.sessionClose h)) h)
def execSliceStart (h : MsgHdr) (b : StartReq) (s : State) : Res := ok (s.inOrderMsg (.cmd (.sliceStart h b)) h)
def execSliceStop (h : MsgHdr) (slice : SliceId) (s : State) : Res := ok (s.inOrderMsg (.cmd (.sliceStop h slice)) h)
def execSliceKill (h : MsgHdr) (slice : SliceId) (s : State) : Res := ok (s.inOrderMsg (.cmd (.sliceKill h slice)) h)
def execStreamOpen (h : MsgHdr) (slice : SliceId) (index : BitVec 16) (dir : BitVec 8) (shardBytes lead : BitVec 32) (s : State) : Res :=
  ok (s.inOrderMsg (.cmd (.streamOpen h slice index dir shardBytes lead)) h)
def execStreamClose (h : MsgHdr) (stream : BitVec 16) (s : State) : Res := ok (s.inOrderMsg (.cmd (.streamClose h stream)) h)
def execMgmtRead (h : MsgHdr) (block : BitVec 8) (count : BitVec 16) (offset : BitVec 32) (s : State) : Res :=
  ok (s.inOrderMsg (.cmd (.mgmtRead h block count offset)) h)
def execMgmtWrite (h : MsgHdr) (block : BitVec 8) (offset : BitVec 32) (vals : List Word) (s : State) : Res :=
  ok (s.inOrderMsg (.cmd (.mgmtWrite h block offset vals)) h)
def execMgmtCommit (h : MsgHdr) (block : BitVec 8) (target : BitVec 64) (s : State) : Res := ok (s.inOrderMsg (.cmd (.mgmtCommit h block target)) h)
def execRecordStart (h : MsgHdr) (recId : BitVec 8) (slice : SliceId) (s : State) : Res := ok (s.inOrderMsg (.cmd (.recordStart h recId slice)) h)
def execRecordStop (h : MsgHdr) (recId : BitVec 8) (s : State) : Res := ok (s.inOrderMsg (.cmd (.recordStop h recId)) h)
def execArm (h : MsgHdr) (recId : BitVec 8) (slice : SliceId) (s : State) : Res := ok (s.inOrderMsg (.cmd (.arm h recId slice)) h)
def execDisarm (h : MsgHdr) (recId : BitVec 8) (slice : SliceId) (s : State) : Res := ok (s.inOrderMsg (.cmd (.disarm h recId slice)) h)
def execRecordingDelete (h : MsgHdr) (recId : BitVec 8) (s : State) : Res := ok (s.inOrderMsg (.cmd (.recordingDelete h recId)) h)
def execRecordingList (h : MsgHdr) (s : State) : Res := ok (s.inOrderMsg (.cmd (.recordingList h)) h)
def execRepairReq (h : MsgHdr) (v : RepairOrder) (s : State) : Res := ok (s.inOrderMsg (.cmd (.repairReq h v)) h)

/-- A MGMT_WRITE of words of the staging window alone; others are the command MGMT_WRITE's. -/
def execStageWinWrite (h : MsgHdr) (offset : BitVec 32) (vals : List Word) (s : State) : Res :=
  let outside := (regPairs offset.toNat vals).any (fun x => decide (x.1 < 0x1000) || decide (0x1400 ≤ x.1))
  ok (if outside ∨ vals.isEmpty then s else s.inOrderMsg (.cmd (.stageWinWrite h offset vals)) h)

def execAttNonceWrite (h : MsgHdr) (first : Fin 12) (vals : List Word) (s : State) : Res :=
  ok (if vals.isEmpty then s else s.inOrderMsg (.cmd (.attNonceWrite h first vals)) h)

/-- A debug response comes over JTAG or as a write of a session. -/
def execDebugResponse (via : DebugVia) (scope : BitVec 8) (reserved : BitVec 56) (expiry : BitVec 64) (sig : DebugSig) (s : State) : Res :=
  let i := Instr.debugResponse via scope reserved expiry sig
  ok (match via with | .jtag => s.act i | .session h => s.inOrderMsg (.cmd i) h)

/-- An INGRESS_DATA message. One that cannot be staged is recorded where its slice is, but not acknowledged (R392, R400). -/
def execIngressData (h : MsgHdr) (b : IngressMsg) (s : State) : Res :=
  ok ((s.onDev (fun d0 =>
    match d0.arrive h true with
    | (none, d) => d
    | (some x, d) =>
      let code := d.turnCode x (.ingressData h b)
      if code ≠ 0 then d.violation x.id h.seq.toNat code 0xFFFFFFFF
      else match d.ingress x h b, d0.stream? b.stream.toNat with
        | some d, _ => d
        | none, some st => d0.recordIngress st b
        | none, none => d0)).turns h.session.toNat)

/-- An ACK of the host. -/
def execTellerAck (h : MsgHdr) (cum : BitVec 64) (bitmap : BitVec 256) (s : State) : Res :=
  ok ((s.onDev (fun d => d.tellerAck h cum.toNat bitmap.toNat)).turns h.session.toNat)

/-- Whether a datagram is of a TYPE, or OP, that is processed as it arrives: ACK, INGRESS_DATA, FOLIO_PUT DATA (R385). -/
def rawAtOnce (x : Session) (l : List Nat) : Bool :=
  match l.getD 3 0, x.opened l with
  | 0x05, _ => true
  | 0x32, _ => true
  | 0x10, some (3 :: _) => true
  | _, _ => false

/-- A message that breaks the protocol, answered in its turn where its TYPE has one; a datagram is none of Teller's, or of no session, or its
tag fails, or it is judged in its turn (R398). One that breaks no rule does nothing here: the command of its TYPE carries it (DESIGN CHOICE,
log entry 76). -/
def execProtocolViolation (h : MsgHdr) (k : Violation) (s : State) : Res :=
  ok (match k with
    | .tag =>
      (match s.dev.session? h.session.toNat with
        | some x => s.onDev (fun d => d.tagFail x.id)
        | none => s.atOnceMsg (.bad h k) h)
    | .stream => s.atOnceMsg (.bad h k) h
    | .datagram bytes =>
      let l := bytes.map (fun b => b.toNat)
      let h := rawHdr h l
      if !s.dev.frameOk h.frame then s
      else if l.length < 48 ∨ fieldOf l 0 2 ≠ 0x544C then s.onDev (fun d => d.notTeller h.hp)
      else
        (match s.dev.session? h.session.toNat with
          | some x =>
            if (x.opened l).isNone then s.onDev (fun d => d.tagFail x.id)
            else if (s.dev.judgeRaw x l).isNone then s
            else if rawAtOnce x l then s.atOnceMsg (.bad h k) h
            else s.inOrderMsg (.bad h k) h
          | none => s.atOnceMsg (.bad h k) h)
    | k => s.inOrderMsg (.bad h k) h)

/-- The spare is the active MC: messages that came since h are applied in SEQ order (15 Table 15.10). -/
def execHandoverResume (s : State) : Res := ok ((s.onDev Dev.handoverResume).drainAll)

def execMcCoreFault (mc : Fin 3) (s : State) : Res := ok ((s.onDev (fun d => d.mcFault mc)).drainAll)

end Sys2Proof.Machine
end

