-- ==== Sys2Proof/Machine/Jtag.lean ====
section
/-! DEFINITION. JTAG: instructions and MGMT_ACC (16 section 7; 15 R471, R472; 17 R503). -/

namespace Sys2Proof.Machine

/-- A JTAG command acts only while the rails are up: the TAP lies in the main domain (17 R503). -/
def State.onTap (s : State) (f : State → State) : State := if s.dev.pins.rails then f s else s

/-- An instruction selected, with what its data register captures (Table 16.12). -/
def Dev.select (d : Dev) (ir : Nat) (tdo : List Byte) : Dev := { d with sec := { d.sec with ir := ir, tdo := tdo } }

/-- BYPASS: one bit, captured as 0. -/
def Dev.bypass (d : Dev) : Dev := d.select 0xFF [0]

/-- A boundary-scan instruction: at scope 1 or above; while it is not answered, BYPASS is selected (15 R471). -/
def Dev.boundaryScan (d : Dev) (ir : Nat) : Dev := if 1 ≤ d.fld fScope then d.select ir [] else d.bypass

def execJtagExtest (s : State) : Res := ok (s.onTap (fun s => s.onDev (fun d => d.boundaryScan 0x00)))
def execJtagSamplePreload (s : State) : Res := ok (s.onTap (fun s => s.onDev (fun d => d.boundaryScan 0x02)))

def idcode : Nat := 0x24E0678B
def execJtagIdcode (s : State) : Res := ok (s.onTap (fun s => s.onDev (fun d => d.select 0x01 (bytesOf (toLe 4 idcode)))))
def execJtagDbgChal (s : State) : Res := ok (s.onTap (fun s => s.onDev (fun d => d.select 0x10 d.challenge)))
def execJtagBypass (s : State) : Res := ok (s.onTap (fun s => s.onDev Dev.bypass))

/-- Test-Logic-Reset: IDCODE is selected (17 R503). -/
def execTapReset (s : State) : Res := ok (s.onTap (fun s => s.onDev (fun d => d.select 0x01 [])))

/-! ### Accesses (R489, R491) -/

/-- The result of an access, for the next Capture-DR: CODE in [95:80], the value in [63:0]. -/
def State.jtagResult (s : State) (code v : Nat) : State :=
  s.onDev (fun d => { d with sec := { d.sec with
    jtagCode := code, jtagVal := v, tdo := bytesOf (toLe 12 (code <<< 80 + v % 2 ^ 64)) } })

/-- A read; one of the row window reads the row at ROW_GRA (14 Table 14.6). -/
def State.jtagRead (s : State) (b off : Nat) : State :=
  let d := s.dev
  let code := d.readCode jtagActor b [off]
  if code ≠ 0 then s.jtagResult code 0
  else
    let l := d.latch b [off] d.sec.jtagLatch
    let v := (s.readReg l b off).toNat
    let s := if b = 10 ∧ 0x400 ≤ off then s.onDev (fun d => d.windowRead (d.reg (regAddr 10 4))) else s
    (s.onDev (fun d => { d with sec := { d.sec with jtagLatch := l } })).jtagResult 0 v

/-- The window written into the row at ROW_GRA: ROW_CTRL bit 0 (R489). -/
def State.rowStore (s : State) : State :=
  let v := packFields 32 ((List.range 128).map (fun k => s.dev.reg (regAddr 10 (0x400 + 4 * k))))
  s.putRow (s.dev.reg (regAddr 10 4)) (BitVec.ofNat 4096 v)

/-- A write, appended to the ledger with ROLE 3 (15 R472). -/
def State.jtagWrite (s : State) (b off v : Nat) : State :=
  let d := s.dev
  let lo := mapGet (fun _ => 0) d.sec.jtagCommitLo b
  let ws := [(off, v)]
  let code := d.mgmtWriteCode jtagActor b lo ws
  let s := s.onDev (fun d => d.auditRaw 10 3 code 0 (auditDetail [b, off, v]))
  if code ≠ 0 then (s.onDev (fun d => d.noteRefusal jtagActor b code (commitOf lo ws))).jtagResult code 0
  else
    let s := s.onDev (fun d => { d with sec := { d.sec with jtagCommitLo := mapPut d.sec.jtagCommitLo b (commitLoAfter lo ws) } }.writeAll jtagActor b lo ws)
    let s := if b = 10 ∧ off = 8 ∧ bitAt v 0 then s.rowStore else s
    s.jtagResult 0 0

/-- A commit of a block; it answers the target EC armed. -/
def State.jtagCommit (s : State) (b t : Nat) : State :=
  let d := s.dev
  let code := d.writeCode jtagActor b 0 [(0xF00, t % 2 ^ 32), (0xF04, t / 2 ^ 32)]
  if code ≠ 0 then (s.onDev (fun d => d.armRefused jtagActor b t code)).jtagResult code 0
  else (s.onDev (fun d => { d with sec := { d.sec with
    jtagCommitLo := mapPut d.sec.jtagCommitLo b (t % 2 ^ 32) } }.armFor jtagActor b t)).jtagResult 0 (d.commitTarget t)

/-- An Update-DR of MGMT_ACC (Table 16.13). -/
def execJtagMgmtAcc (dr : BitVec 96) (s : State) : Res :=
  ok (s.onTap (fun s =>
    let n := dr.toNat
    let b := bits n 71 64
    let off := bits n 89 72
    let s := s.onDev (fun d => d.select 0x20 [])
    if bitAt n 94 then s.jtagCommit b (bits n 63 0)
    else if bitAt n 95 then s.jtagWrite b off (bits n 31 0)
    else s.jtagRead b off))

/-- A write of ROW_CTRL, which JTAG alone may make. -/
def execRowWindowWrite (v : Word) (s : State) : Res := ok (s.onTap (fun s => s.jtagWrite 10 8 v.toNat))

end Sys2Proof.Machine
end

