-- ==== Sys2Proof/Machine/Pmbus.lean ====
section
/-! DEFINITION. The PMBus target (17 section 7). -/

namespace Sys2Proof.Machine

/-- The target answers in the standby domain once BOARD_SLOT is sampled (R504). -/
def Dev.pmOn (d : Dev) : Bool := d.pins.standby && d.pins.slot.isSome

/-- An answer sent, low byte first. -/
def Dev.pmAnswer (d : Dev) (l : List Byte) : Dev := { d with pins := { d.pins with answer := l } }

/-- An ignored message: CML is set, and SMB_ALERT_N follows STATUS_WORD. -/
def Dev.pmIgnore (d : Dev) : Dev := { d with pins := { d.pins with cml := true, answer := [] } }

/-- A command of Table 17.9 on the pages that it allows. -/
def State.pm (s : State) (pages : List Nat) (f : Dev → Dev) : State :=
  s.onDev (fun d => if !d.pmOn then d else if pages.contains d.pins.page.toNat then f d else d.pmIgnore)

/-- The pages of Table 17.9. -/
def pgAll : List Nat := [0, 1, 0xFF]
def pgBlades : List Nat := [0, 1]
def pgDevice : List Nat := [0xFF]

/-! ### Status -/

/-- STATUS_INPUT of a blade: the latched bits, and unit off for low input while the rails are down and the blade is out of
range. -/
def Dev.statusInput (d : Dev) (bl : Blade) : Nat :=
  let latched := match bl with | .a => d.pins.inputA.toNat | .b => d.pins.inputB.toNat
  setBits latched 3 3 (b2n (!d.pins.rails && !d.bladeOk bl))

/-- The blade that a page names. -/
def pageBlade (page : Nat) : Blade := if page = 0 then .a else .b

/-- STATUS_INPUT as the current page summarises it: its blade, or either blade on the device page. -/
def Dev.pageInput (d : Dev) : Nat :=
  if d.pins.page = 0xFF then d.statusInput .a ||| d.statusInput .b else d.statusInput (pageBlade d.pins.page.toNat)

/-- STATUS_WORD (Table 17.9). -/
def Dev.statusWord (d : Dev) : Nat :=
  b2n (d.pageInput != 0) <<< 13 + b2n (!d.pins.rails) <<< 6 + b2n (bitAt d.pageInput 4) <<< 3 + b2n (d.pins.tempStat != 0) <<< 2 +
    b2n d.pins.cml <<< 1

/-- SMB_ALERT_N is asserted while a bit of the device's STATUS_WORD is set. -/
def Dev.smbAlert (d : Dev) : Bool := ({ d with pins := { d.pins with page := 0xFF } } : Dev).statusWord != 0

def execPmStatusWord (s : State) : Res := ok (s.pm pgAll (fun d => d.pmAnswer (bytesOf (toLe 2 d.statusWord))))
def execPmStatusInput (s : State) : Res :=
  ok (s.pm pgBlades (fun d => d.pmAnswer (bytesOf [d.statusInput (pageBlade d.pins.page.toNat)])))
def execPmStatusTemperature (s : State) : Res := ok (s.pm pgDevice (fun d => d.pmAnswer [d.pins.tempStat]))

/-- Whether the condition of an overtemperature warning holds. -/
def Dev.tooHot (d : Dev) : Bool :=
  decide (105 ≤ d.fld ⟨regAddr 13 0x48, 7, 0⟩) || decide (95 < d.fld ⟨regAddr 13 0x48, 23, 16⟩)

/-- CLEAR_FAULTS: the bits whose condition no longer holds are cleared. -/
def Dev.clearFaults (d : Dev) : Dev :=
  let keep := fun (ov out : Bool) => BitVec.ofNat 8 (b2n ov * 0x80 + b2n out * 0x10)
  { d with pins := { d.pins with
    cml := false, answer := [],
    inputA := d.pins.inputA &&& keep d.pwr.ovA (!d.pwr.bladeA),
    inputB := d.pins.inputB &&& keep d.pwr.ovB (!d.pwr.bladeB),
    tempStat := d.pins.tempStat &&& keep d.pins.thermtrip false ||| d.pins.tempStat &&& BitVec.ofNat 8 (b2n d.tooHot * 0x40) } }

def execPmClearFaults (s : State) : Res := ok (s.pm pgAll Dev.clearFaults)

def execPmPage (a : PmAccess) (s : State) : Res :=
  ok (s.pm pgAll (fun d =>
    match a with
    | .read => d.pmAnswer [d.pins.page]
    | .write v =>
      if v = 0 ∨ v = 1 ∨ v = 0xFF then { d with pins := { d.pins with page := v, answer := [] } } else d.pmIgnore))

def execPmInvalidMessage (s : State) : Res := ok (s.onDev (fun d => if d.pmOn then d.pmIgnore else d))

/-! ### Readings in LINEAR11 -/

/-- The nearest integer to n / m; `up` decides between two that are equally near. -/
def nearest (n m : Nat) (up : Bool) : Nat :=
  let r := n % m * 2
  if r < m then n / m else if m < r then n / m + 1 else n / m + b2n up

/-- Y and N + 16 for n / m: the least exponent whose mantissa fits; `k` exponents are tried. -/
def linearFrom (n m : Nat) (up : Bool) : Nat → Nat → Nat × Nat
  | 0, e => (nearest n (m * 2 ^ e) up % 1024, e)
  | k + 1, e =>
    let y := nearest (n * 2 ^ 16) (m * 2 ^ e) up
    if y < 1024 then (y, e) else linearFrom n m up k (e + 1)

/-- The LINEAR11 word of n / m: N in [15:11], Y in [10:0], each in two's complement. -/
def linear11 (n m : Nat) (up : Bool) : Nat :=
  if m = 0 then 0
  else
    let (y, e) := linearFrom n m up 32 0
    (e + 16) % 32 * 2048 + y

/-- A reading n / m answered; where two words are equally near, which one is a free value (log entry 14). -/
def Dev.reading (d : Dev) (n m : Nat) : Dev :=
  let (k, d) := d.draw
  d.pmAnswer (bytesOf (toLe 2 (linear11 n m (bitAt (Config.freeValue k).toNat 0))))

/-- The last reading of a page's blade, in mV and in W. -/
def Dev.bladeMv (d : Dev) : Nat := if d.pins.page = 0 then bits (d.reg (regAddr 13 0x18)) 15 0 else bits (d.reg (regAddr 13 0x18)) 31 16
def Dev.bladeW (d : Dev) : Nat := if d.pins.page = 0 then d.pwr.wattsA else d.pwr.wattsB

def execPmReadVin (s : State) : Res := ok (s.pm pgBlades (fun d => d.reading d.bladeMv 1000))
/-- The current of a blade is its power over its voltage. -/
def execPmReadIin (s : State) : Res :=
  ok (s.pm pgBlades (fun d => if d.bladeMv = 0 then d.reading 0 1 else d.reading (d.bladeW * 1000) d.bladeMv))
def execPmReadTemperature1 (s : State) : Res :=
  ok (s.pm pgDevice (fun d => d.reading (if d.pins.rails then d.fld ⟨regAddr 13 0x48, 7, 0⟩ else 0) 1))
def execPmReadTemperature2 (s : State) : Res :=
  ok (s.pm pgDevice (fun d => d.reading (if d.pins.rails then d.fld ⟨regAddr 13 0x48, 23, 16⟩ else 0) 1))
def execPmReadPin (s : State) : Res :=
  ok (s.pm pgAll (fun d => d.reading (if d.pins.page = 0xFF then bits (d.reg (regAddr 13 0x14)) 31 16 else d.bladeW) 1))

/-! ### Identification -/

/-- The ASCII bytes of a name. -/
def nameBytes (l : List Nat) : List Byte := bytesOf l

def execPmRevision (s : State) : Res := ok (s.pm pgAll (fun d => d.pmAnswer [0x33]))
/-- "CSN". -/
def execPmMfrId (s : State) : Res := ok (s.pm pgAll (fun d => d.pmAnswer (nameBytes [0x43, 0x53, 0x4E])))
/-- "N6-960L". -/
def execPmMfrModel (s : State) : Res := ok (s.pm pgAll (fun d => d.pmAnswer (nameBytes [0x4E, 0x36, 0x2D, 0x39, 0x36, 0x30, 0x4C])))
/-- "C1". -/
def execPmMfrRevision (s : State) : Res := ok (s.pm pgAll (fun d => d.pmAnswer (nameBytes [0x43, 0x31])))
/-- The fused serial number, least significant byte first. -/
def execPmMfrSerial (s : State) : Res := ok (s.pm pgAll (fun d => d.pmAnswer (bytesOf (toLe 16 d.sec.serial.toNat))))

end Sys2Proof.Machine
end

