-- ==== Sys2Proof/Machine/Dispatch.lean ====
section
/-! DEFINITION. The commands and their meanings, one arm each. -/

namespace Sys2Proof.Machine

def exec (i : Instr) (s : State) : Host.Outcome State Fault Refusal :=
  match i with
  | .ecTick => Sys2Proof.Machine.execEcTick s
  | .referenceInvalid r => Sys2Proof.Machine.execReferenceInvalid r s
  | .referenceValid r => Sys2Proof.Machine.execReferenceValid r s
  | .referenceReturnTimer => Sys2Proof.Machine.execReferenceReturnTimer s
  | .ecBroadcast faultA faultB => Sys2Proof.Machine.execEcBroadcast faultA faultB s
  | .timeMeasurement => Sys2Proof.Machine.execTimeMeasurement s
  | .syncTimeout => Sys2Proof.Machine.execSyncTimeout s
  | .ptpMessage hp domain m => Sys2Proof.Machine.execPtpMessage hp domain m s
  | .parentTimeout => Sys2Proof.Machine.execParentTimeout s
  | .firstLockStep => Sys2Proof.Machine.execFirstLockStep s
  | .ppsInEdge => Sys2Proof.Machine.execPpsInEdge s
  | .ppsMissing => Sys2Proof.Machine.execPpsMissing s
  | .ppsOutRise => Sys2Proof.Machine.execPpsOutRise s
  | .ppsOutFall => Sys2Proof.Machine.execPpsOutFall s
  | .sliceLaunch slice => Sys2Proof.Machine.execSliceLaunch slice s
  | .notReadyCheck slice => Sys2Proof.Machine.execNotReadyCheck slice s
  | .mxNop core => Sys2Proof.Machine.execMxNop core s
  | .mxLoad core f => Sys2Proof.Machine.execMxLoad core f s
  | .mxFeed core f => Sys2Proof.Machine.execMxFeed core f s
  | .mxLoadStart core => Sys2Proof.Machine.execMxLoadStart core s
  | .mxFeedStart core => Sys2Proof.Machine.execMxFeedStart core s
  | .mxLoadComplete core heldCycles => Sys2Proof.Machine.execMxLoadComplete core heldCycles s
  | .sxNop core => Sys2Proof.Machine.execSxNop core s
  | .sxAdd core f => Sys2Proof.Machine.execSxAdd core f s
  | .sxSub core f => Sys2Proof.Machine.execSxSub core f s
  | .sxAddi core f => Sys2Proof.Machine.execSxAddi core f s
  | .sxMul core f => Sys2Proof.Machine.execSxMul core f s
  | .sxAnd core f => Sys2Proof.Machine.execSxAnd core f s
  | .sxOr core f => Sys2Proof.Machine.execSxOr core f s
  | .sxXor core f => Sys2Proof.Machine.execSxXor core f s
  | .sxShli core f => Sys2Proof.Machine.execSxShli core f s
  | .sxShri core f => Sys2Proof.Machine.execSxShri core f s
  | .sxSari core f => Sys2Proof.Machine.execSxSari core f s
  | .sxMin core f => Sys2Proof.Machine.execSxMin core f s
  | .sxMax core f => Sys2Proof.Machine.execSxMax core f s
  | .sxMovi core f => Sys2Proof.Machine.execSxMovi core f s
  | .sxMovhi core f => Sys2Proof.Machine.execSxMovhi core f s
  | .sxCmp core f => Sys2Proof.Machine.execSxCmp core f s
  | .sxCmpi core f => Sys2Proof.Machine.execSxCmpi core f s
  | .sxMovlc core f => Sys2Proof.Machine.execSxMovlc core f s
  | .sxLdp core f => Sys2Proof.Machine.execSxLdp core f s
  | .sxVget core f => Sys2Proof.Machine.execSxVget core f s
  | .sxLoop core lc last count => Sys2Proof.Machine.execSxLoop core lc last count s
  | .sxResultLand core => Sys2Proof.Machine.execSxResultLand core s
  | .vxNop core => Sys2Proof.Machine.execVxNop core s
  | .vxAdd core f => Sys2Proof.Machine.execVxAdd core f s
  | .vxSub core f => Sys2Proof.Machine.execVxSub core f s
  | .vxMul core f => Sys2Proof.Machine.execVxMul core f s
  | .vxFma core f => Sys2Proof.Machine.execVxFma core f s
  | .vxMin core f => Sys2Proof.Machine.execVxMin core f s
  | .vxMax core f => Sys2Proof.Machine.execVxMax core f s
  | .vxAbs core f => Sys2Proof.Machine.execVxAbs core f s
  | .vxDiv core f => Sys2Proof.Machine.execVxDiv core f s
  | .vxCvt core f => Sys2Proof.Machine.execVxCvt core f s
  | .vxFunc core f => Sys2Proof.Machine.execVxFunc core f s
  | .vxCmp core f => Sys2Proof.Machine.execVxCmp core f s
  | .vxSel core f => Sys2Proof.Machine.execVxSel core f s
  | .vxSplat core f => Sys2Proof.Machine.execVxSplat core f s
  | .vxRed core f => Sys2Proof.Machine.execVxRed core f s
  | .vxBscale core f => Sys2Proof.Machine.execVxBscale core f s
  | .vxDrain core f => Sys2Proof.Machine.execVxDrain core f s
  | .vxStart core => Sys2Proof.Machine.execVxStart core s
  | .vxWriteLand core => Sys2Proof.Machine.execVxWriteLand core s
  | .gxNop core => Sys2Proof.Machine.execGxNop core s
  | .gxGate core => Sys2Proof.Machine.execGxGate core s
  | .gxKbegin core => Sys2Proof.Machine.execGxKbegin core s
  | .gxKend core => Sys2Proof.Machine.execGxKend core s
  | .gxSettle core eng => Sys2Proof.Machine.execGxSettle core eng s
  | .gxPublish core ring => Sys2Proof.Machine.execGxPublish core ring s
  | .gxRelease core sreg soff => Sys2Proof.Machine.execGxRelease core sreg soff s
  | .gxAcquire core sreg soff => Sys2Proof.Machine.execGxAcquire core sreg soff s
  | .settleDone core => Sys2Proof.Machine.execSettleDone core s
  | .kendDone core => Sys2Proof.Machine.execKendDone core s
  | .releaseQueueRetire core => Sys2Proof.Machine.execReleaseQueueRetire core s
  | .acquireSatisfied core waited => Sys2Proof.Machine.execAcquireSatisfied core waited s
  | .acquireTimeout core => Sys2Proof.Machine.execAcquireTimeout core s
  | .dxNop core => Sys2Proof.Machine.execDxNop core s
  | .dxRun core f => Sys2Proof.Machine.execDxRun core f s
  | .dmaCopy core q n meetsRead => Sys2Proof.Machine.execDmaCopy core q n meetsRead s
  | .dmaFill core q n meetsRead => Sys2Proof.Machine.execDmaFill core q n meetsRead s
  | .dmaWrite core q n => Sys2Proof.Machine.execDmaWrite core q n s
  | .dmaRead core q n => Sys2Proof.Machine.execDmaRead core q n s
  | .dmaSumwrite core q n => Sys2Proof.Machine.execDmaSumwrite core q n s
  | .dmaMcast core q n => Sys2Proof.Machine.execDmaMcast core q n s
  | .deferredWrite core => Sys2Proof.Machine.execDeferredWrite core s
  | .ringWaitResolved core ring => Sys2Proof.Machine.execRingWaitResolved core ring s
  | .ringUnderflow core ring => Sys2Proof.Machine.execRingUnderflow core ring s
  | .ringOverflow core q => Sys2Proof.Machine.execRingOverflow core q s
  | .quotaWindow src net => Sys2Proof.Machine.execQuotaWindow src net s
  | .packetInvalidForm p => Sys2Proof.Machine.execPacketInvalidForm p s
  | .packetWrite p meetsRead trip => Sys2Proof.Machine.execPacketWrite p meetsRead trip s
  | .packetReadRequest p => Sys2Proof.Machine.execPacketReadRequest p s
  | .packetReadReply p meetsRead => Sys2Proof.Machine.execPacketReadReply p meetsRead s
  | .packetSumWrite cl inPort p => Sys2Proof.Machine.execPacketSumWrite cl inPort p s
  | .sumTimeout cl slice rtag => Sys2Proof.Machine.execSumTimeout cl slice rtag s
  | .packetMulticastWrite cl p => Sys2Proof.Machine.execPacketMulticastWrite cl p s
  | .packetAcknowledgement f => Sys2Proof.Machine.execPacketAcknowledgement f s
  | .semaphoreIncrement f => Sys2Proof.Machine.execSemaphoreIncrement f s
  | .ringCredit f => Sys2Proof.Machine.execRingCredit f s
  | .n4ShortWrite f => Sys2Proof.Machine.execN4ShortWrite f s
  | .holdoverRelease f => Sys2Proof.Machine.execHoldoverRelease f s
  | .holdoverHoldCheck slice => Sys2Proof.Machine.execHoldoverHoldCheck slice s
  | .routerFail cl => Sys2Proof.Machine.execRouterFail cl s
  | .atomicAdd p => Sys2Proof.Machine.execAtomicAdd p s
  | .transitForward inPort outPort n => Sys2Proof.Machine.execTransitForward inPort outPort n s
  | .chainForward slice hop p => Sys2Proof.Machine.execChainForward slice hop p s
  | .portSignalDetect port => Sys2Proof.Machine.execPortSignalDetect port s
  | .trainingComplete port sense => Sys2Proof.Machine.execTrainingComplete port sense s
  | .trainingTimeout port => Sys2Proof.Machine.execTrainingTimeout port s
  | .alignComplete port skewNs => Sys2Proof.Machine.execAlignComplete port skewNs s
  | .alignTimeout port => Sys2Proof.Machine.execAlignTimeout port s
  | .discoverTimeout port => Sys2Proof.Machine.execDiscoverTimeout port s
  | .portRetry port => Sys2Proof.Machine.execPortRetry port s
  | .latencyFenceExpiry port => Sys2Proof.Machine.execLatencyFenceExpiry port s
  | .portMissing port => Sys2Proof.Machine.execPortMissing port s
  | .controlFlitTimeout port => Sys2Proof.Machine.execControlFlitTimeout port s
  | .laneLossOfLock port lane => Sys2Proof.Machine.execLaneLossOfLock port lane s
  | .laneErrorCheck port lane corrected second => Sys2Proof.Machine.execLaneErrorCheck port lane corrected second s
  | .laneSwitch port => Sys2Proof.Machine.execLaneSwitch port s
  | .controlFlitBad f => Sys2Proof.Machine.execControlFlitBad f s
  | .timeWord port w t2 t3 => Sys2Proof.Machine.execTimeWord port w t2 t3 s
  | .holdWord port w => Sys2Proof.Machine.execHoldWord port w s
  | .ackWord port w => Sys2Proof.Machine.execAckWord port w s
  | .laneControlWord port w => Sys2Proof.Machine.execLaneControlWord port w s
  | .creditWord port w => Sys2Proof.Machine.execCreditWord port w s
  | .discoveryWord port w0 w1 w2 => Sys2Proof.Machine.execDiscoveryWord port w0 w1 w2 s
  | .frameReceive port f => Sys2Proof.Machine.execFrameReceive port f s
  | .replayTimeout port owner lclass net => Sys2Proof.Machine.execReplayTimeout port owner lclass net s
  | .framePresent port => Sys2Proof.Machine.execFramePresent port s
  | .frameEligible port => Sys2Proof.Machine.execFrameEligible port s
  | .generationBumpDeferred cl => Sys2Proof.Machine.execGenerationBumpDeferred cl s
  | .folioPutBegin h b => Sys2Proof.Machine.execFolioPutBegin h b s
  | .folioPutPipe h key first recs => Sys2Proof.Machine.execFolioPutPipe h key first recs s
  | .folioPutData h key offset crc data => Sys2Proof.Machine.execFolioPutData h key offset crc data s
  | .folioCommit h key sigOk read => Sys2Proof.Machine.execFolioCommit h key sigOk read s
  | .libraryDelete h key => Sys2Proof.Machine.execLibraryDelete h key s
  | .libraryPin h key => Sys2Proof.Machine.execLibraryPin h key s
  | .libraryUnpin h key => Sys2Proof.Machine.execLibraryUnpin h key s
  | .libraryList h first => Sys2Proof.Machine.execLibraryList h first s
  | .loadBegin slice => Sys2Proof.Machine.execLoadBegin slice s
  | .moverLoad slice mover n read => Sys2Proof.Machine.execMoverLoad slice mover n read s
  | .moverChain slice mover n read => Sys2Proof.Machine.execMoverChain slice mover n read s
  | .loadReady slice peers => Sys2Proof.Machine.execLoadReady slice peers s
  | .useUpdate => Sys2Proof.Machine.execUseUpdate s
  | .pcCorrectionCheck stack pc corrected unreadable => Sys2Proof.Machine.execPcCorrectionCheck stack pc corrected unreadable s
  | .startExchangeTimeout slice => Sys2Proof.Machine.execStartExchangeTimeout slice s
  | .barrierComplete slice => Sys2Proof.Machine.execBarrierComplete slice s
  | .gateDue slice => Sys2Proof.Machine.execGateDue slice s
  | .resumeSend slice => Sys2Proof.Machine.execResumeSend slice s
  | .stretch region => Sys2Proof.Machine.execStretch region s
  | .stepEcReached => Sys2Proof.Machine.execStepEcReached s
  | .vcoreSettled => Sys2Proof.Machine.execVcoreSettled s
  | .shardDecision slice stream => Sys2Proof.Machine.execShardDecision slice stream s
  | .zeroSlotPublish slice stream => Sys2Proof.Machine.execZeroSlotPublish slice stream s
  | .shardHoldCap slice => Sys2Proof.Machine.execShardHoldCap slice s
  | .shardWrite slice stream => Sys2Proof.Machine.execShardWrite slice stream s
  | .pushSlotRead slice stream => Sys2Proof.Machine.execPushSlotRead slice stream s
  | .sessionOpen hp o => Sys2Proof.Machine.execSessionOpen hp o s
  | .sessionClose h => Sys2Proof.Machine.execSessionClose h s
  | .tellerAck h cum bitmap => Sys2Proof.Machine.execTellerAck h cum bitmap s
  | .sliceStart h b => Sys2Proof.Machine.execSliceStart h b s
  | .sliceStop h slice => Sys2Proof.Machine.execSliceStop h slice s
  | .stopAtFrameBoundary slice => Sys2Proof.Machine.execStopAtFrameBoundary slice s
  | .sliceKill h slice => Sys2Proof.Machine.execSliceKill h slice s
  | .killEffective slice => Sys2Proof.Machine.execKillEffective slice s
  | .scrubComplete slice failing => Sys2Proof.Machine.execScrubComplete slice failing s
  | .streamOpen h slice index dir shardBytes lead => Sys2Proof.Machine.execStreamOpen h slice index dir shardBytes lead s
  | .streamClose h stream => Sys2Proof.Machine.execStreamClose h stream s
  | .ingressData h b => Sys2Proof.Machine.execIngressData h b s
  | .mgmtRead h block count offset => Sys2Proof.Machine.execMgmtRead h block count offset s
  | .mgmtWrite h block offset vals => Sys2Proof.Machine.execMgmtWrite h block offset vals s
  | .mgmtCommit h block target => Sys2Proof.Machine.execMgmtCommit h block target s
  | .commitRun block => Sys2Proof.Machine.execCommitRun block s
  | .recordStart h recId slice => Sys2Proof.Machine.execRecordStart h recId slice s
  | .recordStop h recId => Sys2Proof.Machine.execRecordStop h recId s
  | .arm h recId slice => Sys2Proof.Machine.execArm h recId slice s
  | .disarm h recId slice => Sys2Proof.Machine.execDisarm h recId slice s
  | .recordingDelete h recId => Sys2Proof.Machine.execRecordingDelete h recId s
  | .recordingList h => Sys2Proof.Machine.execRecordingList h s
  | .replayFeed slice => Sys2Proof.Machine.execReplayFeed slice s
  | .retransmitTimeout session => Sys2Proof.Machine.execRetransmitTimeout session s
  | .ackTimer session => Sys2Proof.Machine.execAckTimer session s
  | .sessionIdleTimeout session => Sys2Proof.Machine.execSessionIdleTimeout session s
  | .openingTimeout session => Sys2Proof.Machine.execOpeningTimeout session s
  | .quarantineExpiry hp => Sys2Proof.Machine.execQuarantineExpiry hp s
  | .nonTellerPacket hp => Sys2Proof.Machine.execNonTellerPacket hp s
  | .echoRequest hp => Sys2Proof.Machine.execEchoRequest hp s
  | .hostLinkUp hp rate => Sys2Proof.Machine.execHostLinkUp hp rate s
  | .mediaTimeout hp => Sys2Proof.Machine.execMediaTimeout hp s
  | .hostLinkDown hp => Sys2Proof.Machine.execHostLinkDown hp s
  | .failover hp => Sys2Proof.Machine.execFailover hp s
  | .eventsLost session => Sys2Proof.Machine.execEventsLost session s
  | .powerSample wattsA wattsB millivoltsA millivoltsB => Sys2Proof.Machine.execPowerSample wattsA wattsB millivoltsA millivoltsB s
  | .thermalSample junction stackTemps => Sys2Proof.Machine.execThermalSample junction stackTemps s
  | .bladeLoss bl => Sys2Proof.Machine.execBladeLoss bl s
  | .bladeOvervoltage bl => Sys2Proof.Machine.execBladeOvervoltage bl s
  | .bladeReconnect bl => Sys2Proof.Machine.execBladeReconnect bl s
  | .phaseFault rail => Sys2Proof.Machine.execPhaseFault rail s
  | .thermalTrip region => Sys2Proof.Machine.execThermalTrip region s
  | .selfRefreshExit => Sys2Proof.Machine.execSelfRefreshExit s
  | .generatorUnlock g => Sys2Proof.Machine.execGeneratorUnlock g s
  | .generatorRelock g => Sys2Proof.Machine.execGeneratorRelock g s
  | .ageingCheck cl sites router => Sys2Proof.Machine.execAgeingCheck cl sites router s
  | .spareTest cl siteFails failingRows => Sys2Proof.Machine.execSpareTest cl siteFails failingRows s
  | .repairWindow => Sys2Proof.Machine.execRepairWindow s
  | .repairStopConfirmed slice => Sys2Proof.Machine.execRepairStopConfirmed slice s
  | .rowCopyComplete slice => Sys2Proof.Machine.execRowCopyComplete slice s
  | .spareMarginTestDone slice passes => Sys2Proof.Machine.execSpareMarginTestDone slice passes s
  | .relaunchEcReceived slice relaunch => Sys2Proof.Machine.execRelaunchEcReceived slice relaunch s
  | .rowRewriteComplete core gra => Sys2Proof.Machine.execRowRewriteComplete core gra s
  | .mcCoreFault mc => Sys2Proof.Machine.execMcCoreFault mc s
  | .mcTakeoverComplete => Sys2Proof.Machine.execMcTakeoverComplete s
  | .standbyPowerValid => Sys2Proof.Machine.execStandbyPowerValid s
  | .boardSlotSample slot => Sys2Proof.Machine.execBoardSlotSample slot s
  | .converterStart => Sys2Proof.Machine.execConverterStart s
  | .railsSettled => Sys2Proof.Machine.execRailsSettled s
  | .coldReset b => Sys2Proof.Machine.execColdReset b s
  | .timeLockTimeout => Sys2Proof.Machine.execTimeLockTimeout s
  | .warmReset => Sys2Proof.Machine.execWarmReset s
  | .ctrlWarmReset => Sys2Proof.Machine.execCtrlWarmReset s
  | .resetNRise => Sys2Proof.Machine.execResetNRise s
  | .warmResetEnd => Sys2Proof.Machine.execWarmResetEnd s
  | .standbyUndervoltage => Sys2Proof.Machine.execStandbyUndervoltage s
  | .powerDown => Sys2Proof.Machine.execPowerDown s
  | .stageWinWrite h offset vals => Sys2Proof.Machine.execStageWinWrite h offset vals s
  | .stageErase => Sys2Proof.Machine.execStageErase s
  | .stageVerify sigOk => Sys2Proof.Machine.execStageVerify sigOk s
  | .stageActivate => Sys2Proof.Machine.execStageActivate s
  | .repairReq h v => Sys2Proof.Machine.execRepairReq h v s
  | .attNonceWrite h first vals => Sys2Proof.Machine.execAttNonceWrite h first vals s
  | .attestationReady => Sys2Proof.Machine.execAttestationReady s
  | .debugResponse via scope reserved expiry sigOk => Sys2Proof.Machine.execDebugResponse via scope reserved expiry sigOk s
  | .debugExpiry => Sys2Proof.Machine.execDebugExpiry s
  | .handoverReadyCheck ready => Sys2Proof.Machine.execHandoverReadyCheck ready s
  | .handoverEc => Sys2Proof.Machine.execHandoverEc s
  | .handoverResume => Sys2Proof.Machine.execHandoverResume s
  | .handoverRevert => Sys2Proof.Machine.execHandoverRevert s
  | .handoverConfirm => Sys2Proof.Machine.execHandoverConfirm s
  | .ledgerFlush => Sys2Proof.Machine.execLedgerFlush s
  | .rowWindowWrite v => Sys2Proof.Machine.execRowWindowWrite v s
  | .jtagMgmtAcc dr => Sys2Proof.Machine.execJtagMgmtAcc dr s
  | .jtagExtest => Sys2Proof.Machine.execJtagExtest s
  | .jtagIdcode => Sys2Proof.Machine.execJtagIdcode s
  | .jtagSamplePreload => Sys2Proof.Machine.execJtagSamplePreload s
  | .jtagDbgChal => Sys2Proof.Machine.execJtagDbgChal s
  | .jtagBypass => Sys2Proof.Machine.execJtagBypass s
  | .tapReset => Sys2Proof.Machine.execTapReset s
  | .pmPage a => Sys2Proof.Machine.execPmPage a s
  | .pmClearFaults => Sys2Proof.Machine.execPmClearFaults s
  | .pmStatusWord => Sys2Proof.Machine.execPmStatusWord s
  | .pmStatusInput => Sys2Proof.Machine.execPmStatusInput s
  | .pmStatusTemperature => Sys2Proof.Machine.execPmStatusTemperature s
  | .pmReadVin => Sys2Proof.Machine.execPmReadVin s
  | .pmReadIin => Sys2Proof.Machine.execPmReadIin s
  | .pmReadTemperature1 => Sys2Proof.Machine.execPmReadTemperature1 s
  | .pmReadTemperature2 => Sys2Proof.Machine.execPmReadTemperature2 s
  | .pmReadPin => Sys2Proof.Machine.execPmReadPin s
  | .pmRevision => Sys2Proof.Machine.execPmRevision s
  | .pmMfrId => Sys2Proof.Machine.execPmMfrId s
  | .pmMfrModel => Sys2Proof.Machine.execPmMfrModel s
  | .pmMfrRevision => Sys2Proof.Machine.execPmMfrRevision s
  | .pmMfrSerial => Sys2Proof.Machine.execPmMfrSerial s
  | .pmInvalidMessage => Sys2Proof.Machine.execPmInvalidMessage s
  | .dmaDescriptorDone core q => Sys2Proof.Machine.execDmaDescriptorDone core q s
  | .sliceChannelCredit slice net channel => Sys2Proof.Machine.execSliceChannelCredit slice net channel s
  | .dhcpNdpArpMessage hp m => Sys2Proof.Machine.execDhcpNdpArpMessage hp m s
  | .priorityFlowControlFrame hp priorities quanta => Sys2Proof.Machine.execPriorityFlowControlFrame hp priorities quanta s
  | .protocolViolation h k => Sys2Proof.Machine.execProtocolViolation h k s
  | .vnvm1v8CurrentLimit => Sys2Proof.Machine.execVnvm1v8CurrentLimit s

end Sys2Proof.Machine
end

