-- ==== Sys2Proof/Safety.lean ====
section
/-! DEFINITION. What counts as a safe run, and the words that statements about one command use: what it does, and what it
leaves unchanged. -/

namespace Sys2Proof.Machine

/-- The canonical form of memory and of the registers: keys strictly rising, nothing listed at its default. -/
def State.canonical (s : State) : Bool := memWf s.mem && mapWf regReset s.dev.regs

/-- A step that ends in a next state. -/
def State.goes (s s' : State) : Prop := step s = .next s'

/-! ### Frames -/

/-- The parts of the device beside its management registers. The queues of sessions and the audit ledger, which events and
records reach, stand apart from the rest of the Teller engine and of the security state. -/
inductive Component where
  | time | mg | cores | net | fab | slices | vault | sessions | teller | pwr | hlth | ledger | sec | pins | fresh
  deriving DecidableEq, Repr

/-- Two devices agree on a part. -/
def Component.same : Component → Dev → Dev → Prop
  | .time, d, e => e.time = d.time
  | .mg, d, e => e.mg = d.mg
  | .cores, d, e => e.cores = d.cores
  | .net, d, e => e.net = d.net
  | .fab, d, e => e.fab = d.fab
  | .slices, d, e => e.slices = d.slices
  | .vault, d, e => e.vault = d.vault
  | .sessions, d, e => e.tel.sessions = d.tel.sessions
  | .teller, d, e => { e.tel with sessions := [] } = { d.tel with sessions := [] }
  | .pwr, d, e => e.pwr = d.pwr
  | .hlth, d, e => e.hlth = d.hlth
  | .ledger, d, e => e.sec.ledger = d.sec.ledger ∧ e.sec.nextSeq = d.sec.nextSeq ∧ e.sec.unflushed = d.sec.unflushed
  | .sec, d, e => { e.sec with ledger := [], nextSeq := 0, unflushed := 0 } = { d.sec with ledger := [], nextSeq := 0, unflushed := 0 }
  | .pins, d, e => e.pins = d.pins
  | .fresh, d, e => e.fresh = d.fresh

/-- Every part of the device but the listed ones is unchanged. -/
def Keeps (changed : List Component) (d e : Dev) : Prop := ∀ p, p ∉ changed → p.same d e

/-- Every management register but the listed ones is unchanged. -/
def KeepsRegs (changed : List Nat) (d e : Dev) : Prop := ∀ a, a ∉ changed → e.reg a = d.reg a

/-- The command ends in a next state in which memory and the queue are unchanged, and whose device the statement describes. -/
def Acts (c : Instr) (s : State) (p : Dev → Prop) : Prop := ∃ d, exec c s = .next { s with dev := d } ∧ p d

/-- The command ends in a next state in which the queue is unchanged and which the statement describes. -/
def Ends (c : Instr) (s : State) (p : State → Prop) : Prop := ∃ t, exec c s = .next t ∧ t.pending = s.pending ∧ p t

/-- The registers that an event of a block may set: its EVENTS register and EVENT_LOST (12 R396). -/
def eventRegs (b : Nat) : List Nat := [regAddr b (eventReg b).1, regAddr 12 0x74]

/-- The registers that an audit record may set: those that say that the ledger buffer is full (15 R469). -/
def auditRegs : List Nat := regAddr 15 0 :: eventRegs 15

/-- An EVENTS bit of a block is set. -/
def Dev.saw (d : Dev) (b bit : Nat) : Bool := d.fld ⟨regAddr b (eventReg b).1, bit, bit⟩ == 1

/-! ### References -/

/-- A reference that EPOCH.CTRL.REF_SEL selects is valid, by EPOCH.STATUS (01 R15). -/
def refUsable (d : Dev) : Bool :=
  match d.fld fRefSel with
  | 0 => d.fld (fTime 0) == 1 || d.fld (fTime 1) == 1
  | 1 => d.fld (fTime 0) == 1
  | 2 => d.fld (fTime 1) == 1
  | _ => false

/-! ### Cores -/

/-- A slot of a core's current bundle is considered: the core runs, nothing makes its issue wait, and the rows that the bundle needs and
the core's own stores hold no error that a read meets (04 R125, R136; 06 R220; 14 R442). -/
def State.atIssue (s : State) (core : CoreId) : Bool :=
  s.dev.coreRuns core && (s.dev.core core).ready && (badRow s core).isNone && (s.dev.core core).sound

/-- A slot of a core's current bundle is taken: beside that, the bundle issues, since a slot of it has been taken already or every
operation of it can be (04 R125). -/
def State.issues (s : State) (core : CoreId) : Bool :=
  s.atIssue core && ((s.dev.core core).issued || bundleFits s core false)

/-- The GX slot of a core's current bundle is taken: it is the first slot of its bundle (04 R125; 06 R206). -/
def State.gxIssues (s : State) (core : CoreId) : Bool :=
  s.atIssue core && ((s.dev.core core).issued || bundleFits s core true)

/-- No result of LDP or VGET becomes visible to the next bundle (04 R136). -/
def CoreSt.quiet (c : CoreSt) : Bool := c.sxPend.all (fun p => !(p.landed && decide (p.seq + 4 ≤ c.seq + 1)))

/-- A row holds no word that its next read corrects or cannot correct (05 R197). -/
def State.clean (s : State) (g : Nat) : Bool := !s.dev.hlth.soft.contains g && !s.dev.hlth.bad.contains g

/-- The command changes the state of one core, as the statement describes, and nothing else: no memory, no register, no other
core. -/
def CoreActs (i : Instr) (core : Nat) (s : State) (p : CoreSt → Prop) : Prop :=
  ∃ t, exec i s = .next { s with dev := s.dev.setCore core t } ∧ p t

/-- The bundle has issued and been counted: of the core, only its scalar registers, predicates, program position and results
on their way may differ (04 R126, R128, Table 4.11). -/
def CoreSt.counted (c t : CoreSt) : Prop :=
  t = { c with
    issued := false, s := t.s, p := t.p, loops := t.loops, lc := t.lc, pc := t.pc, sxPend := t.sxPend, seq := c.seq + 1,
    issue := { c.issue with bundles := c.issue.bundles + 1 } }

/-- A scalar operation issues and writes one register: S0 discards the value (04 R131); every other scalar register, the
predicates and the results on their way stay. -/
def SxWrites (i : Instr) (core : CoreId) (s : State) (dest : Nat) (v : DWord) : Prop :=
  CoreActs i core s fun t =>
    (s.dev.core core).counted t ∧ t.p = (s.dev.core core).p ∧ t.sxPend = (s.dev.core core).sxPend ∧
    t.sreg dest = (if dest = 0 then 0 else v) ∧ ∀ r, r ≠ dest → t.sreg r = (s.dev.core core).sreg r

/-- The conditions of 04 Table 4.3, as numbers. -/
def condHolds (k : Nat) (a b : DWord) : Bool :=
  match k with
  | 0 => decide (a = b)
  | 1 => decide (a ≠ b)
  | 2 => decide (a.toInt < b.toInt)
  | 3 => decide (a.toInt ≤ b.toInt)
  | 4 => decide (a.toNat < b.toNat)
  | _ => decide (a.toNat ≤ b.toNat)

/-- Element j of a row in its 128-element view, as a 32-bit two's complement value (04 Table 4.4). -/
def laneInt (r : RowData) (j : Nat) : Int := (r.extractLsb' (32 * j) 32).toInt

/-- An integer held to the 32-bit range (04 R153). -/
def clampInt (i : Int) : Int := max (-2147483648) (min 2147483647 i)

/-- The operations of the VX slot with their codes (04 Table 4.7). -/
def vxSlotOps (core : CoreId) (f : WithLost VxFields) : List (Nat × Instr) :=
  [(0x01, .vxAdd core f), (0x02, .vxSub core f), (0x03, .vxMul core f), (0x04, .vxFma core f), (0x05, .vxMin core f),
   (0x06, .vxMax core f), (0x07, .vxAbs core f), (0x08, .vxDiv core f), (0x09, .vxCvt core f), (0x0A, .vxFunc core f),
   (0x0B, .vxCmp core f), (0x0C, .vxSel core f), (0x0D, .vxSplat core f), (0x0E, .vxRed core f), (0x0F, .vxBscale core f),
   (0x10, .vxDrain core f)]

/-- Every operand field names a register of the vector engine directly (04 R147). -/
def vxAllDirect (f : VxFields) : Bool :=
  decide (f.dst.toNat < 32) && decide (f.srca.toNat < 32) && decide (f.srcb.toNat < 32) && decide (f.srcc.toNat < 32)

/-- The forms of slot operations that a load refuses with 0x0A20 (03 R122; 04 R130, R137, R155, R163), by their fields; LOOP also by
the program position and the loops open. -/
def refusedForm (s : State) : Instr → Bool
  | .mxLoad _ f => !mxPairOk f.wfmt.toNat f.afmt.toNat || (f.trans && (f.afmt.toNat == 3 || f.afmt.toNat == 4))
  | .mxFeed _ f => f.acc.toNat == 3 || decide (4096 < f.count.toNat) || (f.srcsel && f.voff.toNat != 0)
  | .sxCmp _ f | .sxCmpi _ f => f.d.toNat == 0 || decide (8 ≤ f.d.toNat) || decide (6 ≤ f.imm.toNat % 8)
  | .sxMovlc _ f => decide (16 ≤ f.imm.toNat)
  | .sxVget _ f => decide (128 ≤ f.imm.toNat)
  | .sxLoop core _ last count => count == 0 || decide (last.toNat ≤ (s.dev.core core).pc) || decide (16 ≤ (s.dev.core core).loops.length)
  | .vxAdd _ f => !vxFormOk 0x01 f.op | .vxSub _ f => !vxFormOk 0x02 f.op | .vxMul _ f => !vxFormOk 0x03 f.op
  | .vxFma _ f => !vxFormOk 0x04 f.op | .vxMin _ f => !vxFormOk 0x05 f.op | .vxMax _ f => !vxFormOk 0x06 f.op
  | .vxAbs _ f => !vxFormOk 0x07 f.op | .vxDiv _ f => !vxFormOk 0x08 f.op | .vxCvt _ f => !vxFormOk 0x09 f.op
  | .vxFunc _ f => !vxFormOk 0x0A f.op | .vxCmp _ f => !vxFormOk 0x0B f.op | .vxSel _ f => !vxFormOk 0x0C f.op
  | .vxSplat _ f => !vxFormOk 0x0D f.op | .vxRed _ f => !vxFormOk 0x0E f.op | .vxBscale _ f => !vxFormOk 0x0F f.op
  | .vxDrain _ f => !vxFormOk 0x10 f.op
  | _ => false

/-- Where an operation with a direct destination writes: a mask register for CMP, else a vector register (04 R155). -/
def vxDest (op : Nat) (f : VxFields) : WLoc := if op = 0x0B then .mreg f.dst.toNat else .vreg f.dst.toNat

/-! ### Packets -/

/-- A cluster takes packets of a slice and generation: assigned to the slice, with that generation, reachable and not fenced
(02 R76; 08 R297, Table 8.13; 07 R248; 11 R373). -/
def Dev.accepts (d : Dev) (cl slice gen : Nat) : Bool :=
  decide (cl < 72) && !d.fenced (clHalf cl) && !d.routerFailed cl && decide (d.fld (fClState cl) = 1 ∧ d.fld (fClSlice cl) = slice ∧ d.fld (fClGen cl) = gen)

/-- A whole long packet of an operation (07 R240, R242). -/
def wholePkt (p : Packet) (op : Nat) : Bool := !badForm p && pktForm p == 2 && (longHdr p.hdr).op == op && longOk p
/-- A whole long packet of an operation is on the mesh. -/
def State.carries (s : State) (p : Packet) (op : Nat) : Bool := s.inFlight p && wholePkt p op

/-- The express route from where a packet enters the mesh to a cluster leads through no failed router (07 R247, R248). -/
def Dev.reaches (d : Dev) (schip score cl : Nat) : Bool := !d.blocked (d.entryCl schip score cl) cl
/-- No failed router lies on the way of a long packet to its destination, nor on the way of its answer back (07 R247, R248). -/
def Dev.openWay (d : Dev) (h : LongHdr) : Bool := !d.longBlocked h && !d.blocked h.dcl ((idCl h.score).getD h.dcl)

/-- The registers that the latency and the late crossings of packets that arrive may set (07 R239; 11 R368). -/
def arriveRegs : List Nat := regAddr 7 0x30 :: regAddr 7 0x34 :: regAddr 11 0x20 :: (eventRegs 7 ++ eventRegs 11)

/-- A mesh output of a router leads to a neighbour that stands and is not fenced (07 R248; 11 R373). -/
def Dev.outOpen (d : Dev) (cl port : Nat) : Bool :=
  clInner cl port && !d.routerFailed (clStep cl port) && !d.fenced (clHalf (clStep cl port))

/-- A packet put at the input of the neighbour that a router's output leads to. -/
def hopTo (cl port : Nat) (p : Packet) (branch : Option (Nat × Nat)) : TreeHop :=
  { cl := clStep cl port, inPort := (port + 2) % 4, pkt := p, branch := branch }

/-- The contributions that a router holds for a sum of a slice, and the buffers of its other sums (07 R252). -/
def Dev.sumParts (d : Dev) (cl slice rtag : Nat) : List (Nat × Packet) :=
  match d.net.sums.find? (fun b => b.cl == cl && b.slice == slice && b.rtag == rtag) with | some b => b.parts | none => []
def Dev.otherSums (d : Dev) (cl slice rtag : Nat) : List SumBuf :=
  d.net.sums.filter (fun b => !(b.cl == cl && b.slice == slice && b.rtag == rtag))

/-- A packet is the acknowledgement of a long header with a STATUS, for the core or mover that sent it (07 R244, Table 7.5). -/
def isAck (p : Packet) (h : LongHdr) (status : Nat) : Prop :=
  p.payload = [] ∧ pktForm p = 1 ∧ (shortPkt p.hdr).sop = 0 ∧ (shortPkt p.hdr).dchip = h.schip ∧ (shortPkt p.hdr).slice = h.slice ∧
  (shortPkt p.hdr).dcl * 8 + (shortPkt p.hdr).dcore = h.score ∧ bits (shortPkt p.hdr).arg0 31 16 = h.seq ∧
  bits (shortPkt p.hdr).arg0 15 8 = status ∧ bits (shortPkt p.hdr).arg1 25 10 = h.gate ∧ shortCrcOk p.hdr = true

/-- A whole short packet of an operation is on the mesh (07 R243). -/
def State.carriesShort (s : State) (f : Flit) (sop : Nat) : Bool :=
  s.inFlight ⟨f, []⟩ && pktForm ⟨f, []⟩ == 1 && (shortPkt f).sop == sop && shortCrcOk f

/-- The packets on the mesh once one has left it. -/
def Dev.without (d : Dev) (p : Packet) : List Packet := eraseFirst (fun q => q == p) d.net.flight

/-- Every byte of memory outside one row is unchanged. -/
def OnlyRow (m m' : List Host.Cell) (g : Nat) : Prop := ∀ a, a / 512 ≠ g → memByte m' a = memByte m a

/-- A hold of this device is open on a slice for a cause, raised now (11 R357, R358). -/
def Dev.raisedNow (d : Dev) (sid cause : Nat) : Prop :=
  ∃ sl r, d.slice? sid = some sl ∧ r ∈ sl.raises ∧ r.own = true ∧ r.cause = cause ∧ cause ∈ r.causes ∧ r.raiseEc = d.now ∧
    r.resume = none ∧ r.sent = false

/-- A slice runs or its launch EC is set, and this device has no open hold on it. -/
def Dev.freeOfHolds (d : Dev) (sid : Nat) : Bool :=
  match d.slice? sid with
  | some sl => sl.armed && !sl.raises.any Raise.openOwn
  | none => false

/-- The descriptor at the head of a queue of a running core carries an operation, without rings or skew, with rows left and no
write of its queue deferred (05 Table 5.6). -/
def plainMove (s : State) (core : CoreId) (q : Fin 4) (opc : Nat) (e : DmaEntry) : Prop :=
  s.dev.coreRuns core = true ∧ ((s.dev.core core).queue q).head? = some e ∧ ddOpc e = opc ∧ ddSre e = false ∧ ddDre e = false ∧
  ddSkew e = 0 ∧ ((s.dev.core core).run q).done < ddRows e ∧ (∀ d ∈ (s.dev.core core).deferred, d.queue ≠ some q.val)

/-! ### Slices -/

/-- The registers that raising a hold may set (11 Table 11.9). -/
def holdRegs : List Nat := regAddr 11 0x08 :: regAddr 11 0x24 :: eventRegs 11

/-- A hold of this device was raised now, and counted and reported (11 R357, R358). -/
def Dev.raisesHold (s d : Dev) (sid cause : Nat) : Prop :=
  d.raisedNow sid cause ∧ d.reg (regAddr 11 0x08) = satAdd 32 (s.reg (regAddr 11 0x08)) 1 ∧ d.saw 11 0 = true

/-- The bodies sent to a session and not yet acknowledged, oldest first (12 R384). -/
def Dev.outbox (d : Dev) (id : Nat) : List OutBody :=
  match d.session? id with
  | some x => x.sent.map (fun m => m.body) ++ x.waitQ
  | none => []

/-- A body has been sent to a session, or stands ready to be sent. -/
def Dev.told (d : Dev) (id : Nat) (b : OutBody) : Prop := b ∈ d.outbox id

/-- A pull point as a decision leaves it: the next iteration is to be decided, frame n reads zeros, and no row of its shard is written any more
(12 R393, Table 12.9). -/
def PullRun.zeroFor (p q : PullRun) (n gate : Nat) : Prop :=
  q = { p with iter := p.iter + 1, hold := none, zeros := p.zeros ++ [(n, gate)], going := p.going.filter (fun g => g.1 != n) }

/-- A pull point of a slice, alone at its ring (05 R178). -/
def Slice.pullsAt (sl : Slice) (p : PullRun) : Prop := sl.pulls.filter (fun y => y.core == p.core && y.ring == p.ring) = [p]

/-- A slice's pull points with one of them replaced. -/
def Slice.pullsWith (sl : Slice) (p q : PullRun) : List PullRun := (sl.updPull p (fun _ => q)).pulls

/-- A session whose own SEQ is far from its end (12 Table 12.5). -/
def Session.fresh (x : Session) : Prop := x.txSeq + 1024 < 2 ^ 48

/-- A slot of a ring holds rows of its own, none of them the row of core state that holds the ring's descriptor. -/
def slotApart (s : State) (core ring n : Nat) : Prop :=
  ∀ i, i < ringSlotRows (ringDesc s core ring) → ringRow (ringDesc s core ring) n i ≠ coreStateGra core (ring / 16)

/-- Every byte of memory outside one slot of a ring and outside the row that holds its descriptor is unchanged. -/
def OnlySlot (s : State) (m : List Host.Cell) (core ring n : Nat) : Prop :=
  ∀ a, a / 512 ≠ coreStateGra core (ring / 16) →
    (∀ i, i < ringSlotRows (ringDesc s core ring) → a / 512 ≠ ringRow (ringDesc s core ring) n i) → memByte m a = memByte s.mem a

/-! ### The fabric -/

/-- FAB.PORTn of a port (08 Table 8.19). -/
def portReg (p : Nat) : Nat := regAddr 8 (0x40 + 4 * p)

/-- The registers that a change of a port's state may set: its own, and FAB.STATUS and the events of the fabric with DEGRADED (08 R290). -/
def portRegs (p : Nat) : List Nat := portReg p :: regAddr 8 4 :: eventRegs 8

/-- The registers that the time parent taken again may set (01 R25). -/
def parentRegs : List Nat := regAddr 1 0x18 :: eventRegs 1

/-- The registers that holds raised or cleared on a link may set. -/
def linkRegs : List Nat := regAddr 11 0x10 :: holdRegs

/-- A port that carries lanes has a lane that may fail: another than the retired one, with no lane retired or about to be. -/
def Dev.laneSound (d : Dev) (p lane : Nat) : Bool := d.laneLive p && !d.laneUsed p && d.fld (fLane p) != lane

/-- A frame whose lead and tail hold and whose LSEQ is the next of its key (08 R279, R282). -/
def Dev.expects (d : Dev) (p : Nat) (f : Frame) : Bool :=
  d.portUp p && leadOk f && f.tail == tailFlit f.lead f.body &&
    (leadHdr f.lead).lseq == mapGet (fun _ => 0) (d.port p).rxSeq (leadHdr f.lead).seqKey

/-! ### Requests of sessions -/

/-- A message comes in a frame of the options in force as the next of an open session whose role may send it, no later one fills its gap
with it, the device's own SEQ is far from its end, and no handover is between h and its resumption (12 R376, R382, R384, R385; 15 R467). -/
def Dev.inTurn (d : Dev) (h : MsgHdr) (roles : Nat) (x : Session) : Prop :=
  d.frameOk h.frame = true ∧ h.pipe = false ∧ d.session? h.session.toNat = some x ∧ x.open_ = true ∧ h.seq.toNat = x.cum + 1 ∧
  h.seq.toNat ∉ x.got ∧ h.seq.toNat + 1 ∉ x.got ∧ (∀ a ∈ x.ahead, h.seq.toNat < a.1) ∧ h.seq.toNat < 2 ^ 48 ∧
  x.txSeq + 1024 < 2 ^ 48 ∧ bitAt roles x.role = true ∧ d.handing = false

/-- The last message of a session that leaves, outside any session that stands (12 Table 12.5). -/
def Dev.lastSaid (s d : Dev) (x : Session) (b : OutBody) : Prop :=
  ∃ seq, d.tel.refused = s.tel.refused ++ [⟨x.hp, ⟨seq, b, s.now⟩, x.id, x.version, x.keys⟩] ∧ x.txSeq ≤ seq

/-- No message of a session waits whose turn has come (12 R385). -/
def Dev.noTurns (d : Dev) : Prop := ∀ x ∈ d.tel.sessions, ∀ a ∈ x.ahead, x.cum < a.1

/-- The one RESULT of a request with a code and without data (12 R385). -/
def Dev.answers (d : Dev) (h : MsgHdr) (code : Nat) : Prop := d.told h.session.toNat (.result h.seq.toNat code 0xFFFFFFFF [])

/-- One record of a kind, a role and a result joined the audit ledger, at this EC (15 R469). -/
def Dev.noted (s d : Dev) (kind role result : Nat) : Prop :=
  ∃ r, d.sec.ledger = r :: s.sec.ledger ∧ r.kind = kind ∧ r.role = role ∧ r.result = result ∧ r.ec = s.now

/-- The registers that a request's answer, its errors and its audit record may set. -/
def askRegs : List Nat := regAddr 12 0x50 :: regAddr 12 0x78 :: auditRegs

/-- The registers that the close of streams may set (12 R391; 11 Table 11.2). -/
def closeRegs : List Nat := regAddr 12 0x6C :: regAddr 11 0x10 :: (eventRegs 12 ++ eventRegs 11)

/-- TELLER.PORTn of a host port (12 Table 12.20). -/
def hostReg (hp : Nat) : Nat := regAddr 12 (0x20 + 4 * hp)

/-! ### Power and health -/

/-- The registers that a decision on the operating mode may set: PWR.STATUS, PWR.NEXT_STEP and the events of the block (13 R416). -/
def stepRegsOf : List Nat := regAddr 13 0 :: regAddr 13 0x24 :: regAddr 13 0x28 :: eventRegs 13

/-! ### Management access -/

/-- The values of a block's registers once a commit's copy of the shadow lies over them (16 R482). -/
def Dev.inForce (d : Dev) (c : Armed) (off : Nat) : Nat := (d.overlay c.block c.shadow).reg (regAddr c.block off)

/-- The registers in which a block reports a commit, with EPOCH.STATUS for a set that waits (16 Table 16.3). -/
def commitRegs (b : Nat) : List Nat := [regAddr b 0xF08, regAddr b 0xF0C, regAddr 1 0x18, regAddr 12 0x74]

/-- The image of the slot of a staging target that does not run: firmware for 1, a configuration for 2, as to whether one is
there that verifies (15 Table 15.3). -/
def Dev.inactiveHolds (d : Dev) (target : Nat) : Bool :=
  if target = 1 then (match d.sec.fwSlot (!d.sec.activeFw) with | some f => f.ok | none => false)
  else (match d.sec.cfgSlot (!d.sec.activeCfg) with | some c => c.ok | none => false)

/-- The bytes staged in the inactive slot of the TARGET in force, by offset, and how many it may hold (15 Table 15.3). -/
def Dev.staged (d : Dev) : List (Nat × Byte) := if d.fld fTarget = 1 then d.sec.stageFw else d.sec.stageCfg
def Dev.slotSize (d : Dev) : Nat := if d.fld fTarget = 1 then fwSlotBytes else cfgSlotBytes
/-- The offset in its slot of a register of the staging window (15 Table 15.13). -/
def Dev.stageAt (d : Dev) (o : Nat) : Nat := d.reg (regAddr 15 0xC) - d.reg (regAddr 15 0xC) % 1024 + (o - 0x1000)

/-- The registers that a result of staging may set. -/
def stageRegs : List Nat := regAddr 15 0x10 :: auditRegs
/-- The registers that a handover may set. -/
def handRegs : List Nat := regAddr 13 0 :: regAddr 15 0x28 :: auditRegs

/-- What a debug response changes beside its registers: the scope's expiry, and the nonce drawn anew (15 R471). -/
def SecSt.respondedBut (a b : SecSt) : Prop :=
  { b with ledger := [], nextSeq := 0, unflushed := 0, expiry := 0, unlocked := false, nonce := 0, resp := [], jtagCode := 0 } =
    { a with ledger := [], nextSeq := 0, unflushed := 0, expiry := 0, unlocked := false, nonce := 0, resp := [], jtagCode := 0 }

/-! ### Power-up, JTAG, PMBus -/

/-- PWROK is about to rise: the rails have settled and it is low (17 R506). -/
def State.atPowerUp (s : State) : Bool := s.dev.pins.rails && s.dev.pins.standby && !s.dev.pins.pwrok

/-- Boot step 10 has run: Teller is open, SEC.STATUS.BOOT holds the state, and the boot event is set (15 Table 15.2). -/
def Dev.openedWith (d : Dev) (state : Nat) : Prop :=
  d.bootState = state ∧ d.tel.opened = true ∧ d.saw 15 0 = true ∧ d.sec.lockWait = false ∧ d.sec.holdBoot = none

/-- Only the pins and the standby domain change, to what the statement names. -/
def PinsBecome (c : Instr) (s : State) (p : PinSt) : Prop := Acts c s fun d => d = { s.dev with pins := p }

/-- What an access by JTAG returns at the next Capture-DR: CODE in [95:80], zeros, the value in [63:0] (16 R491). -/
def accDr (code v : Nat) : List Byte := bytesOf (toLe 12 (code <<< 80 + v % 2 ^ 64))

/-- The registers that a JTAG write's record may set beside its own. -/
def jtagRegs (a : Nat) : List Nat := a :: auditRegs

end Sys2Proof.Machine
end

