-- ==== Sys2Proof/Certificates/Slice0/Obligations.lean ====
section
/-! DEFINITION. The statements about the N6, for the provers. -/

section
open Sys2Proof Sys2Proof.Machine

/-- A step with a command at the front of the queue is that command's effect on the state with the queue's rest (model; 00 scope).
On an empty queue the block idles: the model's choice (log entry 1). -/
def Obligations.StepRunsTheFrontCommand : Prop :=
  (∀ (s : State) (c : Instr) (rest : List Instr), s.pending = c :: rest → step s = exec c { s with pending := rest }) ∧
  (∀ s : State, s.pending = [] → step s = .next s)

/-- Every command of every row completes, in every state and with every operand: exec answers a next state that leaves the queue as
it was. The one exception is a slot operation in a form that a load refuses with 0x0A20 and that the spec gives no effect, and in
such a form it is refused (03 R122; 04 R130, R137, R163). No command faults. -/
def Obligations.OnlyInvalidBundlesStop : Prop :=
  (∀ (c : Instr) (s : State), refusedForm s c = false → ∃ t, exec c s = .next t ∧ t.pending = s.pending) ∧
  (∀ (c : Instr) (s : State), refusedForm s c = true → exec c s = .refused (.invalidBundle 0x0A20)) ∧
  ∀ (c : Instr) (s : State), (∃ t, exec c s = .next t ∧ t.pending = s.pending) ∨
    (exec c s = .refused (.invalidBundle 0x0A20) ∧ ∃ core : CoreId,
      (∃ f, c = .mxLoad core f) ∨ (∃ f, c = .mxFeed core f) ∨ (∃ f, c = .sxCmp core f ∨ c = .sxCmpi core f ∨ c = .sxMovlc core f ∨
        c = .sxVget core f) ∨ (∃ f, c ∈ (vxSlotOps core f).map Prod.snd) ∨ (∃ lc last n, c = .sxLoop core lc last n))

/-- Every step keeps memory in its canonical form: addresses rising, no byte listed that reads as the fill value 0 (06 R225; the
form is the model's own). -/
def Obligations.MemoryStaysCanonical : Prop := ∀ s s' : State, s.goes s' → memWf s.mem = true → memWf s'.mem = true

/-- EC is never stepped but by a set of the EPOCH block with no slice launched, by the one step at the first lock to the time source
with no slice launched, or at boot; a tick advances it by 1, and a cold reset starts it again (01 R14, R18, R19, R27, R28). -/
def Obligations.EcIsNeverStepped : Prop :=
  ∀ (c : Instr) (s t : State), exec c s = .next t → t.dev.time.ec ≠ s.dev.time.ec →
    (c = .ecTick ∧ t.dev.time.ec = s.dev.time.ec + 1) ∨ (∃ e, c = .coldReset e) ∨ c = .commitRun 1 ∧ s.dev.anyLaunched = false ∨
    c = .timeMeasurement ∧ s.dev.time.stepDone = false ∧ s.dev.anyLaunched = false ∨
    c = .firstLockStep ∧ s.dev.time.stepWaits = true ∧ s.dev.anyLaunched = false ∨ c = .resetNRise ∧ s.dev.sec.holdBoot ≠ none

/-- The machine as PWROK rises: EC 0 (01 R18), every register at the reset value of its table (16 R475), full park at Glide with the
regions unclocked (13 R422), every port DOWN, memory empty and no command waiting. -/
def Obligations.ResetHoldsTheResetValues : Prop :=
  State.reset.pending = [] ∧ State.reset.dev.now = 0 ∧ State.reset.canonical = true ∧ (∀ a, memByte State.reset.mem a = 0) ∧
  (∀ a, State.reset.dev.reg a = (regReset a).toNat) ∧ State.reset.dev.fld fPark = 3 ∧ State.reset.dev.mode = 2 ∧
  State.reset.dev.reg (regAddr 2 0x0C) = 0 ∧ (∀ p, p < 12 → State.reset.dev.pstate p = 0) ∧
  (∀ c, c < 72 → State.reset.dev.fld (fSite c) = 0xF ∧ State.reset.dev.fld (fClState c) = 0) ∧ State.reset.dev.slices = [] ∧
  State.reset.dev.net = {} ∧ State.reset.dev.tel.sessions = [] ∧ State.reset.dev.vault.lib = []

/-- A tick advances EC by exactly 1 (01 R14); only the ports' control slots move with it, and a rewrite of the express route tables that
is due, which then lead round the failed routers (07 R248). -/
def Obligations.TickAdvancesEc : Prop :=
  ∀ s : State, Acts .ecTick s fun d =>
    d.time = { s.dev.time with ec := s.dev.time.ec + 1, ticks := s.dev.time.ticks + 1 } ∧
    Keeps [.time, .fab, .net] s.dev d ∧ KeepsRegs [] s.dev d ∧
    ((s.dev.time.ec + 1).toNat % 8 ≠ 7 → d.fab = s.dev.fab) ∧
    (s.dev.net.rewriteAt = none → d.net = s.dev.net) ∧
    (∀ t, s.dev.net.rewriteAt = some t → d.net =
      if t ≤ s.dev.time.ticks + 1 then { s.dev.net with rewriteAt := none, around := s.dev.failedRouters } else s.dev.net)

/-- A reference that becomes valid or invalid changes its bit; HOLDOVER then says that no selected reference is valid, LOCKED that
one is (01 R15, R17). Nothing moves but EPOCH.STATUS, events and the record of a switch. In Auto the generator returns to REFA
once REFA has been valid for 1 s (01 R15), and sets REF_SWITCH (R16). A fault on the active distribution tree, found at a
broadcast, moves the regions to the other tree and sets TREE_SWITCH (01 R20, R22). -/
def Obligations.ReferencesAndTreesFallBack : Prop :=
  ((∀ (s : State) (r : RefInput), s.dev.fld (fTime (refBit r)) = 1 → Acts (.referenceInvalid r) s fun d =>
      d.fld (fTime (refBit r)) = 0 ∧ d.fld (fTime 3) = b2n (!refUsable d) ∧ d.fld (fTime 9) = b2n (refUsable d) ∧
      Keeps [.sessions, .ledger] s.dev d ∧ KeepsRegs (regAddr 1 0x18 :: (eventRegs 1 ++ auditRegs)) s.dev d) ∧
    (∀ (s : State) (r : RefInput), s.dev.fld (fTime (refBit r)) = 0 → Acts (.referenceValid r) s fun d =>
      d.fld (fTime (refBit r)) = 1 ∧ d.fld (fTime 3) = b2n (!refUsable d) ∧ d.fld (fTime 9) = b2n (refUsable d) ∧
      d.time.ec = s.dev.time.ec ∧ d.time.ticks = s.dev.time.ticks ∧
      Keeps [.time, .sessions, .ledger] s.dev d ∧ KeepsRegs (regAddr 1 0x18 :: (eventRegs 1 ++ auditRegs)) s.dev d)) ∧
  (∀ s : State, s.dev.fld fRefSel = 0 → s.dev.fld (fTime 0) = 1 → s.dev.time.refASince + 1000000000 ≤ s.dev.time.ticks →
      Acts .referenceReturnTimer s fun d =>
        d.fld (fTime 2) = 0 ∧ (s.dev.fld (fTime 2) = 1 → d.saw 1 0 = true) ∧
        Keeps [.sessions, .ledger] s.dev d ∧ KeepsRegs (regAddr 1 0x18 :: (eventRegs 1 ++ auditRegs)) s.dev d) ∧
  (∀ s : State, s.dev.now % 1024 = 0 → s.dev.fld (fTime 5) = 1 → s.dev.fld (fTime 6) = 1 → ∀ onB : Bool,
      s.dev.fld (fTime 4) = b2n onB → Acts (.ecBroadcast (!onB) onB) s fun d =>
        d.fld (fTime 4) = b2n (!onB) ∧ d.fld (fTime 5) = b2n onB ∧ d.fld (fTime 6) = b2n (!onB) ∧ d.saw 1 3 = true ∧
        Keeps [.sessions, .ledger] s.dev d ∧ KeepsRegs (regAddr 1 0x18 :: (eventRegs 1 ++ auditRegs)) s.dev d)

/-- A measurement that stands ready is taken: EPOCH.OFFSET shows it, clamped to 32 bits; once the first step has been made it steers
by −10 times the offset within SLEW_LIMIT; before it, with no slice launched, EC steps by the whole offset at once (01 R26, R27,
R28; Table 1.3). A late first step waits for the end of the last launched slice (R28). With a time source, no measurement for 1
s leaves SYNCED at 0, and SYNC_LOST reports the change (01 R31, Table 1.8). With SRC = 1 an edge of PPS_IN stands as a
measurement: the offset of EC from its nearest whole second (17 R499). Without an edge for 1.1 s PPS_MISSING is set (Table 1.8).
PPS_OUT rises at each EC that is a multiple of 1,000,000,000 while it is enabled, and falls 100,000 ticks later (01 R33). -/
def Obligations.MeasurementsSteerEc : Prop :=
  ((∀ (s : State) (off : Int), s.dev.measurement = some off → s.dev.sec.lockWait = false → Acts .timeMeasurement s fun d =>
      d.time.measured = some off ∧ d.time.measTick = s.dev.time.ticks ∧
      d.reg (regAddr 1 0x20) = toField 32 (max (-2147483648) (min 2147483647 off)) ∧
      (s.dev.time.stepDone = true → d.time.ec = s.dev.time.ec ∧
        (s.dev.fld ⟨regAddr 1 8, 31, 16⟩ ≠ 0 → d.reg (regAddr 1 0x24) = toField 32 (slew off (s.dev.fld ⟨regAddr 1 8, 31, 16⟩)))) ∧
      (s.dev.time.stepDone = false → s.dev.anyLaunched = false →
        d.now = toField 64 ((s.dev.now : Int) - off) ∧ d.time.stepDone = true) ∧
      (s.dev.time.stepDone = false → s.dev.anyLaunched = true → d.time.ec = s.dev.time.ec ∧ d.time.stepWaits = true) ∧
      Keeps [.time, .mg, .fab, .slices, .vault, .sessions, .pwr, .ledger, .sec] s.dev d) ∧
    (∀ (s : State) (off : Int), s.dev.time.stepWaits = true → s.dev.time.measured = some off → s.dev.anyLaunched = false →
      Acts .firstLockStep s fun d =>
        d.now = toField 64 ((s.dev.now : Int) - off) ∧ d.time.stepDone = true ∧ d.time.stepWaits = false ∧
        Keeps [.time, .mg, .slices, .vault, .sessions, .pwr, .ledger, .sec] s.dev d)) ∧
  (∀ s : State, s.dev.fld fSrc ≠ 0 → s.dev.time.measTick + 1000000000 ≤ s.dev.time.ticks → Acts .syncTimeout s fun d =>
      d.fld (fTime 7) = 0 ∧ (s.dev.fld (fTime 7) = 1 → d.saw 1 4 = true) ∧
      Keeps [.sessions] s.dev d ∧ KeepsRegs (regAddr 1 0x18 :: eventRegs 1) s.dev d) ∧
  ((∀ s : State, s.dev.fld fSrc = 1 → s.dev.time.ppsUsed = none → Acts .ppsInEdge s fun d =>
      d.measurement = some (secondOffset s.dev.now) ∧ d.time.ec = s.dev.time.ec ∧ Keeps [.time] s.dev d ∧ KeepsRegs [] s.dev d) ∧
    (∀ s : State, s.dev.fld fSrc = 1 → s.dev.time.ppsMissed = false → s.dev.time.ppsTick + 1100000000 ≤ s.dev.time.ticks →
      Acts .ppsMissing s fun d =>
        d.saw 1 8 = true ∧ d.time.ec = s.dev.time.ec ∧ Keeps [.time, .sessions] s.dev d ∧ KeepsRegs (eventRegs 1) s.dev d) ∧
    (∀ s : State, s.dev.fld ⟨regAddr 1 8, 6, 6⟩ = 1 → s.dev.now % 1000000000 = 0 →
      exec .ppsOutRise s = .next { s with dev := { s.dev with pins := { s.dev.pins with ppsOut := true } } }) ∧
    (∀ s : State, s.dev.pins.ppsOut = true → 100000 ≤ s.dev.now % 1000000000 →
      exec .ppsOutFall s = .next { s with dev := { s.dev with pins := { s.dev.pins with ppsOut := false } } }))

/-- The answer to the client's Delay_Req completes a PTP exchange: the offset of the one-way delay method stands as the next
measurement, and EC is not touched by it (01 R23); a Sync begins an exchange and a Follow_Up gives its origin time, and once both are known
the client sends its Delay_Req on the active port, as PTP messages of the device travel (12 R380; at once: the model's choice, log entry 76).
Messages count on the active port, in the domain and over the transport that the registers name (12 R380); any other is ignored. A time word gives the offset to the
neighbour, half the difference of the two one-way delays, the latency, half their sum, and the parent's hops (01 R24; 08 R272, R285, Table 8.8). A
follower whose parent has sent no time word for 1 ms takes
its other parent if that is usable, with PARENT_SWITCH, and otherwise none, with SYNC_LOST (01 R25, Table 1.8). -/
def Obligations.TimeComesFromPtpOrAParent : Prop :=
  (∀ (s : State) (hp : HostPort) (domain : BitVec 8) (via : PtpVia),
      (s.dev.fld fSrc = 2 → hp.val = s.dev.activePort → domain.toNat = s.dev.fld ⟨regAddr 1 0xC, 23, 16⟩ → s.dev.ptpVia via = true →
        (∀ (q : BitVec 16) (t3 t4 : BitVec 64) (t1 t2 : Nat), s.dev.time.ptp.t1 = some t1 → s.dev.time.ptp.t2 = some t2 →
          s.dev.time.ptp.req.map (fun r => r.seq) = some q.toNat → Acts (.ptpMessage hp domain ⟨via, .delayResp q t3 t4⟩) s fun d =>
            d.time.ptpOffset = some ((diff64 t2 t1 - diff64 t4.toNat t3.toNat) / 2) ∧ d.measurement = d.time.ptpOffset ∧
            d.time.ec = s.dev.time.ec ∧ Keeps [.time] s.dev d ∧ KeepsRegs [] s.dev d) ∧
        (∀ (q : BitVec 16) (two : Bool) (t1 t2 : BitVec 64), Acts (.ptpMessage hp domain ⟨via, .sync q two t1 t2⟩) s fun d =>
          d.time.ptp = ⟨q.toNat, if two then none else some t1.toNat, some t2.toNat,
            if two then none else some ⟨s.dev.time.ptpSeq, s.dev.activePort, s.dev.ptpOut⟩⟩ ∧
          d.time = { s.dev.time with ptp := d.time.ptp, ptpSeq := d.time.ptpSeq } ∧ Keeps [.time] s.dev d ∧ KeepsRegs [] s.dev d) ∧
        (∀ (q : BitVec 16) (t1 : BitVec 64), s.dev.time.ptp.seq = q.toNat → s.dev.time.ptp.t2.isSome = true →
          Acts (.ptpMessage hp domain ⟨via, .followUp q t1⟩) s fun d =>
            d.time.ptp = ⟨q.toNat, some t1.toNat, s.dev.time.ptp.t2,
              some (s.dev.time.ptp.req.getD ⟨s.dev.time.ptpSeq, s.dev.activePort, s.dev.ptpOut⟩)⟩ ∧
            d.time = { s.dev.time with ptp := d.time.ptp, ptpSeq := d.time.ptpSeq } ∧ Keeps [.time] s.dev d ∧ KeepsRegs [] s.dev d)) ∧
      (s.dev.fld fSrc ≠ 2 ∨ hp.val ≠ s.dev.activePort ∨ domain.toNat ≠ s.dev.fld ⟨regAddr 1 0xC, 23, 16⟩ ∨ s.dev.ptpVia via = false →
        ∀ m, exec (.ptpMessage hp domain ⟨via, m⟩) s = .next s)) ∧
  (∀ (s : State) (p : Port) (w : CtrlWord) (t2 t3 : BitVec 64) (t1 t4 : Nat), s.dev.laneLive p = true → bits w.toNat 127 124 = 1 →
      t1 = bits w.toNat 63 0 → t4 = (t1 + 2 ^ 64 - bits w.toNat 111 64) % 2 ^ 64 → Acts (.timeWord p w t2 t3) s fun d =>
        (d.port p).offset = some ((diff64 t2.toNat t1 - diff64 t4 t3.toNat) / 2) ∧
        (d.port p).latency = some ((diff64 t2.toNat t1 + diff64 t4 t3.toNat) / 2) ∧ (d.port p).hops = bits w.toNat 123 119 ∧
        (d.port p).timeOk = decide (bits w.toNat 123 119 < 30) ∧ (d.port p).timeTick = s.dev.time.ticks ∧
        Keeps [.fab, .net, .slices, .sessions] s.dev d ∧ KeepsRegs (portReg p :: regAddr 8 0x18 :: (linkRegs ++ parentRegs)) s.dev d) ∧
  (∀ s : State, s.dev.fld fSrc = 3 → s.dev.fld fCur < 12 →
      (s.dev.port (s.dev.fld fCur)).timeTick + 1000000 ≤ s.dev.time.ticks → Acts .parentTimeout s fun d =>
        (d.port (s.dev.fld fCur)).timeOk = false ∧
        d.fld fCur = (if s.dev.fld fParent ≠ s.dev.fld fCur ∧ s.dev.parentOk (s.dev.fld fParent) then s.dev.fld fParent
          else if s.dev.fld fAlt ≠ s.dev.fld fCur ∧ s.dev.parentOk (s.dev.fld fAlt) then s.dev.fld fAlt else 15) ∧
        (if d.fld fCur = 15 then d.saw 1 4 = true else d.saw 1 6 = true) ∧
        Keeps [.fab, .sessions] s.dev d ∧ KeepsRegs (regAddr 1 0x18 :: eventRegs 1) s.dev d)

/-- Scalar arithmetic is on 64-bit two's complement values: ADD, SUB, ADDI and MUL wrap modulo 2^64, shift counts are taken modulo
64, and no operation traps, saturates or counts; each result is seen by the next bundle (04 R132, Table 4.3). -/
def Obligations.ScalarArithmeticWraps : Prop :=
  ∀ (s : State) (core : CoreId) (f : SxFields) (c : CoreSt), s.dev.core core = c → s.issues core = true → c.quiet = true →
    (c.pred f.pred.toNat != f.pneg) = true →
    let a := c.sreg f.a.toNat
    let b := c.sreg f.b.toNat
    let d := f.d.toNat
    let sh := f.imm.toNat % 64
    SxWrites (.sxAdd core f) core s d (BitVec.ofNat 64 (a.toNat + b.toNat)) ∧
    SxWrites (.sxSub core f) core s d (BitVec.ofInt 64 (a.toInt - b.toInt)) ∧
    SxWrites (.sxAddi core f) core s d (BitVec.ofInt 64 (a.toInt + f.imm.toInt)) ∧
    SxWrites (.sxMul core f) core s d (BitVec.ofNat 64 (a.toNat * b.toNat)) ∧
    SxWrites (.sxAnd core f) core s d (BitVec.ofNat 64 (a.toNat &&& b.toNat)) ∧
    SxWrites (.sxOr core f) core s d (BitVec.ofNat 64 (a.toNat ||| b.toNat)) ∧
    SxWrites (.sxXor core f) core s d (BitVec.ofNat 64 (a.toNat ^^^ b.toNat)) ∧
    SxWrites (.sxShli core f) core s d (BitVec.ofNat 64 (a.toNat * 2 ^ sh)) ∧
    SxWrites (.sxShri core f) core s d (BitVec.ofNat 64 (a.toNat / 2 ^ sh)) ∧
    SxWrites (.sxSari core f) core s d (BitVec.ofInt 64 (a.toInt / 2 ^ sh)) ∧
    SxWrites (.sxMin core f) core s d (BitVec.ofInt 64 (min a.toInt b.toInt)) ∧
    SxWrites (.sxMax core f) core s d (BitVec.ofInt 64 (max a.toInt b.toInt)) ∧
    SxWrites (.sxMovi core f) core s d (BitVec.ofInt 64 f.imm.toInt) ∧
    SxWrites (.sxMovhi core f) core s d (BitVec.ofNat 64 ((c.sreg d).toNat * 2 ^ 23 ||| f.imm.toNat)) ∧
    (f.imm.toNat < 16 → SxWrites (.sxMovlc core f) core s d (BitVec.ofNat 64 (c.lcv f.imm.toNat).toNat))

/-- An SX operation whose predicate is false issues and takes its cycle, and writes nothing, while LOOP, which carries no predicate,
opens its loop with every predicate at 0 (04 R133); SX_NOP writes nothing either (R124). -/
def Obligations.FalsePredicateWritesNothing : Prop :=
  ∀ (s : State) (core : CoreId) (f : SxFields) (c : CoreSt), s.dev.core core = c → s.issues core = true → c.quiet = true →
    SxWrites (.sxNop core) core s 0 0 ∧
    ((c.pred f.pred.toNat != f.pneg) = false → ∀ i ∈ [Instr.sxAdd core f, .sxSub core f, .sxAddi core f, .sxMul core f,
        .sxAnd core f, .sxOr core f, .sxXor core f, .sxShli core f, .sxShri core f, .sxSari core f, .sxMin core f,
        .sxMax core f, .sxMovi core f, .sxMovhi core f], SxWrites i core s 0 0) ∧
    ((c.pred f.pred.toNat != f.pneg) = false → ∀ lost, SxWrites (.sxLdp core ⟨f, lost⟩) core s 0 0) ∧
    ((c.pred f.pred.toNat != f.pneg) = false → 0 < f.d.toNat → f.d.toNat < 8 → f.imm.toNat % 8 < 6 →
      SxWrites (.sxCmp core f) core s 0 0 ∧ SxWrites (.sxCmpi core f) core s 0 0) ∧
    ((c.pred f.pred.toNat != f.pneg) = false → f.imm.toNat < 16 → SxWrites (.sxMovlc core f) core s 0 0) ∧
    ((c.pred f.pred.toNat != f.pneg) = false → f.imm.toNat < 128 → SxWrites (.sxVget core f) core s 0 0) ∧
    (∀ (lc : BitVec 4) (last : BitVec 13) (count : BitVec 16), c.p = 0 → count ≠ 0 → c.pc < last.toNat → c.loops.length < 16 →
      (∀ l ∈ c.loops, l.last ≠ c.pc) → CoreActs (.sxLoop core lc last count) core s fun t =>
        c.counted t ∧ t.p = c.p ∧ t.pc = c.pc + 1 ∧ t.loops = ⟨lc.toNat, count.toNat, c.pc + 1, last.toNat⟩ :: c.loops)

/-- CMP and CMPI write one predicate with the signed or unsigned condition of their operands; nothing else but the program position
moves (04 Table 4.3). The all-zero operation of a slot does nothing (04 R124). -/
def Obligations.ComparesAndNopsTouchNothingElse : Prop :=
  (∀ (s : State) (core : CoreId) (f : SxFields) (c : CoreSt), s.dev.core core = c → s.issues core = true → c.quiet = true →
      (c.pred f.pred.toNat != f.pneg) = true → 0 < f.d.toNat → f.d.toNat < 8 → f.imm.toNat % 8 < 6 →
      (CoreActs (.sxCmp core f) core s fun t =>
        c.counted t ∧ t.s = c.s ∧ t.sxPend = c.sxPend ∧ (∀ r, r ≠ f.d.toNat → t.pred r = c.pred r) ∧
        t.pred f.d.toNat = condHolds (f.imm.toNat % 8) (c.sreg f.a.toNat) (c.sreg f.b.toNat)) ∧
      (CoreActs (.sxCmpi core f) core s fun t =>
        c.counted t ∧ t.s = c.s ∧ t.sxPend = c.sxPend ∧ (∀ r, r ≠ f.d.toNat → t.pred r = c.pred r) ∧
        t.pred f.d.toNat = condHolds (f.imm.toNat % 8) (c.sreg f.a.toNat) (BitVec.ofInt 64 (sext 20 (f.imm.toNat / 8))))) ∧
  (∀ (s : State) (core : CoreId), (s.issues core = true →
      ∀ i ∈ [Instr.mxNop core, .vxNop core, .dxNop core], CoreActs i core s fun t => t = { s.dev.core core with issued := true }) ∧
    (s.gxIssues core = true → CoreActs (.gxNop core) core s fun t => t = { s.dev.core core with issued := true }))

/-- SX.LOOP opens a loop whose body begins at the next bundle, with its counter at 0; when the bundle END issues, the innermost loop
that ends there goes back with its counter raised by 1 until its body has run COUNT times, and then closes (04 R129). Past the
last bundle of the body, issue continues at the first (R128). -/
def Obligations.CountedLoopsBranchBack : Prop :=
  (∀ (s : State) (core : CoreId) (lc : BitVec 4) (last : BitVec 13) (count : BitVec 16) (c : CoreSt), s.dev.core core = c →
    s.issues core = true → c.quiet = true → count ≠ 0 → c.pc < last.toNat → c.loops.length < 16 →
    (∀ l ∈ c.loops, l.last ≠ c.pc) →
    CoreActs (.sxLoop core lc last count) core s fun t =>
      c.counted t ∧ t.s = c.s ∧ t.p = c.p ∧ t.sxPend = c.sxPend ∧ t.pc = c.pc + 1 ∧ t.lcv lc.toNat = 0 ∧
      (∀ k, k ≠ lc.toNat → t.lcv k = c.lcv k) ∧ t.loops = ⟨lc.toNat, count.toNat, c.pc + 1, last.toNat⟩ :: c.loops) ∧
  (∀ (s : State) (core : CoreId) (c : CoreSt) (l : OpenLoop) (rest : List OpenLoop), s.dev.core core = c →
    s.issues core = true → c.quiet = true → c.loops = l :: rest → l.last = c.pc → l.count < 65536 →
    CoreActs (.sxNop core) core s fun t =>
      c.counted t ∧ t.s = c.s ∧ t.p = c.p ∧ t.sxPend = c.sxPend ∧
      ((c.lcv l.lc).toNat + 1 < l.count → t.pc = l.first ∧ t.loops = c.loops ∧
        (t.lcv l.lc).toNat = (c.lcv l.lc).toNat + 1 ∧ ∀ k, k ≠ l.lc → t.lcv k = c.lcv k) ∧
      (l.count ≤ (c.lcv l.lc).toNat + 1 → (∀ m ∈ rest, m.last ≠ c.pc) → t.loops = rest ∧ t.lc = c.lc ∧
        t.pc = (if c.pc = c.last then c.first else c.pc + 1)))

/-- LDP and VGET put a result on its way and leave every register as it was; the result lands, and is written to its register once the fourth bundle after its operation is the one to issue; until it has landed that bundle waits, and each waiting cycle counts
in SX_WAIT (04 R134, R135, R136), as does a VGET whose register an earlier operation still writes (R135). The cycles that LDP's access lost
count in BANK_STALL (05 R172). -/
def Obligations.LateResultsLandAtTheFourthBundle : Prop :=
  (∀ (s : State) (core : CoreId) (f : SxFields) (c : CoreSt) (row : Nat), s.dev.core core = c → s.issues core = true →
    c.quiet = true → (c.pred f.pred.toNat != f.pneg) = true →
    row = ((c.sreg f.a.toNat).toNat + f.imm.toNat / 64) % 2 ^ 64 → row < 0x2000 →
    s.clean (mkGra 0 (core.val / 8) (core.val % 8) row) = true →
    ∀ lost, CoreActs (.sxLdp core ⟨f, lost⟩) core s fun t =>
      (c.bankTick lost).counted t ∧ t.s = c.s ∧ t.p = c.p ∧ t.sxPend = c.sxPend ++
        [⟨f.d.toNat, BitVec.ofNat 64 ((readRow s.mem (mkGra 0 (core.val / 8) (core.val % 8) row)).toNat / 2 ^ (64 * (f.imm.toNat % 64))),
          c.seq, false⟩]) ∧
  (∀ (s : State) (core : CoreId) (f : SxFields) (c : CoreSt), s.dev.core core = c → s.issues core = true → c.quiet = true →
    (c.pred f.pred.toNat != f.pneg) = true → f.imm.toNat < 128 → c.pendW = [] → c.vxQ = [] →
    CoreActs (.sxVget core f) core s fun t =>
      c.counted t ∧ t.s = c.s ∧ t.p = c.p ∧ t.sxPend = c.sxPend ++
        [⟨f.d.toNat, BitVec.ofNat 64 ((mapGet (fun _ => 0) c.v f.b.toNat).toNat / 2 ^ (32 * f.imm.toNat) % 2 ^ 32), c.seq, false⟩]) ∧
  (∀ (s : State) (core : CoreId) (f : SxFields) (c : CoreSt), s.dev.core core = c → s.atIssue core = true →
    (c.pred f.pred.toNat != f.pneg) = true → f.imm.toNat < 128 → vgetBlocked s core f.b.toNat = true →
    CoreActs (.sxVget core f) core s fun t => t = { c with issue := { c.issue with sxWait := c.issue.sxWait + 1 } }) ∧
  (∀ (s : State) (core : CoreId) (c : CoreSt) (p : SxPending) (pre post : List SxPending), s.dev.core core = c →
    c.sxPend = pre ++ p :: post → p.landed = false → (∀ y ∈ pre, y.landed = true ∧ c.seq < y.seq + 4) →
    (∀ y ∈ post, y.landed = false ∨ c.seq < y.seq + 4) → CoreActs (.sxResultLand core) core s fun t =>
      t = { c with s := t.s, sxPend := t.sxPend, cells := if p.seq + 4 ≤ c.seq ∧ p.dest ≠ 0 then c.cells.mend (.sreg p.dest) else c.cells } ∧
      (c.seq < p.seq + 4 → t.s = c.s ∧ t.sxPend = pre ++ { p with landed := true } :: post) ∧
      (p.seq + 4 ≤ c.seq → t.sxPend = pre ++ post ∧ t.sreg p.dest = (if p.dest = 0 then 0 else p.value) ∧
        ∀ r, r ≠ p.dest → t.sreg r = c.sreg r)) ∧
  (∀ (s : State) (core : CoreId) (c : CoreSt), s.dev.core core = c → s.dev.coreRuns core = true → c.waits = false →
    c.sxLate = true → ∀ i ∈ [Instr.sxNop core, .mxNop core, .vxNop core, .gxNop core, .dxNop core],
      CoreActs i core s fun t => t = { c with issue := { c.issue with sxWait := c.issue.sxWait + 1 } })

/-- A form that the folio check refuses at load has no effect of its own: it is refused with the invalid-bundle code, in every state
(03 R122; 04 R137). Forms that the folio check refuses at load are refused: compute type 3, a compute type that the operation
does not take, a mask destination of 0 or past M7 (04 R155, R163, Table 4.7). -/
def Obligations.InvalidFormsAreRefused : Prop :=
  ((∀ (s : State) (core : CoreId) (f : SxFields),
      ((f.d.toNat = 0 ∨ 8 ≤ f.d.toNat ∨ 6 ≤ f.imm.toNat % 8) ↔ exec (.sxCmp core f) s = .refused (.invalidBundle 0x0A20)) ∧
      ((f.d.toNat = 0 ∨ 8 ≤ f.d.toNat ∨ 6 ≤ f.imm.toNat % 8) ↔ exec (.sxCmpi core f) s = .refused (.invalidBundle 0x0A20)) ∧
      (16 ≤ f.imm.toNat ↔ exec (.sxMovlc core f) s = .refused (.invalidBundle 0x0A20)) ∧
      (128 ≤ f.imm.toNat ↔ exec (.sxVget core f) s = .refused (.invalidBundle 0x0A20))) ∧
    (∀ (s : State) (core : CoreId) (f : MxFeedFields),
      (f.acc = 3 ∨ 4096 < f.count.toNat ∨ (f.srcsel = true ∧ f.voff ≠ 0)) ↔ exec (.mxFeed core f) s = .refused (.invalidBundle 0x0A20)) ∧
    (∀ (s : State) (core : CoreId) (f : MxLoadFields), f.trans = true → (f.afmt = 3 ∨ f.afmt = 4) →
      exec (.mxLoad core f) s = .refused (.invalidBundle 0x0A20))) ∧
  (∀ (s : State) (core : CoreId) (f : WithLost VxFields),
      (f.op.ty = 3 → ∀ x ∈ vxSlotOps core f, exec x.2 s = .refused (.invalidBundle 0x0A20)) ∧
      (f.op.ty ≠ 0 → ∀ i ∈ [Instr.vxDiv core f, .vxFunc core f, .vxBscale core f, .vxDrain core f],
        exec i s = .refused (.invalidBundle 0x0A20)) ∧
      (f.op.dst.toNat = 0 ∨ 8 ≤ f.op.dst.toNat → exec (.vxCmp core f) s = .refused (.invalidBundle 0x0A20)) ∧
      (f.op.srca.toNat < 32 → exec (.vxDrain core f) s = .refused (.invalidBundle 0x0A20)))

/-- LOAD and FEED enter the MX queue of two with S[SREG] + ROFF as read at issue; on a full queue the bundle waits, and the waiting
cycle counts in MX_STALL (03 R121; 04 R126). A LOAD at the head of the queue reads the rows of its image and writes them, with
its formats, to the plane that is not active; the active plane and memory stay (03 R81, R96, R99). Its end frees the load path,
and the cycles for which the store held the reads of its image count in MX_STALL (05 R173). A FEED of no vectors with SWAP takes its place in the array and changes
no data: the swap comes with the next vector (03 R100, R120). A FEED of one pad vector puts it into the stream with the plane
that is active, and its operation's accumulator fields (R101, R102); no row of memory changes until 128 vectors stand in the
stream. -/
def Obligations.MatrixOperationsRunInOrder : Prop :=
  ((∀ (s : State) (core : CoreId) (f : MxLoadFields) (c : CoreSt), s.dev.core core = c →
      mxPairOk f.wfmt.toNat f.afmt.toNat = true → (f.trans = true → f.afmt ≠ 3 ∧ f.afmt ≠ 4) →
      (s.issues core = true → c.mxQ.length < 2 → CoreActs (.mxLoad core f) core s fun t => t = { c with
        issued := true, mxQ := c.mxQ ++ [.load f (((c.sreg f.sreg.toNat).toNat + f.roff.toNat) % 2 ^ 32) c.seq] }) ∧
      (s.atIssue core = true → 2 ≤ c.mxQ.length → CoreActs (.mxLoad core f) core s fun t =>
        t = { c with tally := { c.tally with mxStall := c.tally.mxStall + 1 } })) ∧
    (∀ (s : State) (core : CoreId) (f : MxFeedFields) (c : CoreSt), s.dev.core core = c →
      f.acc ≠ 3 → 0 < f.count.toNat → f.count.toNat ≤ 4096 → (f.srcsel = true → f.voff = 0) →
      (s.issues core = true → c.mxQ.length < 2 → CoreActs (.mxFeed core f) core s fun t => t = { c with
        issued := true, mxQ := c.mxQ ++ [.feed f (((c.sreg f.sreg.toNat).toNat + f.roff.toNat) % 2 ^ 32) c.seq] }) ∧
      (s.atIssue core = true → 2 ≤ c.mxQ.length → CoreActs (.mxFeed core f) core s fun t =>
        t = { c with tally := { c.tally with mxStall := c.tally.mxStall + 1 } }))) ∧
  ((∀ (s : State) (core : CoreId) (c : CoreSt) (f : MxLoadFields) (base seq : Nat) (rest : List MxOp), s.dev.core core = c →
      s.dev.coreRuns core = true → c.mxQ = .load f base seq :: rest → c.loading = none → f.srcsel = false →
      (∀ i, i < mxImageRows f.wfmt.toNat → graValid ((base + i) % 2 ^ 32) = true ∧ graSpace ((base + i) % 2 ^ 32) = 0 ∧
        graCoreId ((base + i) % 2 ^ 32) = core.val ∧ s.clean ((base + i) % 2 ^ 32) = true) →
      CoreActs (.mxLoadStart core) core s fun t =>
        let p : MxPlane := ⟨(List.range (mxImageRows f.wfmt.toNat)).map (fun i => readRow s.mem ((base + i) % 2 ^ 32)), f.wfmt, f.afmt, f.trans⟩
        t = { c with
          mxQ := rest, loading := some seq, loadRun := none, loadStore := false, loadStageA := t.loadStageA, loadStageB := t.loadStageB,
          tally := t.tally, cells := c.cells.mend (.plane (!c.activeB)),
          planeA := if c.activeB then p else c.planeA, planeB := if c.activeB then c.planeB else p }) ∧
    (∀ (s : State) (core : CoreId) (c : CoreSt) (held : Nat), s.dev.core core = c → s.dev.coreRuns core = true →
      c.loading.isSome = true → c.loadRun = none → c.mxQ = [] →
      CoreActs (.mxLoadComplete core held) core s fun t =>
        t = { c with loading := none, tally := { c.tally with mxStall := c.tally.mxStall + BitVec.ofNat 64 (if c.loadStore then held else 0) } })) ∧
  ((∀ (s : State) (core : CoreId) (c : CoreSt) (f : MxFeedFields) (base seq : Nat) (rest : List MxOp), s.dev.core core = c →
      s.dev.coreRuns core = true → c.mxQ = .feed f base seq :: rest → c.feedRun = none → c.loading = none → f.count = 0 → f.swap = true →
      CoreActs (.mxFeedStart core) core s fun t => t = { c with mxQ := rest, swapNext := true }) ∧
    (∀ (s : State) (core : CoreId) (c : CoreSt) (f : MxFeedFields) (base seq : Nat) (rest : List MxOp), s.dev.core core = c →
      s.dev.coreRuns core = true → c.sound = true → c.mxQ = .feed f base seq :: rest → c.feedRun = none → c.swapNext = false → f.swap = false →
      f.count = 1 → f.srcsel = false → c.feedStage = none → c.feedAhead = none → c.stream.length < 127 → mxClass c.active.afmt.toNat ≠ 1 →
      ∀ g, g = (base + vecRow (mxClass c.active.afmt.toNat) f.voff.toNat) % 2 ^ 32 → graValid g = true → graSpace g = 0 →
      graCoreId g = core.val → s.clean g = true →
      CoreActs (.mxFeedStart core) core s fun t => ∃ v : StreamVec,
        t = { c with mxQ := rest, stream := c.stream ++ [v], tally := t.tally, feedStage := some ⟨g, readRow s.mem g⟩ } ∧
        v.raw = vecRaw (mxClass c.active.afmt.toNat) f.voff.toNat (readRow s.mem g) ∧ v.plane = c.active ∧ v.acc = f.acc ∧
        v.half = f.half ∧ v.entry = f.entry.toNat ∧ v.seq = seq))

/-- GATE makes its core arrive and wait (11 R354); KBEGIN drops the staging rows (06 R205, R207); KEND and SETTLE let a settled core
go on and make another wait (R208, R209), until SETTLE_DONE or KEND_DONE finds it settled. PUBLISH and RELEASE enter the release
queue of four; a RELEASE carries the row and the device that its register named at issue (06 R210, R211). The oldest entry
retires once every write it covers has landed: a PUBLISH then advances its ring's TAIL, and no byte outside the row of that
descriptor changes (05 R179; 06 R210). An ACQUIRE of a satisfied semaphore of the core's own store completes at issue and is
counted in the row; one that is not satisfied waits. An increment that satisfies it, or G cycles, end the wait with the cycles
added to WAITED (06 R213, R214). Only the semaphore's row changes. -/
def Obligations.SyncOperationsWaitAndAccount : Prop :=
  ((∀ (s : State) (core : CoreId) (sl : Slice), s.gxIssues core = true → s.dev.sliceOf (core.val / 8) = some sl →
      Acts (.gxGate core) s fun d =>
        d.core core = { s.dev.core core with issued := true, wait := .gate } ∧ (∀ k, k ≠ core.val → d.core k = s.dev.core k) ∧
        (∀ x, d.slice? sl.id = some x → core.val ∈ x.arrived) ∧ Keeps [.cores, .slices] s.dev d ∧ KeepsRegs [] s.dev d) ∧
    (∀ (s : State) (core : CoreId) (c : CoreSt), s.dev.core core = c → s.gxIssues core = true →
      (CoreActs (.gxKbegin core) core s fun t => t = { c with issued := true, feedStage := none, feedAhead := none, loadStageA := none, loadStageB := none, stageA := none, stageB := none }) ∧
      (CoreActs (.gxKend core) core s fun t =>
        t = if settled c 0xF c.seq = true ∧ c.relQ = [] then { c with issued := true } else { c with issued := true, wait := .kend c.seq }) ∧
      (∀ eng, CoreActs (.gxSettle core eng) core s fun t =>
        t = if settled c eng c.seq = true then { c with issued := true } else { c with issued := true, wait := .settle eng c.seq })) ∧
    (∀ (s : State) (core : CoreId) (c : CoreSt), s.dev.core core = c →
      (∀ eng b, c.wait = .settle eng b → settled c eng b = true →
        CoreActs (.settleDone core) core s fun t => t = { c with wait := .none }) ∧
      (∀ b, c.wait = .kend b → settled c 0xF b = true → c.relQ = [] →
        CoreActs (.kendDone core) core s fun t => t = { c with wait := .none }))) ∧
  ((∀ (s : State) (core : CoreId) (c : CoreSt), s.dev.core core = c → s.gxIssues core = true → c.relQ.length < 4 →
      (∀ ring : RingId, CoreActs (.gxPublish core ring) core s fun t => t = { c with issued := true, relQ := c.relQ ++ [.publish ring.val c.seq] }) ∧
      (∀ (sreg : BitVec 5) (soff : BitVec 12), CoreActs (.gxRelease core sreg soff) core s fun t =>
        t = { c with issued := true, relQ := c.relQ ++ [.release (((c.sreg sreg.toNat).toNat + soff.toNat) % 2 ^ 32)
          ((c.sreg sreg.toNat).toNat / 2 ^ 32 % 4096) c.seq] })) ∧
    (∀ (s : State) (core : CoreId) (c : CoreSt) (ring b : Nat) (rest : List RelEntry), s.dev.core core = c →
      memWf s.mem = true → ring < 32 → c.relQ = .publish ring b :: rest → settled c 0xF b = true →
      ringOcc (ringDesc s core ring) ≠ ringSlots (ringDesc s core ring) →
      Ends (.releaseQueueRetire core) s fun t =>
        t.dev = s.dev.setCore core { c with relQ := rest } ∧
        ringTail (ringDesc t core ring) = (ringTail (ringDesc s core ring) + 1) % 65536 ∧
        ringHead (ringDesc t core ring) = ringHead (ringDesc s core ring) ∧
        ∀ a, a / 512 ≠ coreStateGra core (ring / 16) → memByte t.mem a = memByte s.mem a)) ∧
  ((∀ (s : State) (core : CoreId) (c : CoreSt) (sreg : BitVec 5) (soff : BitVec 12) (g : Nat), s.dev.core core = c →
      s.gxIssues core = true → memWf s.mem = true → g = ((c.sreg sreg.toNat).toNat + soff.toNat) % 2 ^ 32 →
      graValid g = true → graSpace g = 1 → graCluster g = core.val / 8 → s.clean g = true →
      Ends (.gxAcquire core sreg soff) s fun t =>
        if semOk (semCount (readRow s.mem g)) ((c.sreg sreg.toNat).toNat / 2 ^ 48) = true then
          t.dev = s.dev.setCore core { c.dropStaging with issued := true, wait := .none } ∧
          semCount (readRow t.mem g) = semCount (readRow s.mem g) ∧
          bits (readRow t.mem g).toNat 95 64 = (bits (readRow s.mem g).toNat 95 64 + 1) % 2 ^ 32 ∧
          bits (readRow t.mem g).toNat 191 128 = bits (readRow s.mem g).toNat 191 128 ∧
          ∀ a, a / 512 ≠ g → memByte t.mem a = memByte s.mem a
        else t.mem = s.mem ∧ t.dev = s.dev.setCore core { c with
          issued := true, wait := .acquire g (BitVec.ofNat 16 ((c.sreg sreg.toNat).toNat / 2 ^ 48)) false }) ∧
    (∀ (s : State) (core : CoreId) (c : CoreSt) (g : Nat) (want : BitVec 16) (waited : BitVec 64), s.dev.core core = c →
      memWf s.mem = true → c.wait = .acquire g want true → s.clean g = true →
      Ends (.acquireSatisfied core waited) s fun t =>
        t.dev = s.dev.setCore core { c.dropStaging with wait := .none } ∧
        bits (readRow t.mem g).toNat 191 128 = (bits (readRow s.mem g).toNat 191 128 + waited.toNat) % 2 ^ 64 ∧
        bits (readRow t.mem g).toNat 127 96 = bits (readRow s.mem g).toNat 127 96 ∧
        ∀ a, a / 512 ≠ g → memByte t.mem a = memByte s.mem a) ∧
    (∀ (s : State) (core : CoreId) (c : CoreSt) (g : Nat) (want : BitVec 16) (met : Bool) (sl : Slice), s.dev.core core = c →
      memWf s.mem = true → c.wait = .acquire g want met → s.clean g = true → s.dev.sliceOf (core.val / 8) = some sl →
      Ends (.acquireTimeout core) s fun t =>
        t.dev.core core = { c.dropStaging with wait := .none } ∧ (∀ k, k ≠ core.val → t.dev.core k = s.dev.core k) ∧
        bits (readRow t.mem g).toNat 127 96 = satAdd 32 (bits (readRow s.mem g).toNat 127 96) 1 ∧
        bits (readRow t.mem g).toNat 191 128 = (bits (readRow s.mem g).toNat 191 128 + sl.gCycles) % 2 ^ 64 ∧
        Keeps [.cores, .slices] s.dev t.dev ∧ KeepsRegs [] s.dev t.dev ∧
        ∀ a, a / 512 ≠ g → memByte t.mem a = memByte s.mem a))

/-- A VX operation that finds an earlier one at work enters the queue of two, with its predicate, its bases and its scalar operand
as read at issue; on a full queue the bundle waits and VX_STALL counts (04 R125, R126, R152). An operation on registers that
starts writes one thing, its destination, and that write lands later: until then every vector register, mask register and row of
memory reads as before. An operation whose predicate is false writes nothing and counts in PRED_OFF (04 R146, R149, R152, Table
4.11). DRAIN takes one row of the accumulator, its column scales and its bias, and writes one row of a register (04 R159): with
a direct destination and a source of one step, exactly that write is pending. The oldest queued operation starts when its engine
is free; a pending write then lands at its row, its register or its mask, oldest first. M0 is never written (04 R138, R152). -/
def Obligations.VectorResultsLandInOrder : Prop :=
  (∀ (s : State) (core : CoreId) (f : VxFields) (lost : Nat) (c : CoreSt), s.dev.core core = c →
      ∀ x ∈ vxSlotOps core ⟨f, lost⟩, vxFormOk x.1 f = true →
      (s.issues core = true → c.vxQ ≠ [] ∨ c.pendW ≠ [] → c.vxQ.length < 2 → CoreActs x.2 core s fun t =>
        ∃ q : VxOp, t = { c.predTick q.predOk with issued := true, vxQ := c.vxQ ++ [q] } ∧ q.op = x.1 ∧ q.f = f ∧ q.seq = c.seq ∧
          q.predOk = (c.pred f.pred.toNat != f.pneg) ∧ q.sval = (c.sreg (f.srca.toNat % 32)).toNat % 2 ^ 32) ∧
      (s.atIssue core = true → 2 ≤ c.vxQ.length → CoreActs x.2 core s fun t =>
        t = { c with issue := { c.issue with vxStall := c.issue.vxStall + 1 } })) ∧
  (∀ (s : State) (core : CoreId) (f : VxFields) (lost : Nat) (c : CoreSt), s.dev.core core = c → s.issues core = true → c.pendW = [] →
      c.vxQ = [] → vxAllDirect f = true → ∀ x ∈ vxSlotOps core ⟨f, lost⟩, vxFormOk x.1 f = true →
      ((c.pred f.pred.toNat != f.pneg) = true → CoreActs x.2 core s fun t =>
        ∃ row, t = { c.bankTick lost with issued := true, pendW := [⟨vxDest x.1 f, row, c.seq⟩], tally := t.tally, rng := t.rng }) ∧
      ((c.pred f.pred.toNat != f.pneg) = false → CoreActs x.2 core s fun t =>
        t = { (c.predTick false).bankTick lost with issued := true, tally := t.tally, rng := t.rng })) ∧
  (∀ (s : State) (core : CoreId) (f : VxFields) (lost : Nat) (c : CoreSt) (td : Td), s.dev.core core = c → s.issues core = true →
      c.pendW = [] → c.vxQ = [] → vxFormOk 0x10 f = true → f.dst.toNat < 32 → f.srcb.toNat < 32 → f.srcc.toNat < 32 →
      (c.pred f.pred.toNat != f.pneg) = true → td = tdOf (tdWord s core (f.srca.toNat - 32)) → td.loc = 2 → td.ty = 0 →
      td.n0 = 128 → td.n1 = 1 → td.n2 = 1 → td.n3 = 1 →
      CoreActs (.vxDrain core ⟨f, lost⟩) core s fun t =>
        ∃ row, t = { c.bankTick lost with issued := true, pendW := [⟨.vreg f.dst.toNat, row, c.seq⟩], tally := t.tally, rng := t.rng }) ∧
  ((∀ (s : State) (core : CoreId) (c : CoreSt) (q : VxOp) (rest : List VxOp), s.dev.core core = c → s.dev.coreRuns core = true →
      c.sound = true → c.vxQ = q :: rest → q.predOk = true → vxAllDirect q.f = true → q.op ∈ (vxSlotOps core ⟨q.f, 0⟩).map Prod.fst → vxFormOk q.op q.f = true →
      ∀ lost, CoreActs (.vxStart ⟨core, lost⟩) core s fun t => ∃ row,
        t = { c.bankTick lost with vxQ := rest, pendW := c.pendW ++ [⟨vxDest q.op q.f, row, q.seq⟩], tally := t.tally, rng := t.rng }) ∧
    (∀ (s : State) (core : CoreId) (c : CoreSt) (row : RowData) (seq : Nat) (rest : List PendW), s.dev.core core = c →
      (∀ g, c.pendW = ⟨.mem g, row, seq⟩ :: rest → memWf s.mem = true → Ends (.vxWriteLand core) s fun t =>
        t.dev = s.dev.setCore core { c with pendW := rest } ∧ readRow t.mem g = row ∧
        ∀ a, a / 512 ≠ g → memByte t.mem a = memByte s.mem a) ∧
      (∀ i, c.pendW = ⟨.vreg i, row, seq⟩ :: rest → CoreActs (.vxWriteLand core) core s fun t =>
        t = { c with pendW := rest, v := t.v, cells := c.cells.mend (.vreg i) } ∧ mapGet (fun _ => 0) t.v i = row ∧
        ∀ k, k ≠ i → mapGet (fun _ => 0) t.v k = mapGet (fun _ => 0) c.v k) ∧
      (∀ i, c.pendW = ⟨.mreg i, row, seq⟩ :: rest → CoreActs (.vxWriteLand core) core s fun t =>
        t = { c with pendW := rest, m := t.m, cells := if i = 0 then c.cells else c.cells.mend (.mreg i) } ∧ (i = 0 → t.m = c.m) ∧ (i ≠ 0 → mapGet (fun _ => 0) t.m i = row.setWidth 256) ∧
        ∀ k, k ≠ i → mapGet (fun _ => 0) t.m k = mapGet (fun _ => 0) c.m k)))

/-- Integer lanes saturate at the 32-bit range; minimum, maximum and magnitude are signed; SPLAT copies the scalar, SEL picks by the
mask, and CMP sets one mask bit per lane (04 R153, R154, R155, Table 4.7). The cycles that an operation's accesses lost count in BANK_STALL
(05 R172). -/
def Obligations.IntegerLanesSaturate : Prop :=
  ∀ (s : State) (core : CoreId) (f : VxFields) (lost : Nat) (c : CoreSt), s.dev.core core = c → s.issues core = true → c.pendW = [] →
    c.vxQ = [] → vxAllDirect f = true → f.ty = 2 → (c.pred f.pred.toNat != f.pneg) = true →
    let a := laneInt (mapGet (fun _ => 0) c.v f.srca.toNat)
    let b := laneInt (mapGet (fun _ => 0) c.v f.srcb.toNat)
    let gives := fun (i : Instr) (lane : Nat → Int) => CoreActs i core s fun t => ∃ row,
      t = { c.bankTick lost with issued := true, pendW := [⟨.vreg f.dst.toNat, row, c.seq⟩], tally := t.tally } ∧ ∀ j, j < 128 → laneInt row j = lane j
    (f.mreg = 0 → vxFormOk 0x01 f = true →
      gives (.vxAdd core ⟨f, lost⟩) (fun j => clampInt (a j + b j)) ∧ gives (.vxSub core ⟨f, lost⟩) (fun j => clampInt (a j - b j)) ∧
      gives (.vxMul core ⟨f, lost⟩) (fun j => clampInt (a j * b j)) ∧ gives (.vxMin core ⟨f, lost⟩) (fun j => min (a j) (b j)) ∧
      gives (.vxMax core ⟨f, lost⟩) (fun j => max (a j) (b j))) ∧
    (f.mreg = 0 → vxFormOk 0x07 f = true → gives (.vxAbs core ⟨f, lost⟩) (fun j => clampInt (max (a j) (-a j)))) ∧
    (f.mreg = 0 → vxFormOk 0x0D f = true → gives (.vxSplat core ⟨f, lost⟩) (fun _ =>
      (BitVec.ofNat 32 (c.sreg f.srca.toNat).toNat).toInt)) ∧
    (f.mreg ≠ 0 → vxFormOk 0x0C f = true → gives (.vxSel core ⟨f, lost⟩) (fun j =>
      if (mapGet (fun _ => 0) c.m f.mreg.toNat).getLsbD j then a j else b j)) ∧
    (f.mreg = 0 → vxFormOk 0x0B f = true → CoreActs (.vxCmp core ⟨f, lost⟩) core s fun t => ∃ row,
      t = { c.bankTick lost with issued := true, pendW := [⟨.mreg f.dst.toNat, row, c.seq⟩], tally := t.tally } ∧ ∀ j, j < 128 →
        row.getLsbD j = (match f.fn.toNat with
          | 0 => decide (a j = b j) | 1 => decide (a j ≠ b j) | 2 => decide (a j < b j) | 3 => decide (a j ≤ b j)
          | 4 => decide (b j < a j) | _ => decide (b j ≤ a j)))

/-- DX.RUN puts its descriptor, with both offsets as read at issue, into a queue of eight; on a full queue the bundle waits and
DX_WAIT counts (05 R183, R184). A descriptor whose rows have moved and whose replies have landed leaves its queue (R183, R194).
Cycles in which the engine's requests lost a bank or a port count in BANK_LOSS (R172). COPY moves one row to the row
that its strides name, FILL writes its pattern into every 32-bit word of one; no other byte changes, and ROWS_MOVED counts the
row (05 R186, Table 5.12). A write that meets an engine read of its row is deferred and counts in BANK_LOSS; memory stays until
it takes its turn (R174). -/
def Obligations.DescriptorsMoveWholeRows : Prop :=
  ((∀ (s : State) (core : CoreId) (f : DxFields) (c : CoreSt), s.dev.core core = c →
      (s.issues core = true → (c.queue f.queue).length < 8 →
        CoreActs (.dxRun core f) core s fun t =>
        ∃ e : DmaEntry, t = ({ c with issued := true } : CoreSt).setQueue f.queue (c.queue f.queue ++ [e]) ∧ e.idx = f.desc.toNat ∧
          e.d = BitVec.ofNat 256 ((readRow s.mem (coreStateGra core (4 + f.desc.toNat / 16))).toNat / 2 ^ (256 * (f.desc.toNat % 16))) ∧
          e.dst = (c.sreg f.dreg.toNat).toNat % 2 ^ 32 ∧ (ddOpc e ≠ 2 → e.src = (c.sreg f.sreg.toNat).toNat % 2 ^ 32) ∧ e.seq = c.seq) ∧
      (s.atIssue core = true → 8 ≤ (c.queue f.queue).length → CoreActs (.dxRun core f) core s fun t =>
        t = { c with dctr := { c.dctr with dxWait := c.dctr.dxWait + 1 } })) ∧
    (∀ (s : State) (core : CoreId) (q : Fin 4) (c : CoreSt) (e : DmaEntry) (rest : List DmaEntry), s.dev.core core = c →
      c.queue q = e :: rest → ddTotal e ≤ (c.run q).done → (∀ d ∈ c.deferred, d.queue ≠ some q.val) →
      (∀ o ∈ c.outst, o.reply = true → o.queue ≠ q.val) →
      CoreActs (.dmaDescriptorDone core q) core s fun t => t = (c.setQueue q rest).setRun q {})) ∧
  ((∀ (s : State) (core : CoreId) (q : Fin 4) (e : DmaEntry) (src dst : Nat), memWf s.mem = true → plainMove s core q 1 e →
      src = strideRow (ddSrc e) ((s.dev.core core).run q).done (ddSstr e) → dst = strideRow (ddDst e) ((s.dev.core core).run q).done (ddDstr e) →
      ownRow core src = true → ownRow core dst = true → s.clean src = true →
      ∀ lost, Ends (.dmaCopy core q 1 ⟨false, lost⟩) s fun t => ∃ k, t.dev = s.dev.setCore core k ∧
        (k.run q).done = ((s.dev.core core).run q).done + 1 ∧ k.dctr.rowsMoved = (s.dev.core core).dctr.rowsMoved + 1 ∧
        k.dctr.bankLoss = (s.dev.core core).dctr.bankLoss + BitVec.ofNat 64 lost ∧
        k = { (s.dev.core core).setRun q (k.run q) with
          dctr := { (s.dev.core core).dctr with rowsMoved := k.dctr.rowsMoved, bankLoss := k.dctr.bankLoss } } ∧
        readRow t.mem dst = readRow s.mem src ∧ OnlyRow s.mem t.mem dst) ∧
    (∀ (s : State) (core : CoreId) (q : Fin 4) (e : DmaEntry) (dst : Nat), memWf s.mem = true → plainMove s core q 2 e →
      dst = strideRow (ddDst e) ((s.dev.core core).run q).done (ddDstr e) → ownRow core dst = true →
      ∀ lost, Ends (.dmaFill core q 1 ⟨false, lost⟩) s fun t => ∃ k, t.dev = s.dev.setCore core k ∧
        (k.run q).done = ((s.dev.core core).run q).done + 1 ∧ k.dctr.rowsMoved = (s.dev.core core).dctr.rowsMoved + 1 ∧
        k.dctr.bankLoss = (s.dev.core core).dctr.bankLoss + BitVec.ofNat 64 lost ∧
        k = { (s.dev.core core).setRun q (k.run q) with
          dctr := { (s.dev.core core).dctr with rowsMoved := k.dctr.rowsMoved, bankLoss := k.dctr.bankLoss } } ∧
        (∀ j, j < 128 → ((readRow t.mem dst).toNat / 2 ^ (32 * j)) % 2 ^ 32 = ddPattern e) ∧ OnlyRow s.mem t.mem dst) ∧
    (∀ (s : State) (core : CoreId) (q : Fin 4) (n : Nat) (e : DmaEntry) (src dst : Nat), plainMove s core q 1 e →
      src = strideRow (ddSrc e) ((s.dev.core core).run q).done (ddSstr e) → dst = strideRow (ddDst e) ((s.dev.core core).run q).done (ddDstr e) →
      ownRow core src = true → s.clean src = true →
      ∀ lost, CoreActs (.dmaCopy core q n ⟨true, lost⟩) core s fun k =>
        k.deferred = (s.dev.core core).deferred ++ [⟨dst, readRow s.mem src, some q.val, none, none⟩] ∧
        k.dctr.bankLoss = (s.dev.core core).dctr.bankLoss + BitVec.ofNat 64 lost + 1 ∧ k.dctr.rowsMoved = (s.dev.core core).dctr.rowsMoved) ∧
    (∀ (s : State) (core : CoreId) (q : Fin 4) (gra : Nat) (row : RowData) (rest : List Deferred), memWf s.mem = true →
      (s.dev.core core).deferred = ⟨gra, row, some q.val, none, none⟩ :: rest → ownRow core gra = true →
      Ends (.deferredWrite core) s fun t => ∃ k, t.dev = s.dev.setCore core k ∧ k.deferred = rest ∧
        k.dctr.rowsMoved = (s.dev.core core).dctr.rowsMoved + 1 ∧ readRow t.mem gra = row ∧ OnlyRow s.mem t.mem gra))

/-- WRITE, SUMWRITE and MCAST send rows as a whole packet of their operation, with the destination row, the queue and its SEQ in the
header: up to eight rows where DSTR is 1, and one row otherwise. Flits of a slice channel that leave later than their owned cycles count in
CHAN_DEFER (07 R233). READ sends a request that names the rows to read and
the row to write. The packet counts as outstanding until it is answered, and no row of memory changes (05 R185, R188, R189; 07
R241, R246). A queue that waits for a slot of a ring goes on when the slot is ready (05 R181); so does a LOAD, which then reads the whole slot and releases it,
with each cycle of its wait counted in EMPTY_WAIT (03 R120; 05 R181). A consumer that has waited G
cycles reads the slot as it stands, with an underflow counted for its ring; a producer writes it, with an overflow (R182). -/
def Obligations.DmaSendsPacketsAndWaits : Prop :=
  ((∀ (s : State) (core : CoreId) (q : Fin 4) (e : DmaEntry) (sl : Slice) (n dst lost late : Nat),
      s.dev.sliceOf (core.val / 8) = some sl → (s.dev.core core).outst.length < 1024 → s.dev.blocked (core.val / 8) (stopCl (core.val / 8)) = false →
      dst = strideRow (ddDst e) ((s.dev.core core).run q).done (ddDstr e) →
      ∀ x ∈ [(3, Instr.dmaWrite core q ⟨1, lost, late⟩, 0), (5, .dmaSumwrite core q ⟨1, lost, late⟩, 3), (6, .dmaMcast core q ⟨1, lost, late⟩, 4)],
        plainMove s core q x.1 e →
        n = (if ddDstr e = 1 then min 8 (ddRows e - ((s.dev.core core).run q).done) else 1) →
        injectCheck s core sl e (graCluster dst * 8 + graCore dst) n = .yes →
        (∀ i, i < n → ownRow core (strideRow (ddSrc e) (((s.dev.core core).run q).done + i) (ddSstr e)) = true ∧
          s.clean (strideRow (ddSrc e) (((s.dev.core core).run q).done + i) (ddSstr e)) = true) →
        Acts x.2.1 s fun d => ∃ (p : Packet) (k : CoreSt) (sls : List Slice),
          d = (({ s.dev.setCore core k with slices := sls, regs := d.regs } : Dev).send p) ∧ KeepsRegs [regAddr 7 0x30] s.dev d ∧
          d.reg (regAddr 7 0x30) = (if ddClass s e = 0 then (s.dev.reg (regAddr 7 0x30) + late) % 2 ^ 32 else s.dev.reg (regAddr 7 0x30)) ∧
          longOk p = true ∧
          (longHdr p.hdr).op = x.2.2 ∧ (longHdr p.hdr).slice = sl.id % 4096 ∧ (longHdr p.hdr).dchip = ddChip e ∧
          (longHdr p.hdr).gra = dst ∧ (longHdr p.hdr).len = 8 * n ∧ (longHdr p.hdr).score = core.val ∧ (longHdr p.hdr).squeue = q.val ∧
          (longHdr p.hdr).seq = mapGet (fun _ => 0) (s.dev.core core).pktSeq q % 65536 ∧
          flitRows n p.payload = (List.range n).map (fun i => readRow s.mem (strideRow (ddSrc e) (((s.dev.core core).run q).done + i) (ddSstr e))) ∧
          k.outst = (s.dev.core core).outst ++ [⟨q, mapGet (fun _ => 0) (s.dev.core core).pktSeq q, false, e.seq, none, none, ddChip e, gateLo sl, false⟩] ∧
          (k.run q).done = ((s.dev.core core).run q).done + n ∧
          k.dctr.rowsMoved = (s.dev.core core).dctr.rowsMoved + BitVec.ofNat 64 n) ∧
    (∀ (s : State) (core : CoreId) (q : Fin 4) (e : DmaEntry) (sl : Slice) (n src late : Nat), plainMove s core q 4 e →
      s.dev.sliceOf (core.val / 8) = some sl → (s.dev.core core).outst.length < 1024 → s.dev.blocked (core.val / 8) (stopCl (core.val / 8)) = false →
      src = strideRow (ddSrc e) ((s.dev.core core).run q).done (ddSstr e) →
      n = (if ddDstr e = 1 then min 8 (ddRows e - ((s.dev.core core).run q).done) else 1) →
      injectCheck s core sl e (graCluster src * 8 + graCore src) 0 = .yes →
      Acts (.dmaRead core q ⟨1, late⟩) s fun d => ∃ (p : Packet) (k : CoreSt) (sls : List Slice),
        d = (({ s.dev.setCore core k with slices := sls, regs := d.regs } : Dev).send p) ∧ KeepsRegs [regAddr 7 0x30] s.dev d ∧
        d.reg (regAddr 7 0x30) = (if ddClass s e = 0 then (s.dev.reg (regAddr 7 0x30) + late) % 2 ^ 32 else s.dev.reg (regAddr 7 0x30)) ∧
        longOk p = true ∧
        (longHdr p.hdr).op = 1 ∧ (longHdr p.hdr).dchip = ddChip e ∧ (longHdr p.hdr).gra = src ∧
        (longHdr p.hdr).reply = strideRow (ddDst e) ((s.dev.core core).run q).done (ddDstr e) ∧
        bits (longHdr p.hdr).oparg 22 19 = n ∧ (longHdr p.hdr).len = 0 ∧ p.payload = [] ∧
        k.outst = (s.dev.core core).outst ++ [⟨q, mapGet (fun _ => 0) (s.dev.core core).pktSeq q, true, e.seq, none, none, ddChip e, gateLo sl, false⟩] ∧
        (k.run q).done = ((s.dev.core core).run q).done + n)) ∧
  ((∀ (s : State) (core : CoreId) (ring : RingId) (q : Fin 4) (e : DmaEntry) (rest : List DmaEntry),
      (s.dev.core core).queue q = e :: rest → (∀ j, j < 4 → j ≠ q.val → (s.dev.core core).queue j = []) →
      ((s.dev.core core).run q).wait = 1 → ddSre e = true → ddSring e = ring.val → ddDre e = false →
      slotsAsked (s.dev.core core) q < ringOcc (ringDesc s core ring) →
      (s.dev.core core).feedAt ring = false → (s.dev.core core).loadAt ring = false →
      ∀ waited, CoreActs (.ringWaitResolved core ⟨ring, waited⟩) core s fun t =>
        t = (s.dev.core core).setRun q { (s.dev.core core).run q with wait := 0 }) ∧
    (∀ (s : State) (core : CoreId) (ring : RingId) (c : CoreSt) (r : LoadRun) (waited : Nat), s.dev.core core = c → memWf s.mem = true →
      (∀ j, j < 4 → c.queue j = []) → c.feedRun = none → c.loadRun = some r → r.f.sreg.toNat = ring.val →
      ringOcc (ringDesc s core ring) ≠ 0 → ringKind (ringDesc s core ring) = 1 → isPullRing s.dev core ring = false → s.dev.net.held = [] →
      (∀ i, i < mxImageRows r.f.wfmt.toNat → let g := ringRow (ringDesc s core ring) (ringHead (ringDesc s core ring)) i
        graValid g = true ∧ graSpace g = 0 ∧ graCoreId g = core.val ∧ s.clean g = true) →
      Ends (.ringWaitResolved core ⟨ring, waited⟩) s fun t =>
        let p : MxPlane := ⟨(List.range (mxImageRows r.f.wfmt.toNat)).map
          (fun i => readRow s.mem (ringRow (ringDesc s core ring) (ringHead (ringDesc s core ring)) i)), r.f.wfmt, r.f.afmt, r.f.trans⟩
        (t.dev.core core).loadRun = none ∧ (if c.activeB then (t.dev.core core).planeA else (t.dev.core core).planeB) = p ∧
        mapGet (fun _ => 0) (t.dev.core core).dctr.emptyWait ring = satAdd 32 (mapGet (fun _ => 0) c.dctr.emptyWait ring) (waited - 1) ∧
        ringHead (ringDesc t core ring) = (ringHead (ringDesc s core ring) + 1) % 65536 ∧
        OnlyRow s.mem t.mem (coreStateGra core (ring / 16)) ∧ (∀ j, j ≠ core.val → t.dev.core j = s.dev.core j) ∧
        Keeps [.cores] s.dev t.dev ∧ KeepsRegs [] s.dev t.dev) ∧
    (∀ (s : State) (core : CoreId) (ring : RingId) (q : Nat), (s.dev.core core).feedAt ring = false → (s.dev.core core).loadAt ring = false → q < 4 →
      waitsAsConsumer s core q ring.val = true → (∀ j, j < q → waitsAsConsumer s core j ring.val = false) →
      Acts (.ringUnderflow core ring) s fun d =>
        (d.core core).dctr.underflows.toNat = satAdd 32 (s.dev.core core).dctr.underflows.toNat 1 ∧
        (d.core core).dctr.underRings.getLsbD ring.val = true ∧ ((d.core core).run q).wait = 0 ∧ ((d.core core).run q).forcedSrc = true ∧
        (∀ j, j ≠ core.val → d.core j = s.dev.core j) ∧ Keeps [.cores, .slices] s.dev d ∧ KeepsRegs [] s.dev d) ∧
    (∀ (s : State) (core : CoreId) (q : Fin 4) (ring : RingId), waitsAsProducer s core q = some ring.val →
      Acts (.ringOverflow core q) s fun d =>
        (d.core core).dctr.overflows.toNat = satAdd 32 (s.dev.core core).dctr.overflows.toNat 1 ∧
        (d.core core).dctr.overRings.getLsbD ring.val = true ∧ ((d.core core).run q).wait = 0 ∧ ((d.core core).run q).forcedDst = true ∧
        (∀ j, j ≠ core.val → d.core j = s.dev.core j) ∧ Keeps [.cores, .slices] s.dev d ∧ KeepsRegs [] s.dev d))

/-- A whole write of one row that its cluster takes lands: that row of memory holds the payload, no other byte changes, and an
acknowledgement with STATUS 0 goes back (07 R241, R244); a slice-channel flit that crossed late counts in CROSS_LATE and CHAN_DEFER,
with its event (11 R368). A reply to a read lands in its turn in the core's own memories, and its request is outstanding no more (R246). An
atomic add that the slice's quota at its stop admits writes the sum of the row and the payload (08 R278; 07 R236). A read request of one clean row
is answered by one reply that carries the row to the address the request names (07 R246); a reply that the express quota does not
admit waits, and counts in QUOTA_WAIT (07 R237). -/
def Obligations.DeliveredRowsLand : Prop :=
  ((∀ (s : State) (p : Packet) (trip : Trip) (h : LongHdr), h = longHdr p.hdr → memWf s.mem = true → s.carries p 0 = true →
      s.arrives (h.dcl * 8 + h.dcore) p = true → s.dev.openWay h = true →
      s.dev.accepts h.dcl h.slice h.gen = true → h.len = 8 → h.score < 576 → h.schip = s.dev.coord →
      pktRowOk s.dev h.dcl h.gra = true → (∀ k, k < 32 → ringKind (ringDesc s (h.dcl * 8 + h.dcore) k) ≠ 2) →
      Ends (.packetWrite p false trip) s fun t =>
        [readRow t.mem h.gra] = flitRows 1 p.payload ∧ OnlyRow s.mem t.mem h.gra ∧
        (∃ a, isAck a h 0 ∧ t.dev = { (s.dev.arrived h trip).oweCredit h with net := { s.dev.net with flight := s.dev.without p ++ [a] } }) ∧
        (h.cls = 0 → trip.crossLate ≠ [] → t.dev.reg (regAddr 11 0x20) = satAdd 32 (s.dev.reg (regAddr 11 0x20)) trip.crossLate.length ∧
          t.dev.reg (regAddr 7 0x30) = (s.dev.reg (regAddr 7 0x30) + trip.crossLate.length) % 2 ^ 32 ∧ t.dev.saw 11 7 = true)) ∧
    (∀ (s : State) (p : Packet) (trip : Trip) (core : Nat) (h : LongHdr), h = longHdr p.hdr → core = h.dcl * 8 + h.dcore → memWf s.mem = true →
      s.carries p 2 = true → s.arrives core p = true → replyTurn (s.dev.core core) h = true → s.dev.openWay h = true →
      s.dev.accepts h.dcl h.slice h.gen = true → h.len = 8 → h.score < 1024 → h.schip = s.dev.coord → ownRow core h.gra = true →
      (∀ o ∈ (s.dev.core core).outst, o.pub = none ∧ o.rel = none) →
      Ends (.packetReadReply ⟨p, trip⟩ false) s fun t =>
        [readRow t.mem h.gra] = flitRows 1 p.payload ∧ OnlyRow s.mem t.mem h.gra ∧
        (t.dev.core core).outst = eraseFirst (fun o => o.reply && o.queue == h.squeue && o.seq == h.seq) (s.dev.core core).outst ∧
        (t.dev.core core).dctr.rowsMoved = (s.dev.core core).dctr.rowsMoved + 1 ∧
        (∃ a, isAck a h 0 ∧ t.dev.net.flight = s.dev.without p ++ [a]) ∧
        Keeps [.net, .cores, .slices, .sessions] s.dev t.dev ∧ KeepsRegs arriveRegs s.dev t.dev) ∧
    (∀ (s : State) (p : Packet) (h : LongHdr), h = longHdr p.hdr → memWf s.mem = true → s.carries p 3 = true → h.cls = 3 →
      s.dev.stopAdmits (ringStop h.dcl) p = true → s.dev.addFirst p = true → s.dev.openWay h = true →
      s.dev.accepts h.dcl h.slice h.gen = true → h.len = 8 → h.score < 1024 → h.schip = s.dev.coord →
      pktRowOk s.dev h.dcl h.gra = true → s.clean h.gra = true →
      Ends (.atomicAdd p) s fun t =>
        [readRow t.mem h.gra] = flitRows 1 (sumPayload (bitAt h.oparg 10) (rowFlits [readRow s.mem h.gra]) p.payload).1 ∧
        OnlyRow s.mem t.mem h.gra ∧ (∃ a, isAck a h 0 ∧ t.dev.net.flight = s.dev.without p ++ a :: s.dev.addNext (ringStop h.dcl)) ∧
        Keeps [.net, .cores, .fab] s.dev t.dev ∧ KeepsRegs [] s.dev t.dev)) ∧
  ((∀ (s : State) (p : Packet) (trip : Trip) (wait : Nat) (h : LongHdr), h = longHdr p.hdr → s.carries p 1 = true →
      s.arrives (h.dcl * 8 + h.dcore) p = true → replyCheck s h = .yes → s.dev.openWay h = true →
      s.dev.accepts h.dcl h.slice h.gen = true → bits h.oparg 22 19 = 1 → h.schip = s.dev.coord → h.gra < 2 ^ 32 →
      pktRowOk s.dev h.dcl h.gra = true → s.clean h.gra = true →
      Acts (.packetReadRequest ⟨p, trip, wait⟩) s fun d => ∃ r : Packet,
        d.net.flight = s.dev.without p ++ [r] ∧ longOk r = true ∧
        (longHdr r.hdr).op = 2 ∧ (longHdr r.hdr).gra = h.reply ∧ (longHdr r.hdr).seq = h.seq ∧ (longHdr r.hdr).len = 8 ∧
        (longHdr r.hdr).squeue = h.squeue ∧ (longHdr r.hdr).gate = (s.dev.sliceOf h.dcl).elim 0 gateLo ∧
        flitRows 1 r.payload = [readRow s.mem h.gra] ∧
        (d.core (h.dcl * 8 + h.dcore)).served = (s.dev.core (h.dcl * 8 + h.dcore)).served ++ [(h.schip, h.seq, (longHdr r.hdr).gate)] ∧
        (h.cls = 0 → d.reg (regAddr 7 0x30) = (s.dev.reg (regAddr 7 0x30) + trip.crossLate.length + wait) % 2 ^ 32) ∧
        (expressReply h.cls = true → (d.core (h.dcl * 8 + h.dcore)).quotaRep = (s.dev.core (h.dcl * 8 + h.dcore)).quotaRep + 9) ∧
        Keeps [.net, .cores, .slices, .sessions] s.dev d ∧ KeepsRegs arriveRegs s.dev d) ∧
    (∀ (s : State) (p : Packet) (trip : Trip) (wait : Nat) (h : LongHdr), h = longHdr p.hdr → s.carries p 1 = true →
      s.arrives (h.dcl * 8 + h.dcore) p = true → replyCheck s h = .quota → Acts (.packetReadRequest ⟨p, trip, wait⟩) s fun d =>
        d.reg (regAddr 7 0x2C) = (s.dev.reg (regAddr 7 0x2C) + 1) % 2 ^ 32 ∧ Keeps [] s.dev d ∧ KeepsRegs [regAddr 7 0x2C] s.dev d))

/-- A packet whose slice or generation is not that of the cluster it reaches writes nothing: it is counted and answered with STATUS
3 (08 R297, Table 8.13). One for CLUSTER 72 to 127 is answered with STATUS 2, and each of its rows counted (02 R76; 10 R348). A packet of an invalid form is dropped at the first router and counted (07 R240). An N4 short write
writes nothing and is answered with STATUS 5 (R245). A transit frame goes on along the edge ring by the shorter direction, its flits counted in
TRANSIT, and never enters the mesh (R264). -/
def Obligations.BadPacketsWriteNothing : Prop :=
  (∀ (s : State) (p : Packet) (trip : Trip) (wait : Nat) (h : LongHdr), h = longHdr p.hdr → h.schip = s.dev.coord → h.score < 1024 →
      s.dev.openWay h = true → h.dcl < 72 → s.dev.fenced (clHalf h.dcl) = false → s.dev.routerFailed h.dcl = false → s.dev.fld (fClState h.dcl) ≠ 3 →
      ¬(s.dev.fld (fClState h.dcl) = 1 ∧ s.dev.fld (fClSlice h.dcl) = h.slice ∧ s.dev.fld (fClGen h.dcl) = h.gen) →
      ∀ x ∈ [(0, Instr.packetWrite p false trip), (1, .packetReadRequest ⟨p, trip, wait⟩), (2, .packetReadReply ⟨p, trip⟩ false), (3, .atomicAdd p)],
        s.carries p x.1 = true → (x.1 < 3 → s.arrives (h.dcl * 8 + h.dcore) p = true) → (x.1 = 1 → replyCheck s h = .yes) →
        (x.1 = 2 → replyTurn (s.dev.core (h.dcl * 8 + h.dcore)) h = true) →
        (x.1 = 3 → h.cls = 3 ∧ s.dev.stopAdmits (ringStop h.dcl) p = true ∧ s.dev.addFirst p = true) → Acts x.2 s fun d =>
          (∃ a, isAck a h 3 ∧ d.net.flight = s.dev.without p ++ a :: (if x.1 = 3 then s.dev.addNext (ringStop h.dcl) else [])) ∧
          d.reg (regAddr 8 0x14) = satAdd 32 (s.dev.reg (regAddr 8 0x14)) 1 ∧
          Keeps [.net, .cores, .slices, .sessions, .fab] s.dev d ∧ KeepsRegs (regAddr 8 0x14 :: arriveRegs) s.dev d) ∧
  (∀ (s : State) (p : Packet) (trip : Trip) (h : LongHdr), h = longHdr p.hdr → h.schip = s.dev.coord → h.score < 1024 →
      s.dev.openWay h = true → 72 ≤ h.dcl → s.carries p 0 = true → s.arrives (h.dcl * 8 + h.dcore) p = true →
      Acts (.packetWrite p false trip) s fun d =>
        (∃ a, isAck a h 2 ∧ d.net.flight = s.dev.without p ++ [a]) ∧
        d.reg (regAddr 10 0x200) = satAdd 32 (s.dev.reg (regAddr 10 0x200)) (h.len / 8) ∧ Keeps [.net, .slices, .sessions] s.dev d ∧
        KeepsRegs (regAddr 10 0x200 :: regAddr 10 0x204 :: regAddr 10 0x208 :: (eventRegs 10 ++ arriveRegs)) s.dev d) ∧
  ((∀ (s : State) (p : Packet), s.inFlight p = true → badForm p = true → Acts (.packetInvalidForm p) s fun d =>
      d.net = { s.dev.net with flight := s.dev.without p } ∧ d.reg (regAddr 7 0x28) = satAdd 32 (s.dev.reg (regAddr 7 0x28)) 1 ∧
      Keeps [.net] s.dev d ∧ KeepsRegs [regAddr 7 0x28] s.dev d) ∧
    (∀ (s : State) (f : Flit), s.carriesShort f 3 = true → (shortPkt f).schip = s.dev.coord →
      s.dev.blocked (shortPkt f).dcl ((idCl (shortPkt f).score).getD (shortPkt f).dcl) = false → Acts (.n4ShortWrite f) s fun d =>
      (∃ a : Packet, d.net = { s.dev.net with flight := s.dev.without ⟨f, []⟩ ++ [a] } ∧ (shortPkt a.hdr).sop = 0 ∧
        bits (shortPkt a.hdr).arg0 15 8 = 5 ∧ bits (shortPkt a.hdr).arg0 31 16 = bits (shortPkt f).arg0 31 16) ∧
      d.reg (regAddr 7 0x28) = satAdd 32 (s.dev.reg (regAddr 7 0x28)) 1 ∧ Keeps [.net] s.dev d ∧ KeepsRegs [regAddr 7 0x28] s.dev d) ∧
    (∀ (s : State) (a b : Port) (w : WaitFrame), firstByRank (s.dev.fab.wait.filter (s.dev.transitDue a b)) = some w →
      s.dev.ringTaken (portStop a) b (ringRank w) = false → Acts (.transitForward a b 1) s fun d =>
        d.fab.wait = mapIf (fun x => x == w) (fun x => { x with way := some (ringClockwise (portStop a) (portStop b)) }) s.dev.fab.wait ∧
        d.fab = { s.dev.fab with wait := d.fab.wait } ∧
        d.reg (regAddr 7 0x38) = (s.dev.reg (regAddr 7 0x38) + frameLen w.fr) % 2 ^ 32 ∧
        Keeps [.fab] s.dev d ∧ KeepsRegs [regAddr 7 0x38] s.dev d))

/-- Short control packets at their cluster: an acknowledgement takes its packet from the outstanding ones, an increment raises COUNT
and RELEASES of its semaphore row by 1 and satisfies the ACQUIREs that wait for the new count, a ring credit moves the HEAD of the
mirror on; each changes nothing else (05 R178; 06 R212, R213; 07 R244). -/
def Obligations.ControlPacketsTakeEffect : Prop :=
  (∀ (s : State) (f : Flit) (k : ShortPkt), k = shortPkt f → s.carriesShort f 0 = true → k.dcl < 72 →
    s.dev.reaches k.schip k.score k.dcl = true →
    s.dev.accepts k.dcl k.slice k.gen = true → bits k.arg0 15 8 = 0 →
    (∀ x ∈ (s.dev.core (k.dcl * 8 + k.dcore)).served, x ≠ (k.schip, bits k.arg0 31 16, bits k.arg1 25 10)) →
    Acts (.packetAcknowledgement f) s fun d =>
      d.net = { s.dev.net with flight := s.dev.without ⟨f, []⟩ } ∧
      d.core (k.dcl * 8 + k.dcore) = { s.dev.core (k.dcl * 8 + k.dcore) with
        outst := eraseFirst (fun o => o.seq == bits k.arg0 31 16 && o.gate == bits k.arg1 25 10 && !o.reply && o.chip == k.schip)
          (s.dev.core (k.dcl * 8 + k.dcore)).outst } ∧
      (∀ j, j ≠ k.dcl * 8 + k.dcore → d.core j = s.dev.core j) ∧ Keeps [.net, .cores] s.dev d ∧ KeepsRegs [] s.dev d) ∧
  (∀ (s : State) (f : Flit) (k : ShortPkt) (old latency : Nat), k = shortPkt f → memWf s.mem = true → s.carriesShort f 1 = true →
    s.arrives (k.dcl * 8 + k.dcore) ⟨f, []⟩ = true → s.dev.reaches k.schip k.score k.dcl = true → s.clean k.arg0 = true →
    s.dev.accepts k.dcl k.slice k.gen = true → graSpace k.arg0 = 1 → pktRowOk s.dev k.dcl k.arg0 = true →
    old = (readRow s.mem k.arg0).toNat → Ends (.semaphoreIncrement ⟨f, latency⟩) s fun t =>
      let new := (readRow t.mem k.arg0).toNat
      bits new 15 0 = (bits old 15 0 + 1) % 2 ^ 16 ∧ bits new 63 32 = (bits old 63 32 + 1) % 2 ^ 32 ∧
      bits new 31 16 = bits old 31 16 ∧ bits new 4095 64 = bits old 4095 64 ∧
      OnlyRow s.mem t.mem k.arg0 ∧ t.dev.net = { s.dev.net with flight := s.dev.without ⟨f, []⟩ } ∧
      (∀ j want met, j / 8 = k.dcl → (s.dev.core j).wait = .acquire k.arg0 want met →
        t.dev.core j = { s.dev.core j with wait := .acquire k.arg0 want (met || semOk (bits new 15 0) want.toNat) }) ∧
      (∀ j, (∀ want met, (s.dev.core j).wait ≠ .acquire k.arg0 want met) → t.dev.core j = s.dev.core j) ∧
      Keeps [.net, .cores, .sessions] s.dev t.dev ∧ KeepsRegs arriveRegs s.dev t.dev) ∧
  (∀ (s : State) (f : Flit) (k : ShortPkt) (core ring : Nat), k = shortPkt f → memWf s.mem = true → s.carriesShort f 2 = true →
    s.arrives (k.dcl * 8 + k.dcore) ⟨f, []⟩ = true → s.dev.reaches k.schip k.score k.dcl = true →
    s.dev.accepts k.dcl k.slice k.gen = true → core = k.dcl * 8 + k.dcore → ring = bits k.arg0 31 27 →
    Ends (.ringCredit f) s fun t =>
      ringHead (ringDesc t core ring) = (ringHead (ringDesc s core ring) + bits k.arg0 15 0) % 65536 ∧
      ringTail (ringDesc t core ring) = ringTail (ringDesc s core ring) ∧ OnlyRow s.mem t.mem (coreStateGra core (ring / 16)) ∧
      t.dev = { s.dev with net := { s.dev.net with flight := s.dev.without ⟨f, []⟩ } })

/-- A contribution waits in its router's sum buffer until every input of the mask has one; the packet that leaves for the next router then
carries the payloads added in ascending rank, a NaN taken as 0 (07 R252); at its final destination its rows land. After G cycles the
contributions present leave, with SUM_TIMEOUT counted and reported (R254). A multicast packet goes on through each output of its router's tree
entry, to the inputs of the routers that these lead to (07 R257); at a leaf it writes the rows of the leaf core at the address that its header
gives, or into the tail slot of the leaf's ring (07 R257), and the one acknowledgement follows the last copy (R261). A copy held for a full ring
is delivered at its holdover release (R258); one held past the next gate raises a hold (R260). -/
def Obligations.SumsAndMulticastsComplete : Prop :=
  ((∀ (s : State) (cl : Cl) (inPort : Fin 12) (p : Packet) (x : TreeHop) (trip : Trip) (h : LongHdr) (mask out fmt other : Nat),
      h = longHdr p.hdr → s.treeAt cl (some inPort.val) p = some x →
      wholePkt p 3 = true → h.cls ≠ 3 → sumEntry s.dev cl h.slice (bits h.oparg 22 11) = some (mask, out, fmt) →
      bitAt mask inPort = true → other < 12 → bitAt mask other = true → other ≠ inPort.val →
      (∀ q ∈ s.dev.sumParts cl h.slice (bits h.oparg 22 11), q.1 ≠ other ∧ q.1 ≠ inPort.val) → sumHeld s.dev cl < 4 →
      Acts (.packetSumWrite cl inPort ⟨p, trip⟩) s fun d =>
        d.net = { (s.dev.takeHop x).net with sums := s.dev.otherSums cl h.slice (bits h.oparg 22 11) ++
          [⟨cl, h.slice, bits h.oparg 22 11, insertRank (inPort.val, p) (s.dev.sumParts cl h.slice (bits h.oparg 22 11))⟩] } ∧
        Keeps [.net, .sessions] s.dev d ∧ KeepsRegs arriveRegs s.dev d) ∧
    (∀ (s : State) (cl : Cl) (inPort : Fin 12) (p : Packet) (x : TreeHop) (trip : Trip) (h : LongHdr) (mask out fmt : Nat)
        (lead : Packet) (rest : List Packet),
      h = longHdr p.hdr → s.treeAt cl (some inPort.val) p = some x →
      wholePkt p 3 = true → h.cls ≠ 3 → sumEntry s.dev cl h.slice (bits h.oparg 22 11) = some (mask, out, fmt) → bitAt mask inPort = true →
      (∀ q ∈ s.dev.sumParts cl h.slice (bits h.oparg 22 11), q.1 ≠ inPort.val) →
      (∀ k, k < 12 → bitAt mask k = true → k = inPort.val ∨ ∃ q ∈ s.dev.sumParts cl h.slice (bits h.oparg 22 11), q.1 = k) →
      (insertRank (inPort.val, p) (s.dev.sumParts cl h.slice (bits h.oparg 22 11))).map (fun y => y.2) = lead :: rest →
      (∀ q ∈ rest, (longHdr q.hdr).len = (longHdr lead.hdr).len ∧ (longHdr q.hdr).gra = (longHdr lead.hdr).gra) →
      out < 4 → s.dev.outOpen cl out = true → Acts (.packetSumWrite cl inPort ⟨p, trip⟩) s fun d => ∃ c : Packet,
        d.net.sums = s.dev.otherSums cl h.slice (bits h.oparg 22 11) ∧ d.net.flight = (s.dev.takeHop x).net.flight ∧
        d.net.hops = (s.dev.takeHop x).net.hops ++ [hopTo cl out c none] ∧
        c.payload = rest.foldl (fun a q => (sumPayload (fmt == 1) a q.payload).1) (cleanPayload (fmt == 1) lead.payload).1 ∧
        (longHdr c.hdr).gra = (longHdr lead.hdr).gra ∧ Keeps [.net, .sessions] s.dev d ∧ KeepsRegs arriveRegs s.dev d) ∧
    (∀ (s : State) (cl : Cl) (inPort : Fin 12) (p : Packet) (x : TreeHop) (trip : Trip) (h : LongHdr) (mask fmt : Nat),
      h = longHdr p.hdr → memWf s.mem = true → s.treeAt cl (some inPort.val) p = some x →
      wholePkt p 3 = true → h.cls ≠ 3 → sumEntry s.dev cl h.slice (bits h.oparg 22 11) = some (mask, 4, fmt) →
      (∀ k, k < 12 → (bitAt mask k = true ↔ k = inPort.val)) → s.dev.sumParts cl h.slice (bits h.oparg 22 11) = [] →
      s.dev.accepts h.dcl h.slice h.gen = true → h.len = 8 → pktRowOk s.dev h.dcl h.gra = true →
      (∀ k, k < 32 → ringKind (ringDesc s (h.dcl * 8 + h.dcore) k) ≠ 2) →
      Ends (.packetSumWrite cl inPort ⟨p, trip⟩) s fun t =>
        [readRow t.mem h.gra] = flitRows 1 (cleanPayload (fmt == 1) p.payload).1 ∧ OnlyRow s.mem t.mem h.gra ∧
        t.dev.net.sums = s.dev.otherSums cl h.slice (bits h.oparg 22 11) ∧
        Keeps [.net, .cores, .slices, .fab, .sessions] s.dev t.dev ∧ KeepsRegs (regAddr 7 0x10 :: arriveRegs) s.dev t.dev) ∧
    (∀ (s : State) (cl : Cl) (slice : SliceId) (rtag : BitVec 12) (mask out fmt : Nat) (b : SumBuf) (lead : Nat × Packet) (rest : List (Nat × Packet)),
      s.dev.net.sums.find? (fun b => b.cl == cl.val && b.slice == slice.toNat && b.rtag == rtag.toNat) = some b → b.parts = lead :: rest →
      sumEntry s.dev cl slice.toNat rtag.toNat = some (mask, out, fmt) →
      (∀ q ∈ rest, (longHdr q.2.hdr).len = (longHdr lead.2.hdr).len ∧ (longHdr q.2.hdr).gra = (longHdr lead.2.hdr).gra) →
      out < 4 → s.dev.outOpen cl out = true → Acts (.sumTimeout cl slice rtag) s fun d => ∃ c : Packet,
        d.net.sums = s.dev.otherSums cl slice.toNat rtag.toNat ∧ d.net.flight = s.dev.net.flight ∧
        d.net.hops = s.dev.net.hops ++ [hopTo cl out c none] ∧
        c.payload = rest.foldl (fun a q => (sumPayload (fmt == 1) a q.2.payload).1) (cleanPayload (fmt == 1) lead.2.payload).1 ∧
        d.reg (regAddr 7 0x1C) = satAdd 32 (s.dev.reg (regAddr 7 0x1C)) 1 ∧ d.saw 7 3 = true ∧
        Keeps [.net, .slices, .sessions] s.dev d ∧ KeepsRegs (regAddr 7 0x1C :: eventRegs 7) s.dev d)) ∧
  ((∀ (s : State) (cl : Cl) (p : Packet) (x : TreeHop) (trip : Trip) (h : LongHdr) (out leaf : Nat) (outs : List Nat) (rings : List Nat),
      h = longHdr p.hdr → wholePkt p 4 = true → s.treeAt cl none p = some x → (∀ y ∈ s.dev.net.hops, y.stalls = some cl.val → y = x) →
      treeEntry s.dev cl h.slice (bits h.oparg 22 18) = some (out, leaf, rings) → outs = (List.range 4).filter (fun k => bitAt out k) →
      (∀ l ∈ leavesOf cl leaf rings, l.1 ∉ x.took → leafShut s l.1 l.2 = false) → (∀ k ∈ outs, s.dev.outOpen cl k = true) →
      Ends (.packetMulticastWrite cl ⟨p, trip⟩) s fun t =>
        t.dev.net.hops = (s.dev.takeHop x).net.hops ++ outs.map (fun k => hopTo cl k p
          (some (if 2 ≤ outs.length + (leavesOf cl leaf rings).length then (cl.val, k) else x.branch.getD (cl.val, k)))) ∧
        t.dev.net.held = s.dev.net.held ∧
        (leaf = 0 → outs ≠ [] → (∀ m ∈ s.dev.net.mcast, m.hdr = p.hdr → 0 < m.left) → t.mem = s.mem ∧
          t.dev.net.flight = (s.dev.takeHop x).net.flight ∧ Keeps [.net, .sessions] s.dev t.dev ∧ KeepsRegs arriveRegs s.dev t.dev)) ∧
    (∀ (s : State) (cl : Cl) (p : Packet) (x : TreeHop) (trip : Trip) (h : LongHdr) (leaf : Fin 8) (rings : List Nat) (g : Nat),
      h = longHdr p.hdr → memWf s.mem = true → wholePkt p 4 = true → s.treeAt cl none p = some x → x.took = [] →
      (∀ y ∈ s.dev.net.hops, y.stalls = some cl.val → y = x) →
      treeEntry s.dev cl h.slice (bits h.oparg 22 18) = some (0, 2 ^ leaf.val, rings) →
      (∀ m ∈ s.dev.net.mcast, m.hdr ≠ p.hdr) → s.dev.accepts cl h.slice h.gen = true →
      h.score < 1024 → h.schip = s.dev.coord →
      (rings.getD leaf.val 0xFF = 0xFF → h.len = 8 →
        g = setBits (setBits h.gra 29 23 cl) 22 20 leaf → pktRowOk s.dev cl g = true →
        Ends (.packetMulticastWrite cl ⟨p, trip⟩) s fun t =>
          [readRow t.mem g] = flitRows 1 p.payload ∧ OnlyRow s.mem t.mem g ∧
          (∃ a, isAck a h 0 ∧ t.dev.net.flight = (s.dev.takeHop x).net.flight ++ [a]) ∧ t.dev.net.mcast = s.dev.net.mcast ∧
          Keeps [.net, .slices, .sessions] s.dev t.dev ∧ KeepsRegs arriveRegs s.dev t.dev) ∧
      (rings.getD leaf.val 0xFF ≠ 0xFF → leafShut s (cl * 8 + leaf) (rings.getD leaf.val 0xFF) = false →
        Ends (.packetMulticastWrite cl ⟨p, trip⟩) s fun t =>
          t.mem = (leafRows (cl * 8 + leaf) (rings.getD leaf.val 0xFF) (flitRows (h.len / 8) p.payload) s).mem ∧
          (∃ a, isAck a h 0 ∧ t.dev.net.flight = (s.dev.takeHop x).net.flight ++ [a]) ∧ t.dev.net.mcast = s.dev.net.mcast ∧
          Keeps [.net, .cores, .slices, .sessions] s.dev t.dev ∧ KeepsRegs arriveRegs s.dev t.dev)) ∧
    (∀ (s : State) (f : Flit) (k : ShortPkt) (hc : HeldCopy) (h : LongHdr) (g : Nat) (sl : Slice), k = shortPkt f → h = longHdr hc.pkt.hdr →
      memWf s.mem = true → s.carriesShort f 5 = true → s.arrives (k.dcl * 8 + k.dcore) ⟨f, []⟩ = true →
      s.dev.net.held.find? (fun h => h.cl == k.dcl && h.core == k.score && (longHdr h.pkt.hdr).slice == k.slice) = some hc →
      starved s hc.core hc.ring = false → (∀ m ∈ s.dev.net.mcast, m.hdr ≠ hc.pkt.hdr) →
      h.op = 4 → s.dev.accepts (k.score / 8) h.slice h.gen = true →
      h.score < 1024 → h.schip = s.dev.coord →
      s.dev.slice? k.slice = some sl → sl.raises.any Raise.openOwn = false →
      Ends (.holdoverRelease f) s fun t =>
        t.dev.net.held = eraseFirst (fun x => x == hc) s.dev.net.held ∧
        (hc.ring = 0xFF → h.len = 8 → g = setBits (setBits h.gra 29 23 (k.score / 8)) 22 20 (k.score % 8) → pktRowOk s.dev (k.score / 8) g = true →
          [readRow t.mem g] = flitRows 1 hc.pkt.payload ∧ OnlyRow s.mem t.mem g ∧
          (∃ a, isAck a h 0 ∧ t.dev.net.flight = s.dev.without ⟨f, []⟩ ++ [a]) ∧ Keeps [.net, .slices] s.dev t.dev ∧ KeepsRegs [] s.dev t.dev) ∧
        (hc.ring ≠ 0xFF → t.mem = (leafRows k.score hc.ring (flitRows (h.len / 8) hc.pkt.payload) s).mem ∧
          (∃ a, isAck a h 0 ∧ t.dev.net.flight = s.dev.without ⟨f, []⟩ ++ [a]) ∧ Keeps [.net, .cores, .slices] s.dev t.dev ∧
          KeepsRegs [] s.dev t.dev)) ∧
    (∀ (s : State) (slice : SliceId) (sl : Slice), s.dev.slice? slice.toNat = some sl → s.dev.freeOfHolds slice.toNat = true →
      s.dev.net.held.any (heldTooLong s.dev.now sl) = true → Acts (.holdoverHoldCheck slice) s fun d =>
        d.saw 7 4 = true ∧ d.raisedNow slice.toNat 5 ∧ Keeps [.slices, .fab, .sessions] s.dev d))

/-- SLICE_LAUNCH of a slice that stands ready starts its cores: each takes the registers of its CORE record (04 R131) and leaves
every other core alone; every ring of its cores is empty (05 R177), its semaphores are zero (06 R215). At launch EC less the
hold lead a slice that is not ready to run gate 0 holds itself, also one whose relaunch still waits for the frames of its last launch (01 R37). -/
def Obligations.LaunchesStartOrHold : Prop :=
  (∀ (s : State) (slice : SliceId) (sl : Slice), s.dev.slice? slice.toNat = some sl → s.dev.launchReady sl = true → memWf s.mem = true →
      Ends (.sliceLaunch slice) s fun t =>
        (∃ m, t.dev.slice? slice.toNat = some { sl with running := true, launchAt := none, idleSince := sl.launchEc, replayMask := m } ∧
          (s.dev.tel.armed.all (fun a => a.2 != slice.toNat) = true → m = 0)) ∧
        (∀ k, k ∈ sl.coresOf → t.dev.core k = launchCore sl.fo k) ∧ (∀ k, k ∉ sl.coresOf → t.dev.core k = s.dev.core k) ∧
        (∀ r ∈ sl.fo.cores, r.core ∈ sl.coresOf → (sl.fo.cores.map (fun x => x.core)).Nodup →
          (t.dev.core r.core).pc = r.first ∧ ∀ i v, r.sInit[i]? = some v → (t.dev.core r.core).sreg (i + 1) = BitVec.ofNat 64 v) ∧
        (∀ k ∈ sl.coresOf, ∀ ring, ring < 32 → ringHead (ringDesc t k ring) = 0 ∧ ringTail (ringDesc t k ring) = 0) ∧
        (∀ g ∈ sl.fo.semas, readRow t.mem g = 0) ∧
        Keeps [.cores, .slices, .teller] s.dev t.dev ∧ KeepsRegs [] s.dev t.dev) ∧
  (∀ (s : State) (slice : SliceId) (sl : Slice) (e : Nat), s.dev.slice? slice.toNat = some sl → s.dev.freeOfHolds slice.toNat = true →
      sl.launchAt = some e → sl.running = false → sl.stopping = none →
      e ≤ s.dev.now + sl.fo.holdLead * sl.fo.spacing (s.dev.modeFor sl s.dev.now) →
      Acts (.notReadyCheck slice) s fun d =>
        s.dev.raisesHold d slice.toNat 7 ∧ Keeps [.slices, .fab, .sessions] s.dev d ∧ KeepsRegs holdRegs s.dev d) ∧
  (∀ (s : State) (slice : SliceId) (sl : Slice) (e : Nat), s.dev.slice? slice.toNat = some sl → sl.launched = true →
      sl.launchAt = some e → sl.running = true → sl.stopping = some 1 → sl.early.any Raise.openOwn = false →
      e ≤ s.dev.now + sl.fo.holdLead * sl.fo.spacing (s.dev.modeFor sl s.dev.now) →
      Acts (.notReadyCheck slice) s fun d =>
        (∃ r, d.slice? slice.toNat = some { sl with early := sl.early ++ [r] } ∧ r.own = true ∧ r.cause = 7 ∧ r.gate = 0 ∧ r.raiseEc = s.dev.now ∧ r.resume = none) ∧
        d.reg (regAddr 11 0x08) = satAdd 32 (s.dev.reg (regAddr 11 0x08)) 1 ∧ d.saw 11 0 = true ∧
        Keeps [.slices, .fab, .sessions] s.dev d ∧ KeepsRegs holdRegs s.dev d)

/-- A gate whose barrier is complete passes at its due EC: the next gate is due one interval later (11 R354, R355), and the cores
that waited go on. Before the due EC nothing happens; at it an incomplete barrier raises a hold (11 Table 11.2). -/
def Obligations.GatesPassWhenDue : Prop :=
  (∀ (s : State) (slice : SliceId) (sl : Slice), s.dev.slice? slice.toNat = some sl → sl.running = true → sl.barrier = false →
    (∀ k ∈ sl.progCores, k ∈ sl.arrived) → sl.at sl.gate = [] → sl.raises.any Raise.openOwn = false → s.dev.now < sl.due →
    exec (.barrierComplete slice) s = .next { s with dev := s.dev.updSlice slice.toNat (fun x => { x with barrier := true }) }) ∧
  (∀ (s : State) (slice : SliceId) (sl : Slice), s.dev.slice? slice.toNat = some sl → sl.launched = true → sl.running = true →
    sl.barrier = true → sl.due ≤ s.dev.now → sl.passEc = some sl.due → (∀ r ∈ sl.at sl.gate, r.causes = []) → 0 < sl.fo.f → sl.gate % sl.fo.f ≠ 0 →
    (∀ fr ∈ sl.frames, fr.lastGate ≠ sl.gate) → s.dev.fld ⟨regAddr 14 0, 3, 3⟩ = 0 → Acts (.gateDue slice) s fun d =>
      (∃ x, d.slice? slice.toNat = some x ∧ x.gate = sl.gate + 1 ∧ x.dues = sl.due :: sl.dues ∧ x.due = s.dev.nextDue sl sl.due ∧
        x.arrived = [] ∧ x.barrier = false ∧ x.dueSeen = false ∧ x.stretches = 0 ∧ x.frames = sl.frames) ∧
      (∀ k ∈ sl.progCores, (d.core k).wait ≠ .gate) ∧ Keeps [.cores, .slices] s.dev d ∧ KeepsRegs [] s.dev d) ∧
  (∀ (s : State) (slice : SliceId) (sl : Slice), s.dev.slice? slice.toNat = some sl → s.dev.now < sl.due →
    sl.barrier = false → exec (.gateDue slice) s = .next s) ∧
  (∀ (s : State) (slice : SliceId) (sl : Slice) (e : Nat), s.dev.slice? slice.toNat = some sl → s.dev.freeOfHolds slice.toNat = true →
    sl.barrier = false → sl.due ≤ s.dev.now → sl.passEc = some e → e ≤ s.dev.now → sl.lateAt ≠ some e →
    (∀ r ∈ sl.at sl.gate, r.causes = []) → Acts (.gateDue slice) s fun d =>
      s.dev.raisesHold d slice.toNat 0 ∧ Keeps [.slices, .fab, .sessions] s.dev d ∧ KeepsRegs holdRegs s.dev d)

/-- At its send EC the resume of an own hold leaves: the hold is open no more, and every UP port that names the slice carries the
resume word three times (11 R359; 08 R286). A hold word is taken once: a raise counts and joins the raises of its slice, and
goes on by every other UP port that names the slice; the same word again changes no hold (08 R286; 11 R357, R358). A "not ready" raise for a
launch that is not armed yet is kept for it (01 R37). A stretch
counts for its region, modulo 2³², and against the gate interval of every launched slice with a cluster there (11 R364, R365); the
fifth in one interval raises a stretch hold (R365). -/
def Obligations.HoldsResumeAndStretchesCount : Prop :=
  (∀ (s : State) (slice : SliceId) (sl : Slice) (r : Raise) (e m : Nat), s.dev.slice? slice.toNat = some sl →
      sl.raises.find? (fun r => r.openOwn && match r.sendEc with | some e => decide (e ≤ s.dev.now) | none => false) = some r →
      r.sendEc = some e → r.resume = some m → Acts (.resumeSend slice) s fun d =>
        (∃ x, d.slice? slice.toNat = some x ∧ x.raises.any Raise.openOwn = false ∧ x.gate = sl.gate ∧ x.due = sl.due) ∧
        (∀ p, p < 12 → s.dev.portUp p = true → s.dev.portNames p slice.toNat = true → ∃ w : CtrlWord,
          w = holdWord slice.toNat s.dev.fab.holdId 1 r.cause s.dev.coord m ∧ (d.port p).ctrlQ = (s.dev.port p).ctrlQ ++ [w, w, w]) ∧
        Keeps [.slices, .fab] s.dev d ∧ KeepsRegs [] s.dev d) ∧
  ((∀ (s : State) (port : Port) (w : CtrlWord) (sid hid cause origin ec : Nat) (sl : Slice),
      sid < 4096 → hid < 65536 → cause < 9 → origin < 4096 → ec < 2 ^ 64 → w = holdWord sid hid 0 cause origin ec →
      s.dev.portUp port = true → (origin, sid, hid) ∉ s.dev.fab.seen → s.dev.slice? sid = some sl → sl.armed = true →
      (cause = 7 → sl.stopping = none) → Acts (.holdWord port w) s fun d =>
        (∃ x r, d.slice? sid = some x ∧ x.raises = sl.raises ++ [r] ∧ r.origin = origin ∧ r.holdId = hid ∧ r.cause = cause ∧
          r.raiseEc = ec ∧ r.own = false ∧ r.resume = none) ∧
        d.fab.seen = s.dev.fab.seen ++ [(origin, sid, hid)] ∧
        (∀ q, q < 12 → q ≠ port.val → s.dev.portUp q = true → s.dev.portNames q sid = true →
          (d.port q).ctrlQ = (s.dev.port q).ctrlQ ++ [w, w, w]) ∧ (d.port port).ctrlQ = (s.dev.port port).ctrlQ ∧
        d.reg (regAddr 11 0x0C) = satAdd 32 (s.dev.reg (regAddr 11 0x0C)) 1 ∧
        Keeps [.slices, .fab, .sessions] s.dev d ∧ KeepsRegs (regAddr 11 0x0C :: regAddr 11 0x14 :: eventRegs 11) s.dev d) ∧
    (∀ (s : State) (port : Port) (w : CtrlWord) (sid hid kind cause origin ec : Nat),
      sid < 4096 → hid < 65536 → kind < 2 → cause < 9 → origin < 4096 → ec < 2 ^ 64 → w = holdWord sid hid kind cause origin ec →
      (origin, sid, hid) ∈ s.dev.fab.seen → s.dev.portUp port = true →
      Acts (.holdWord port w) s fun d => d = s.dev.updPort port (fun x => { x with lastCtrl := s.dev.time.ticks })) ∧
    (∀ (s : State) (port : Port) (w : CtrlWord), s.dev.portUp port = false → exec (.holdWord port w) s = .next s) ∧
    (∀ (s : State) (port : Port) (w : CtrlWord) (sid hid origin ec : Nat) (sl : Slice),
      sid < 4096 → hid < 65536 → origin < 4096 → ec < 2 ^ 64 → w = holdWord sid hid 0 7 origin ec →
      s.dev.portUp port = true → (origin, sid, hid) ∉ s.dev.fab.seen → s.dev.slice? sid = some sl → sl.launched = true → sl.armed = false →
      Acts (.holdWord port w) s fun d =>
        (∃ r, d.slice? sid = some { sl with early := sl.early ++ [r] } ∧ r.origin = origin ∧ r.holdId = hid ∧ r.cause = 7 ∧ r.gate = 0 ∧
          r.raiseEc = ec ∧ r.own = false ∧ r.resume = none) ∧
        d.reg (regAddr 11 0x0C) = satAdd 32 (s.dev.reg (regAddr 11 0x0C)) 1 ∧
        Keeps [.slices, .fab, .sessions] s.dev d ∧ KeepsRegs [regAddr 11 0x0C] s.dev d)) ∧
  ((∀ (s : State) (region : Fin 24), s.dev.clocked region = true → (s.dev.slices.map (fun x => x.id)).Nodup →
      (∀ sl ∈ s.dev.slices, sl.launched = true → sl.dues ≠ [] → sl.clusters.any (fun c => clRegion c == region.val) = true →
        sl.stretches ≠ 4) →
      Acts (.stretch region) s fun d =>
        d.slices = s.dev.slices.map (fun sl =>
          if sl.launched && !sl.dues.isEmpty && sl.clusters.any (fun c => clRegion c == region.val) then
            { sl with stretches := sl.stretches + 1 }
          else sl) ∧
        d.reg (regAddr 11 (0x80 + 4 * region.val)) = (s.dev.reg (regAddr 11 (0x80 + 4 * region.val)) + 1) % 2 ^ 32 ∧
        Keeps [.slices] s.dev d ∧ KeepsRegs [regAddr 11 (0x80 + 4 * region.val)] s.dev d) ∧
    (∀ (s : State) (region : Fin 24) (sl : Slice), s.dev.clocked region = true → s.dev.slices = [sl] → s.dev.freeOfHolds sl.id = true →
      sl.dues ≠ [] → sl.barrier = false → sl.clusters.any (fun c => clRegion c == region.val) = true → sl.stretches = 4 →
      Acts (.stretch region) s fun d =>
        s.dev.raisesHold d sl.id 1 ∧ d.saw 11 5 = true ∧ d.reg (regAddr 11 0x18) = satAdd 32 (s.dev.reg (regAddr 11 0x18)) 1 ∧
        Keeps [.slices, .fab, .sessions] s.dev d ∧
        KeepsRegs (regAddr 11 (0x80 + 4 * region.val) :: regAddr 11 0x18 :: holdRegs) s.dev d))

/-- At its cutoff a shard that is not there is decided absent: the pull point reads zeros for that frame, counted; under POLICY 1
the slice holds for it instead (12 R393, Table 12.9; 11 Table 11.2). At the hold's cap the zero slot is read. A complete shard that the quota
at its edge stop admits is written into the next slot of its pull ring and published; a zero slot is published at the due EC of its gate. TAIL
advances by 1, and no byte outside the slot and the ring's descriptor changes (12 R392, R393; 05 R179; 07 R236). A published push slot is read
within the quotas of its stop and its core and released (12 R394; 07 R237): its result leaves on its egress stream, or is not sent where none is
open (12 R394); reading stops at the quota, counted in QUOTA_WAIT. -/
def Obligations.ShardsPublishOrReadZeros : Prop :=
  ((∀ (s : State) (slice : SliceId) (stream : BitVec 16) (sl : Slice) (p : PullRun), s.dev.slice? slice.toNat = some sl →
      sl.launched = true → sl.pullsOn stream.toNat = [p] → sl.pullsAt p → p.hold = none → s.dev.decisionEc sl p ≤ s.dev.now →
      p.present (sl.frameOf p.iter) = false → (sl.policy ≠ 1 ∨ s.dev.streamOf slice.toNat 0 stream.toNat = none) →
      Acts (.shardDecision slice stream) s fun d =>
        (∃ x q, d.slice? slice.toNat = some x ∧ x.pulls = sl.pullsWith p q ∧ p.zeroFor q (sl.frameOf p.iter) (p.iter * sl.fo.f + p.gate) ∧
          x.gate = sl.gate) ∧
        d.reg (regAddr 12 0x68) = satAdd 32 (s.dev.reg (regAddr 12 0x68)) 1 ∧ Keeps [.slices, .teller] s.dev d ∧
        KeepsRegs [regAddr 12 0x68] s.dev d) ∧
    (∀ (s : State) (slice : SliceId) (stream : BitVec 16) (sl : Slice) (p : PullRun), s.dev.slice? slice.toNat = some sl →
      sl.pullsOn stream.toNat = [p] → p.hold = none → s.dev.decisionEc sl p ≤ s.dev.now → s.dev.freeOfHolds slice.toNat = true →
      p.present (sl.frameOf p.iter) = false → sl.policy = 1 → (s.dev.streamOf slice.toNat 0 stream.toNat).isSome = true →
      Acts (.shardDecision slice stream) s fun d =>
        s.dev.raisesHold d slice.toNat 4 ∧ Keeps [.slices, .fab, .sessions] s.dev d ∧ KeepsRegs holdRegs s.dev d) ∧
    (∀ (s : State) (slice : SliceId) (sl : Slice) (p : PullRun) (n e : Nat), s.dev.slice? slice.toNat = some sl → sl.pullsAt p →
      p.hold = some (n, e) → e ≤ s.dev.now → (∀ y ∈ sl.pulls, y ≠ p → y.hold = none) → Acts (.shardHoldCap slice) s fun d =>
        (∃ x q, d.slice? slice.toNat = some x ∧ x.pulls = sl.pullsWith p q ∧ p.zeroFor q n (p.iter * sl.fo.f + p.gate) ∧
          ∀ r ∈ x.raises, r.openOwn = true → 4 ∉ r.causes) ∧
        d.reg (regAddr 12 0x68) = satAdd 32 (s.dev.reg (regAddr 12 0x68)) 1 ∧
        Keeps [.slices, .teller, .sessions] s.dev d ∧ KeepsRegs (regAddr 12 0x68 :: regAddr 11 0x10 :: eventRegs 11) s.dev d)) ∧
  ((∀ (s : State) (slice : SliceId) (stream : BitVec 16) (sl : Slice) (st : Stream) (p : PullRun) (x : Shard),
      memWf s.mem = true → s.dev.slice? slice.toNat = some sl → sl.running = true → sl.pullsOn stream.toNat = [p] → sl.pullsAt p →
      p.going = none → p.publish + 1 ∉ p.ready → p.publish - ringOcc (ringDesc s p.core p.ring) ∉ p.skip → p.hold = none →
      s.dev.streamOf slice.toNat 0 stream.toNat = some st → s.nextShard st p = some x →
      x.frame = p.publish → ringSlots (ringDesc s p.core p.ring) ≠ 0 → st.shardBytes ≤ 512 * ringSlotRows (ringDesc s p.core p.ring) →
      s.dev.stopUse (ringStop (p.core / 8)) slice.toNat 0 + 9 * cdiv st.shardBytes 512 ≤ sl.stopQuota 0 (ringStop (p.core / 8)) →
      slotApart s p.core p.ring p.publish → p.core < 576 → p.ring < 32 →
      ringOcc (ringDesc s p.core p.ring) + 1 < 65536 →
      (∀ i j, i < ringSlotRows (ringDesc s p.core p.ring) → j < ringSlotRows (ringDesc s p.core p.ring) →
        ringRow (ringDesc s p.core p.ring) p.publish i = ringRow (ringDesc s p.core p.ring) p.publish j → i = j) →
      Ends (.shardWrite slice stream) s fun t =>
        (∀ i, i < ringSlotRows (ringDesc s p.core p.ring) →
          readRow t.mem (ringRow (ringDesc s p.core p.ring) p.publish i) =
            rowBytes 0 0 (((x.bytes st.shardBytes).drop (512 * i)).take 512)) ∧
        ringTail (ringDesc t p.core p.ring) = (ringTail (ringDesc s p.core p.ring) + 1) % 65536 ∧
        ringHead (ringDesc t p.core p.ring) = ringHead (ringDesc s p.core p.ring) ∧
        (∃ y, t.dev.slice? slice.toNat = some y ∧ y.pulls = sl.pullsWith p { p with publish := p.publish + 1 }) ∧
        OnlySlot s t.mem p.core p.ring p.publish ∧ Keeps [.slices, .teller, .net] s.dev t.dev ∧ KeepsRegs [] s.dev t.dev) ∧
    (∀ (s : State) (slice : SliceId) (stream : BitVec 16) (sl : Slice) (p : PullRun) (g : Nat),
      memWf s.mem = true → s.dev.slice? slice.toNat = some sl → sl.running = true → sl.pullsOn stream.toNat = [p] → sl.pullsAt p →
      p.publish + 1 ∉ p.ready → p.publish - ringOcc (ringDesc s p.core p.ring) ∉ p.skip →
      p.zeros.find? (fun z => z.1 == p.publish && decide (s.dev.dueOf sl z.2 ≤ s.dev.now)) = some (p.publish, g) →
      s.slotFree p p.publish = true → ringOcc (ringDesc s p.core p.ring) + 1 < 65536 →
      slotApart s p.core p.ring p.publish → p.core < 576 → p.ring < 32 →
      Ends (.zeroSlotPublish slice stream) s fun t =>
        (∀ i, i < ringSlotRows (ringDesc s p.core p.ring) → readRow t.mem (ringRow (ringDesc s p.core p.ring) p.publish i) = 0) ∧
        ringTail (ringDesc t p.core p.ring) = (ringTail (ringDesc s p.core p.ring) + 1) % 65536 ∧
        (∃ y, t.dev.slice? slice.toNat = some y ∧ y.pulls = sl.pullsWith p { p with
          publish := p.publish + 1, zeros := p.zeros.filter (fun z => z.1 != p.publish), ready := p.ready.filter (fun f => f != p.publish) }) ∧
        OnlySlot s t.mem p.core p.ring p.publish ∧ Keeps [.slices] s.dev t.dev ∧ KeepsRegs [] s.dev t.dev)) ∧
  ((∀ (s : State) (slice : SliceId) (stream : BitVec 16) (sl : Slice) (seq core ring : Nat), memWf s.mem = true →
      s.dev.slice? slice.toNat = some sl → sl.running = true →
      sl.fo.pushes.find? (fun p => p.2.1 == stream.toNat && ringOcc (ringDesc s p.2.2.1 p.2.2.2) != 0) = some (seq, stream.toNat, core, ring) →
      core < 576 → ring < 32 → ringKind (ringDesc s core ring) ≠ 2 → isPullRing s.dev core ring = false →
      s.dev.net.held.find? (fun h => h.core == core && h.ring == ring) = none →
      s.dev.stopUse (ringStop (core / 8)) slice.toNat 0 + ringSlotRows (ringDesc s core ring) ≤ sl.stopQuota 0 (ringStop (core / 8)) →
      (s.dev.core core).quotaRep + 9 * ringSlotRows (ringDesc s core ring) ≤ quotaOf sl 1 core →
      (∀ i, i < ringSlotRows (ringDesc s core ring) → s.clean (ringRow (ringDesc s core ring) (ringHead (ringDesc s core ring)) i) = true) →
      (∀ z ∈ s.dev.tel.streams, z.slice = slice.toNat → z.later = []) →
      (s.dev.streamOf slice.toNat 1 stream.toNat = none → Ends (.pushSlotRead slice stream) s fun t =>
        ringHead (ringDesc t core ring) = (ringHead (ringDesc s core ring) + 1) % 65536 ∧
        ringTail (ringDesc t core ring) = ringTail (ringDesc s core ring) ∧ OnlyRow s.mem t.mem (coreStateGra core (ring / 16)) ∧
        (∃ x, t.dev.slice? slice.toNat = some x ∧ mapGet (fun _ => 0) x.pushed (core * 32 + ring) = mapGet (fun _ => 0) sl.pushed (core * 32 + ring) + 1) ∧
        Keeps [.slices, .cores, .net] s.dev t.dev ∧ KeepsRegs [] s.dev t.dev) ∧
      (∀ (st : Stream) (x : Session) (n frame : Nat) (data : List Byte), s.dev.streamOf slice.toNat 1 stream.toNat = some st →
        s.dev.stream? st.id = some st → s.dev.session? st.session = some x → x.fresh → n = mapGet (fun _ => 0) sl.pushed (core * 32 + ring) →
        sl.unskipped[n]? = some frame → sl.unskipped.Pairwise (fun a b => a < b) → (∀ f ∈ sl.frames, frame ≤ f.n) →
        (∀ p ∈ sl.fo.pushes, p.2.1 = stream.toNat → p.2.2.1 = core ∧ p.2.2.2 = ring) →
        data = (List.range (ringSlotRows (ringDesc s core ring))).flatMap (fun i =>
          bytesOf (toLe 512 (readRow s.mem (ringRow (ringDesc s core ring) (ringHead (ringDesc s core ring)) i)).toNat)) →
        data.length ≤ s.dev.maxBody x - 32 → s.dev.egressUsed + data.length ≤ 124 * 2 ^ 20 → Ends (.pushSlotRead slice stream) s fun t =>
          ringHead (ringDesc t core ring) = (ringHead (ringDesc s core ring) + 1) % 65536 ∧
          t.dev.told x.id (.egress st.id frame seq 2 data.length 0 (crc32c (data.map (fun b => b.toNat))) 0 data) ∧
          OnlyRow s.mem t.mem (coreStateGra core (ring / 16)) ∧ Keeps [.slices, .cores, .net, .sessions] s.dev t.dev ∧ KeepsRegs [] s.dev t.dev)) ∧
    (∀ (s : State) (slice : SliceId) (stream : BitVec 16) (sl : Slice) (seq core ring : Nat), s.dev.slice? slice.toNat = some sl → sl.running = true →
      sl.fo.pushes.find? (fun p => p.2.1 == stream.toNat && ringOcc (ringDesc s p.2.2.1 p.2.2.2) != 0) = some (seq, stream.toNat, core, ring) →
      mapGet (fun _ => 0) sl.pushRows (core * 32 + ring) < ringSlotRows (ringDesc s core ring) →
      sl.stopQuota 0 (ringStop (core / 8)) ≤ s.dev.stopUse (ringStop (core / 8)) slice.toNat 0 → Acts (.pushSlotRead slice stream) s fun d =>
        d.reg (regAddr 7 0x2C) = (s.dev.reg (regAddr 7 0x2C) + 1) % 2 ^ 32 ∧ Keeps [.slices] s.dev d ∧ KeepsRegs [regAddr 7 0x2C] s.dev d))

/-- A stop takes effect once the frames begun before its frame boundary have ended: the slice runs no more, its streams are closed,
and its requests are answered (01 R47; 12 R389). A kill takes effect at its EC: its clusters scrub, its streams close, its
record leaves (06 R223). A scrub ends with every memory of the clusters zero, its check bits valid, and the clusters free (06 R225, R226). -/
def Obligations.SlicesEnd : Prop :=
  (∀ (s : State) (slice : SliceId) (sl : Slice), s.dev.slice? slice.toNat = some sl → sl.running = true → sl.stopping = some 0 →
    sl.boundary = true → sl.frames = [] → sl.killAt = none → (∀ r ∈ s.dev.hlth.repairs, r.slice ≠ slice.toNat) →
    (∀ y ∈ sl.stopReq, ∀ x, s.dev.session? y.1 = some x → x.fresh) →
    Acts (.stopAtFrameBoundary slice) s fun d =>
      (∃ x, d.slice? slice.toNat = some x ∧ x.running = false ∧ x.launched = false ∧ x.stopping = none ∧ x.key = sl.key) ∧
      (∀ st ∈ d.tel.streams, st.slice ≠ slice.toNat) ∧ (∀ k ∈ sl.coresOf, d.core k = (s.dev.core k).halt) ∧ d.saw 12 10 = true ∧
      (∀ y ∈ sl.stopReq, (s.dev.session? y.1).isSome = true → d.told y.1 (.result y.2 0 0xFFFFFFFF [])) ∧
      Keeps [.cores, .slices, .teller, .sessions] s.dev d ∧
      KeepsRegs (regAddr 12 0x6C :: regAddr 11 0x10 :: (eventRegs 12 ++ eventRegs 11)) s.dev d) ∧
  (∀ (s : State) (slice : SliceId) (sl : Slice) (e : Nat), s.dev.slice? slice.toNat = some sl → sl.killAt = some e → e ≤ s.dev.now →
    sl.stopping ≠ some 2 → (sl.stopping = some 1 → sl.start = none) →
    (∀ y ∈ sl.killReq ++ sl.stopReq, ∀ x, s.dev.session? y.1 = some x → x.fresh) → Acts (.killEffective slice) s fun d =>
      d.slice? slice.toNat = none ∧ d.load? slice.toNat = none ∧ (∀ st ∈ d.tel.streams, st.slice ≠ slice.toNat) ∧
      d.clustersIn 1 slice.toNat = [] ∧ (∀ c, c < 72 → c ∈ s.dev.clustersIn 1 slice.toNat → c ∈ d.clustersIn 2 slice.toNat) ∧
      d.saw 12 9 = true ∧
      (∀ y ∈ sl.killReq, (s.dev.session? y.1).isSome = true → d.told y.1 (.result y.2 0 0xFFFFFFFF (bytesOf (toLe 8 s.dev.now)))) ∧
      (∀ y ∈ sl.stopReq, (s.dev.session? y.1).isSome = true → d.told y.1 (.result y.2 0 0xFFFFFFFF [])) ∧
      Keeps [.cores, .slices, .vault, .hlth, .net, .fab, .teller, .sessions] s.dev d) ∧
  (∀ (s : State) (slice : SliceId), memWf s.mem = true → s.dev.slice? slice.toNat = none → s.dev.clustersIn 2 slice.toNat ≠ [] →
    s.dev.failed = false → (∀ c ∈ s.dev.clustersIn 2 slice.toNat, s.dev.clocked (clRegion c) = true ∧ s.dev.fld (fSite c) ≠ 0xE) →
    Ends (.scrubComplete slice []) s fun t =>
      (∀ c ∈ s.dev.clustersIn 2 slice.toNat, t.dev.fld (fClState c) = 0 ∧ t.dev.fld (fClSlice c) = 0 ∧
        (∀ g, graValid g = true → graCluster g = c → readRow t.mem g = 0 ∧ t.clean g = true) ∧ ∀ k, k < 8 → t.dev.core (c * 8 + k) = {}) ∧
      (∀ a, graValid (a / 512) = true → graCluster (a / 512) ∉ s.dev.clustersIn 2 slice.toNat → memByte t.mem a = memByte s.mem a) ∧
      t.dev.saw 8 10 = true ∧ Keeps [.cores, .hlth, .pwr, .sessions] s.dev t.dev)

/-- A port with signal trains, aligns, and enters DISCOVER (08 R271, R272); a failed training counts, and the eighth in succession
fails the port; a measured latency above 50 ns fences it for 1 s; a port retries after 1 s; a planned port that did not reach DISCOVER in time is
missing, and DEGRADED says so (R290). Discovery words that agree with the plan bring a port UP, with the scheduled class where
the tables agree and the offset allows it; words that disagree fence it with the reason (08 R289, R290, Table 8.11). Words that come to a port that is UP, after the other end's commit, are
answered with this end's own in the management class (R289; Table 8.5). -/
def Obligations.PortsTrainAndComeUp : Prop :=
  ((∀ (s : State) (p : Port), s.dev.pstate p = 0 → s.dev.portEn p = true → s.dev.portsHeld = false → (s.dev.port p).retry = false →
      Acts (.portSignalDetect p) s fun d =>
        d.pstate p = 1 ∧ (d.port p).signal = true ∧ Keeps [.fab] s.dev d ∧ KeepsRegs [portReg p] s.dev d) ∧
    (∀ (s : State) (p : Port) (rev : Bool) (pol : BitVec 9), s.dev.pstate p = 1 → Acts (.trainingComplete p ⟨rev, pol⟩) s fun d =>
      d.pstate p = 2 ∧ d.fld (fReversed p) = b2n rev ∧ (d.port p).polarity = pol ∧ Keeps [.fab] s.dev d ∧ KeepsRegs [portReg p] s.dev d) ∧
    (∀ (s : State) (p : Port) (st wait : Nat) (c : Instr),
      (st, wait, c) ∈ [(1, 300000000, Instr.trainingTimeout p), (2, 1000000, .alignTimeout p)] →
      s.dev.pstate p = st → (s.dev.port p).since + wait ≤ s.dev.time.ticks → Acts c s fun d =>
        d.pstate p = (if 8 ≤ (s.dev.port p).fails + 1 then 6 else 0) ∧ (d.port p).fails = (s.dev.port p).fails + 1 ∧
        (d.port p).retry = true ∧ Keeps [.fab, .sessions] s.dev d ∧ KeepsRegs (portRegs p) s.dev d) ∧
    (∀ (s : State) (p : Port) (l : Int) (skew : Nat), skew ≤ 20 → s.dev.pstate p = 2 → (s.dev.port p).latency = some l →
      Acts (.alignComplete p skew) s fun d =>
      (if l ≤ 50 * 65536 then d.pstate p = 3 else d.pstate p = 5 ∧ d.fld (fPortWhy p) = 6 ∧ d.saw 8 2 = true) ∧
      Keeps [.fab, .sessions, .ledger] s.dev d ∧ KeepsRegs (portRegs p ++ auditRegs) s.dev d) ∧
    (∀ (s : State) (p : Port), s.dev.pstate p = 3 → (s.dev.port p).since + 1000000 ≤ s.dev.time.ticks →
      Acts (.discoverTimeout p) s fun d => d.pstate p = 0 ∧ Keeps [.fab] s.dev d ∧ KeepsRegs [portReg p] s.dev d) ∧
    (∀ (s : State) (p : Port), s.dev.pstate p = 0 → (s.dev.port p).retry = true → (s.dev.port p).since + 1000000000 ≤ s.dev.time.ticks →
      (s.dev.port p).signal = true → s.dev.portEn p = true → s.dev.portsHeld = false → Acts (.portRetry p) s fun d =>
        d.pstate p = 1 ∧ (d.port p).retry = false ∧ Keeps [.fab] s.dev d ∧ KeepsRegs [portReg p] s.dev d) ∧
    (∀ (s : State) (p : Port), s.dev.pstate p = 5 → s.dev.fld (fPortWhy p) = 6 → (s.dev.port p).since + 1000000000 ≤ s.dev.time.ticks →
      (s.dev.port p).signal = true → s.dev.portEn p = true → s.dev.portsHeld = false → Acts (.latencyFenceExpiry p) s fun d =>
        d.pstate p = 1 ∧ d.fld (fPortWhy p) = 0 ∧ Keeps [.fab, .sessions] s.dev d ∧ KeepsRegs (portRegs p) s.dev d) ∧
    (∀ (s : State) (p : Port), s.dev.fab.plan.any (fun x => x.1 == p.val) = true → (s.dev.port p).reached = false → 1000000000 ≤ s.dev.time.ticks →
      Acts (.portMissing p) s fun d =>
        (d.port p).missing = true ∧ d.fld ⟨regAddr 8 4, 0, 0⟩ = 1 ∧ (s.dev.fld ⟨regAddr 8 4, 0, 0⟩ = 0 → d.saw 8 4 = true) ∧
        Keeps [.fab, .sessions] s.dev d ∧ KeepsRegs (regAddr 8 4 :: eventRegs 8) s.dev d)) ∧
  (∀ (s : State) (p : Port) (w0 w1 w2 : CtrlWord), s.dev.pstate p = 3 → s.dev.portEn p = true →
      bits w0.toNat 127 122 = 24 → bits w1.toNat 127 122 = 25 → bits w2.toNat 127 122 = 26 →
      (s.dev.discWhy p w0 w1 w2 = none → Acts (.discoveryWord p w0 w1 w2) s fun d =>
        d.portUp p = true ∧ d.fld (fPortWhy p) = 0 ∧ d.fld (fNbrChip p) = bits w1.toNat 115 104 ∧ d.fld (fNbrPort p) = bits w1.toNat 100 97 ∧
        (d.port p).matched = (bits w1.toNat 76 13 == s.dev.tblHash p true) ∧ d.fld (fPortSched p) = b2n (d.port p).schedOk ∧
        (d.port p).fails = 0 ∧ d.saw 8 0 = true ∧ ((d.port p).matched = false → d.saw 8 5 = true) ∧
        Keeps [.net, .fab, .slices, .sessions] s.dev d ∧
        KeepsRegs (regAddr 8 0x18 :: (portRegs p ++ linkRegs ++ parentRegs)) s.dev d) ∧
      (∀ why, s.dev.discWhy p w0 w1 w2 = some why → Acts (.discoveryWord p w0 w1 w2) s fun d =>
        d.pstate p = 5 ∧ d.fld (fPortWhy p) = why ∧ d.saw 8 2 = true ∧
        Keeps [.fab, .sessions, .ledger] s.dev d ∧ KeepsRegs (portRegs p ++ auditRegs) s.dev d)) ∧
  (∀ (s : State) (p : Port) (w0 w1 w2 : CtrlWord), s.dev.pstate p = 4 → (s.dev.port p).rediscover = false →
      bits w0.toNat 127 122 = 24 → bits w1.toNat 127 122 = 25 → bits w2.toNat 127 122 = 26 → Acts (.discoveryWord p w0 w1 w2) s fun d =>
        (d.port p).discOut = s.dev.discWords p)

/-- 1 µs without a valid control flit takes an UP port DOWN, with what it held for replay, and holds every launched slice that the port carries, those that only transit this device too (08 R273, R301; 11 Table 11.2). A control flit that fails its CRC counts and does nothing else (R281). A lane that
loses lock, or whose corrected symbols pass the threshold, is switched to the spare: two wheels on after a loss of lock, at a
later wheel that both ends agree on otherwise; the spare takes its place at the start of that wheel, and the
retirement is kept. A second lane that fails
takes the port to FAILED (08 R270). -/
def Obligations.LostPortsHoldAndLanesSwitch : Prop :=
  ((∀ (s : State) (p : Port), s.dev.portUp p = true → (s.dev.port p).lastCtrl + 1000 ≤ s.dev.time.ticks →
      Acts (.controlFlitTimeout p) s fun d =>
        d.pstate p = 0 ∧ d.fld (fPortSched p) = 0 ∧ (d.port p).replay = [] ∧ (d.port p).rx = (s.dev.port p).rx ∧ d.saw 8 1 = true ∧
        (∀ sid ∈ s.dev.slicesOn p, s.dev.freeOfHolds sid = true → d.raisedNow sid 2) ∧
        (∀ sid ∈ s.dev.transitsOn p, ∃ h ∈ d.fab.transitHolds, h.slice = sid ∧ 2 ∈ h.causes) ∧
        Keeps [.net, .fab, .slices, .sessions] s.dev d ∧
        KeepsRegs (portRegs p ++ holdRegs ++ parentRegs ++ [regAddr 8 0x18]) s.dev d) ∧
    (∀ (s : State) (p : Port) (f : Flit), s.dev.portUp p = true → ctrlFlitOk f = false → Acts (.controlFlitBad ⟨p, f⟩) s fun d =>
      d.reg (regAddr 8 0x28) = satAdd 32 (s.dev.reg (regAddr 8 0x28)) 1 ∧ Keeps [] s.dev d ∧ KeepsRegs [regAddr 8 0x28] s.dev d)) ∧
  ((∀ (s : State) (p : Port) (lane : Fin 9), s.dev.laneSound p lane = true → Acts (.laneLossOfLock p lane) s fun d =>
      (d.port p).laneSwitch = some (lane.val, s.dev.now / 1280 + 2) ∧ Keeps [.fab, .fresh] s.dev d ∧
      KeepsRegs [regAddr 8 (0x84 + 8 * p.val)] s.dev d) ∧
    (∀ (s : State) (p : Port) (lane : Fin 9) (corrected symbols lost : Nat), s.dev.laneSound p lane = true →
      symbols < corrected * 10 ^ s.dev.fld ⟨regAddr 8 8, 19, 16⟩ → Acts (.laneErrorCheck p lane corrected ⟨symbols, lost⟩) s fun d =>
        (∃ w, s.dev.now / 1280 < w ∧ (d.port p).laneSwitch = some (lane.val, w) ∧
          (d.port p).ctrlQ = (s.dev.port p).ctrlQ ++ [laneWord 1 lane w]) ∧
        d.reg (regAddr 8 (0x84 + 8 * p.val)) = satAdd 32 (s.dev.reg (regAddr 8 (0x84 + 8 * p.val))) lost ∧
        Keeps [.fab, .fresh] s.dev d ∧ KeepsRegs [regAddr 8 (0x84 + 8 * p.val)] s.dev d) ∧
    (∀ (s : State) (p : Port) (lane : Fin 9) (planned f : Nat), s.dev.laneSound p lane = true → planned < 2 → f < 2 ^ 32 →
      Acts (.laneControlWord p (laneWord planned lane f)) s fun d =>
        (∃ w, (d.port p).laneSwitch = some (lane.val, w) ∧ w % 2 ^ 32 = f ∧ s.dev.now / 1280 ≤ w ∧ w < s.dev.now / 1280 + 2 ^ 32) ∧
        Keeps [.fab] s.dev d ∧ KeepsRegs [] s.dev d) ∧
    (∀ (s : State) (p : Port) (lane w : Nat), lane < 9 → (s.dev.port p).laneSwitch = some (lane, w) → w ≤ s.dev.now / 1280 →
      Acts (.laneSwitch p) s fun d =>
        d.fld (fLane p) = lane ∧ (d.port p).laneSwitch = none ∧ d.saw 8 3 = true ∧
        d.hlth = { s.dev.hlth with lanesRetired := s.dev.hlth.lanesRetired ++ [(p.val, lane)] } ∧ Keeps [.fab, .hlth, .sessions] s.dev d ∧
        KeepsRegs (portReg p :: eventRegs 8) s.dev d) ∧
    (∀ (s : State) (p : Port) (lane : Fin 9), s.dev.laneLive p = true → s.dev.laneUsed p = true → s.dev.laneGoing p lane = false →
      s.dev.fld (fLane p) ≠ lane.val → Acts (.laneLossOfLock p lane) s fun d =>
        d.pstate p = 6 ∧ Keeps [.net, .fab, .slices, .sessions] s.dev d ∧
        KeepsRegs (portRegs p ++ holdRegs ++ parentRegs ++ [regAddr 8 0x18]) s.dev d))

/-- A frame in sequence is acknowledged and waits for its presentation slot; a corrupt one is answered with a NAK; one in a slot
that is not its owner's is discarded, counted and reported; a lead of no valid form is discarded and counted (08 R279, R282,
R283, R295). A received frame whose presentation slot has come enters the mesh at the edge stop of its destination's column, or waits there for its
slice's quota (08 R283; 07 R236, R263); a packet that is eligible for a port
leaves in a frame that takes the next LSEQ and slots of its owner and waits in the replay buffer (R280, R282, R284). -/
def Obligations.FramesCarryPackets : Prop :=
  ((∀ (s : State) (p : Port) (f : Frame) (k : Nat) (h : LeadHdr) (at_ : Nat), h = leadHdr f.lead → s.dev.expects p f = true →
      s.dev.slotOwned p h = true →
      at_ = (if h.lclass = 0 then (slotAfter (slotsOf (s.dev.entries false p) h.use) (s.dev.absSlot h.slot) (h.body + 1)).getD
          (s.dev.absSlot h.slot) + 250 + (match s.dev.slice? h.owner with | some sl => sl.fo.slotK | none => k)
        else s.dev.slotNow) →
      Acts (.frameReceive p ⟨f, k⟩) s fun d =>
        (d.port p).rx = (s.dev.port p).rx ++ [⟨f, at_, h.lclass == 0 && decide (at_ < s.dev.slotNow)⟩] ∧
        (d.port p).ctrlQ = (s.dev.port p).ctrlQ ++ [ackWord h false h.lseq] ∧
        mapGet (fun _ => 0) (d.port p).rxSeq h.seqKey = (h.lseq + 1) % 4096 ∧ Keeps [.fab] s.dev d ∧ KeepsRegs [] s.dev d) ∧
    (∀ (s : State) (p : Port) (f : Frame) (k : Nat) (h : LeadHdr), h = leadHdr f.lead → s.dev.portUp p = true → leadOk f = true →
      h.lclass ≠ 0 → f.tail ≠ tailFlit f.lead f.body → Acts (.frameReceive p ⟨f, k⟩) s fun d =>
        (d.port p).ctrlQ = (s.dev.port p).ctrlQ ++ [ackWord h true h.lseq] ∧ (d.port p).rx = (s.dev.port p).rx ∧
        Keeps [.fab] s.dev d ∧ KeepsRegs [] s.dev d) ∧
    (∀ (s : State) (p : Port) (f : Frame) (k : Nat) (h : LeadHdr), h = leadHdr f.lead → s.dev.expects p f = true →
      s.dev.slotOwned p h = false → Acts (.frameReceive p ⟨f, k⟩) s fun d =>
        (d.port p).rx = (s.dev.port p).rx ∧ d.reg (regAddr 8 0x10) = satAdd 32 (s.dev.reg (regAddr 8 0x10)) 1 ∧ d.saw 8 6 = true ∧
        Keeps [.net, .fab, .slices, .sessions] s.dev d ∧ KeepsRegs (regAddr 8 0x10 :: eventRegs 8) s.dev d) ∧
    (∀ (s : State) (p : Port) (f : Frame) (k : Nat), s.dev.portUp p = true → leadOk f = false → Acts (.frameReceive p ⟨f, k⟩) s fun d =>
      d.reg (regAddr 8 0x2C) = satAdd 32 (s.dev.reg (regAddr 8 0x2C)) 1 ∧ Keeps [] s.dev d ∧ KeepsRegs [regAddr 8 0x2C] s.dev d)) ∧
  ((∀ (s : State) (p : Port) (r : RxFrame), (s.dev.port p).rx.find? (fun x => decide (x.slot ≤ s.dev.slotLast)) = some r →
      tooOld s.dev.now (leadHdr r.fr.lead) = false →
      (∀ k ∈ framePkts r.fr, pktChip k = s.dev.coord ∧ s.dev.routeOf k p (leadHdr r.fr.lead).dline = .here) →
      Acts (.framePresent p) s fun d =>
        (∀ k ∈ framePkts r.fr, k ∈ d.net.flight ∨ (ringStop (pktCl k), k) ∈ d.net.atStop ∨ ∃ w ∈ d.fab.adds, w.pkt = k) ∧
        (∀ k, framePkts r.fr = [k] → isAdd k = false → s.dev.net.atStop = [] → s.dev.stopAdmits (ringStop (pktCl k)) k = true →
          d.net.flight = s.dev.net.flight ++ [k] ∧ d.net.atStop = []) ∧
        (d.port p).rx = eraseFirst (fun x => x == r) (s.dev.port p).rx ∧
        (r.late = true → d.reg (regAddr 8 0x24) = satAdd 32 (s.dev.reg (regAddr 8 0x24)) 1 ∧ d.saw 8 8 = true) ∧
        Keeps [.net, .fab, .slices, .sessions] s.dev d ∧ KeepsRegs (regAddr 8 0x24 :: (eventRegs 8 ++ linkRegs)) s.dev d) ∧
    (∀ (s : State) (p : Port) (e : Nat) (k : Packet) (h : LeadHdr) (en : Nat × Nat × Nat × Nat × Nat), (s.dev.itemsFor p).head? = some (.own e k) →
      pktForm k = 2 → k.payload.length ≤ 64 → (pktClass k).1 = 0 → s.dev.routeOf k 12 0 = .port p → s.dev.portUp p = true →
      s.dev.fld (fPortSched p) = 1 → h = sourceLead k →
      (slotAfter (slotsOf (s.dev.entries true p) h.use) (s.dev.startFrom p h.use e) 0).bind (entryAt (s.dev.entries true p)) = some en →
      (s.dev.port p).outLen (s.dev.entries true p) en s.dev.slotNow + k.payload.length + 3 ≤ en.2.2.2.2 →
      (s.dev.port p).replayLen + k.payload.length + 3 ≤ 8192 →
      Acts (.frameEligible p) s fun d =>
        d.fab.out = eraseFirst (fun x => x == (e, k)) s.dev.fab.out ∧ d.fab.wait = s.dev.fab.wait ∧ (∃ x, (d.port p).replay = (s.dev.port p).replay ++ [x] ∧ framePkts x.fr = [k] ∧ x.fr.tail = tailFlit x.fr.lead x.fr.body ∧
          (leadHdr x.fr.lead).lseq = mapGet (fun _ => 0) (s.dev.port p).txSeq h.seqKey % 4096 ∧ (leadHdr x.fr.lead).owner = h.owner ∧
          (leadHdr x.fr.lead).slot = x.first % 2 ^ 32 ∧ (leadHdr x.fr.lead).sendUs = x.first * 8 / 25 / 1024 % 2 ^ 32 ∧
          e ≤ x.first ∧ s.dev.slotFirst ≤ x.first ∧ x.first < x.last ∧ slotIs (s.dev.entries true p) h.use (x.first % 4000) = true) ∧
        Keeps [.fab] s.dev d ∧ KeepsRegs [] s.dev d))

/-- An acknowledgement word releases every frame of its key up to its LSEQ; a frame not acknowledged 2 µs after its tail is sent
again, counted (08 R282). A credit word gives open credits back (R278). At the end of a window a core's, and a slice's at an edge stop, use of its express quota falls by the quota (07 R236, R237); the credit
of a row that has been granted returns to its slice channel (R234); a router that fails withdraws its cluster, and the express route
tables are to be rewritten within 20 µs (R248); a generation bump that waited takes place once the generation is 10 ms old (08 R296); a chain packet whose rows have
landed goes on to the next hop (09 R321). -/
def Obligations.LinksKeepTheirWordsAndQuotas : Prop :=
  ((∀ (s : State) (p : Port) (h : LeadHdr) (l : Nat), h.owner < 4096 → h.lclass < 4 → h.net < 2 → l < 4096 → s.dev.portUp p = true →
      Acts (.ackWord p (ackWord h false l)) s fun d =>
        (d.port p).replay = (s.dev.port p).replay.filter (fun f =>
          !((leadHdr f.fr.lead).seqKey == h.seqKey && decide ((l + 4096 - (leadHdr f.fr.lead).lseq) % 4096 < 2048))) ∧
        Keeps [.fab] s.dev d ∧ KeepsRegs [] s.dev d) ∧
    (∀ (s : State) (p : Port) (owner : SliceId) (lclass : BitVec 2) (net : Net) (f : SentFrame) (a : Nat), s.dev.portUp p = true →
      (s.dev.port p).replay.find? (fun g => (leadHdr g.fr.lead).seqKey ==
        owner.toNat * 8 + lclass.toNat * 2 + (match net with | .req => 0 | .rep => 1)) = some f →
      (s.dev.port p).replay.all (fun g => g == f || (leadHdr g.fr.lead).seqKey != (leadHdr f.fr.lead).seqKey) = true →
      f.last * 8 / 25 + 2000 ≤ s.dev.now → f.first < f.last → tooOld s.dev.now (leadHdr f.fr.lead) = false →
      slotAfter (slotsOf (s.dev.entries true p) (leadHdr f.fr.lead).use)
        (s.dev.freeFrom p (fun g => g == f) (leadHdr f.fr.lead).use) 0 = some a → tooOld (a * 8 / 25) (leadHdr f.fr.lead) = false →
      ((leadHdr f.fr.lead).lclass = 0 → s.dev.fld (fPortSched p) ≠ 0) → Acts (.replayTimeout p owner lclass net) s fun d =>
        (∃ g ∈ (d.port p).replay, g.fr = f.fr ∧ g.first = a ∧ g.again = true) ∧
        (d.port p).replay.filter (fun g => (leadHdr g.fr.lead).seqKey != (leadHdr f.fr.lead).seqKey) =
          (s.dev.port p).replay.filter (fun g => (leadHdr g.fr.lead).seqKey != (leadHdr f.fr.lead).seqKey) ∧
        d.reg (regAddr 8 (0x80 + 8 * p.val)) = satAdd 32 (s.dev.reg (regAddr 8 (0x80 + 8 * p.val))) 1 ∧
        Keeps [.fab] s.dev d ∧ KeepsRegs [regAddr 8 (0x80 + 8 * p.val)] s.dev d) ∧
    (∀ (s : State) (p : Port) (w : CtrlWord), s.dev.portUp p = true → bits w.toNat 127 124 = 5 → Acts (.creditWord p w) s fun d =>
      (∀ k, k < 4 → mapGet (fun _ => 1024) (d.port p).credits k =
        mapGet (fun _ => 1024) (s.dev.port p).credits k + bits w.toNat (123 - 12 * k) (112 - 12 * k)) ∧
      Keeps [.fab] s.dev d ∧ KeepsRegs [] s.dev d)) ∧
  ((∀ (s : State) (core : CoreId) (sl : Slice), s.dev.sliceOf (core.val / 8) = some sl →
      CoreActs (.quotaWindow (.core core) .req) core s (fun t => t = { s.dev.core core with
        quotaReq := (s.dev.core core).quotaReq - quotaOf sl 0 core }) ∧
      CoreActs (.quotaWindow (.core core) .rep) core s (fun t => t = { s.dev.core core with
        quotaRep := (s.dev.core core).quotaRep - quotaOf sl 1 core })) ∧
    (∀ (s : State) (stop : Fin 27) (slice : SliceId) (net : Net) (sl : Slice) (n : Nat), n = (match net with | .req => 0 | .rep => 1) →
      s.dev.slice? slice.toNat = some sl →
      (∀ w ∈ s.dev.net.atStop, w.1 = stop.val → pktSlice w.2 = slice.toNat → pktNet w.2 ≠ n) → Acts (.quotaWindow (.stop stop slice) net) s fun d =>
        d.stopUse stop slice.toNat n = s.dev.stopUse stop slice.toNat n - quotaOf sl n (0x400 + stop) ∧
        Keeps [.net] s.dev d ∧ KeepsRegs [] s.dev d) ∧
    (∀ (s : State) (slice : SliceId) (net : Net) (ch : BitVec 16) (sl : Slice) (n k : Nat) (rest : List (Nat × Nat × Nat)),
      n = (match net with | .req => 0 | .rep => 1) →
      s.dev.slice? slice.toNat = some sl → (∃ before after, sl.chanOwed = before ++ (n, ch.toNat, k + 1) :: after ∧ rest = before ++ after ∧
        ∀ y ∈ before, y.1 = n → y.2.1 = ch.toNat → y.2.2 = 0) → Acts (.sliceChannelCredit slice net ch) s fun d =>
        (∃ x, d.slice? slice.toNat = some x ∧ chanInUse x n ch.toNat = chanInUse sl n ch.toNat - 1 ∧
          x.chanOwed = rest ++ (if k = 0 then [] else [(n, ch.toNat, k)]) ∧
          (∀ m c, (m, c) ≠ (n, ch.toNat) → chanInUse x m c = chanInUse sl m c) ∧
          { x with chanUsed := [], chanOwed := [] } = { sl with chanUsed := [], chanOwed := [] }) ∧
        Keeps [.slices] s.dev d ∧ KeepsRegs [] s.dev d) ∧
    (∀ (s : State) (cl : Cl), s.dev.routerFailed cl = false → s.dev.fld (fClState cl) = 0 → s.dev.fld (fSite cl) ≠ 0xE →
      (∀ sl ∈ s.dev.slices, sl.key ≠ 0 → sl.fo.through cl = false) → (∀ l ∈ s.dev.vault.loads, cl.val ∉ l.fo.clusters) →
      Acts (.routerFail cl) s fun d =>
        d.routerFailed cl = true ∧ d.fld (fSite cl) = 0xE ∧ d.fld (fClState cl) = 3 ∧ d.saw 7 0 = true ∧ d.saw 14 2 = true ∧
        d.net = { s.dev.net with rewriteAt := some (s.dev.net.rewriteAt.getD (s.dev.time.ticks + 20000)) } ∧
        Keeps [.net, .hlth, .sessions, .ledger] s.dev d) ∧
    (∀ (s : State) (cl : Cl), cl.val ∈ s.dev.fab.genWait → s.dev.genRecent cl ((s.dev.fld (fClGen cl) + 1) % 256) = false →
      Acts (.generationBumpDeferred cl) s fun d =>
        d.fld (fClGen cl) = (s.dev.fld (fClGen cl) + 1) % 256 ∧ cl.val ∉ d.fab.genWait ∧
        (cl.val, s.dev.fld (fClGen cl), s.dev.time.ticks) ∈ d.fab.genPast ∧
        Keeps [.fab] s.dev d ∧ KeepsRegs [regAddr 8 (0x200 + 4 * cl.val)] s.dev d) ∧
    (∀ (s : State) (slice : SliceId) (hop : Fin 16) (p : Packet) (l : Load) (c : ChainHold) (k : ChainRec) (n : Nat),
      s.dev.vault.chain.find? (fun c => c.slice == slice.toNat && c.hop == hop.val && c.pkt == p) = some c → c.granted = true →
      s.dev.load? slice.toNat = some l → l.fo.hop c.ctab (hop.val + 1) = some k → k.core < 576 → (longHdr p.hdr).dchip = s.dev.coord →
      n ≤ 8 → (longHdr p.hdr).len = 8 * n → Acts (.chainForward slice hop p) s fun d => ∃ q,
        d.vault = { s.dev.vault with chain := eraseFirst (fun x => x == c) s.dev.vault.chain ++ chainOn slice.toNat c.ctab (hop.val + 1) c.hops q } ∧
        d.net = { s.dev.net with flight := s.dev.net.flight ++ [q] } ∧ (longHdr q.hdr).dcl = k.core / 8 ∧
        graRow (longHdr q.hdr).gra = graRow (longHdr p.hdr).gra ∧ graCluster (longHdr q.hdr).gra = k.core / 8 ∧
        longOk q = true ∧ flitRows n q.payload = flitRows n p.payload ∧ Keeps [.net, .vault] s.dev d ∧ KeepsRegs [] s.dev d))

/-- A BEGIN of FOLIO_PUT whose entry can be placed makes it ARRIVING with no row written; one that cannot is refused with 0x0960 and
reported (12 R387; 09 R307, R308, Table 9.7). The PIPE records name the pipeline's devices, and the first places this device's part (09 R334). A DATA message of one
whole row with its CRC right writes that row; with its CRC wrong it writes nothing and counts (12 R387). A commit whose digest
agrees makes the entry STORED; one whose digest differs discards it (09 R332). DELETE removes an entry that nothing refers to,
PIN and UNPIN set and clear its pin within the pin limit, each recorded in the audit ledger; LIST answers the directory records
from an index on (12 R387; 09 R309, Table 9.1, Table 9.7). -/
def Obligations.LibraryDepositsAndAnswers : Prop :=
  ((∀ (s : State) (h : MsgHdr) (b : PutBegin) (x : Session) (st : Option Nat) (n : Nat) (pl : List (Nat × Nat)), s.dev.inTurn h roleOp x →
      s.dev.ledgerFull = false → s.dev.hibernate = false → (b.kind = 1 ∨ b.kind = 2) →
      (b.stack = 0xFF ∧ st = none ∨ b.stack.toNat < 12 ∧ st = some b.stack.toNat ∧ s.dev.fld (fStackState b.stack.toNat) ≠ 3) →
      n = (if b.devices = 0 then b.rows.toNat else 0) → b.key ≠ 0 → s.dev.entry? b.key.toNat = none → s.dev.vault.lib.length < 65536 →
      s.dev.depositPlan b.key.toNat st n = some ([], pl) → Acts (.folioPutBegin h b) s fun d =>
        (∃ e, d.vault = { s.dev.vault with lib := s.dev.vault.lib ++ [e] } ∧ e.key = b.key.toNat ∧ e.state = .arriving ∧ e.folio = (b.kind == 1) ∧
          e.rows = n ∧ e.digest = b.digest ∧ e.data = [] ∧ e.depositing = true ∧ e.pin = false ∧ e.pipeLen = b.devices.toNat ∧
          e.parts.map (fun q => (q.stack, q.rows)) = pl ∧ ∀ f ∈ s.dev.vault.lib, f.index ≠ e.index) ∧
        d.answers h 0 ∧ s.dev.noted d 5 x.role 0 ∧ Keeps [.vault, .sessions, .ledger] s.dev d ∧ KeepsRegs auditRegs s.dev d) ∧
    (∀ (s : State) (h : MsgHdr) (b : PutBegin) (x : Session) (st : Option Nat) (n : Nat), s.dev.inTurn h roleOp x →
      s.dev.ledgerFull = false → s.dev.hibernate = false → (b.kind = 1 ∨ b.kind = 2) →
      (b.stack = 0xFF ∧ st = none ∨ b.stack.toNat < 12 ∧ st = some b.stack.toNat) → n = (if b.devices = 0 then b.rows.toNat else 0) →
      s.dev.entry? b.key.toNat = none → s.dev.depositPlan b.key.toNat st n = none → Acts (.folioPutBegin h b) s fun d =>
        d.answers h 0x0960 ∧ d.saw 9 7 = true ∧ Keeps [.sessions, .ledger] s.dev d ∧ KeepsRegs (eventRegs 9 ++ auditRegs) s.dev d) ∧
    (∀ (s : State) (h : MsgHdr) (key : BitVec 64) (r : PipeRec) (t : List PipeRec) (x : Session) (e : Entry) (lib : List Entry) (pl : List (Nat × Nat)),
      s.dev.inTurn h roleOp x → s.dev.hibernate = false → s.dev.entry? key.toNat = some e → e.depositing = true →
      t.length + 1 ≤ 150 → 16 + 56 * (t.length + 1) ≤ s.dev.maxBody x → t.length + 1 ≤ e.pipeLen →
      lib = mapIf (fun f => f.key == key.toNat) (fun f => { f with parts := [] }) s.dev.vault.lib →
      (∀ k, e.stack = some k → r.rows.toNat ≤ s.dev.freeRows lib k) → s.dev.placement lib e.stack r.rows.toNat = some pl →
      Acts (.folioPutPipe h key 0 (r :: t)) s fun d =>
        (∃ f, d.entry? key.toNat = some f ∧ f.rows = r.rows.toNat ∧ f.digest = r.digest ∧ f.parts.map (fun q => (q.stack, q.rows)) = pl ∧
          (∀ i y, (r :: t)[i]? = some y → f.pipeAt i = some ⟨y.coord.toNat, y.rows.toNat, y.digest⟩) ∧
          (∀ i, t.length < i → f.pipeAt i = e.pipeAt i) ∧ f.data = e.data ∧ f.state = e.state) ∧
        d.answers h 0 ∧ Keeps [.vault, .sessions] s.dev d ∧ KeepsRegs [] s.dev d) ∧
    (∀ (s : State) (h : MsgHdr) (key : BitVec 64) (first : BitVec 8) (t : List PipeRec) (x : Session) (e : Entry), s.dev.inTurn h roleOp x →
      s.dev.hibernate = false → s.dev.entry? key.toNat = some e → e.depositing = true → first ≠ 0 → t ≠ [] → t.length ≤ 150 →
      16 + 56 * t.length ≤ s.dev.maxBody x → first.toNat + t.length ≤ e.pipeLen → Acts (.folioPutPipe h key first t) s fun d =>
        (∃ f, d.entry? key.toNat = some f ∧ f = { e with pipe := f.pipe } ∧
          (∀ i y, t[i]? = some y → f.pipeAt (first.toNat + i) = some ⟨y.coord.toNat, y.rows.toNat, y.digest⟩) ∧
          ∀ i, i < first.toNat ∨ first.toNat + t.length ≤ i → f.pipeAt i = e.pipeAt i) ∧
        d.answers h 0 ∧ Keeps [.vault, .sessions] s.dev d ∧ KeepsRegs [] s.dev d) ∧
    (∀ (s : State) (h : MsgHdr) (key offset : BitVec 64) (crc : BitVec 32) (data : List Byte) (x : Session) (e : Entry),
      s.dev.inTurn h roleOp x → s.dev.hibernate = false → s.dev.entry? key.toNat = some e → e.depositing = true → e.pipeLen = 0 →
      data.length = 512 → offset.toNat % 512 = 0 → offset.toNat + 512 ≤ e.rows * 512 →
      (crc32c (data.map (fun b => b.toNat)) = crc.toNat → Acts (.folioPutData h key offset crc data) s fun d =>
        (∃ f, d.entry? key.toNat = some f ∧ f.row (offset.toNat / 512) = BitVec.ofNat 4096 (leNat (data.map (fun b => b.toNat))) ∧
          (∀ r, r ≠ offset.toNat / 512 → f.row r = e.row r) ∧ f.rows = e.rows ∧ f.state = e.state ∧ f.digest = e.digest) ∧
        Keeps [.vault, .sessions] s.dev d ∧ KeepsRegs [] s.dev d) ∧
      (crc32c (data.map (fun b => b.toNat)) ≠ crc.toNat → Acts (.folioPutData h key offset crc data) s fun d =>
        d.reg (regAddr 12 0x7C) = satAdd 32 (s.dev.reg (regAddr 12 0x7C)) 1 ∧ Keeps [.sessions] s.dev d ∧
        KeepsRegs [regAddr 12 0x7C, regAddr 12 0x78] s.dev d)) ∧
    (∀ (s : State) (h : MsgHdr) (key : BitVec 64) (codes : PipeCodes) (read : CommitRead) (x : Session) (e : Entry),
      s.dev.inTurn h roleOp x → s.dev.ledgerFull = false → s.dev.hibernate = false → s.dev.entry? key.toNat = some e →
      e.depositing = true → e.bad = [] → (e.pipeLen = 0 ∨ codes.earlier = 0) →
      ((∀ b ∈ read.bad, e.rows ≤ b.row.toNat) →
        (sha384 e.bytes = e.digest → (e.pipeLen ≤ 1 ∨ codes.later = 0) →
          (e.folio = true → loadFail (s.dev.commitReads e read) e.row e.rows (folioOf e.row) [] none = none) →
          Acts (.folioCommit h key codes read) s fun d =>
            (∃ f, d.entry? key.toNat = some f ∧ f.state = .stored ∧ f.depositing = false ∧ f.data = e.data ∧ f.parts = e.parts) ∧
            d.answers h 0 ∧ s.dev.noted d 5 x.role 0 ∧
            (∀ z, read.fixed = [z] → z.key = key → z.row.toNat < e.rows → 0 < z.symbols →
              d.reg (regAddr 9 0x1C) = satAdd 32 (s.dev.reg (regAddr 9 0x1C)) z.symbols) ∧
            Keeps [.vault, .sessions, .ledger] s.dev d ∧ KeepsRegs (regAddr 9 0x1C :: auditRegs) s.dev d) ∧
        (sha384 e.bytes ≠ e.digest → Acts (.folioCommit h key codes read) s fun d =>
          d.entry? key.toNat = none ∧ d.answers h 0x0962 ∧ d.saw 9 8 = true ∧ s.dev.noted d 5 x.role 0x0962 ∧
          Keeps [.vault, .sessions, .ledger] s.dev d ∧ KeepsRegs (regAddr 9 0x1C :: (eventRegs 9 ++ auditRegs)) s.dev d)) ∧
      ((∃ b ∈ read.bad, b.row.toNat < e.rows) → Acts (.folioCommit h key codes read) s fun d =>
        d.entry? key.toNat = none ∧ d.answers h 0x0968 ∧ d.saw 9 8 = true ∧ s.dev.noted d 5 x.role 0x0968 ∧
        Keeps [.vault, .sessions, .ledger] s.dev d))) ∧
  ((∀ (s : State) (h : MsgHdr) (key : BitVec 64) (x : Session) (e : Entry), s.dev.inTurn h roleOp x → s.dev.ledgerFull = false →
      s.dev.hibernate = false → s.dev.entry? key.toNat = some e →
      (s.dev.refs e = 0 → Acts (.libraryDelete h key) s fun d =>
        d.vault = { s.dev.vault with lib := s.dev.vault.lib.filter (fun f => f.key != key.toNat) } ∧ d.answers h 0 ∧
        s.dev.noted d 5 x.role 0 ∧ Keeps [.vault, .sessions, .ledger] s.dev d ∧ KeepsRegs auditRegs s.dev d) ∧
      (s.dev.refs e ≠ 0 → Acts (.libraryDelete h key) s fun d =>
        d.answers h 0x0967 ∧ s.dev.noted d 5 x.role 0x0967 ∧ Keeps [.sessions, .ledger] s.dev d ∧ KeepsRegs auditRegs s.dev d) ∧
      ((e.pin = true ∨ s.dev.pinned + e.rows * 512 ≤ s.dev.reg (regAddr 9 8) * 1000000000) → Acts (.libraryPin h key) s fun d =>
        (∃ f, d.entry? key.toNat = some f ∧ f = { e with pin := true }) ∧ d.answers h 0 ∧ s.dev.noted d 5 x.role 0 ∧
        Keeps [.vault, .sessions, .ledger] s.dev d ∧ KeepsRegs auditRegs s.dev d) ∧
      (e.pin = false → s.dev.reg (regAddr 9 8) * 1000000000 < s.dev.pinned + e.rows * 512 → Acts (.libraryPin h key) s fun d =>
        d.answers h 0x0966 ∧ Keeps [.sessions, .ledger] s.dev d ∧ KeepsRegs auditRegs s.dev d) ∧
      Acts (.libraryUnpin h key) s fun d =>
        (∃ f, d.entry? key.toNat = some f ∧ f = { e with pin := false }) ∧ d.answers h 0 ∧ s.dev.noted d 5 x.role 0 ∧
        Keeps [.vault, .sessions, .ledger] s.dev d ∧ KeepsRegs auditRegs s.dev d) ∧
    (∀ (s : State) (h : MsgHdr) (first : BitVec 64) (x : Session) (l : List Entry) (n : Nat), s.dev.inTurn h roleOp x → first.toNat ≤ 65535 →
      l = (s.dev.vault.lib.filter (fun e => decide (first.toNat ≤ e.index))).foldl (fun a e => insertIndex e a) [] →
      n = (s.dev.maxBody x - 32) / 174 →
      (l.length ≤ n → Acts (.libraryList h first) s fun d =>
        d.told h.session.toNat (.result h.seq.toNat 0 0xFFFFFFFF
          (bytesOf (toLe 2 l.length ++ toLe 6 0 ++ toLe 8 0xFFFFFFFFFFFFFFFF ++ l.flatMap s.dev.listRecord))) ∧
        Keeps [.sessions] s.dev d ∧ KeepsRegs [] s.dev d) ∧
      (∀ e f, l[n - 1]? = some e → l[n]? = some f → Acts (.libraryList h first) s fun d =>
        d.told h.session.toNat (.result h.seq.toNat 0 0xFFFFFFFF
          (bytesOf (toLe 2 n ++ toLe 6 0 ++ toLe 8 (e.index + 1) ++ (l.take n).flatMap s.dev.listRecord))) ∧
        Keeps [.sessions] s.dev d ∧ KeepsRegs [] s.dev d)))

/-- A load begins once its clusters are free: they scrub for the slice, and the load's t₀ is now (09 Table 9.6). A mover whose edge link is not
fenced sends rows of the library as a packet to the row its descriptor names, up to 8 of a stride of 1 and else one, the symbols corrected in
the read are counted (R313), and a chain packet is to go on from its first hop (R317, R320, R321); an uncorrectable row ends the load (R329). With every row moved and acknowledged the slice holds the folio and its launch
is set for the resume EC (R327): one that the start gave is set from t₀ on. -/
def Obligations.LoadsMoveTheFolio : Prop :=
  (∀ (s : State) (slice : SliceId) (l : Load) (sl : Slice), s.dev.load? slice.toNat = some l → s.dev.slice? slice.toNat = some sl →
    l.phase = .queued → sl.running = false → sl.stopping = none → sl.killAt = none →
    (∀ r ∈ s.dev.hlth.repairs, r.slice = slice.toNat → r.scrubbed = true) →
    s.dev.clustersIn 1 slice.toNat = [] →
    (∀ c ∈ l.fo.clusters, c < 72 ∧ s.dev.fld (fClState c) = 0 ∧ c ∉ s.dev.fab.genWait) → Acts (.loadBegin slice) s fun d => ∃ y,
      (∀ c ∈ l.fo.clusters, d.fld (fClState c) = 2 ∧ d.fld (fClSlice c) = slice.toNat ∧ d.fld (fClGen c) = s.dev.fld (fClGen c)) ∧
      d.load? slice.toNat = some { l with phase := .moving, t0 := s.dev.now, done := [], sent := [] } ∧
      d.slice? slice.toNat = some y ∧ y.fo = l.fo ∧ y.key = 0 ∧ (l.resumeEc = 0 → y = { sl with fo := l.fo, key := 0 }) ∧
      (l.resumeEc ≠ 0 → y.launchAt = some l.resumeEc ∧ y.due = l.resumeEc ∧ y.gate = 0 ∧ y.running = false) ∧
      Keeps [.cores, .slices, .vault, .teller] s.dev d ∧ KeepsRegs (l.fo.clusters.map (fun c => regAddr 8 (0x200 + 4 * c))) s.dev d) ∧
  (∀ (s : State) (slice : SliceId) (m : Fin 24) (fixed : List FixedRow) (late : Nat) (l : Load) (x : MoverDesc) (i : Nat) (e : Entry),
    s.dev.load? slice.toNat = some l → s.dev.moverLoad m = some l → s.dev.loadSetUp l = true → s.dev.outstanding m < 256 →
    runningDesc (l.plan m) (l.doneBy m) = some (x, i) → s.dev.entry? (l.entryKey x) = some e →
    (∀ b ∈ e.bad, b / 8 < mdRow0 x + i ∨ mdRow0 x + i + mdPktRows x i ≤ b / 8) →
    hopDst l.fo x i 0 < 2 ^ 32 → s.dev.fenced (clHalf (moverCl m)) = false →
    (mdOpc x = 1 → Acts (.moverLoad slice m 1 ⟨none, fixed, late⟩) s fun d => ∃ p f,
      d.net = { s.dev.net with flight := s.dev.net.flight ++ [p] } ∧ longOk p = true ∧ (longHdr p.hdr).op = 0 ∧
      (longHdr p.hdr).gra = hopDst l.fo x i 0 ∧ flitRows (mdPktRows x i) p.payload = (List.range (mdPktRows x i)).map (fun j => moverRow (hopDst l.fo x i 0 + j) (e.row (mdRow0 x + i + j))) ∧
      d.load? slice.toNat = some f ∧ f.doneBy m = l.doneBy m + mdPktRows x i ∧ (∃ q, f.sent = l.sent ++ [(m.val, q)] ∧ (longHdr p.hdr).seq = q % 65536) ∧
      d.reg (regAddr 7 0x30) = (s.dev.reg (regAddr 7 0x30) + late) % 2 ^ 32 ∧
      d.vault.chain = s.dev.vault.chain ∧
      (∀ z, fixed = [z] → z.key.toNat = e.key → mdRow0 x + i ≤ z.row.toNat → z.row.toNat < mdRow0 x + i + mdPktRows x i → 0 < z.symbols →
        d.reg (regAddr 9 0x1C) = satAdd 32 (s.dev.reg (regAddr 9 0x1C)) z.symbols) ∧
      Keeps [.net, .vault] s.dev d ∧ KeepsRegs [regAddr 9 0x1C, regAddr 7 0x30] s.dev d) ∧
    (mdOpc x = 2 → 2 ≤ mdHops x → Acts (.moverChain slice m 1 ⟨none, fixed, late⟩) s fun d => ∃ p f,
      d.net = { s.dev.net with flight := s.dev.net.flight ++ [p] } ∧ longOk p = true ∧ (longHdr p.hdr).gra = hopDst l.fo x i 0 ∧
      flitRows (mdPktRows x i) p.payload = (List.range (mdPktRows x i)).map (fun j => moverRow (hopDst l.fo x i 0 + j) (e.row (mdRow0 x + i + j))) ∧ d.vault.chain = s.dev.vault.chain ++ [⟨slice.toNat, mdCtab x, 0, mdHops x, p, false⟩] ∧
      d.load? slice.toNat = some f ∧ f.doneBy m = l.doneBy m + mdPktRows x i ∧ Keeps [.net, .vault] s.dev d ∧ KeepsRegs [regAddr 9 0x1C, regAddr 7 0x30] s.dev d) ∧
    (∀ b : VaultFault, mdRow0 x + i ≤ b.row.toNat → b.row.toNat < mdRow0 x + i + mdPktRows x i → b.copy = [] → mdOpc x = 1 → Acts (.moverLoad slice m 1 ⟨some b, fixed, late⟩) s fun d =>
      d.net = s.dev.net ∧ d.load? slice.toNat = none ∧ d.saw 9 1 = true ∧
      d.reg (regAddr 9 0x20) = satAdd 32 (s.dev.reg (regAddr 9 0x20)) 1 ∧ d.reg (regAddr 9 0x28) = satAdd 32 (s.dev.reg (regAddr 9 0x28)) 1)) ∧
  (∀ (s : State) (slice : SliceId) (l : Load) (sl : Slice) (peers : List (BitVec 64)) (last e : Nat), s.dev.load? slice.toNat = some l →
    s.dev.slice? slice.toNat = some sl → s.dev.loadDone l = true → (∀ r ∈ s.dev.hlth.repairs, r.slice ≠ slice.toNat) →
    (l.resumeEc ≠ 0 → sl.launchAt = some l.resumeEc) → (l.resumeEc = 0 → s.dev.coordinates sl = true ∧ sl.gens.length ≤ peers.length) →
    last = (peers.map (fun p => p.toNat)).foldl max s.dev.now →
    e = (if l.resumeEc ≠ 0 then l.resumeEc else s.dev.resumeFrom last) → Acts (.loadReady slice (.ready peers)) s fun d =>
      (∃ x, d.slice? slice.toNat = some x ∧ x.key = l.key ∧ x.launchAt = some e ∧
        (l.resumeEc ≠ 0 → x = { sl with key := l.key, reloaded := l.retried }) ∧
        (l.resumeEc = 0 → x.due = e ∧ x.gate = 0 ∧ x.launched = true ∧ x.running = false ∧ x.frames = [] ∧ x.raises = sl.early)) ∧
      (l.resumeEc = 0 → e % 1280 = 0 ∧ last + s.dev.fld ⟨regAddr 9 4, 7, 4⟩ * 10000 ≤ e ∧
        e < last + s.dev.fld ⟨regAddr 9 4, 7, 4⟩ * 10000 + 1280) ∧
      d.load? slice.toNat = none ∧ d.saw 9 0 = true ∧ d.reg (regAddr 9 0x24) = satAdd 32 (s.dev.reg (regAddr 9 0x24)) 1 ∧
      Keeps [.slices, .vault, .teller, .sessions] s.dev d ∧
      KeepsRegs (regAddr 9 0 :: regAddr 9 0x24 :: regAddr 9 0x34 :: eventRegs 9) s.dev d)

/-- Every interval the use measure of each folio decays and takes the frames completed since (09 R335). A pseudo-channel whose
corrected symbols of an hour pass the limit is retired: a spare serves it while the stack has one, else its share leaves the
library (R314). A start whose exchange stays without an answer for 10 ms is refused (10 R347). -/
def Obligations.VaultTimersAct : Prop :=
  (∀ s : State, s.dev.vault.useTick + s.dev.fld ⟨regAddr 9 4, 27, 16⟩ * 1000000 ≤ s.dev.time.ticks → Acts .useUpdate s fun d =>
    d.vault.useTick = s.dev.time.ticks ∧ d.vault.lib.length = s.dev.vault.lib.length ∧
    (∀ (i : Nat) (e : Entry), s.dev.vault.lib[i]? = some e → ∃ f : Entry, d.vault.lib[i]? = some f ∧ f.key = e.key ∧ f.state = e.state ∧ f.data = e.data ∧
      (if e.folio then f.use = min (2 ^ 32 - 1) (e.use - e.use / 2 ^ s.dev.fld ⟨regAddr 9 4, 31, 28⟩ + e.fresh) ∧ f.fresh = 0
       else f = e)) ∧ Keeps [.vault] s.dev d ∧ KeepsRegs [] s.dev d) ∧
  (∀ (s : State) (stack : Fin 12) (pc : Fin 62) (n : Nat), (∀ x ∈ s.dev.vault.corr, x.1 ≠ stack.val * 64 + pc.val) →
    s.dev.fld (fStackState stack) ≠ 3 → (stack.val, pc.val) ∉ s.dev.vault.lost → Acts (.pcCorrectionCheck stack pc n []) s fun d =>
      (n ≠ 0 → d.reg (regAddr 9 0x1C) = satAdd 32 (s.dev.reg (regAddr 9 0x1C)) n) ∧
      (n ≤ s.dev.fld ⟨regAddr 14 4, 15, 8⟩ * 1024 → d.fld (fStackSpares stack) = s.dev.fld (fStackSpares stack) ∧
        d.vault.lost = s.dev.vault.lost) ∧
      (s.dev.fld ⟨regAddr 14 4, 15, 8⟩ * 1024 < n → 0 < s.dev.fld (fStackSpares stack) →
        d.fld (fStackSpares stack) = s.dev.fld (fStackSpares stack) - 1 ∧ d.vault.lost = s.dev.vault.lost ∧ d.saw 9 5 = true) ∧
      (s.dev.fld ⟨regAddr 14 4, 15, 8⟩ * 1024 < n → s.dev.fld (fStackSpares stack) = 0 →
        d.vault.lost = s.dev.vault.lost ++ [(stack.val, pc.val)] ∧ d.saw 9 6 = true) ∧
      Keeps [.vault, .sessions] s.dev d ∧
      KeepsRegs (regAddr 9 0 :: regAddr 9 0x1C :: regAddr 9 (0x40 + 4 * stack.val) :: eventRegs 9) s.dev d) ∧
  (∀ (s : State) (slice : SliceId) (t q : Nat) (x : Session),
    s.dev.tel.starts.find? (fun y => y.1 == slice.toNat && decide (y.2.1 + 10000000 ≤ s.dev.time.ticks)) = some (slice.toNat, t, x.id, q) →
    s.dev.session? x.id = some x → x.fresh → Acts (.startExchangeTimeout slice) s fun d =>
      d.tel.starts = eraseFirst (fun y => y == (slice.toNat, t, x.id, q)) s.dev.tel.starts ∧ d.told x.id (.result q 0x0945 0xFFFFFFFF s.dev.coordData) ∧
      (s.dev.ledgerFull = false → s.dev.noted d 6 x.role 0x0945) ∧
      Keeps [.teller, .sessions, .ledger] s.dev d ∧ KeepsRegs auditRegs s.dev d)

/-- A SESSION_OPEN that passes every check gives an OPENING session with the next ID and its accept; one that fails a check is
refused outside any session with its code, and both are recorded (12 R383, Table 12.5; 15 R461). SESSION_CLOSE, an opening not
answered in 1 s and an idle session each end the session and its streams. -/
def Obligations.SessionsOpenAndClose : Prop :=
  (∀ (s : State) (hp : HostPort) (o : OpenReq), s.dev.tel.opened = true → s.dev.fld ⟨regAddr 12 0, 2 + hp.val, 2 + hp.val⟩ = 0 →
    (∀ x ∈ s.dev.tel.sessions, x.open_ = true ∨ x.openDigest ≠ openDigestOf o) → s.dev.ledgerFull = false → s.dev.frameOk o.frame = true →
    (s.dev.openSessionCode o = 0 → Acts (.sessionOpen hp o) s fun d =>
      (∃ x ∈ d.tel.sessions, x.id = s.dev.tel.nextSession ∧ x.open_ = false ∧ x.hp = hp.val ∧ x.role = o.role.toNat ∧
        x.version = min o.maxVer.toNat s.dev.versions.2 ∧ x.mask = o.mask.toNat ∧ x.keyDigest = leafKey o ∧ x.txSeq = 1 ∧ x.cum = 0 ∧
        ∃ nonce key sig,
          x.loose = [⟨0, .accept x.version o.role.toNat (b2n x.jumbo) o.mask.toNat nonce key s.dev.sec.identity sig, s.dev.now⟩]) ∧
      d.tel.sessions.length = s.dev.tel.sessions.length + 1 ∧ d.tel.nextSession = s.dev.tel.nextSession + 1 ∧
      s.dev.noted d 7 o.role.toNat 0 ∧ Keeps [.teller, .sessions, .ledger, .fresh] s.dev d ∧ KeepsRegs auditRegs s.dev d) ∧
    (∀ code, s.dev.openSessionCode o = code → code ≠ 0 → Acts (.sessionOpen hp o) s fun d =>
      d.tel.refused = s.dev.tel.refused ++ [⟨hp.val, ⟨0, .refuse code s.dev.versions.1 s.dev.versions.2, s.dev.now⟩, 0, 1, 0⟩] ∧
      d.tel.sessions.length = s.dev.tel.sessions.length ∧ s.dev.noted d 7 o.role.toNat code ∧
      Keeps [.teller, .sessions, .ledger] s.dev d ∧
      KeepsRegs (regAddr 12 0 :: regAddr 12 0x50 :: regAddr 12 0x58 :: hostReg hp :: (eventRegs 12 ++ auditRegs)) s.dev d)) ∧
  (∀ (s : State) (h : MsgHdr) (x : Session), s.dev.inTurn h roleAll x → Acts (.sessionClose h) s fun d =>
    d.session? x.id = none ∧ (∀ st ∈ d.tel.streams, st.session ≠ x.id) ∧
    (∃ bitmap, s.dev.lastSaid d x (.ack h.seq.toNat bitmap)) ∧
    Keeps [.slices, .teller, .sessions, .sec] s.dev d ∧ KeepsRegs closeRegs s.dev d) ∧
  (∀ (s : State) (k : Word) (x : Session), s.dev.session? k.toNat = some x → x.open_ = false →
    x.since + 1000000000 ≤ s.dev.time.ticks → Acts (.openingTimeout k) s fun d =>
      d.session? x.id = none ∧ d.tel.refused = s.dev.tel.refused ∧
      Keeps [.slices, .teller, .sessions, .sec] s.dev d ∧ KeepsRegs closeRegs s.dev d) ∧
  (∀ (s : State) (k : Word) (x : Session), s.dev.session? k.toNat = some x → x.open_ = true →
    x.lastTick + s.dev.fld ⟨regAddr 12 4, 31, 24⟩ * 1000000000 ≤ s.dev.time.ticks → Acts (.sessionIdleTimeout k) s fun d =>
      d.session? x.id = none ∧ s.dev.lastSaid d x (.close 0x0C52) ∧ d.saw 12 4 = true ∧
      d.reg (regAddr 12 0x54) = satAdd 32 (s.dev.reg (regAddr 12 0x54)) 1 ∧
      Keeps [.slices, .teller, .sessions, .sec] s.dev d ∧ KeepsRegs (regAddr 12 0x54 :: closeRegs) s.dev d)

/-- An ACK of the host releases the messages it names (12 R384). A message not acknowledged in its interval is sent again and
counted, and after the last try the session closes. An ACK of the device leaves 20 µs after the first message not yet
acknowledged. Lost events are reported once the queue has room (R396). A violation is counted and answered with an ERROR, a
failed tag is counted alone; a datagram whose tag is right is judged by its bytes (R398). A message ahead of a gap in SEQ is received and
waits, and acts in its turn as the gap is filled (R385). -/
def Obligations.WindowsAndViolations : Prop :=
  (∀ (s : State) (h : MsgHdr) (cum : BitVec 64) (bitmap : BitVec 256) (x : Session), s.dev.inTurn h roleAll x →
    (∀ m ∈ x.sent, m.seq < x.txSeq) → Acts (.tellerAck h cum bitmap) s fun d =>
      (∃ y, d.session? h.session.toNat = some y ∧ y.cum = h.seq.toNat ∧ y.unacked = x.unacked ∧
        (∀ m ∈ x.sent, m ∈ y.sent ↔ cum.toNat < m.seq ∧ bitAt bitmap.toNat (m.seq - cum.toNat - 1) = false) ∧
        (∀ m ∈ y.sent, m ∈ x.sent ∨ x.txSeq ≤ m.seq) ∧ (x.waitQ = [] → x.evq = [] → y.txSeq = x.txSeq)) ∧
      Keeps [.sessions] s.dev d ∧ KeepsRegs [] s.dev d) ∧
  (∀ (s : State) (k : Word) (x : Session) (m : SentMsg), s.dev.session? k.toNat = some x → s.dev.retryDue x = some m →
    (m.tries < s.dev.fld ⟨regAddr 12 4, 15, 12⟩ → Acts (.retransmitTimeout k) s fun d =>
      (∃ l, l = mapIf (fun y => y.seq == m.seq) (fun y => SentMsg.mk y.seq y.body s.dev.time.ticks (y.tries + 1) s.dev.now) x.sent ∧
        d.session? k.toNat = some { x with sent := l }) ∧
      d.reg (regAddr 12 0x80) = satAdd 32 (s.dev.reg (regAddr 12 0x80)) 1 ∧
      Keeps [.sessions] s.dev d ∧ KeepsRegs [regAddr 12 0x80] s.dev d) ∧
    (s.dev.fld ⟨regAddr 12 4, 15, 12⟩ ≤ m.tries → Acts (.retransmitTimeout k) s fun d =>
      d.session? x.id = none ∧ s.dev.lastSaid d x (.close 0x0C51) ∧ d.saw 12 4 = true ∧
      Keeps [.slices, .teller, .sessions, .sec] s.dev d ∧ KeepsRegs (regAddr 12 0x54 :: closeRegs) s.dev d)) ∧
  (∀ (s : State) (k : Word) (x : Session), s.dev.session? k.toNat = some x → 0 < x.unacked → x.ackTick + 20000 ≤ s.dev.time.ticks → x.fresh →
    Acts (.ackTimer k) s fun d =>
      (∃ y, d.session? k.toNat = some y ∧ y.unacked = 0 ∧ y.loose = x.loose ++ [⟨x.txSeq, x.ackBody, s.dev.now⟩] ∧
        (x.waitQ = [] → x.evq = [] → y = { x with unacked := 0, txSeq := x.txSeq + 1, loose := y.loose })) ∧
      Keeps [.sessions] s.dev d ∧ KeepsRegs [] s.dev d) ∧
  (∀ (s : State) (k : Word) (x : Session), s.dev.session? k.toNat = some x → 0 < x.evLost → x.evq.length < 4096 →
    Acts (.eventsLost k) s fun d =>
      (∃ y, d.session? k.toNat = some y ∧ y.evLost = 0) ∧ d.saw 12 11 = true ∧
      Keeps [.sessions] s.dev d ∧ KeepsRegs (eventRegs 12) s.dev d) ∧
  (∀ (s : State) (h : MsgHdr) (x : Session), s.dev.session? h.session.toNat = some x →
    (lastSecond s.dev.time.ticks x.tagFails).length < s.dev.fld ⟨regAddr 12 0x14, 31, 24⟩ →
    Acts (.protocolViolation h .tag) s fun d =>
      d.reg (regAddr 12 0x44) = satAdd 32 (s.dev.reg (regAddr 12 0x44)) 1 ∧
      (∃ y, d.session? h.session.toNat = some y ∧ { y with tagFails := [] } = { x with tagFails := [] }) ∧
      Keeps [.sessions] s.dev d ∧ KeepsRegs [regAddr 12 0x44] s.dev d) ∧
  (∀ (s : State) (h : MsgHdr) (k : Violation) (x : Session), s.dev.inTurn h roleAll x → k ≠ .tag → (∀ l, k ≠ .datagram l) →
    (lastSecond s.dev.time.ticks x.errSent).length < 1000 →
    (lastSecond s.dev.time.ticks x.errs).length < s.dev.fld ⟨regAddr 12 0x14, 23, 16⟩ → Acts (.protocolViolation h k) s fun d =>
      d.told h.session.toNat (.error h.seq.toNat (match k with
        | .tag => 0 | .datagram _ => 0 | .version => 0x0C17 | .type => 0x0C11 | .role => 0x0C10 | .length => 0x0C12
        | .reserved => 0x0C13 | .stream => 0x0C14) 0xFFFFFFFF) ∧
      d.reg (regAddr 12 0x50) = satAdd 32 (s.dev.reg (regAddr 12 0x50)) 1 ∧
      Keeps [.sessions] s.dev d ∧ KeepsRegs [regAddr 12 0x50] s.dev d) ∧
  (∀ (s : State) (h : MsgHdr) (bytes : List Byte) (l body : List Nat) (code : Nat) (x : Session), l = bytes.map (fun b => b.toNat) →
    48 ≤ l.length → fieldOf l 0 2 = 0x544C → s.dev.inTurn (rawHdr h l) roleAll x → x.opened l = some body → s.dev.judge x l body = some code →
    (lastSecond s.dev.time.ticks x.errSent).length < 1000 →
    (lastSecond s.dev.time.ticks x.errs).length < s.dev.fld ⟨regAddr 12 0x14, 23, 16⟩ →
    Acts (.protocolViolation h (.datagram bytes)) s fun d =>
      d.told x.id (.error (fieldOf l 8 8) code 0xFFFFFFFF) ∧ d.reg (regAddr 12 0x50) = satAdd 32 (s.dev.reg (regAddr 12 0x50)) 1 ∧
      Keeps [.sessions] s.dev d ∧ KeepsRegs [regAddr 12 0x50] s.dev d) ∧
  (∀ (s : State) (h : MsgHdr) (x : Session), s.dev.session? h.session.toNat = some x → x.open_ = true → x.fresh →
    s.dev.frameOk h.frame = true → h.seq.toNat < 2 ^ 48 → x.cum + 1 < h.seq.toNat → h.seq.toNat ≤ x.cum + 256 → h.seq.toNat ∉ x.got →
    x.cum + 1 ∉ x.got → (∀ a ∈ x.ahead, x.cum < a.1) → Acts (.sessionClose h) s fun d =>
      (∃ y, d.session? h.session.toNat = some y ∧ y.ahead = x.ahead ++ [(h.seq.toNat, .cmd (.sessionClose h))] ∧ y.cum = x.cum ∧
        y.got = x.got ++ [h.seq.toNat]) ∧
      Keeps [.sessions] s.dev d ∧ KeepsRegs [] s.dev d) ∧
  (∀ (s : State) (h g : MsgHdr) (cum : BitVec 64) (bitmap : BitVec 256) (x : Session), s.dev.session? h.session.toNat = some x →
    x.open_ = true → x.fresh → s.dev.frameOk h.frame = true → s.dev.handing = false → h.seq.toNat = x.cum + 1 → x.cum + 2 < 2 ^ 48 →
    x.got = [x.cum + 2] → g.session = h.session → g.seq.toNat = x.cum + 2 → x.ahead = [(x.cum + 2, .cmd (.sessionClose g))] →
    Acts (.tellerAck h cum bitmap) s fun d =>
      d.session? x.id = none ∧ (∃ map, s.dev.lastSaid d x (.ack (x.cum + 2) map)) ∧
      Keeps [.slices, .teller, .sessions, .sec] s.dev d ∧ KeepsRegs closeRegs s.dev d)

/-- STREAM_OPEN gives a stream with an ID that no other has, or is refused with its code (12 R390); STREAM_CLOSE ends one (R391). A
fragment of a shard of the window enters staging; the last one completes the shard if its CRC holds, else the shard is corrupt;
a fragment of a decided frame is counted and refused (R392, R393). -/
def Obligations.StreamsCarryShards : Prop :=
  (∀ (s : State) (h : MsgHdr) (slice : SliceId) (index : BitVec 16) (dir : BitVec 8) (bytes lead : BitVec 32) (x : Session) (code : Nat),
    s.dev.inTurn h roleOp x → dir.toNat ≤ 2 →
    code = s.dev.openCode slice.toNat index.toNat dir.toNat bytes.toNat lead.toNat (s.pullSlot slice.toNat index.toNat) →
    (code = 0 → Acts (.streamOpen h slice index dir bytes lead) s fun d => ∃ st,
      d.tel.streams = s.dev.tel.streams ++ [st] ∧ st.session = x.id ∧ st.slice = slice.toNat ∧ st.index = index.toNat ∧ st.dir = dir.toNat ∧
      st.shards = [] ∧ (∀ y ∈ s.dev.tel.streams, y.id ≠ st.id) ∧
      d.told h.session.toNat (.result h.seq.toNat 0 0xFFFFFFFF (bytesOf (toLe 2 st.id))) ∧
      Keeps [.teller, .sessions] s.dev d ∧ KeepsRegs [] s.dev d) ∧
    (code ≠ 0 → Acts (.streamOpen h slice index dir bytes lead) s fun d =>
      d.answers h code ∧ Keeps [.sessions] s.dev d ∧ KeepsRegs [] s.dev d)) ∧
  (∀ (s : State) (h : MsgHdr) (k : BitVec 16) (x : Session) (st : Stream), s.dev.inTurn h roleOp x →
    s.dev.stream? k.toNat = some st → st.session = x.id → Acts (.streamClose h k) s fun d =>
      d.stream? k.toNat = none ∧ d.answers h 0 ∧ d.saw 12 7 = true ∧
      Keeps [.slices, .teller, .sessions] s.dev d ∧ KeepsRegs closeRegs s.dev d) ∧
  (∀ (s : State) (h : MsgHdr) (b : IngressMsg) (x : Session) (st : Stream) (sl : Slice) (p : PullRun) (rest : List PullRun) (w : Shard),
    s.dev.inTurn h roleOp x → 24 + b.data.length ≤ s.dev.maxBody x → s.dev.stream? b.stream.toNat = some st → st.session = x.id → st.dir = 0 →
    (∀ r ∈ s.dev.tel.recs, r.running = true → r.slice ≠ st.slice) → (∀ y ∈ s.dev.tel.armed, y.2 ≠ st.slice) →
    s.dev.slice? st.slice = some sl → sl.pullsOn st.index = p :: rest →
    (sl.settled st.index b.frame.toNat = false → b.frame.toNat < sl.nextPull p + 8 →
      (∃ q ∈ sl.pullsOn st.index, q.present b.frame.toNat = false) → (∀ y ∈ st.shards, y.frame ≠ b.frame.toNat) →
      (st.shards.filter (fun y => !y.frags.isEmpty)).length < 8 →
      b.shardBytes.toNat = st.shardBytes → b.offset = 0 → b.data.length ≤ st.shardBytes →
      stagedBytes s.dev.tel.streams + st.shardBytes ≤ 128 * 2 ^ 20 →
      w = { frame := b.frame.toNat, crc := b.crc.toNat, frags := [(0, b.data)] } →
      (b.data.length < st.shardBytes → Acts (.ingressData h b) s fun d =>
        d.stream? b.stream.toNat = some { st with shards := st.shards ++ [w] } ∧ Keeps [.teller, .sessions] s.dev d ∧ KeepsRegs [] s.dev d) ∧
      (b.data.length = st.shardBytes → crc32c ((w.bytes st.shardBytes).map (fun y => y.toNat)) = b.crc.toNat →
        Acts (.ingressData h b) s fun d =>
          d.stream? b.stream.toNat = some { st with shards := st.shards ++ [{ w with complete := true }] } ∧
          Keeps [.teller, .sessions] s.dev d ∧ KeepsRegs [] s.dev d) ∧
      (b.data.length = st.shardBytes → crc32c ((w.bytes st.shardBytes).map (fun y => y.toNat)) ≠ b.crc.toNat →
        Acts (.ingressData h b) s fun d =>
          d.stream? b.stream.toNat = some { st with shards := st.shards ++ [{ w with frags := [], corrupt := true }] } ∧
          d.reg (regAddr 12 0x64) = satAdd 32 (s.dev.reg (regAddr 12 0x64)) 1 ∧
          ((lastSecond s.dev.time.ticks x.errSent).length < 1000 → d.told h.session.toNat (.error h.seq.toNat 0x0C37 0xFFFFFFFF)) ∧
          Keeps [.teller, .sessions] s.dev d ∧ KeepsRegs [regAddr 12 0x64, regAddr 12 0x78] s.dev d)) ∧
    (sl.settled st.index b.frame.toNat = true → Acts (.ingressData h b) s fun d =>
      d.reg (regAddr 12 0x5C) = satAdd 32 (s.dev.reg (regAddr 12 0x5C)) 1 ∧ d.tel.streams = s.dev.tel.streams ∧
      ((lastSecond s.dev.time.ticks x.errSent).length < 1000 → d.told h.session.toNat (.error h.seq.toNat 0x0C32 0xFFFFFFFF)) ∧
      Keeps [.sessions] s.dev d ∧ KeepsRegs [regAddr 12 0x5C, regAddr 12 0x78] s.dev d) ∧
    (sl.settled st.index b.frame.toNat = false → sl.nextPull p + 8 ≤ b.frame.toNat → Acts (.ingressData h b) s fun d =>
      d.reg (regAddr 12 0x60) = satAdd 32 (s.dev.reg (regAddr 12 0x60)) 1 ∧ d.tel.streams = s.dev.tel.streams ∧
      ((lastSecond s.dev.time.ticks x.errSent).length < 1000 → d.told h.session.toNat (.error h.seq.toNat 0x0C31 0xFFFFFFFF)) ∧
      Keeps [.sessions] s.dev d ∧ KeepsRegs [regAddr 12 0x60, regAddr 12 0x78] s.dev d))

/-- SLICE_START of the folio that a stopped slice holds sets its launch for the launch EC (12 R388; 09 R323; 01 R36); of a folio
that no slice holds, with no cluster of another slice, it queues a load. SLICE_STOP of a running slice stops it at the next
frame boundary, SLICE_KILL at once (12 R389); for a slice that is not loaded both are refused with 0x0C38. -/
def Obligations.SliceControl : Prop :=
  (∀ (s : State) (h : MsgHdr) (b : StartReq) (x : Session) (sl : Slice) (u : Nat), s.dev.inTurn h roleOp x → s.dev.ledgerFull = false →
    s.dev.hibernate = false → b.t.toNat ≤ 15 → b.policy.toNat ≤ 1 → b.slice.toNat < 4096 → b.exchange = none →
    s.dev.slice? b.slice.toNat = some sl → sl.key ≠ 0 → b.keys.map (fun k => k.toNat) = [sl.key] → sl.running = false →
    (∀ e fo, s.dev.entry? sl.key = some e → e.fo = some fo → fo.devCount ≤ 1) → s.dev.load? b.slice.toNat = none →
    (s.dev.variant b false 0 sl.key).res = .ok u →
    Acts (.sliceStart h b) s fun d =>
      (∃ y, d.slice? b.slice.toNat = some y ∧ y.launched = true ∧ y.launchAt = some b.launchEc.toNat ∧ y.due = b.launchEc.toNat ∧
        y.gate = 0 ∧ y.skipT = b.t.toNat ∧ y.policy = b.policy.toNat ∧ y.key = sl.key) ∧
      d.told h.session.toNat (.result h.seq.toNat 0 0xFFFFFFFF (bytesOf ([0, 0] ++ toLe 8 b.launchEc.toNat))) ∧
      s.dev.noted d 6 x.role 0 ∧ Keeps [.slices, .teller, .sessions, .ledger] s.dev d ∧ KeepsRegs auditRegs s.dev d) ∧
  (∀ (s : State) (h : MsgHdr) (b : StartReq) (x : Session) (key u : Nat), s.dev.inTurn h roleOp x → s.dev.ledgerFull = false →
    s.dev.hibernate = false → b.t.toNat ≤ 15 → b.policy.toNat ≤ 1 → b.slice.toNat < 4096 → b.exchange = none →
    s.dev.slice? b.slice.toNat = none → b.keys.map (fun k => k.toNat) = [key] →
    (∀ e fo, s.dev.entry? key = some e → e.fo = some fo → fo.devCount ≤ 1) → (s.dev.variant b true 0 key).res = .ok u →
    s.dev.holders b.slice.toNat (s.dev.variant b true 0 key).fo = [] → s.dev.load? b.slice.toNat = none →
    (∀ st ∈ s.dev.tel.streams, st.slice ≠ b.slice.toNat) → Acts (.sliceStart h b) s fun d =>
      (∃ l, d.vault = { s.dev.vault with loads := s.dev.vault.loads ++ [l] } ∧ l.slice = b.slice.toNat ∧ l.key = key ∧ l.phase = .queued ∧
        l.resumeEc = b.resumeEc.toNat) ∧
      (∃ y, d.slice? b.slice.toNat = some y ∧ y.launched = true ∧ y.running = false ∧ y.start = some b) ∧
      d.told h.session.toNat (.result h.seq.toNat 0 0xFFFFFFFF (bytesOf [0, 1])) ∧
      s.dev.noted d 6 x.role 0 ∧ Keeps [.slices, .vault, .teller, .sessions, .ledger] s.dev d ∧
      KeepsRegs (regAddr 9 0 :: auditRegs) s.dev d) ∧
  (∀ (s : State) (h : MsgHdr) (slice : SliceId) (x : Session) (sl : Slice), s.dev.inTurn h roleOp x → s.dev.ledgerFull = false →
    s.dev.slice? slice.toNat = some sl →
    (s.dev.loaded sl = true → sl.running = true → sl.waiting = false → Acts (.sliceStop h slice) s fun d =>
      d.slice? slice.toNat = some { sl with
        stopping := some 0, launchAt := none, early := [], stopReq := sl.stopReq ++ [(h.session.toNat, h.seq.toNat)] } ∧
      d.load? slice.toNat = none ∧ s.dev.noted d 6 x.role 0 ∧
      Keeps [.slices, .vault, .sessions, .ledger] s.dev d ∧ KeepsRegs (regAddr 9 0 :: auditRegs) s.dev d) ∧
    (s.dev.loaded sl = true → sl.killAt = none → Acts (.sliceKill h slice) s fun d =>
      d.slice? slice.toNat = some { sl with
        killAt := some s.dev.now, stopping := none, launchAt := none, killReq := sl.killReq ++ [(h.session.toNat, h.seq.toNat)] } ∧
      s.dev.noted d 6 x.role 0 ∧ Keeps [.slices, .sessions, .ledger] s.dev d ∧ KeepsRegs auditRegs s.dev d) ∧
    (s.dev.loaded sl = false → ∀ c ∈ [Instr.sliceStop h slice, .sliceKill h slice], Acts c s fun d =>
      d.answers h 0x0C38 ∧ s.dev.noted d 6 x.role 0x0C38 ∧ Keeps [.sessions, .ledger] s.dev d ∧ KeepsRegs auditRegs s.dev d))

/-- The recording requests keep the recordings and answer (12 R399, R400); an armed recording feeds its slice in order (R401). -/
def Obligations.RecordingsAreKept : Prop :=
  (∀ (s : State) (h : MsgHdr) (id : BitVec 8) (slice : SliceId) (x : Session), s.dev.inTurn h roleOp x → 1 ≤ id.toNat → id.toNat ≤ 16 →
    (s.dev.fld ⟨regAddr 12 0x18, 31, 31⟩ = 1 → s.dev.rec? id.toNat = none →
      s.dev.tel.recs.foldl (fun a r => a + r.bytes) 0 + 512 ≤ s.dev.recRows * 512 → Acts (.recordStart h id slice) s fun d =>
      (∃ r, d.tel.recs = s.dev.tel.recs ++ [r] ∧ r.id = id.toNat ∧ r.slice = slice.toNat ∧ r.running = true ∧ r.records = []) ∧ d.answers h 0 ∧
      Keeps [.teller, .sessions] s.dev d ∧ KeepsRegs [] s.dev d) ∧
    (s.dev.fld ⟨regAddr 12 0x18, 31, 31⟩ = 0 → Acts (.recordStart h id slice) s fun d =>
      d.answers h 0x0C40 ∧ Keeps [.sessions] s.dev d ∧ KeepsRegs [] s.dev d) ∧
    Acts (.recordStop h id) s (fun d =>
      (∀ r ∈ d.tel.recs, r.id = id.toNat → r.running = false) ∧
      d.tel.recs.map (fun r => (r.id, r.key, r.records)) = s.dev.tel.recs.map (fun r => (r.id, r.key, r.records)) ∧ d.answers h 0 ∧
      Keeps [.teller, .sessions] s.dev d ∧ KeepsRegs [] s.dev d) ∧
    (∀ r dig, s.dev.rec? id.toNat = some r → s.dev.sliceKey slice.toNat = some (r.key, dig) →
      (r.digest = dig → Acts (.arm h id slice) s fun d =>
        (id.toNat, slice.toNat) ∈ d.tel.armed ∧ (∀ a ∈ d.tel.armed, a.2 = slice.toNat → a.1 = id.toNat) ∧ d.answers h 0 ∧
        Keeps [.teller, .sessions] s.dev d ∧ KeepsRegs [] s.dev d) ∧
      (r.digest ≠ dig → Acts (.arm h id slice) s fun d => d.answers h 0x0C41 ∧ Keeps [.sessions] s.dev d ∧ KeepsRegs [] s.dev d)) ∧
    Acts (.disarm h id slice) s (fun d =>
      d.tel.armed = s.dev.tel.armed.filter (fun a => a != (id.toNat, slice.toNat)) ∧ d.answers h 0 ∧
      Keeps [.teller, .sessions] s.dev d ∧ KeepsRegs [] s.dev d) ∧
    Acts (.recordingDelete h id) s (fun d =>
      d.tel.recs = s.dev.tel.recs.filter (fun r => r.id != id.toNat) ∧ (∀ a ∈ d.tel.armed, a.1 ≠ id.toNat) ∧ d.answers h 0 ∧
      Keeps [.teller, .sessions] s.dev d ∧ KeepsRegs [] s.dev d) ∧
    Acts (.recordingList h) s (fun d =>
      d.told h.session.toNat (.result h.seq.toNat 0 0xFFFFFFFF (Config.recordingList
        (s.dev.tel.recs.map (fun r => (r.id, r.key, r.digest, r.slice, r.launchEc, r.records.length))))) ∧
      Keeps [.sessions] s.dev d ∧ KeepsRegs [] s.dev d)) ∧
  (∀ (s : State) (slice : SliceId) (sl : Slice) (rid i : Nat) (r : Recording) (m : RecMsg), s.dev.slice? slice.toNat = some sl →
    sl.running = true → s.dev.tel.replays.find? (fun y => y.1 == slice.toNat) = some (slice.toNat, rid, i) → s.dev.rec? rid = some r → r.records[i]? = some m →
    m.arrival + sl.launchEc - r.launchEc ≤ s.dev.now → Acts (.replayFeed slice) s fun d =>
      d.tel.replays = s.dev.tel.replays.filter (fun y => y.1 != slice.toNat) ++
        (if i + 1 < r.records.length then [(slice.toNat, rid, i + 1)] else []) ∧ Keeps [.teller] s.dev d ∧
      KeepsRegs [regAddr 12 0x5C, regAddr 12 0x60, regAddr 12 0x64] s.dev d)

/-- Packets that are not Teller's count, and too many in 1 s quarantine their port until its time ends; echo requests are answered
up to 1,000 a second (12 R378, R398). A link that comes up, goes down or gives no link shows in its register (R377); 10 ms after
a loss the other port takes over with the sessions (R379). A lease is held as the port's address, an IPv6 address that another node uses
is not held, and a pause frame pauses the Teller priority: what its port's sessions have to send waits (R376). -/
def Obligations.HostPortsFollowTheirLinks : Prop :=
  (∀ (s : State) (hp : HostPort), s.dev.fld ⟨regAddr 12 0, 2 + hp.val, 2 + hp.val⟩ = 0 → Acts (.nonTellerPacket hp) s fun d =>
    d.reg (regAddr 12 0x40) = satAdd 32 (s.dev.reg (regAddr 12 0x40)) 1 ∧
    ((lastSecond s.dev.time.ticks (s.dev.hport hp).drops).length + 1 ≤ s.dev.fld ⟨regAddr 12 0x14, 15, 8⟩ * 64 →
      d.fld ⟨regAddr 12 0, 2 + hp.val, 2 + hp.val⟩ = 0 ∧ Keeps [.teller] s.dev d ∧ KeepsRegs [regAddr 12 0x40] s.dev d) ∧
    (s.dev.fld ⟨regAddr 12 0x14, 15, 8⟩ * 64 < (lastSecond s.dev.time.ticks (s.dev.hport hp).drops).length + 1 →
      d.fld ⟨regAddr 12 0, 2 + hp.val, 2 + hp.val⟩ = 1 ∧ d.saw 12 5 = true ∧
      (d.hport hp).quarEnd = s.dev.time.ticks + s.dev.fld ⟨regAddr 12 0x14, 7, 0⟩ * 1000000000) ∧
    Keeps [.teller, .sessions] s.dev d) ∧
  (∀ (s : State) (hp : HostPort), s.dev.fld ⟨regAddr 12 0, 2 + hp.val, 2 + hp.val⟩ = 1 → (s.dev.hport hp).quarEnd ≤ s.dev.time.ticks →
    Acts (.quarantineExpiry hp) s fun d =>
      d.fld ⟨regAddr 12 0, 2 + hp.val, 2 + hp.val⟩ = 0 ∧ (d.hport hp).drops = [] ∧ Keeps [.teller] s.dev d ∧
      KeepsRegs [regAddr 12 0, hostReg hp] s.dev d) ∧
  (∀ (s : State) (hp : HostPort), Acts (.echoRequest hp) s fun d =>
    (d.hport hp).answered = (s.dev.hport hp).answered +
      b2n (decide ((lastSecond s.dev.time.ticks (s.dev.hport hp).echoes).length < 1000)) ∧ Keeps [.teller] s.dev d ∧ KeepsRegs [] s.dev d) ∧
  (∀ (s : State) (hp : HostPort) (rate : BitVec 3), s.dev.fld (fLink hp) ≠ 2 → s.dev.tries hp rate.toNat = true →
    Acts (.hostLinkUp hp rate) s fun d =>
      rate.toNat < 4 ∧ d.fld (fLink hp) = 2 ∧ d.fld (fRate hp) = rate.toNat ∧ d.fld (fFec hp) = 1 ∧ d.saw 12 0 = true ∧ (d.hport hp).failed = false ∧
      Keeps [.time, .teller, .sessions] s.dev d ∧ KeepsRegs (regAddr 12 0 :: hostReg hp :: eventRegs 12) s.dev d) ∧
  (∀ (s : State) (hp : HostPort), s.dev.fld (fLink hp) ≠ 2 → (s.dev.hport hp).attemptTick + 500000000 ≤ s.dev.time.ticks →
    Acts (.mediaTimeout hp) s fun d =>
      d.fld (fLink hp) = 1 ∧ (d.hport hp).attempt = ((s.dev.hport hp).attempt + 1) % s.dev.attempts.length ∧
      (d.hport hp).attemptTick = s.dev.time.ticks ∧ Keeps [.teller] s.dev d ∧ KeepsRegs [hostReg hp] s.dev d) ∧
  (∀ (s : State) (hp : HostPort), s.dev.fld (fLink hp) = 2 → Acts (.hostLinkDown hp) s fun d =>
    d.fld (fLink hp) = 0 ∧ (d.hport hp).downTick = s.dev.time.ticks ∧ d.saw 12 1 = true ∧
    Keeps [.teller, .sessions] s.dev d ∧ KeepsRegs (hostReg hp :: eventRegs 12) s.dev d) ∧
  (∀ (s : State) (hp : HostPort), s.dev.fld (fLink hp) ≠ 2 → (s.dev.hport hp).failed = false →
    (s.dev.hport hp).downTick + 10000000 ≤ s.dev.time.ticks → s.dev.fld (fLink (otherPort hp)) = 2 →
    s.dev.activePort = hp.val → Acts (.failover hp) s fun d =>
      d.activePort = otherPort hp ∧ (d.hport hp).failed = true ∧ (d.hport hp).own = false ∧
      (s.dev.ownsAddr hp = true → (d.hport (otherPort hp)).taken = true) ∧ (∀ x ∈ d.tel.sessions, x.hp ≠ hp.val) ∧ d.time.ptpFrozen = true ∧ d.saw 12 2 = true ∧
      Keeps [.time, .teller, .sessions] s.dev d ∧ KeepsRegs (regAddr 12 0 :: eventRegs 12) s.dev d) ∧
  (∀ (s : State) (hp : HostPort) (a : BitVec 32), s.dev.fld ⟨regAddr 12 0xC, 31, 31⟩ = 1 → s.dev.fld ⟨regAddr 12 0xC, 1, 1⟩ = 1 →
    Acts (.dhcpNdpArpMessage hp (.lease4 a)) s fun d =>
      (d.hport hp).lease4 = some a ∧ d.fld ⟨regAddr 12 0, 0, 0⟩ = 1 ∧ Keeps [.teller] s.dev d ∧ KeepsRegs [regAddr 12 0] s.dev d) ∧
  (∀ (s : State) (hp : HostPort) (a : BitVec 32), s.dev.holds4 hp a.toNat = true → Acts (.dhcpNdpArpMessage hp (.solicit4 a)) s fun d =>
    (d.hport hp).answered = (s.dev.hport hp).answered + 1 ∧ Keeps [.teller] s.dev d ∧ KeepsRegs [] s.dev d) ∧
  (∀ (s : State) (hp : HostPort) (prio : BitVec 8) (quanta : BitVec 16), s.dev.fld ⟨regAddr 12 4, 7, 7⟩ = 1 →
    bitAt prio.toNat (s.dev.fld ⟨regAddr 12 8, 15, 13⟩) = true → Acts (.priorityFlowControlFrame hp prio quanta) s fun d =>
      (d.hport hp).paused =
        (if quanta = 0 then [] else [(s.dev.fld ⟨regAddr 12 8, 15, 13⟩, s.dev.time.ticks + s.dev.pauseTicks hp quanta.toNat)]) ∧
      (quanta ≠ 0 → ∀ x ∈ s.dev.tel.sessions, x.hp = hp.val → x ∈ d.tel.sessions) ∧
      Keeps [.teller, .sessions] s.dev d ∧ KeepsRegs [] s.dev d) ∧
  (∀ (s : State) (hp : HostPort) (a : BitVec 128), s.dev.time.ticks < (s.dev.hport hp).v6Since + 1000000000 →
    Acts (.dhcpNdpArpMessage hp (.duplicate6 a)) s fun d =>
      (d.hport hp).dup6 = (s.dev.hport hp).dup6 ++ [a] ∧ a.toNat ∉ d.addrs6 hp ∧ Keeps [.teller] s.dev d ∧ KeepsRegs [] s.dev d)

/-- A step that is set takes effect at its EC: the mode and the park state change and the step is counted and reported (11 R369; 13
R419); in full park both halves are fenced and unclocked (11 R371, R372). A step up waits for its rails (13 R418): once they
have settled it is set, at least 60,000 ticks after the decision. A power sample shows its readings; with the mean above the cap
the power loop lowers the ceiling by one mode (13 R414). A thermal sample shows the hottest junction, and at 105 °C the critical
loop lowers the ceiling, the loops of one sample together by one mode, and ALERT_N is pulled (R414, R416, R424). -/
def Obligations.ModesFollowStepsAndLoops : Prop :=
  ((∀ (s : State) (st : StepRec) (rest : List StepRec), s.dev.pwr.steps = st :: rest → st.ec ≤ s.dev.now → st.mode ≤ 2 →
      s.dev.locked st.mode = true → s.dev.failed = false →
      (st.park = s.dev.fld fPark → Acts .stepEcReached s fun d =>
        (s.dev.pwr.scrubClock = false → d.mode = st.mode) ∧ d.fld fMode = st.mode ∧ d.fld fPark = s.dev.fld fPark ∧ d.pwr.steps = rest ∧
        d.pwr.lastTick = some s.dev.time.ticks ∧ d.saw 13 0 = true ∧ d.reg (regAddr 13 0x2C) = satAdd 32 (s.dev.reg (regAddr 13 0x2C)) 1 ∧
        Keeps [.pwr, .slices, .sessions] s.dev d ∧ KeepsRegs (regAddr 2 0 :: regAddr 13 0x2C :: stepRegsOf) s.dev d) ∧
      (st.park = 3 → s.dev.fld fPark = 0 → Acts .stepEcReached s fun d =>
        d.fld fPark = 3 ∧ d.fld ⟨regAddr 11 0, 1, 0⟩ = 3 ∧ d.fld fMode = st.mode ∧
        (s.dev.pwr.scrubClock = false → d.reg (regAddr 2 0x0C) = 0 ∧ d.mode = st.mode) ∧
        Keeps [.pwr, .slices, .sessions] s.dev d)) ∧
    (∀ (s : State) (m p c t : Nat), s.dev.pwr.rising = some (m, p, c, t) → s.dev.pwr.steps = [] → s.dev.railsSettled = true →
      s.dev.paused = true → Acts .vcoreSettled s fun d =>
        d.pwr = { s.dev.pwr with settled := true } ∧ Keeps [.pwr] s.dev d ∧ KeepsRegs [] s.dev d) ∧
    (∀ (s : State) (m p c t : Nat), s.dev.pwr.rising = some (m, p, c, t) → s.dev.pwr.steps = [] → s.dev.railsSettled = true →
      s.dev.paused = false → s.dev.locked m = true → s.dev.failed = false → Acts .vcoreSettled s fun d =>
        (∃ st, d.pwr.steps = [st] ∧ st.mode = m ∧ st.park = p ∧ st.causes = c ∧ s.dev.now < st.ec ∧
          s.dev.now + (60000 - (s.dev.time.ticks - t)) ≤ st.ec) ∧ d.pwr.rising = none ∧
        Keeps [.pwr, .slices] s.dev d ∧ KeepsRegs [regAddr 13 0, regAddr 13 0x24, regAddr 13 0x28] s.dev d) ∧
    (∀ (s : State) (t : Nat), s.dev.pwr.waking = some t → Acts .selfRefreshExit s fun d =>
      d.pwr.waking = none ∧ d.fld ⟨regAddr 9 0, 3, 3⟩ = 0 ∧ d.fld fPark = 3 ∧ Keeps [.pwr, .slices] s.dev d)) ∧
  ((∀ (s : State) (wA wB mA mB : BitVec 16), Acts (.powerSample wA wB mA mB) s fun d =>
      d.pwr.wattsA = wA.toNat ∧ d.pwr.wattsB = wB.toNat ∧ d.pwr.energy = s.dev.pwr.energy + wA.toNat + wB.toNat ∧
      d.reg (regAddr 13 0x18) = mB.toNat * 65536 + mA.toNat ∧
      (s.dev.paused = true → Keeps [.pwr] s.dev d ∧
        KeepsRegs [regAddr 13 0x14, regAddr 13 0x18, regAddr 13 0x1C, regAddr 13 0x4C] s.dev d) ∧
      (s.dev.paused = false → s.dev.failed = false → s.dev.pwr.samples = [] → s.dev.pwr.powerFired = none → 0 < s.dev.time.ticks →
        s.dev.powerCap < wA.toNat + wB.toNat →
        d.fld fCeiling = max (s.dev.fld fCeiling) (min 2 (s.dev.fld fCeiling + 1)) ∧ d.saw 13 1 = true) ∧
      Keeps [.pwr, .slices, .sessions] s.dev d) ∧
    (∀ (s : State) (j st : List (BitVec 8)), Acts (.thermalSample j st) s fun d =>
      d.fld ⟨regAddr 13 0x48, 7, 0⟩ = ((j.map (fun x => x.toNat)).take 24).foldl max 0 ∧
      (s.dev.paused = false → s.dev.failed = false → 105 ≤ ((j.map (fun x => x.toNat)).take 24).foldl max 0 →
        d.fld fCeiling = max (s.dev.fld fCeiling) (min 2 (s.dev.baseCeiling + 1)) ∧ d.saw 13 3 = true) ∧
      (105 ≤ ((j.map (fun x => x.toNat)).take 24).foldl max 0 → d.pins.alert = true ∧ d.fld ⟨regAddr 13 0, 3, 3⟩ = 1) ∧
      Keeps [.pwr, .slices, .sessions, .pins] s.dev d))

/-- The loss of one blade at Schuss sets a step to Carve 1,000 ticks on, unless a step before then leaves Schuss, and pulls ALERT_N; the loss of both pulls PWROK low (13
R406; 17 R507); a blade that returns is used again. A failed converter phase counts, and beyond two on a rail the ceiling falls
(13 R405, R414). A thermal trip fails the device for compute (13 R425; 14 R440). A generator that loses lock is counted and
reported; the ring generator's loss fails the device (16 R486, R488). -/
def Obligations.PowerFaultsAreHandled : Prop :=
  (∀ (s : State) (bl other : Blade), other ≠ bl → s.dev.bladeOk bl = true → s.dev.bladeOk other = true →
    ∀ c ∈ [Instr.bladeLoss bl, .bladeOvervoltage bl], Acts c s fun d =>
      d.bladeOk bl = false ∧ d.bladeOk other = true ∧ d.fld ⟨regAddr 13 0, 4, 4⟩ = 1 ∧ d.fld fCeiling = max 1 (s.dev.fld fCeiling) ∧
      d.saw 13 5 = true ∧ d.pins.alert = true ∧ d.pins.pwrok = s.dev.pins.pwrok ∧
      (s.dev.mode = 0 → s.dev.failed = false → s.dev.modeAt (s.dev.now + 1000) = 0 →
        ∃ st ∈ d.pwr.steps, st.ec = s.dev.now + 1000 ∧ st.mode = 1 ∧ st.blade = true) ∧
      Keeps [.pwr, .slices, .sessions, .pins] s.dev d ∧ KeepsRegs stepRegsOf s.dev d) ∧
  (∀ (s : State) (bl other : Blade), other ≠ bl → s.dev.bladeOk bl = true → s.dev.bladeOk other = false →
    ∀ c ∈ [Instr.bladeLoss bl, .bladeOvervoltage bl], Acts c s fun d =>
      d.bladeOk bl = false ∧ d.pins.pwrok = false ∧ Keeps [.pwr, .pins] s.dev d ∧ KeepsRegs [] s.dev d) ∧
  (∀ (s : State) (bl : Blade), s.dev.bladeOk bl = false → s.dev.pins.pwrok = true → Acts (.bladeReconnect bl) s fun d =>
    d.bladeOk bl = true ∧ d.fld ⟨regAddr 13 0, 4, 4⟩ = b2n (!(d.bladeOk .a && d.bladeOk .b)) ∧ d.saw 13 5 = true ∧
    Keeps [.pwr, .sessions, .pins] s.dev d ∧ KeepsRegs stepRegsOf s.dev d) ∧
  (∀ (s : State) (r : Rail), Acts (.phaseFault r) s fun d =>
    mapGet (fun _ => 0) d.pwr.phases (railNo r) = mapGet (fun _ => 0) s.dev.pwr.phases (railNo r) + 1 ∧
    d.reg (regAddr 14 0x38) = satAdd 32 (s.dev.reg (regAddr 14 0x38)) 1 ∧ d.saw 14 6 = true ∧
    d.fld fCeiling = (if 2 ≤ mapGet (fun _ => 0) s.dev.pwr.phases (railNo r) ∧ s.dev.paused = false ∧ s.dev.failed = false
      then max (s.dev.fld fCeiling) (min 2 (s.dev.baseCeiling + 1)) else s.dev.fld fCeiling) ∧
    Keeps [.pwr, .slices, .sessions] s.dev d) ∧
  (∀ (s : State) (r : Fin 24), s.dev.fld ⟨regAddr 13 0, 2, 2⟩ = 0 → s.dev.failed = false → Acts (.thermalTrip r) s fun d =>
    d.failed = true ∧ d.slices = [] ∧ d.reg (regAddr 2 0x0C) = 0 ∧ d.pins.thermtrip = true ∧ d.fld ⟨regAddr 13 0, 2, 2⟩ = 1 ∧
    d.saw 13 7 = true ∧ d.saw 14 8 = true ∧ d.pwr.steps = []) ∧
  (∀ (s : State) (g : Generator), s.dev.fld ⟨regAddr 2 0, genBit g, genBit g⟩ = 1 → Acts (.generatorUnlock g) s fun d =>
    d.fld ⟨regAddr 2 0, genBit g, genBit g⟩ = 0 ∧ d.reg (regAddr 2 0x10) = satAdd 32 (s.dev.reg (regAddr 2 0x10)) 1 ∧
    (g = .ring → d.saw 2 2 = true ∧ d.failed = true) ∧
    (g ≠ .ring → d.saw 2 0 = true ∧
      ((∃ k, s.dev.mode ≤ k ∧ k ≤ 2 ∧ k + 4 ≠ genBit g ∧ s.dev.locked k = true) → Keeps [.pwr, .slices, .sessions] s.dev d))) ∧
  (∀ (s : State) (g : Generator), s.dev.fld ⟨regAddr 2 0, genBit g, genBit g⟩ = 0 → Acts (.generatorRelock g) s fun d =>
    d.fld ⟨regAddr 2 0, genBit g, genBit g⟩ = 1 ∧ (g ≠ .ring → d.saw 2 1 = true) ∧ Keeps [.pwr, .slices, .sessions] s.dev d)

/-- A measurement above the limit makes a site's retirement pending (14 R430); a failing spare site is retired at once; a pending
row whose cluster no running slice holds is retired into a spare row (R431, R434). A held repair waits for the stop of every
device, copies its rows and lets the slice resume (R433, R434); a relaunch repair applies the new mapping, loads the folio again
and launches at the relaunch EC (R435, R436). A bundle one of whose rows cannot be read makes its core wait for that row (14 R442, Table 14.6), and a program row that could
not be read is written again from the vault (06 R220). -/
def Obligations.RepairsReplaceFailingUnits : Prop :=
  (∀ (s : State) (cl : Cl) (sites : List (BitVec 16)) (router : BitVec 16), router.toNat ≤ s.dev.fld ⟨regAddr 14 4, 7, 0⟩ * 10 →
    Acts (.ageingCheck cl sites router) s fun d =>
      d.reg (regAddr 14 (0x40 + 4 * clRegion cl)) = max (s.dev.reg (regAddr 14 (0x40 + 4 * clRegion cl)))
        ((router.toNat :: (sites.map (fun x => x.toNat)).take 9).foldl max 0) ∧
      (s.dev.fld (fSite cl) = 0xF → ∀ k v, k < 8 → sites[k]? = some v → s.dev.fld ⟨regAddr 14 4, 7, 0⟩ * 10 < v.toNat →
        sites.length = 8 → (cl.val, k) ∈ d.hlth.sitesPending) ∧
      ((∀ v ∈ sites, v.toNat ≤ s.dev.fld ⟨regAddr 14 4, 7, 0⟩ * 10) → Keeps [] s.dev d ∧
        KeepsRegs [regAddr 14 (0x40 + 4 * clRegion cl)] s.dev d)) ∧
  (∀ (s : State) (cl : Cl), s.dev.fld (fSite cl) = 0xF → Acts (.spareTest cl true []) s fun d =>
    d.fld (fSite cl) = 8 ∧ d.saw 14 10 = true ∧ d.saw 14 1 = true ∧ d.reg (regAddr 14 0x20) = satAdd 32 (s.dev.reg (regAddr 14 0x20)) 1 ∧
    Keeps [.sessions, .ledger] s.dev d) ∧
  (∀ (s : State) (g : Nat), s.dev.hlth.rowsPending.find? (fun g => s.dev.windowOpen g (graCluster g)) = some g →
    (∀ sl, s.dev.unitHeld (graCluster g) = some sl → sl.armed = false) → graSpace g < 2 → (∀ r ∈ s.dev.hlth.repairs, g ∉ r.rows) →
    g ∉ s.dev.hlth.rowsRetired → s.dev.fld (fSite (graCluster g)) ≠ 0xE → s.dev.spareLeft g = true → Acts .repairWindow s fun d =>
      d.hlth.rowsRetired = s.dev.hlth.rowsRetired ++ [g] ∧ d.hlth.rowsPending = s.dev.hlth.rowsPending.filter (fun x => x != g) ∧
      g ∉ d.hlth.bad ∧ d.reg (regAddr 14 0x1C) = satAdd 32 (s.dev.reg (regAddr 14 0x1C)) 1 ∧ d.saw 14 0 = true ∧
      Keeps [.hlth, .sessions, .ledger] s.dev d ∧ KeepsRegs (regAddr 14 0x1C :: (eventRegs 14 ++ auditRegs)) s.dev d) ∧
  (∀ (s : State) (slice : SliceId) (sl : Slice), s.dev.slice? slice.toNat = some sl → sl.repairStop = true →
    Acts (.repairStopConfirmed ⟨slice, false⟩) s fun d =>
      (∃ l, l = mapIf (fun r => r.slice == slice.toNat) (fun (r : Repair) => { r with confirmed := true }) s.dev.hlth.repairs ∧
        d.hlth = { s.dev.hlth with repairs := l }) ∧ Keeps [.hlth] s.dev d ∧ KeepsRegs [] s.dev d) ∧
  (∀ (s : State) (slice : SliceId) (sl : Slice), s.dev.slice? slice.toNat = some sl → sl.armed = true → sl.dueSeen = false →
    Acts (.repairStopConfirmed ⟨slice, true⟩) s fun d =>
      d.slice? slice.toNat = some { sl with peerRelaunch := true } ∧ Keeps [.slices] s.dev d ∧ KeepsRegs [] s.dev d) ∧
  (∀ (s : State) (slice : SliceId) (sl : Slice) (r : Repair), s.dev.slice? slice.toNat = some sl → s.dev.repair? slice.toNat = some r →
    r.confirmed = true → r.relaunch = false → r.rows ≠ [] → Acts (.rowCopyComplete slice) s fun d =>
      d.hlth.repairs = s.dev.hlth.repairs.filter (fun x => x.slice != slice.toNat) ∧
      d.hlth.rowsRetired = s.dev.hlth.rowsRetired ++ r.rows ∧ (∀ g ∈ r.rows, g ∉ d.hlth.bad) ∧
      d.saw 14 4 = true ∧ d.fld ⟨regAddr 14 0, 2, 2⟩ = b2n (!d.hlth.repairs.isEmpty) ∧
      (∃ x, d.slice? slice.toNat = some x ∧ ∀ y ∈ x.raises, y.openOwn = true → 8 ∉ y.causes) ∧
      Keeps [.slices, .hlth, .sessions, .ledger] s.dev d) ∧
  (∀ (s : State) (slice : SliceId) (sl : Slice) (r : Repair) (cl site : Nat), s.dev.slice? slice.toNat = some sl →
    s.dev.repair? slice.toNat = some r → r.confirmed = true → r.relaunch = true → r.tested = false → r.rows = [] →
    r.sites = [(cl, site)] → cl < 72 → site < 8 → s.dev.fld (fSite cl) = 0xF → Acts (.spareMarginTestDone slice true) s fun d =>
      d.fld (fSite cl) = site ∧ (∃ l, d.load? slice.toNat = some l ∧ l.key = sl.key ∧ l.phase = .moving ∧ l.fo = sl.fo) ∧
      (∃ x, d.slice? slice.toNat = some x ∧ x.running = false) ∧ d.clustersIn 1 slice.toNat = [] ∧
      d.repair? slice.toNat = some { r with tested := true, sites := [] } ∧ d.saw 14 1 = true) ∧
  (∀ (s : State) (slice : SliceId) (r : RelaunchEc) (sl : Slice) (e : Nat), s.dev.slice? slice.toNat = some sl → sl.launched = true →
    (sl.dueSeen = true ∧ (∃ y ∈ sl.at sl.gate, 8 ∈ y.causes)) ∨ (sl.launchAt ≠ none ∧ sl.running = false) → sl.stopping = none →
    sl.frames = [] → s.dev.repair? slice.toNat = none → e = max r.ec.toNat (sl.launchAt.getD 0) → Acts (.relaunchEcReceived slice r) s fun d =>
      (∃ x, d.slice? slice.toNat = some x ∧ x.launchAt = some e ∧ x.due = e ∧ x.gate = 0 ∧ x.running = false ∧ x.raises = sl.early ∧
        x.gens = mapIf (fun y => y.1 == r.coord.toNat) (fun y => (y.1, r.gen.toNat)) sl.gens) ∧
      Keeps [.cores, .slices, .teller] s.dev d ∧ KeepsRegs [] s.dev d) ∧
  (∀ (s : State) (core : CoreId) (row : RewrittenRow) (sl : Slice) (en : Entry) (r : CoreRec), memWf s.mem = true →
    (s.dev.core core).rewrite = some row.gra.toNat → s.dev.sliceOf (core.val / 8) = some sl → s.dev.entry? sl.key = some en →
    sl.fo.cores.find? (fun x => x.core == core.val) = some r → graRow row.gra.toNat < 0x200 → row.bad = none →
    (∀ b ∈ en.bad, b / 8 ≠ r.codeRow + graRow row.gra.toNat) → Ends (.rowRewriteComplete core row) s fun t =>
      readRow t.mem row.gra.toNat = en.row (r.codeRow + graRow row.gra.toNat) ∧ OnlyRow s.mem t.mem row.gra.toNat ∧
      t.dev.core core = { s.dev.core core with rewrite := none } ∧ row.gra.toNat ∉ t.dev.hlth.bad ∧
      (row.fixed = [] → t.dev.vault = s.dev.vault) ∧
      Keeps [.cores, .hlth, .vault] s.dev t.dev ∧ KeepsRegs [regAddr 9 0x1C] s.dev t.dev) ∧
  (∀ (s : State) (core : CoreId) (g : Nat), s.dev.coreRuns core = true → (s.dev.core core).ready = true → badRow s core = some g →
    ∀ i ∈ [Instr.sxNop core, .mxNop core, .vxNop core, .dxNop core, .gxNop core],
      CoreActs i core s fun t => t = { s.dev.core core with rewrite := some g })

/-- A management core that fails its checks is retired: the spare takes over while the loops pause, and they resume once it is in
lockstep; the loss of the last core fails the device (14 R439, R440). -/
def Obligations.ManagementCoresAreReplaced : Prop :=
  (∀ (s : State) (mc : Fin 3) (k : Nat), s.dev.fld ⟨regAddr 14 0, 8 + mc.val, 8 + mc.val⟩ = 1 → s.dev.sec.handover = none → s.dev.noTurns →
    (s.dev.hlth.mcSpare = some k → k ≠ mc.val → s.dev.fld ⟨regAddr 14 0, 10, 8⟩ ≠ 2 ^ mc.val → Acts (.mcCoreFault mc) s fun d =>
      d.fld ⟨regAddr 14 0, 8 + mc.val, 8 + mc.val⟩ = 0 ∧ d.hlth = { s.dev.hlth with mcSpare := none, takeover := true, takeoverWaits := false } ∧
      d.paused = true ∧ d.saw 14 7 = true ∧ Keeps [.hlth, .sessions] s.dev d ∧
      KeepsRegs (regAddr 14 0 :: regAddr 13 0 :: eventRegs 14) s.dev d) ∧
    (s.dev.fld ⟨regAddr 14 0, 10, 8⟩ = 2 ^ mc.val → s.dev.failed = false → Acts (.mcCoreFault mc) s fun d =>
      d.failed = true ∧ d.slices = [] ∧ d.saw 14 7 = true ∧ d.saw 14 8 = true)) ∧
  (∀ s : State, s.dev.hlth.takeover = true → s.dev.handing = false → Acts .mcTakeoverComplete s fun d =>
    d.hlth = { s.dev.hlth with takeover := false } ∧ d.paused = false ∧ Keeps [.hlth] s.dev d ∧ KeepsRegs [regAddr 13 0] s.dev d)

/-- A MGMT_READ answers the values of its registers at one instant, EPOCH.NOW_HI among them as the read of NOW_LO latched it (16
R479); an access of a register that does not exist is refused with 0x0011, a write without the rights with 0x0010, one that
gives an RO field a nonzero value with 0x0012, each before anything changes (16 R478). -/
def Obligations.AccessesAreCheckedFirst : Prop :=
  (∀ (s : State) (h : MsgHdr) (block : BitVec 8) (count : BitVec 16) (offset : BitVec 32) (x : Session), s.dev.inTurn h roleAll x →
    0 < count.toNat → count.toNat ≤ 256 →
    (s.dev.readCode (sessionActor x) block.toNat (regOffs offset.toNat count.toNat) = 0 → Acts (.mgmtRead h block count offset) s fun d =>
      d.told h.session.toNat (.result h.seq.toNat 0 0xFFFFFFFF ((regOffs offset.toNat count.toNat).flatMap (fun o => bytesOf (toLe 4
        (s.readReg (s.dev.latch block.toNat (regOffs offset.toNat count.toNat) x.latches) block.toNat o).toNat)))) ∧
      Keeps [.sessions] s.dev d ∧ KeepsRegs [] s.dev d) ∧
    ((∃ o ∈ regOffs offset.toNat count.toNat, o % 4 ≠ 0 ∨ regRow block.toNat o = none) → Acts (.mgmtRead h block count offset) s fun d =>
      d.answers h 0x0011 ∧ Keeps [.sessions] s.dev d ∧ KeepsRegs [] s.dev d)) ∧
  (∀ (s : State) (h : MsgHdr) (x : Session), s.dev.inTurn h roleAll x → Acts (.mgmtRead h 1 2 0) s fun d =>
    d.told h.session.toNat (.result h.seq.toNat 0 0xFFFFFFFF (bytesOf (toLe 8 s.dev.now))) ∧
    (∃ y, d.session? h.session.toNat = some y ∧ mapGet (fun _ => 0) y.latches (regAddr 1 4) = s.dev.now / 2 ^ 32)) ∧
  (∀ (s : State) (h : MsgHdr) (block : BitVec 8) (offset : BitVec 32) (vals : List Word) (x : Session), s.dev.inTurn h roleAll x →
    vals ≠ [] → vals.length ≤ 256 →
    ((∃ w ∈ regPairs offset.toNat vals, w.1 % 4 ≠ 0 ∨ regRow block.toNat w.1 = none) → Acts (.mgmtWrite h block offset vals) s fun d =>
      d.answers h 0x0011 ∧ Keeps [.sessions, .ledger] s.dev d ∧ KeepsRegs auditRegs s.dev d) ∧
    ((∀ w ∈ regPairs offset.toNat vals, w.1 % 4 = 0 ∧ (regRow block.toNat w.1).isSome = true) →
      ((∃ w ∈ regPairs offset.toNat vals, s.dev.may (sessionActor x) block.toNat w.1 w.2 = false) → Acts (.mgmtWrite h block offset vals) s fun d =>
        d.answers h 0x0010 ∧ Keeps [.sessions, .ledger] s.dev d ∧ KeepsRegs auditRegs s.dev d) ∧
      ((∀ w ∈ regPairs offset.toNat vals, s.dev.may (sessionActor x) block.toNat w.1 w.2 = true) →
        (∃ w ∈ regPairs offset.toNat vals, roWrite block.toNat w.1 w.2 = true) → Acts (.mgmtWrite h block offset vals) s fun d =>
          d.answers h 0x0012 ∧ Keeps [.sessions, .ledger] s.dev d ∧ KeepsRegs auditRegs s.dev d)))

/-- A write that passes its checks puts the value of a CW register into the shadow of the writer's role and changes nothing in force
(16 R480); it clears the event bits that it names, and stores the fields of an RW register (00 R11, R13). -/
def Obligations.WritesFollowTheirFields : Prop :=
  ∀ (s : State) (h : MsgHdr) (block : BitVec 8) (offset : BitVec 32) (v : Word) (x : Session) (r : RegRow), s.dev.inTurn h roleAll x →
    s.dev.mgmtWriteCode (sessionActor x) block.toNat (mapGet (fun _ => 0) x.commitLo block.toNat) [(offset.toNat, v.toNat)] = 0 →
    regRow block.toNat offset.toNat = some r →
    (r.cw ≠ 0 → Acts (.mgmtWrite h block offset [v]) s fun d =>
      d.answers h 0 ∧ (x.role, regAddr block.toNat offset.toNat, v) ∈ d.mg.shadow ∧ d.mg.armed = s.dev.mg.armed ∧
      (∀ e, (e.1, e.2.1) ≠ (x.role, regAddr block.toNat offset.toNat) → (e ∈ d.mg.shadow ↔ e ∈ s.dev.mg.shadow)) ∧
      d.sec = { s.dev.sec with
        holder := if x.claimant = true ∧ block.toNat = 15 ∧ offset.toNat = 8 then x.id else s.dev.sec.holder } ∧
      Keeps [.mg, .sessions, .sec] s.dev d ∧ KeepsRegs [] s.dev d) ∧
    (r.cw = 0 → r.w1c ≠ 0 → Acts (.mgmtWrite h block offset [v]) s fun d =>
      d.answers h 0 ∧
      (∀ k, k < 32 → bitAt (d.reg (regAddr block.toNat offset.toNat)) k =
        (bitAt (s.dev.reg (regAddr block.toNat offset.toNat)) k && !(bitAt v.toNat k && bitAt r.w1c k))) ∧
      Keeps [.sessions] s.dev d ∧ KeepsRegs [regAddr block.toNat offset.toNat, regAddr 10 0x204] s.dev d) ∧
    (r.cw = 0 → r.w1c = 0 → r.rw ≠ 0 → Acts (.mgmtWrite h block offset [v]) s fun d =>
      d.answers h 0 ∧ d.reg (regAddr block.toNat offset.toNat) = v.toNat &&& r.rw ∧
      Keeps [.sessions] s.dev d ∧ KeepsRegs [regAddr block.toNat offset.toNat] s.dev d)

/-- A commit takes the role's shadow and is armed for its target EC, which its RESULT carries; a target of 0 means the first
multiple of 1,280 at least 10,000 ticks on (16 R481). A target outside the range is refused with 0x0013, a second commit of a
role on a block with 0x0014, and the shadow stays (Table 16.2, R480). -/
def Obligations.CommitsAreArmed : Prop :=
  ∀ (s : State) (h : MsgHdr) (block : BitVec 8) (target : BitVec 64) (x : Session), s.dev.inTurn h roleAll x →
    (s.dev.writeCode (sessionActor x) block.toNat 0 [(0xF00, target.toNat % 2 ^ 32), (0xF04, target.toNat / 2 ^ 32)] = 0 →
      Acts (.mgmtCommit h block target) s fun d => ∃ c : Armed,
        d.mg.armed = s.dev.mg.armed ++ [c] ∧ c.block = block.toNat ∧ c.role = x.role ∧ c.shadow = s.dev.shadowOf block.toNat x.role ∧
        (target.toNat ≠ 0 → c.target = target.toNat) ∧
        (target.toNat = 0 → c.target % 1280 = 0 ∧ s.dev.now + 10000 ≤ c.target ∧ c.target < s.dev.now + 11280) ∧
        d.shadowOf block.toNat x.role = [] ∧
        (∀ e, ¬(e.1 = x.role ∧ e.2.1 / 0x40000 = block.toNat) → (e ∈ d.mg.shadow ↔ e ∈ s.dev.mg.shadow)) ∧
        d.fld (fArmed block.toNat x.role) = 1 ∧ d.fld (fCommitState block.toNat) = 1 ∧
        d.told h.session.toNat (.result h.seq.toNat 0 0xFFFFFFFF (bytesOf (toLe 8 c.target))) ∧
        (block.toNat ≠ 15 → Keeps [.mg, .sessions] s.dev d) ∧ Keeps [.mg, .sessions, .sec] s.dev d ∧
        KeepsRegs [regAddr block.toNat 0xF08, regAddr 1 0x18] s.dev d) ∧
    (∀ code, s.dev.writeCode (sessionActor x) block.toNat 0 [(0xF00, target.toNat % 2 ^ 32), (0xF04, target.toNat / 2 ^ 32)] = code →
      code ≠ 0 → Acts (.mgmtCommit h block target) s fun d =>
        d.answers h code ∧ (s.dev.ledgerFull = false → s.dev.noted d 1 x.role code) ∧
        Keeps [.sessions, .ledger] s.dev d ∧ KeepsRegs auditRegs s.dev d) ∧
    (blockRegs block.toNat ≠ [] → x.claimant = false → s.dev.sec.warm = none →
      (target.toNat ≠ 0 → target.toNat < s.dev.now + 10000 ∨ s.dev.now + 60000000000 < target.toNat →
        Acts (.mgmtCommit h block target) s fun d => d.answers h 0x0013 ∧ d.mg = s.dev.mg) ∧
      (target.toNat = 0 → s.dev.hasArmed block.toNat x.role = true →
        Acts (.mgmtCommit h block target) s fun d => d.answers h 0x0014 ∧ d.mg = s.dev.mg))

/-- At its target EC a commit is applied whole or refused whole (16 R482): a refused one changes no register of the block but those
that report it; CLK and VAULT take their values and nothing else happens; EPOCH sets EC (01 R33); SEC orders its staging
commands and a warm reset (15 Table 15.16); FAB with its ports kept enabled discovers them anew (08 R289), and a port that it leaves out goes DOWN with FENCE_WHY 7 (R290); PWR and TELLER hold
the new values. Each run is recorded (R484). -/
def Obligations.CommitsApplyWholeOrNotAtAll : Prop :=
  ∀ (s : State) (block : BitVec 8) (c : Armed) (code : Nat), s.dev.nextCommit = some c → c.block = block.toNat → s.dev.sec.warm = none →
    s.dev.handing = false → s.dev.ledgerFull = false →
    code = blockRules s.dev (s.dev.overlay c.block c.shadow) c.shadow c false →
    (code ≠ 0 → c.block ≠ 15 → Acts (.commitRun block) s fun d =>
      d.mg = { s.dev.mg with armed := eraseFirst (fun y => y.block == c.block && y.role == c.role) s.dev.mg.armed } ∧
      d.fld (fCommitState c.block) = (if d.mg.armed.any (fun y => y.block == c.block) then 1 else 3) ∧
      d.fld ⟨regAddr c.block 0xF08, 15, 0⟩ = code % 65536 ∧ d.reg (regAddr c.block 0xF0C) = s.dev.now % 2 ^ 32 ∧
      s.dev.noted d 1 c.role code ∧ Keeps [.mg, .sessions, .ledger] s.dev d ∧ KeepsRegs (commitRegs c.block ++ auditRegs) s.dev d) ∧
    (code = 0 → c.block = 2 ∨ c.block = 9 → Acts (.commitRun block) s fun d =>
      (∀ o, o < 0xF00 → d.reg (regAddr c.block o) = s.dev.inForce c o) ∧
      d.fld (fCommitState c.block) = (if d.mg.armed.any (fun y => y.block == c.block) then 1 else 2) ∧
      d.fld ⟨regAddr c.block 0xF08, 15, 0⟩ = 0 ∧ s.dev.noted d 1 c.role 0 ∧ Keeps [.mg, .sessions, .ledger] s.dev d) ∧
    (code = 0 → c.block = 1 → bitAt (s.dev.inForce c 8) 3 = true → Acts (.commitRun block) s fun d =>
      d.now = s.dev.inForce c 0x14 * 2 ^ 32 + s.dev.inForce c 0x10 ∧ d.saw 1 7 = true ∧ d.fld ⟨regAddr 1 8, 3, 3⟩ = 0) ∧
    (code = 0 → c.block = 15 → Acts (.commitRun block) s fun d =>
      (bits (s.dev.inForce c 8) 31 30 = 1 ∨ bits (s.dev.inForce c 8) 31 30 = 2 →
        (bitAt (s.dev.inForce c 8) 29 = true → d.sec.erase = some (bits (s.dev.inForce c 8) 31 30)) ∧
        (bitAt (s.dev.inForce c 8) 28 = true → d.sec.verify = some (bits (s.dev.inForce c 8) 31 30))) ∧
      d.sec.warmReq = (s.dev.sec.warmReq || bitAt (s.dev.inForce c 4) 30) ∧
      d.fld ⟨regAddr 15 8, 29, 27⟩ = 0 ∧ d.fld ⟨regAddr 15 4, 30, 30⟩ = 0) ∧
    (code = 0 → c.block = 8 → (∀ p, p < 12 → (s.dev.overlay 8 c.shadow).portEn p = true ∧
        ((s.dev.overlay 8 c.shadow).pstate p = 0 → (s.dev.port p).signal = false)) → Acts (.commitRun block) s fun d =>
      (∀ o, 0x4000 ≤ o → o < 0x40000 → d.reg (regAddr 8 o) = s.dev.inForce c o) ∧ (∀ p, p < 12 → (d.port p).rediscover = true) ∧
      (∀ x ∈ c.shadow, 0x4000 ≤ x.1 → (mapGet (fun _ => 0) d.vault.mirror x.1).toNat = s.dev.inForce c x.1) ∧
      Keeps [.mg, .net, .fab, .slices, .vault, .sessions, .ledger] s.dev d) ∧
    (code = 0 → c.block = 8 → Acts (.commitRun block) s fun d => ∀ p, p < 12 → (s.dev.overlay 8 c.shadow).portEn p = false →
      (s.dev.overlay 8 c.shadow).pstate p ≠ 6 →
      ¬((s.dev.overlay 8 c.shadow).pstate p = 5 ∧ (s.dev.overlay 8 c.shadow).fld (fPortWhy p) = 5) →
      d.pstate p = 0 ∧ d.fld (fPortWhy p) = 7) ∧
    (code = 0 → c.block = 13 → Acts (.commitRun block) s fun d => ∀ o ∈ [4, 8, 0xC], d.reg (regAddr 13 o) = s.dev.inForce c o) ∧
    (code = 0 → c.block = 12 → Acts (.commitRun block) s fun d => ∀ o ∈ [4, 8, 0xC, 0x14], d.reg (regAddr 12 o) = s.dev.inForce c o)

/-- Bytes written to the window land in the inactive slot of the TARGET in force (15 R457, Table 15.13); an erase leaves that slot
with no image; a verification ends with STATE 2 and the image that may be activated, or with STATE 3 and none (R457, R459). -/
def Obligations.ImagesAreStaged : Prop :=
  (∀ (s : State) (h : MsgHdr) (offset : BitVec 32) (vals : List Word) (x : Session), s.dev.inTurn h roleAll x → vals ≠ [] →
    0x1000 ≤ offset.toNat → offset.toNat + 4 * vals.length ≤ 0x1400 → s.dev.pins.vnvm = true →
    s.dev.writeCode (sessionActor x) 15 (mapGet (fun _ => 0) x.commitLo 15) (regPairs offset.toNat vals) = 0 →
    Acts (.stageWinWrite h offset vals) s fun d =>
      (∀ (k : Nat) (b : Byte), (bytesOf (vals.flatMap (fun v => toLe 4 v.toNat)))[k]? = some b →
        s.dev.stageAt offset.toNat + k < s.dev.slotSize → mapGet (fun _ => 0xFF) d.staged (s.dev.stageAt offset.toNat + k) = b) ∧
      (∀ o, o < s.dev.stageAt offset.toNat ∨ s.dev.stageAt offset.toNat + 4 * vals.length ≤ o →
        mapGet (fun _ => (0xFF : Byte)) d.staged o = mapGet (fun _ => 0xFF) s.dev.staged o) ∧
      d.fld fStState = 1 ∧ d.answers h 0 ∧ Keeps [.sessions, .sec] s.dev d ∧ KeepsRegs [regAddr 15 0x10] s.dev d) ∧
  (∀ (s : State) (t : Nat), s.dev.sec.erase = some t → t = 1 ∨ t = 2 → s.dev.pins.vnvm = true → s.dev.ledgerFull = false →
    Acts .stageErase s fun d =>
      d.inactiveHolds t = false ∧ (t = 1 → d.sec.stageFw = [] ∧ d.sec.stagedFw = none) ∧ (t = 2 → d.sec.stageCfg = [] ∧ d.sec.stagedCfg = none) ∧
      d.sec.erase = none ∧ d.fld fStState = 0 ∧ s.dev.noted d 8 s.dev.sec.stageRole 0 ∧
      Keeps [.sessions, .ledger, .sec] s.dev d ∧ KeepsRegs stageRegs s.dev d) ∧
  (∀ (s : State) (keys : StageKeys) (f : FwImage), s.dev.sec.verify = some 1 → s.dev.pins.vnvm = true →
    f = fwOf s.dev.sec.makerRoot s.dev.sec.stageFw keys.maker →
    (f.ok = true → s.dev.sec.svn.toNat ≤ f.svn.toNat → Acts (.stageVerify keys) s fun d =>
      d.sec.stagedFw = some f ∧ d.inactiveHolds 1 = true ∧ d.sec.verify = none ∧ d.fld fStState = 2 ∧ d.saw 15 3 = true ∧
      Keeps [.sessions, .ledger, .sec] s.dev d ∧ KeepsRegs stageRegs s.dev d) ∧
    (f.ok = false ∨ f.svn.toNat < s.dev.sec.svn.toNat → Acts (.stageVerify keys) s fun d =>
      d.sec.stagedFw = none ∧ d.inactiveHolds 1 = false ∧ d.sec.verify = none ∧ d.fld fStState = 3 ∧
      d.fld fStCode = (if f.ok then 0x0F41 else 0x0F40) ∧ d.saw 15 3 = true ∧
      Keeps [.sessions, .ledger, .sec] s.dev d ∧ KeepsRegs stageRegs s.dev d)) ∧
  (∀ (s : State) (keys : StageKeys) (c : CfgImage), s.dev.sec.verify = some 2 → s.dev.pins.vnvm = true →
    c = cfgOf s.dev.sec.makerRoot s.dev.sec.stageCfg keys → Acts (.stageVerify keys) s fun d =>
      d.sec.stagedCfg = (if s.dev.cfgVerifies c s.dev.claimRoot then some c else none) ∧ d.sec.verify = none ∧
      d.inactiveHolds 2 = s.dev.cfgVerifies c s.dev.claimRoot ∧
      d.fld fStState = (if s.dev.cfgVerifies c s.dev.claimRoot then 2 else 3) ∧ d.saw 15 3 = true ∧
      Keeps [.sessions, .ledger, .sec, .fresh] s.dev d ∧ KeepsRegs stageRegs s.dev d)

/-- An activated configuration runs from then on, its keys and revocations in force; on an unclaimed device it claims the device for
its anchor (15 R464, Table 15.16). An activation of firmware loads the image onto the spare core for a handover at its EC: once
ready, at h the loops pause, and at the resumption the new image runs (R466, R467, Table 15.10). Within 1 s it may be reversed;
after that the new image stays and the fused SVN follows it. -/
def Obligations.ImagesAreActivated : Prop :=
  (∀ (s : State) (e : Nat) (c : CfgImage), s.dev.sec.activate = some (e, 2) → s.dev.sec.stagedCfg = some c → Acts .stageActivate s fun d =>
    d.sec.cfg = some c ∧ d.sec.activeCfg = !s.dev.sec.activeCfg ∧ d.sec.opKeys = c.opKeys ∧ d.sec.revoked = c.revoked ∧
    d.sec.cfgSlot d.sec.activeCfg = some c ∧ d.sec.cfgSlot s.dev.sec.activeCfg = s.dev.sec.cfgSlot s.dev.sec.activeCfg ∧
    d.sec.activate = none ∧ d.fld fCfgSlot = b2n d.sec.activeCfg ∧
    (s.dev.sec.owners ≠ [] → d.sec.owners = s.dev.sec.owners ∧ (s.dev.ledgerFull = false → s.dev.noted d 8 s.dev.sec.stageRole 0) ∧
      Keeps [.sessions, .ledger, .sec] s.dev d ∧ KeepsRegs auditRegs s.dev d) ∧
    (s.dev.sec.owners = [] → d.sec.owners = [c.anchor] ∧ d.fld fOwner = 1 ∧ d.saw 15 2 = true ∧ d.sec.holder = 0)) ∧
  (∀ (s : State) (h : Nat) (f : FwImage) (k : Nat), s.dev.sec.activate = some (h, 1) → s.dev.now < h → s.dev.hlth.takeover = false →
    s.dev.sec.stagedFw = some f → s.dev.hlth.mcSpare = some k → s.dev.sec.handover = none → Acts .stageActivate s fun d =>
      d.sec.handover = some { h := h, phase := 1, image := f, core := k, old := s.dev.sec.fw } ∧ d.sec.activate = none ∧ d.fld fHand = 1 ∧
      Keeps [.sessions, .ledger, .sec] s.dev d ∧ KeepsRegs auditRegs s.dev d) ∧
  (∀ (s : State) (x : Handover), s.dev.sec.handover = some x →
    (x.phase = 1 → x.ready = false → x.h ≤ s.dev.now + 100000000 →
      Acts (.handoverReadyCheck true) s (fun d => d = { s.dev with sec := { s.dev.sec with handover := some { x with ready := true } } }) ∧
      (s.dev.hlth.takeoverWaits = false → Acts (.handoverReadyCheck false) s fun d =>
        d.sec.handover = none ∧ d.fld fHand = 0 ∧ d.sec.fw = s.dev.sec.fw ∧ (s.dev.ledgerFull = false → s.dev.noted d 9 0 0x0F46) ∧
        Keeps [.sessions, .ledger, .sec] s.dev d ∧ KeepsRegs auditRegs s.dev d)) ∧
    (x.phase = 1 → x.ready = true → x.h ≤ s.dev.now → (∀ c ∈ s.dev.mg.armed, c.block = 15 → c.target ≠ x.h) → s.dev.hlth.takeover = false →
      Acts .handoverEc s fun d =>
        d.sec = { s.dev.sec with handover := some { x with phase := 2 } } ∧ d.fld fHand = 2 ∧ d.handing = true ∧ d.paused = true ∧
        Keeps [.sec] s.dev d ∧ KeepsRegs [regAddr 13 0, regAddr 15 0] s.dev d) ∧
    (x.phase = 2 → s.dev.noTurns → Acts .handoverResume s fun d =>
      d.sec.handover = some { x with phase := 3 } ∧ d.sec.fw = some x.image ∧ d.fld fHand = 3 ∧ d.paused = false ∧
      d.reg (regAddr 15 0x28) = x.image.version.toNat ∧ d.hlth = { s.dev.hlth with mcSpare := none } ∧ d.saw 15 4 = true ∧
      (s.dev.ledgerFull = false → s.dev.noted d 9 0 0) ∧
      Keeps [.hlth, .sessions, .ledger, .sec] s.dev d ∧ KeepsRegs handRegs s.dev d) ∧
    (x.phase = 3 → s.dev.now < x.h + 1000000000 → s.dev.hlth.takeoverWaits = false → Acts .handoverRevert s fun d =>
      d.sec.handover = none ∧ d.sec.fw = x.old ∧ d.fld fHand = 0 ∧ d.saw 15 5 = true ∧
      d.hlth = { s.dev.hlth with mcSpare := if s.dev.fld ⟨regAddr 14 0, 8 + x.core, 8 + x.core⟩ = 1 then some x.core else none } ∧
      (∀ f, x.old = some f → d.reg (regAddr 15 0x28) = f.version.toNat) ∧
      Keeps [.hlth, .sessions, .ledger, .sec] s.dev d ∧ KeepsRegs handRegs s.dev d) ∧
    (x.phase = 3 → x.h + 1000000000 ≤ s.dev.now → s.dev.pins.vnvm = true → Acts .handoverConfirm s fun d =>
      d.sec.handover = none ∧ d.sec.fw = s.dev.sec.fw ∧ d.sec.activeFw = !s.dev.sec.activeFw ∧ d.sec.stagedFw = none ∧
      d.sec.svn.toNat = max s.dev.sec.svn.toNat x.image.svn.toNat ∧ d.reg (regAddr 15 0x2C) = d.sec.svn.toNat ∧ d.fld fHand = 0 ∧
      d.fld fFwSlot = b2n d.sec.activeFw ∧
      Keeps [.hlth, .sessions, .ledger, .sec] s.dev d ∧ KeepsRegs (regAddr 15 0x2C :: auditRegs) s.dev d))

/-- A debug response unlocks its scope until its expiry, or with SCOPE 0 locks; one that fails a check is refused with its code,
counted and recorded (15 R471, R472, Table 15.19); either way the nonce is drawn anew. The scope ends at its expiry. Over JTAG
the code is the result of the access. -/
def Obligations.DebugIsUnlockedAndExpires : Prop :=
  (∀ (s : State) (scope : BitVec 8) (reserved : BitVec 56) (expiry : BitVec 64) (sig : DebugSig) (via : DebugVia) (code : Nat),
    s.dev.ledgerFull = false → code = s.dev.debugCode scope.toNat reserved.toNat expiry.toNat sig →
    (match via with
      | .jtag => s.dev.pins.rails = true
      | .session h => ∃ x, s.dev.inTurn h roleAll x ∧ s.dev.writeCode (sessionActor x) 15 0 [(0x216C, 0)] = 0) →
    (code = 0 → scope ≠ 0 → Acts (.debugResponse via scope reserved expiry sig) s fun d =>
      d.fld fScope = scope.toNat ∧ d.sec.expiry = expiry.toNat ∧ d.sec.unlocked = true ∧ d.saw 15 6 = true ∧ s.dev.noted d 10 3 0 ∧
      d.sec.resp = [] ∧ d.fresh = s.dev.fresh + 1 ∧ s.dev.sec.respondedBut d.sec ∧
      Keeps [.sessions, .ledger, .sec, .fresh] s.dev d ∧ KeepsRegs auditRegs s.dev d) ∧
    (code = 0 → scope = 0 → s.dev.fld fScope ≠ 3 → Acts (.debugResponse via scope reserved expiry sig) s fun d =>
      d.fld fScope = 0 ∧ (s.dev.fld fScope ≠ 0 → d.saw 15 6 = true ∧ s.dev.noted d 10 3 0) ∧ d.fresh = s.dev.fresh + 1 ∧
      s.dev.sec.respondedBut d.sec ∧ Keeps [.sessions, .ledger, .sec, .fresh] s.dev d ∧ KeepsRegs auditRegs s.dev d) ∧
    (code ≠ 0 → Acts (.debugResponse via scope reserved expiry sig) s fun d =>
      d.fld fScope = s.dev.fld fScope ∧ d.sec.expiry = s.dev.sec.expiry ∧ s.dev.noted d 10 3 code ∧
      d.reg (regAddr 15 0x30) = satAdd 32 (s.dev.reg (regAddr 15 0x30)) 1 ∧ d.fresh = s.dev.fresh + 1 ∧
      (via = .jtag → d.sec.jtagCode = code) ∧ (∀ h, via = .session h → d.answers h code) ∧
      Keeps [.sessions, .ledger, .sec, .fresh] s.dev d ∧ KeepsRegs (regAddr 15 0x30 :: auditRegs) s.dev d)) ∧
  (∀ s : State, s.dev.fld fScope ≠ 0 → s.dev.sec.expiry ≤ s.dev.now → s.dev.ledgerFull = false →
    (s.dev.fld fScope ≠ 3 → Acts .debugExpiry s fun d =>
      d.fld fScope = 0 ∧ d.saw 15 6 = true ∧ s.dev.noted d 10 3 0 ∧
      Keeps [.sessions, .ledger] s.dev d ∧ KeepsRegs auditRegs s.dev d) ∧
    (s.dev.fld fScope = 3 → s.dev.slices = [] → Acts .debugExpiry s fun d =>
      d.fld fScope = 0 ∧ d.saw 15 6 = true ∧ (∀ c, c < 72 → s.dev.fld (fClState c) ≤ 1 → d.fld (fClState c) = 2)))

/-- The nonce words of an installer or a maker are held, and the last one starts a report (15 R470), which then stands with the EC,
the nonce and the signature of the identity key. The audit ledger's buffer reaches the NVM area, and records fit again (R469). A
maker's order retires a site, a row, a lane or a pseudo-channel (R463). -/
def Obligations.ReportsLedgerAndOrders : Prop :=
  (∀ (s : State) (h : MsgHdr) (first : Fin 12) (v : Word) (x : Session), s.dev.inTurn h roleAll x →
    s.dev.writeCode (sessionActor x) 15 (mapGet (fun _ => 0) x.commitLo 15) [(0x200 + 4 * first.val, v.toNat)] = 0 →
    Acts (.attNonceWrite h first [v]) s fun d =>
      mapGet (fun _ => 0) d.sec.attNonce first.val = v ∧
      (∀ k, k ≠ first.val → mapGet (fun _ => 0) d.sec.attNonce k = mapGet (fun _ => 0) s.dev.sec.attNonce k) ∧
      (first.val = 11 → d.fld fAttReady = 0 ∧ ∃ n, d.sec.attRun = some n ∧ n.extractLsb' 352 32 = v) ∧
      (first.val ≠ 11 → d.sec.attRun = s.dev.sec.attRun) ∧ d.answers h 0 ∧
      Keeps [.sessions, .sec] s.dev d ∧ KeepsRegs [regAddr 15 0] s.dev d) ∧
  (∀ (s : State) (n : BitVec 384), s.dev.sec.attRun = some n → Acts .attestationReady s fun d =>
    d.sec = { s.dev.sec with attRun := none, report := d.sec.report } ∧ d.sec.report.length = 512 ∧
    d.sec.report.take 4 = [0x41, 0x4E, 0x54, 0x54] ∧ (d.sec.report.drop 24).take 8 = bytesOf (toLe 8 s.dev.now) ∧
    (d.sec.report.drop 32).take 48 = bytesOf (toLe 48 n.toNat) ∧
    d.sec.report.drop 416 = bytesOf (toLe 96 (Config.identitySignature (sha384 (d.sec.report.take 416))).toNat) ∧
    d.fld fAttReady = 1 ∧ Keeps [.sec] s.dev d ∧ KeepsRegs [regAddr 15 0] s.dev d) ∧
  (∀ s : State, s.dev.pins.vnvm = true → Acts .ledgerFlush s fun d =>
    d.sec = { s.dev.sec with unflushed := 0 } ∧ d.ledgerFull = false ∧ d.fld ⟨regAddr 15 0, 16, 16⟩ = 0 ∧
    Keeps [.ledger] s.dev d ∧ KeepsRegs [regAddr 15 0] s.dev d) ∧
  (∀ (s : State) (h : MsgHdr) (o : RepairOrder) (v : Word) (x : Session), s.dev.inTurn h roleAll x → v = o.value →
    s.dev.writeCode (sessionActor x) 15 0 [(0x18, v.toNat)] = 0 → s.dev.ledgerFull = false →
    (bits v.toNat 31 30 = 0 → bits v.toNat 29 0 / 16 < 72 → bits v.toNat 29 0 % 16 < 9 →
      s.dev.fld (fSite (bits v.toNat 29 0 / 16)) ≠ bits v.toNat 29 0 % 16 → s.dev.fld (fSite (bits v.toNat 29 0 / 16)) ≠ 0xE →
      (bits v.toNat 29 0 % 16 ≠ 8 ∨ s.dev.fld (fSite (bits v.toNat 29 0 / 16)) ≠ 0xF) → Acts (.repairReq h o) s fun d =>
        (bits v.toNat 29 0 / 16, bits v.toNat 29 0 % 16) ∈ d.hlth.sitesPending ∧ d.answers h 0 ∧ s.dev.noted d 11 3 0 ∧
        Keeps [.hlth, .sessions, .ledger] s.dev d ∧ KeepsRegs auditRegs s.dev d) ∧
    (bits v.toNat 31 30 = 0 → bits v.toNat 29 0 / 16 < 72 → bits v.toNat 29 0 % 16 = 8 → s.dev.fld (fSite (bits v.toNat 29 0 / 16)) = 0xF →
      Acts (.repairReq h o) s fun d =>
        d.fld (fSite (bits v.toNat 29 0 / 16)) = 8 ∧ d.saw 14 1 = true ∧ d.answers h 0 ∧ Keeps [.hlth, .sessions, .ledger] s.dev d) ∧
    (bits v.toNat 31 30 = 1 → graValid (bits v.toNat 29 0) = true → graSpace (bits v.toNat 29 0) = 0 → Acts (.repairReq h o) s fun d =>
      bits v.toNat 29 0 ∈ d.hlth.rowsPending ∧ d.answers h 0 ∧ s.dev.noted d 11 3 0 ∧
      Keeps [.hlth, .sessions, .ledger] s.dev d ∧ KeepsRegs auditRegs s.dev d) ∧
    (bits v.toNat 31 30 = 2 → bits v.toNat 29 0 / 16 < 12 → bits v.toNat 29 0 % 16 < 9 →
      s.dev.laneSound (bits v.toNat 29 0 / 16) (bits v.toNat 29 0 % 16) = true → Acts (.repairReq h o) s fun d =>
        (∃ w, (d.port (bits v.toNat 29 0 / 16)).laneSwitch = some (bits v.toNat 29 0 % 16, w) ∧ s.dev.wheel < w) ∧ d.answers h 0 ∧
        s.dev.noted d 11 3 0 ∧ Keeps [.fab, .sessions, .ledger, .fresh] s.dev d ∧ KeepsRegs auditRegs s.dev d) ∧
    (bits v.toNat 31 30 = 3 → bits v.toNat 29 0 / 64 < 12 → bits v.toNat 29 0 % 64 < 62 → (bits v.toNat 29 0 / 64, bits v.toNat 29 0 % 64) ∉ s.dev.vault.lost →
      s.dev.fld (fStackState (bits v.toNat 29 0 / 64)) ≠ 3 → 0 < s.dev.fld (fStackSpares (bits v.toNat 29 0 / 64)) → Acts (.repairReq h o) s fun d =>
        d.fld (fStackSpares (bits v.toNat 29 0 / 64)) = s.dev.fld (fStackSpares (bits v.toNat 29 0 / 64)) - 1 ∧
        d.fld (fStackState (bits v.toNat 29 0 / 64)) = max 1 (s.dev.fld (fStackState (bits v.toNat 29 0 / 64))) ∧ d.saw 9 5 = true ∧
        d.answers h 0 ∧ Keeps [.vault, .sessions, .ledger] s.dev d ∧
        (o.copy = [] → (∀ e ∈ s.dev.vault.lib, e.badOn (bits v.toNat 29 0 / 64) (bits v.toNat 29 0 % 64) = false) → Keeps [.sessions, .ledger] s.dev d)))

/-- The standby domain wakes, samples BOARD_SLOT, and the converters and rails come up in that order (17 R504, R505). VSTBY3V3 below
3.0 V pulls PWROK low, and power-down ends every slice, puts the ports DOWN and the rails off, while the audit ledger stays
(R507, R508). A current limit of VNVM_1V8 cuts the NVM off (R497). -/
def Obligations.PowerComesAndGoes : Prop :=
  (∀ s : State, s.dev.pins.standby = false → PinsBecome .standbyPowerValid s { s.dev.pins with
    standby := true, slot := none, page := 0xFF, cml := false, inputA := 0, inputB := 0, tempStat := 0, answer := [] }) ∧
  (∀ (s : State) (k : BitVec 3), s.dev.pins.standby = true → s.dev.pins.slot = none →
    PinsBecome (.boardSlotSample k) s { s.dev.pins with slot := some k }) ∧
  (∀ (s : State) (k : BitVec 3), s.dev.pins.standby = true → s.dev.pins.slot = some k → (s.dev.pwr.bladeA || s.dev.pwr.bladeB) = true →
    s.dev.pins.converters = false → Acts .converterStart s fun d =>
      d.pins = { s.dev.pins with converters := true } ∧ (∀ r, r < 24 → d.rail r = ⟨0, modeMv 2, s.dev.time.ticks⟩) ∧
      Keeps [.pins, .pwr] s.dev d ∧ KeepsRegs [] s.dev d) ∧
  (∀ s : State, s.dev.pins.converters = true → s.dev.pins.rails = false → Acts .railsSettled s fun d =>
    d.pins = { s.dev.pins with rails := true } ∧ (∀ r, r < 24 → d.rail r = ⟨modeMv 2, modeMv 2, s.dev.time.ticks⟩) ∧
    Keeps [.pins, .pwr] s.dev d ∧ KeepsRegs [] s.dev d) ∧
  (∀ s : State, PinsBecome .standbyUndervoltage s { s.dev.pins with
    standby := false, slot := none, pwrok := false, areaLost := true }) ∧
  (∀ s : State, s.dev.pins.rails = true → PinsBecome .vnvm1v8CurrentLimit s { s.dev.pins with vnvm := false }) ∧
  (∀ s : State, s.dev.pins.rails = true → Acts .powerDown s fun d =>
    d.slices = [] ∧ d.tel = {} ∧ d.net = {} ∧ d.mg = {} ∧ d.vault.loads = [] ∧ d.reg (regAddr 2 0x0C) = 0 ∧ d.bootState = 0 ∧
    (∀ p, p < 12 → d.pstate p = 0) ∧ d.pins = { s.dev.pins with pwrok := false, rails := false, converters := false, ppsOut := false } ∧
    d.sec.ledger = s.dev.sec.ledger ∧ d.vault.lib = s.dev.vault.lib ∧
    Keeps [.mg, .cores, .net, .fab, .slices, .vault, .sessions, .teller, .pwr, .hlth, .sec, .pins] s.dev d)

/-- A cold reset starts EC at 0, latches the straps and fills every memory with 0 (17 R506; 01 R18; 06 R225). Without valid firmware
the device is in recovery with ALERT_N pulled (15 R456); with firmware but no configuration it runs unconfigured on reset values
and opens Teller (R455); with both it opens configured. A boot that waits for its time source goes on after 30 s with SYNCED = 0
(R454), and one held by RESET_N when it rises (17 R500). -/
def Obligations.ColdResetBoots : Prop :=
  (∀ (s : State) (e : BootEnv), s.atPowerUp = true → Ends (.coldReset e) s fun t =>
    (∀ a, memByte t.mem a = 0) ∧
    (e.romOk = false → t.dev.bootState = 3 ∧ t.dev.pins.alert = true ∧ t.dev.now = 0 ∧ t.dev.fld fPark = 3 ∧ t.dev.mode = 2 ∧
      t.dev.reg (regAddr 2 0x0C) = 0 ∧ t.dev.cores = [] ∧ t.dev.net = {} ∧ t.dev.slices = [] ∧ t.dev.vault.lib = [] ∧
      t.dev.hlth.rowsPending = [] ∧ t.dev.hlth.sitesPending = [] ∧ (∀ c, c < 72 → t.dev.fld (fSite c) = 0xF) ∧
      t.dev.coord = e.posX.toNat * 256 + e.posY.toNat * 16 + e.posZ.toNat ∧ t.dev.pins.pwrok = true ∧
      (∀ p, e.provision = some p → t.dev.sec.serial = p.serial ∧ t.dev.sec.owners = p.owners) ∧
      (e.provision = none → t.dev.sec.serial = s.dev.sec.serial ∧ t.dev.sec.owners = s.dev.sec.owners) ∧
      ∀ p, p < 12 → t.dev.pstate p = 0)) ∧
  (∀ (s : State) (e : BootEnv) (p : Provision) (f : FwImage), s.atPowerUp = true → s.dev.pins.resetN = true → e.provision = some p →
    e.romOk = true → e.mcOk = 7 → s.dev.fld ⟨regAddr 14 0, 10, 8⟩ ≠ 0 → (if p.activeFw then p.fw1 else p.fw0) = some f → f.ok = true →
    p.svn.toNat ≤ f.svn.toNat →
    (p.cfg0 = none → p.cfg1 = none → Ends (.coldReset e) s fun t =>
      t.dev.openedWith 2 ∧ t.dev.sec.fw = some f ∧ t.dev.reg (regAddr 15 0x28) = f.version.toNat ∧ t.dev.sec.cfg = none ∧ t.dev.now = 0 ∧
      ∀ k, k < 12 → t.dev.pstate k = 0) ∧
    (∀ c, e.systemArea = true → s.dev.pins.areaLost = false → bitAt e.stackOk.toNat 0 = true → (if p.activeCfg then p.cfg1 else p.cfg0) = some c → c.ok = true →
      p.owners = [c.anchor] → s.dev.sec.lastSeq.toNat ≤ c.seq.toNat → c.regs = [] → c.slots = [] → c.routes = [] → Ends (.coldReset e) s fun t =>
        t.dev.openedWith 1 ∧ t.dev.sec.fw = some f ∧ t.dev.sec.cfg = some c ∧ t.dev.sec.opKeys = c.opKeys ∧
        t.dev.sec.revoked = c.revoked ∧ t.dev.fld fCfgSlot = b2n p.activeCfg ∧ t.dev.now = 0)) ∧
  (∀ s : State, s.dev.sec.lockWait = true → s.dev.time.measTick + 30000000000 ≤ s.dev.time.ticks → s.dev.pins.resetN = true →
    s.dev.sec.holdBoot = none → Acts .timeLockTimeout s fun d =>
      d.openedWith (if s.dev.sec.cfg.isSome then 1 else 2) ∧ (s.dev.fld fSrc ≠ 0 → s.dev.time.measured = none → d.fld (fTime 7) = 0) ∧
      Keeps [.slices, .sessions, .teller, .pwr, .ledger, .sec] s.dev d ∧
      KeepsRegs (regAddr 1 0x18 :: regAddr 13 0 :: regAddr 13 0x24 :: regAddr 13 0x28 :: (eventRegs 1 ++ auditRegs)) s.dev d) ∧
  (∀ s : State, s.dev.sec.holdBoot = none → PinsBecome .resetNRise s { s.dev.pins with resetN := true }) ∧
  (∀ (s : State) (e : BootEnv), s.dev.sec.holdBoot = some e → s.dev.fld fSrc = 0 → Acts .resetNRise s fun d =>
    d.openedWith (if s.dev.sec.cfg.isSome then 1 else 2) ∧ d.pins = { s.dev.pins with resetN := true } ∧
    Keeps [.slices, .sessions, .teller, .pwr, .ledger, .sec, .pins] s.dev d)

/-- A warm reset ends every slice and load, zeros the state of every core (04 R131, R138, R164), empties the mesh, locks debug, takes the ports back to ALIGN and the compute to full
park at Glide, every cluster stale (15 R453, R472; 13 R422). It ends after 100 µs with RESET_N high. -/
def Obligations.WarmResetsTheCompute : Prop :=
  (∀ s : State, s.dev.pins.rails = true → s.dev.bootState = 1 ∨ s.dev.bootState = 2 → s.dev.sec.warm = none →
    ∀ c ∈ (if s.dev.sec.warmReq then [Instr.warmReset, .ctrlWarmReset] else [.warmReset]), Acts c s fun d =>
      d.slices = [] ∧ d.vault.loads = [] ∧ d.cores = [] ∧
      d.net = { around := s.dev.net.around, rewriteAt := s.dev.net.rewriteAt } ∧ d.sec.warm = some s.dev.time.ticks ∧ d.sec.warmReq = false ∧ d.fld fScope = 0 ∧
      d.fld fPark = 3 ∧ d.reg (regAddr 2 0x0C) = 0 ∧ (d.failed = false → d.mode = 2) ∧ d.pwr.steps = [] ∧
      (∀ k, k < 72 → 2 ≤ d.fld (fClState k)) ∧
      (∀ p, p < 12 → d.pstate p = (if s.dev.portUp p = true ∨ s.dev.pstate p = 3 then 2 else s.dev.pstate p)) ∧
      d.pins.resetN = (if c = .warmReset then false else s.dev.pins.resetN) ∧ d.vault.lib.length = s.dev.vault.lib.length) ∧
  (∀ (s : State) (t : Nat), s.dev.sec.warm = some t → t + 100000 ≤ s.dev.time.ticks → s.dev.pins.resetN = true → Acts .warmResetEnd s fun d =>
    d.sec = { s.dev.sec with warm := none } ∧ d.pwr.waking = some s.dev.time.ticks ∧
    (s.dev.fld fPark = 3 → s.dev.reg (regAddr 2 0x0C) = 0 → s.dev.failed = false → d.reg (regAddr 2 0x0C) = 0xFFFFFF ∧ d.mode = 2) ∧
    Keeps [.pwr, .sec] s.dev d ∧ KeepsRegs [regAddr 2 0, regAddr 2 0x0C] s.dev d)

/-- JTAG answers IDCODE 0x24E0_678B, the debug challenge and BYPASS; boundary scan selects BYPASS below debug scope 1 (16 Table
16.12; 15 R471). MGMT_ACC reads a register, writes one into the maker shadow or in place, and arms a commit, with the code and
value of the access (R491); each write is recorded (15 R472). At scope 3 a write of ROW_CTRL bit 0 writes the window into its
row (R489). Without the rails the TAP does not answer (17 R503). -/
def Obligations.JtagAccesses : Prop :=
  (∀ s : State, s.dev.pins.rails = true →
    Acts .jtagIdcode s (fun d => d = { s.dev with sec := { s.dev.sec with ir := 1, tdo := [0x8B, 0x67, 0xE0, 0x24] } }) ∧
    Acts .jtagDbgChal s (fun d => d = { s.dev with sec := { s.dev.sec with
      ir := 0x10, tdo := bytesOf (toLe 16 s.dev.sec.serial.toNat) ++ bytesOf (toLe 48 s.dev.sec.nonce.toNat) } }) ∧
    Acts .jtagBypass s (fun d => d = { s.dev with sec := { s.dev.sec with ir := 0xFF, tdo := [0] } }) ∧
    Acts .tapReset s (fun d => d = { s.dev with sec := { s.dev.sec with ir := 1, tdo := [] } }) ∧
    (1 ≤ s.dev.fld fScope → Acts .jtagExtest s (fun d => d = { s.dev with sec := { s.dev.sec with ir := 0, tdo := [] } }) ∧
      Acts .jtagSamplePreload s (fun d => d = { s.dev with sec := { s.dev.sec with ir := 2, tdo := [] } })) ∧
    (s.dev.fld fScope = 0 → ∀ c ∈ [Instr.jtagExtest, .jtagSamplePreload],
      Acts c s (fun d => d = { s.dev with sec := { s.dev.sec with ir := 0xFF, tdo := [0] } }))) ∧
  (∀ (s : State) (dr : BitVec 96) (v : Word), s.dev.pins.rails = false →
    ∀ c ∈ [Instr.jtagIdcode, .jtagDbgChal, .jtagBypass, .tapReset, .jtagExtest, .jtagSamplePreload, .jtagMgmtAcc dr, .rowWindowWrite v],
      Acts c s (fun d => d = s.dev)) ∧
  (∀ (s : State) (dr : BitVec 96) (b off : Nat), s.dev.pins.rails = true → b = bits dr.toNat 71 64 → off = bits dr.toNat 89 72 →
    bitAt dr.toNat 94 = false → bitAt dr.toNat 95 = false → (b ≠ 10 ∨ s.clean (s.dev.reg (regAddr 10 4)) = true) →
    (s.dev.readCode jtagActor b [off] = 0 → Acts (.jtagMgmtAcc dr) s fun d =>
      d.sec.tdo = accDr 0 (s.readReg (s.dev.latch b [off] s.dev.sec.jtagLatch) b off).toNat ∧ d.sec.ir = 0x20 ∧
      Keeps [.sec] s.dev d ∧ KeepsRegs [] s.dev d) ∧
    (∀ code, s.dev.readCode jtagActor b [off] = code → code ≠ 0 → Acts (.jtagMgmtAcc dr) s fun d =>
      d.sec.tdo = accDr code 0 ∧ Keeps [.sec] s.dev d ∧ KeepsRegs [] s.dev d)) ∧
  (∀ (s : State) (dr : BitVec 96) (b off : Nat) (r : RegRow) (lo : Nat), s.dev.pins.rails = true → b = bits dr.toNat 71 64 →
    off = bits dr.toNat 89 72 → bitAt dr.toNat 94 = false → bitAt dr.toNat 95 = true → regRow b off = some r →
    lo = mapGet (fun _ => 0) s.dev.sec.jtagCommitLo b → s.dev.ledgerFull = false →
    (s.dev.mgmtWriteCode jtagActor b lo [(off, bits dr.toNat 31 0)] = 0 →
      (r.cw ≠ 0 → Acts (.jtagMgmtAcc dr) s fun d =>
        (3, regAddr b off, BitVec.ofNat 32 (bits dr.toNat 31 0)) ∈ d.mg.shadow ∧ d.mg.armed = s.dev.mg.armed ∧ d.sec.tdo = accDr 0 0 ∧
        s.dev.noted d 10 3 0 ∧ Keeps [.mg, .sessions, .ledger, .sec] s.dev d ∧ KeepsRegs auditRegs s.dev d) ∧
      (r.cw = 0 → r.w1c = 0 → r.rw ≠ 0 → b ≠ 10 ∨ off ≠ 8 → Acts (.jtagMgmtAcc dr) s fun d =>
        d.reg (regAddr b off) = bits dr.toNat 31 0 &&& r.rw ∧ d.sec.tdo = accDr 0 0 ∧ s.dev.noted d 10 3 0 ∧
        Keeps [.sessions, .ledger, .sec] s.dev d ∧ KeepsRegs (jtagRegs (regAddr b off)) s.dev d)) ∧
    (∀ code, s.dev.mgmtWriteCode jtagActor b lo [(off, bits dr.toNat 31 0)] = code → code ≠ 0 → off ≠ 0xF04 → Acts (.jtagMgmtAcc dr) s fun d =>
      d.sec.tdo = accDr code 0 ∧ s.dev.noted d 10 3 code ∧ Keeps [.sessions, .ledger, .sec] s.dev d ∧ KeepsRegs auditRegs s.dev d)) ∧
  (∀ (s : State) (dr : BitVec 96) (b t : Nat), s.dev.pins.rails = true → b = bits dr.toNat 71 64 → t = bits dr.toNat 63 0 →
    bitAt dr.toNat 94 = true → s.dev.writeCode jtagActor b 0 [(0xF00, t % 2 ^ 32), (0xF04, t / 2 ^ 32)] = 0 → Acts (.jtagMgmtAcc dr) s fun d =>
      (∃ c : Armed, d.mg.armed = s.dev.mg.armed ++ [c] ∧ c.block = b ∧ c.role = 3 ∧ c.target = s.dev.commitTarget t ∧
        c.shadow = s.dev.shadowOf b 3 ∧ d.sec.tdo = accDr 0 c.target) ∧ Keeps [.mg, .sec] s.dev d) ∧
  (∀ (s : State) (v : Word), s.dev.pins.rails = true → memWf s.mem = true → s.dev.ledgerFull = false → bitAt v.toNat 0 = true →
    s.dev.mgmtWriteCode jtagActor 10 (mapGet (fun _ => 0) s.dev.sec.jtagCommitLo 10) [(8, v.toNat)] = 0 → Ends (.rowWindowWrite v) s fun t =>
      readRow t.mem (s.dev.reg (regAddr 10 4)) =
        BitVec.ofNat 4096 (packFields 32 ((List.range 128).map (fun k => s.dev.reg (regAddr 10 (0x400 + 4 * k))))) ∧
      OnlyRow s.mem t.mem (s.dev.reg (regAddr 10 4)) ∧ t.dev.sec.tdo = accDr 0 0 ∧ s.dev.noted t.dev 10 3 0 ∧
      Keeps [.sessions, .ledger, .sec] s.dev t.dev ∧ KeepsRegs (jtagRegs (regAddr 10 8)) s.dev t.dev)

/-- The PMBus target answers the commands of 17 Table 17.9 on the pages that they list, and ignores every other message with CML
(R504). READ values are the words of LINEAR11 nearest to the last readings. -/
def Obligations.PmbusAnswers : Prop :=
  (∀ s : State, s.dev.pmOn = true →
    (∀ p : BitVec 8, s.dev.pins.page = p → p = 0 ∨ p = 1 ∨ p = 0xFF →
      PinsBecome .pmRevision s { s.dev.pins with answer := [0x33] } ∧
      PinsBecome .pmMfrId s { s.dev.pins with answer := [0x43, 0x53, 0x4E] } ∧
      PinsBecome .pmMfrModel s { s.dev.pins with answer := [0x4E, 0x36, 0x2D, 0x39, 0x36, 0x30, 0x4C] } ∧
      PinsBecome .pmMfrRevision s { s.dev.pins with answer := [0x43, 0x31] } ∧
      PinsBecome .pmMfrSerial s { s.dev.pins with answer := bytesOf (toLe 16 s.dev.sec.serial.toNat) } ∧
      PinsBecome (.pmPage .read) s { s.dev.pins with answer := [p] } ∧
      (∀ v : BitVec 8, PinsBecome (.pmPage (.write v)) s (if v = 0 ∨ v = 1 ∨ v = 0xFF then { s.dev.pins with page := v, answer := [] }
        else { s.dev.pins with cml := true, answer := [] })) ∧
      (∃ w, PinsBecome .pmStatusWord s { s.dev.pins with answer := bytesOf (toLe 2 w) } ∧ w < 2 ^ 16 ∧ bitAt w 1 = s.dev.pins.cml ∧
        bitAt w 2 = (s.dev.pins.tempStat != 0) ∧ bitAt w 6 = !s.dev.pins.rails ∧ bitAt w 13 = (s.dev.pageInput != 0) ∧
        bitAt w 3 = bitAt s.dev.pageInput 4) ∧
      Acts .pmClearFaults s (fun d => d = { s.dev with pins := d.pins } ∧ d.pins.cml = false ∧ d.pins.page = p ∧
        (s.dev.pwr.ovA = false → bitAt d.pins.inputA.toNat 7 = false) ∧ (s.dev.pwr.bladeA = true → bitAt d.pins.inputA.toNat 4 = false) ∧
        (s.dev.pwr.ovB = false → bitAt d.pins.inputB.toNat 7 = false) ∧ (s.dev.pwr.bladeB = true → bitAt d.pins.inputB.toNat 4 = false) ∧
        bitAt d.pins.tempStat.toNat 7 = (bitAt s.dev.pins.tempStat.toNat 7 && s.dev.pins.thermtrip) ∧
        bitAt d.pins.tempStat.toNat 6 = (bitAt s.dev.pins.tempStat.toNat 6 && s.dev.tooHot)) ∧
      PinsBecome .pmStatusTemperature s (if p = 0xFF then { s.dev.pins with answer := [s.dev.pins.tempStat] }
        else { s.dev.pins with cml := true, answer := [] }) ∧
      PinsBecome .pmStatusInput s (if p = 0xFF then { s.dev.pins with cml := true, answer := [] }
        else { s.dev.pins with answer := bytesOf [s.dev.statusInput (pageBlade p.toNat)] }) ∧
      ∀ c ∈ (if p = 0xFF then [Instr.pmReadVin, .pmReadIin] else [.pmReadTemperature1, .pmReadTemperature2]),
        PinsBecome c s { s.dev.pins with cml := true, answer := [] }) ∧
    PinsBecome .pmInvalidMessage s { s.dev.pins with cml := true, answer := [] } ∧
    (∀ (c : Instr) (n m : Nat),
      (s.dev.pins.page = 0 ∨ s.dev.pins.page = 1) ∧ c = .pmReadVin ∧ n = s.dev.bladeMv ∧ m = 1000 ∨
      (s.dev.pins.page = 0 ∨ s.dev.pins.page = 1) ∧ s.dev.bladeMv ≠ 0 ∧ c = .pmReadIin ∧ n = s.dev.bladeW * 1000 ∧ m = s.dev.bladeMv ∨
      s.dev.pins.page = 0xFF ∧ s.dev.pins.rails = true ∧ c = .pmReadTemperature1 ∧ n = s.dev.fld ⟨regAddr 13 0x48, 7, 0⟩ ∧ m = 1 ∨
      s.dev.pins.page = 0xFF ∧ s.dev.pins.rails = true ∧ c = .pmReadTemperature2 ∧ n = s.dev.fld ⟨regAddr 13 0x48, 23, 16⟩ ∧ m = 1 ∨
      (s.dev.pins.page = 0 ∨ s.dev.pins.page = 1) ∧ c = .pmReadPin ∧ n = s.dev.bladeW ∧ m = 1 ∨
      s.dev.pins.page = 0xFF ∧ c = .pmReadPin ∧ n = bits (s.dev.reg (regAddr 13 0x14)) 31 16 ∧ m = 1 →
      ∃ w, Acts c s (fun d => d = { s.dev with pins := { s.dev.pins with answer := bytesOf (toLe 2 w) }, fresh := s.dev.fresh + 1 }) ∧
        (n < 1023 * 2 ^ 15 * m → w % 2048 < 1024 ∧
          2 * (w % 2048 * (m * 2 ^ ((w / 2048 + 16) % 32))) ≤ 2 * (n * 2 ^ 16) + m * 2 ^ ((w / 2048 + 16) % 32) ∧
          2 * (n * 2 ^ 16) ≤ 2 * (w % 2048 * (m * 2 ^ ((w / 2048 + 16) % 32))) + m * 2 ^ ((w / 2048 + 16) % 32) ∧
          (512 ≤ w % 2048 ∨ w / 2048 = 16))))

end
end

