-- ==== Sys2Proof/Laws/Memory.lean ====
section
/-! SUPPORT. Row memory: every operation keeps the canonical form, a row written reads back, and no other row changes. -/

namespace Sys2Proof.Machine

section Maps
variable {α : Type} [DecidableEq α] {d : Nat → α}

theorem mapWfFrom_mono {b b' : Nat} {l : List (Nat × α)} (hb : b' ≤ b) (h : mapWfFrom d b l = true) : mapWfFrom d b' l = true := by
  cases l with
  | nil => rfl
  | cons x t =>
    obtain ⟨a, v⟩ := x
    simp only [mapWfFrom, Bool.and_eq_true, decide_eq_true_eq] at h ⊢
    exact ⟨⟨by omega, h.1.2⟩, h.2⟩

theorem mapWfFrom_keys {b : Nat} {l : List (Nat × α)} (h : mapWfFrom d b l = true) : ∀ x ∈ l, b ≤ x.1 := by
  induction l generalizing b with
  | nil => simp
  | cons x t ih =>
    obtain ⟨a, v⟩ := x
    simp only [mapWfFrom, Bool.and_eq_true, decide_eq_true_eq] at h
    intro y hy
    rcases List.mem_cons.mp hy with rfl | hy
    · exact h.1.1
    · have := ih h.2 y hy; omega

/-- Below a bound, taking while is filtering. -/
theorem takeWhile_eq_filter {b n : Nat} {l : List (Nat × α)} (h : mapWfFrom d b l = true) :
    l.takeWhile (fun c => decide (c.1 < n)) = l.filter (fun c => decide (c.1 < n)) := by
  induction l generalizing b with
  | nil => rfl
  | cons x t ih =>
    obtain ⟨a, v⟩ := x
    simp only [mapWfFrom, Bool.and_eq_true, decide_eq_true_eq] at h
    by_cases hn : a < n
    · simp [hn, ih h.2]
    · have : ∀ y ∈ t, ¬ y.1 < n := fun y hy => by have := mapWfFrom_keys h.2 y hy; omega
      simp only [List.takeWhile_cons, List.filter_cons, hn, decide_false]
      simp only [Bool.false_eq_true, if_false]
      exact (List.filter_eq_nil_iff.mpr (fun y hy => by simpa using this y hy)).symm

theorem dropWhile_eq_filter {b n : Nat} {l : List (Nat × α)} (h : mapWfFrom d b l = true) :
    l.dropWhile (fun c => decide (c.1 < n)) = l.filter (fun c => decide (n ≤ c.1)) := by
  induction l generalizing b with
  | nil => rfl
  | cons x t ih =>
    obtain ⟨a, v⟩ := x
    simp only [mapWfFrom, Bool.and_eq_true, decide_eq_true_eq] at h
    by_cases hn : a < n
    · have : ¬ n ≤ a := by omega
      simp [hn, this, ih h.2]
    · have h1 : n ≤ a := by omega
      have h2 : ∀ y ∈ t, n ≤ y.1 := fun y hy => by have := mapWfFrom_keys h.2 y hy; omega
      have : t.filter (fun c => decide (n ≤ c.1)) = t := List.filter_eq_self.mpr (fun y hy => by simpa using h2 y hy)
      simp [hn, h1, this]

theorem mapWfFrom_filter {b : Nat} {l : List (Nat × α)} (p : Nat × α → Bool) (h : mapWfFrom d b l = true) :
    mapWfFrom d b (l.filter p) = true := by
  induction l generalizing b with
  | nil => rfl
  | cons x t ih =>
    obtain ⟨a, v⟩ := x
    simp only [mapWfFrom, Bool.and_eq_true, decide_eq_true_eq] at h
    cases hp : p (a, v)
    · simpa [hp] using mapWfFrom_mono (by omega) (ih h.2)
    · simp [hp, mapWfFrom, h.1.1, h.1.2, ih h.2]

theorem mapWfFrom_raise {b n : Nat} {l : List (Nat × α)} (h : mapWfFrom d b l = true) (hk : ∀ x ∈ l, n ≤ x.1) :
    mapWfFrom d n l = true := by
  cases l with
  | nil => rfl
  | cons x t =>
    obtain ⟨a, v⟩ := x
    simp only [mapWfFrom, Bool.and_eq_true, decide_eq_true_eq] at h ⊢
    exact ⟨⟨hk _ List.mem_cons_self, h.1.2⟩, h.2⟩

theorem mapWfFrom_append {b n : Nat} {l k : List (Nat × α)} (h : mapWfFrom d b l = true) (hl : ∀ x ∈ l, x.1 < n)
    (hk : mapWfFrom d n k = true) (hb : b ≤ n) : mapWfFrom d b (l ++ k) = true := by
  induction l generalizing b with
  | nil => exact mapWfFrom_mono hb hk
  | cons x t ih =>
    obtain ⟨a, v⟩ := x
    simp only [mapWfFrom, Bool.and_eq_true, decide_eq_true_eq, List.cons_append] at h ⊢
    have ha : a < n := hl _ List.mem_cons_self
    exact ⟨h.1, ih h.2 (fun y hy => hl y (List.mem_cons_of_mem _ hy)) (by omega)⟩

/-- A value set keeps the canonical form. -/
theorem mapSet_wf {b : Nat} {l : List (Nat × α)} (k : Nat) (v : α) (h : mapWfFrom d b l = true) (hb : b ≤ k) :
    mapWfFrom d b (mapSet d l k v) = true := by
  induction l generalizing b with
  | nil =>
    by_cases hv : v = d k
    · simp [mapSet, hv, mapWfFrom]
    · simp [mapSet, hv, mapWfFrom, hb]
  | cons x t ih =>
    obtain ⟨a, w⟩ := x
    have h' := h
    simp only [mapWfFrom, Bool.and_eq_true, decide_eq_true_eq] at h'
    unfold mapSet
    split
    · split
      · simp only [mapWfFrom, Bool.and_eq_true, decide_eq_true_eq]
        exact ⟨h'.1, mapWfFrom_filter _ h'.2⟩
      · rename_i hka hv
        simp only [mapWfFrom, Bool.and_eq_true, decide_eq_true_eq]
        exact ⟨⟨hb, hv⟩, ⟨⟨by omega, h'.1.2⟩, h'.2⟩⟩
    · split
      · split
        · exact mapWfFrom_filter _ (mapWfFrom_mono (by omega) h'.2)
        · rename_i hka hak hv
          subst hak
          simp only [mapWfFrom, Bool.and_eq_true, decide_eq_true_eq]
          exact ⟨⟨hb, hv⟩, h'.2⟩
      · simp only [mapWfFrom, Bool.and_eq_true, decide_eq_true_eq]
        exact ⟨h'.1, ih h'.2 (by omega)⟩

omit [DecidableEq α] in
theorem mapGet_of_notMem {l : List (Nat × α)} {k : Nat} (h : ∀ x ∈ l, x.1 ≠ k) : mapGet d l k = d k := by
  induction l with
  | nil => rfl
  | cons x t ih =>
    have h1 := h x List.mem_cons_self
    simp only [mapGet]
    rw [if_neg h1, ih (fun y hy => h y (List.mem_cons_of_mem _ hy))]

omit [DecidableEq α] in
theorem mapGet_append {l k : List (Nat × α)} {n : Nat} (h : ∀ x ∈ l, x.1 ≠ n) : mapGet d (l ++ k) n = mapGet d k n := by
  induction l with
  | nil => rfl
  | cons x t ih =>
    have h1 := h x List.mem_cons_self
    simp only [List.cons_append, mapGet]
    rw [if_neg h1, ih (fun y hy => h y (List.mem_cons_of_mem _ hy))]

omit [DecidableEq α] in
theorem mapGet_append_left {l k : List (Nat × α)} {n : Nat} (h : ∀ x ∈ k, x.1 ≠ n) : mapGet d (l ++ k) n = mapGet d l n := by
  induction l with
  | nil => rw [List.nil_append, mapGet_of_notMem h]; rfl
  | cons x t ih => simp only [List.cons_append, mapGet, ih]

omit [DecidableEq α] in
theorem mapGet_filter {l : List (Nat × α)} {n : Nat} {p : Nat × α → Bool} (h : ∀ v, p (n, v) = true) :
    mapGet d (l.filter p) n = mapGet d l n := by
  induction l with
  | nil => rfl
  | cons x t ih =>
    obtain ⟨a, v⟩ := x
    by_cases ha : a = n
    · subst ha; simp [h v, mapGet]
    · cases hp : p (a, v) <;> simp [hp, mapGet, ha, ih]

omit [DecidableEq α] in
theorem mapGet_mapErase_self (l : List (Nat × α)) (k : Nat) : mapGet d (mapErase l k) k = d k :=
  mapGet_of_notMem (fun x hx => by simpa [mapErase] using (List.mem_filter.mp hx).2)

omit [DecidableEq α] in
theorem mapGet_mapErase_ne (l : List (Nat × α)) {k n : Nat} (hn : n ≠ k) : mapGet d (mapErase l k) n = mapGet d l n :=
  mapGet_filter (fun v => by simpa using hn)

/-- A value set is what the map then holds at its key. -/
theorem mapGet_mapSet_self (l : List (Nat × α)) (k : Nat) (v : α) : mapGet d (mapSet d l k v) k = v := by
  induction l with
  | nil => by_cases hv : v = d k <;> simp [mapSet, hv, mapGet]
  | cons x t ih =>
    obtain ⟨a, w⟩ := x
    unfold mapSet
    split
    · rename_i hka
      have ha : ¬ a = k := by omega
      split
      · rename_i hv
        rw [hv]
        simp [mapGet, ha, mapGet_mapErase_self]
      · simp [mapGet]
    · split
      · rename_i hak
        subst hak
        split
        · rename_i hv
          rw [hv, mapGet_mapErase_self]
        · simp [mapGet]
      · rename_i hka hak
        simp [mapGet, hak, ih]

/-- A value set leaves every other key. -/
theorem mapGet_mapSet_ne {l : List (Nat × α)} {k n : Nat} (v : α) (hn : n ≠ k) : mapGet d (mapSet d l k v) n = mapGet d l n := by
  have hk : ¬ k = n := fun e => hn e.symm
  induction l with
  | nil => by_cases hv : v = d k <;> simp [mapSet, hv, mapGet, hk]
  | cons x t ih =>
    obtain ⟨a, w⟩ := x
    unfold mapSet
    split
    · split <;> simp [mapGet, hk, mapGet_mapErase_ne t hn]
    · split
      · rename_i hak
        subst hak
        split <;> simp [mapGet, hk, mapGet_mapErase_ne t hn]
      · simp only [mapGet, ih]

omit [DecidableEq α] in
/-- A value put is what the map then holds at its key. -/
theorem mapGet_mapPut_self (l : List (Nat × α)) (k : Nat) (v : α) : mapGet d (mapPut l k v) k = v := by
  induction l with
  | nil => simp [mapPut, mapGet]
  | cons x t ih =>
    obtain ⟨a, w⟩ := x
    unfold mapPut
    split
    · simp [mapGet]
    · split
      · simp [mapGet]
      · rename_i hka hak
        simp [mapGet, hak, ih]

omit [DecidableEq α] in
/-- A value put leaves every other key. -/
theorem mapGet_mapPut_ne {l : List (Nat × α)} {k n : Nat} (v : α) (hn : n ≠ k) : mapGet d (mapPut l k v) n = mapGet d l n := by
  have hk : ¬ k = n := fun e => hn e.symm
  induction l with
  | nil => simp [mapPut, mapGet, hk]
  | cons x t ih =>
    obtain ⟨a, w⟩ := x
    unfold mapPut
    split
    · simp [mapGet, hk]
    · split
      · rename_i hak
        subst hak
        simp [mapGet, hk]
      · simp only [mapGet, ih]

end Maps

/-! ### Cells of a row -/

theorem cellsFrom_wf : ∀ (k a v : Nat), mapWfFrom (fun _ => (0 : Byte)) a (cellsFrom k a v) = true
  | 0, _, _ => rfl
  | k + 1, a, v => by
    unfold cellsFrom
    split
    · rfl
    · split
      · exact mapWfFrom_mono (by omega) (cellsFrom_wf k (a + 1) _)
      · rename_i h0 h1
        simp only [mapWfFrom, Bool.and_eq_true, decide_eq_true_eq]
        refine ⟨⟨le_refl _, ?_⟩, cellsFrom_wf k (a + 1) _⟩
        intro h
        have := congrArg BitVec.toNat h
        simp at this
        omega

theorem cellsFrom_lt : ∀ (k a v : Nat), ∀ x ∈ cellsFrom k a v, x.1 < a + k
  | 0, _, _ => by simp [cellsFrom]
  | k + 1, a, v => by
    intro x hx
    unfold cellsFrom at hx
    split at hx
    · simp at hx
    · split at hx
      · have := cellsFrom_lt k (a + 1) _ x hx; omega
      · rcases List.mem_cons.mp hx with rfl | hx
        · simp only; omega
        · have := cellsFrom_lt k (a + 1) _ x hx; omega

/-! ### Rows -/

/-- A row written keeps the canonical form. -/
theorem writeRow_wf {m : List Host.Cell} (g : Nat) (r : RowData) (h : memWf m = true) : memWf (writeRow m g r) = true := by
  unfold memWf mapWf at *
  unfold writeRow
  simp only [takeWhile_eq_filter h, dropWhile_eq_filter h, List.append_assoc]
  refine mapWfFrom_append (n := g * 512) (mapWfFrom_filter _ h) (fun x hx => by simpa using (List.mem_filter.mp hx).2) ?_ (by omega)
  refine mapWfFrom_append (n := g * 512 + 512) (cellsFrom_wf _ _ _) (cellsFrom_lt _ _ _) ?_ (by omega)
  exact mapWfFrom_raise (mapWfFrom_filter _ h) (fun x hx => by simpa using (List.mem_filter.mp hx).2)

/-- Rows cleared keep the canonical form. -/
theorem clearRows_wf {m : List Host.Cell} {lo hi : Nat} (h : memWf m = true) (hl : lo ≤ hi) : memWf (clearRows m lo hi) = true := by
  unfold memWf mapWf at *
  unfold clearRows
  simp only [takeWhile_eq_filter h, dropWhile_eq_filter h]
  refine mapWfFrom_append (n := hi * 512) (mapWfFrom_filter _ h) (fun x hx => ?_) ?_ (by omega)
  · have := (List.mem_filter.mp hx).2
    simp only [decide_eq_true_eq] at this
    exact Nat.lt_of_lt_of_le this (Nat.mul_le_mul_right 512 hl)
  · exact mapWfFrom_raise (mapWfFrom_filter _ h) (fun x hx => by simpa using (List.mem_filter.mp hx).2)

/-- A byte outside the row written reads as before. -/
theorem memByte_writeRow_other {m : List Host.Cell} {g a : Nat} (r : RowData) (h : memWf m = true)
    (ha : a < g * 512 ∨ g * 512 + 512 ≤ a) : memByte (writeRow m g r) a = memByte m a := by
  unfold memWf mapWf at h
  unfold memByte writeRow
  simp only [takeWhile_eq_filter h, dropWhile_eq_filter h]
  have hc : ∀ x ∈ cellsFrom 512 (g * 512) r.toNat, x.1 ≠ a := fun x hx => by
    have h1 := mapWfFrom_keys (cellsFrom_wf 512 (g * 512) r.toNat) x hx
    have h2 := cellsFrom_lt 512 (g * 512) r.toNat x hx
    omega
  rcases ha with ha | ha
  · rw [mapGet_append_left, mapGet_append_left hc]
    · exact mapGet_filter (fun v => by simpa using ha)
    · intro x hx
      have := (List.mem_filter.mp hx).2
      simp only [decide_eq_true_eq] at this
      omega
  · rw [mapGet_append]
    · exact mapGet_filter (fun v => by simpa using ha)
    · intro x hx
      rcases List.mem_append.mp hx with hx | hx
      · have := (List.mem_filter.mp hx).2
        simp only [decide_eq_true_eq] at this
        omega
      · exact hc x hx

/-- The bytes that a list of cells adds to a row at base b. -/
def cellSum (b : Nat) (l : List Host.Cell) : Nat := l.foldl (fun acc c => acc + c.2.toNat <<< (8 * (c.1 - b))) 0

theorem cellSum_acc (b : Nat) (l : List Host.Cell) (n : Nat) :
    l.foldl (fun acc c => acc + c.2.toNat <<< (8 * (c.1 - b))) n = n + cellSum b l := by
  induction l generalizing n with
  | nil => simp [cellSum]
  | cons x t ih => simp only [cellSum, List.foldl_cons]; rw [ih, ih]; omega

theorem cellSum_cells (b : Nat) : ∀ (k j v : Nat), cellSum b (cellsFrom k (b + j) v) = (v % 256 ^ k) * 256 ^ j
  | 0, j, v => by simp [cellsFrom, cellSum, Nat.mod_one]
  | k + 1, j, v => by
    have hsplit : v % 256 ^ (k + 1) = v % 256 + 256 * (v / 256 % 256 ^ k) := by
      rw [Nat.pow_succ, Nat.mul_comm (256 ^ k) 256]
      exact Nat.mod_mul
    have ih := cellSum_cells b k (j + 1) (v / 256)
    rw [show b + (j + 1) = b + j + 1 from by omega] at ih
    unfold cellsFrom
    split
    · rename_i h0
      simp [h0, cellSum]
    · split
      · rename_i h0 h1
        rw [ih, hsplit, h1, Nat.pow_succ]
        ring
      · rename_i h0 h1
        have hb : (BitVec.ofNat 8 v).toNat = v % 256 := by simp
        simp only [cellSum, List.foldl_cons]
        rw [cellSum_acc, ih, hb, hsplit, Nat.shiftLeft_eq, show b + j - b = j from by omega, Nat.pow_mul]
        rw [Nat.pow_succ 256 j]
        norm_num
        ring

theorem readRow_eq {m : List Host.Cell} (g : Nat) (h : memWf m = true) :
    readRow m g = BitVec.ofNat 4096 (cellSum (g * 512)
      ((m.filter (fun c => decide (g * 512 ≤ c.1))).filter (fun c => decide (c.1 < g * 512 + 512)))) := by
  unfold memWf mapWf at h
  unfold readRow cellSum
  simp only [dropWhile_eq_filter h, takeWhile_eq_filter (mapWfFrom_filter _ h)]

/-- Rows follow one another. -/
theorem row_next {k g : Nat} (h : k < g) : k * 512 + 512 ≤ g * 512 := by
  have := Nat.mul_le_mul_right 512 h
  rwa [Nat.succ_mul] at this

theorem two_rows : (256 : Nat) ^ 512 = 2 ^ 4096 := by
  rw [show (256 : Nat) = 2 ^ 8 from rfl, ← Nat.pow_mul]

theorem filter_none {l : List Host.Cell} {p : Host.Cell → Bool} (h : ∀ x ∈ l, p x = false) : l.filter p = [] :=
  List.filter_eq_nil_iff.mpr (fun x hx => by simp [h x hx])

theorem filter_all {l : List Host.Cell} {p : Host.Cell → Bool} (h : ∀ x ∈ l, p x = true) : l.filter p = l :=
  List.filter_eq_self.mpr h

/-- A row written reads back. -/
theorem readRow_writeRow_same {m : List Host.Cell} (g : Nat) (r : RowData) (h : memWf m = true) :
    readRow (writeRow m g r) g = r := by
  rw [readRow_eq g (writeRow_wf g r h)]
  have h' := h
  unfold memWf mapWf at h'
  unfold writeRow
  simp only [takeWhile_eq_filter h', dropWhile_eq_filter h', List.filter_append, List.filter_filter]
  have hk := mapWfFrom_keys (cellsFrom_wf 512 (g * 512) r.toNat)
  have hl := cellsFrom_lt 512 (g * 512) r.toNat
  rw [filter_none (l := m) (p := fun c => _ && (_ && decide (c.1 < g * 512))), filter_all (l := cellsFrom 512 (g * 512) r.toNat),
    filter_none (l := m)]
  · have := cellSum_cells (g * 512) 512 0 r.toNat
    simp only [Nat.add_zero, Nat.pow_zero, Nat.mul_one] at this
    simp only [List.nil_append, List.append_nil, this]
    have hr : r.toNat % 256 ^ 512 = r.toNat := Nat.mod_eq_of_lt (by rw [two_rows]; exact r.isLt)
    rw [hr, BitVec.ofNat_toNat, BitVec.setWidth_eq]
  · intro x hx
    by_cases h1 : g * 512 + 512 ≤ x.1
    · have : ¬ x.1 < g * 512 + 512 := by omega
      simp [this]
    · simp [h1]
  · intro x hx
    have := hk x hx
    have := hl x hx
    simp only [Bool.and_eq_true, decide_eq_true_eq]
    omega
  · intro x hx
    by_cases h1 : x.1 < g * 512
    · have : ¬ g * 512 ≤ x.1 := by omega
      simp [this]
    · simp [h1]

/-- A row written leaves every other row. -/
theorem readRow_writeRow_other {m : List Host.Cell} {g k : Nat} (r : RowData) (h : memWf m = true) (hk : k ≠ g) :
    readRow (writeRow m g r) k = readRow m k := by
  rw [readRow_eq k (writeRow_wf g r h), readRow_eq k h]
  have h' := h
  unfold memWf mapWf at h'
  unfold writeRow
  simp only [takeWhile_eq_filter h', dropWhile_eq_filter h', List.filter_append, List.filter_filter]
  have hlo := mapWfFrom_keys (cellsFrom_wf 512 (g * 512) r.toNat)
  have hhi := cellsFrom_lt 512 (g * 512) r.toNat
  rw [filter_none (l := cellsFrom 512 (g * 512) r.toNat)]
  · rcases Nat.lt_or_gt_of_ne hk with hlt | hgt
    · rw [filter_none (l := m) (p := fun c => _ && (_ && decide (g * 512 + 512 ≤ c.1)))]
      · simp only [List.append_nil]
        congr 2
        apply List.filter_congr
        intro x _
        by_cases h1 : x.1 < k * 512 + 512
        · have : x.1 < g * 512 := Nat.lt_of_lt_of_le h1 (row_next hlt)
          simp [h1, this]
        · simp [h1]
      · intro x _
        by_cases h1 : g * 512 + 512 ≤ x.1
        · have : ¬ x.1 < k * 512 + 512 := fun e => absurd (Nat.lt_of_lt_of_le e (row_next hlt)) (by omega)
          simp [this]
        · simp [h1]
    · rw [filter_none (l := m) (p := fun c => _ && (_ && decide (c.1 < g * 512)))]
      · simp only [List.nil_append]
        congr 2
        apply List.filter_congr
        intro x _
        by_cases h1 : k * 512 ≤ x.1
        · have : g * 512 + 512 ≤ x.1 := le_trans (row_next hgt) h1
          simp [h1, this]
        · simp [h1]
      · intro x _
        by_cases h1 : x.1 < g * 512
        · have : ¬ k * 512 ≤ x.1 := fun e => absurd (le_trans (row_next hgt) e) (by omega)
          simp [this]
        · simp [h1]
  · intro x hx
    have := hlo x hx
    have := hhi x hx
    by_cases h1 : k * 512 ≤ x.1
    · have : ¬ x.1 < k * 512 + 512 := by omega
      simp [this]
    · simp [h1]

/-- Memory that lists nothing is canonical, and every row of it reads 0 (06 R225). -/
theorem memWf_nil : memWf [] = true := rfl
@[simp] theorem readRow_nil (g : Nat) : readRow [] g = 0 := rfl
@[simp] theorem memByte_nil (a : Nat) : memByte [] a = 0 := rfl

/-- A row of the state written: it keeps the form, reads back, and leaves every other row. -/
theorem State.putRow_spec {s : State} (g : Nat) (r : RowData) (h : memWf s.mem = true) :
    memWf (s.putRow g r).mem = true ∧ readRow (s.putRow g r).mem g = r ∧
      (∀ k, k ≠ g → readRow (s.putRow g r).mem k = readRow s.mem k) ∧ (s.putRow g r).dev = s.dev :=
  ⟨writeRow_wf g r h, readRow_writeRow_same g r h, fun _ hk => readRow_writeRow_other r h hk, rfl⟩

end Sys2Proof.Machine
end

