-- ==== Sys2Proof/Laws/State.lean ====
section
/-! SUPPORT. What each update of the state leaves and sets: one lemma per field per update. -/

namespace Sys2Proof.Machine

/-! ### The state -/

@[simp] theorem State.onDev_pending (s : State) (f : Dev → Dev) : (s.onDev f).pending = s.pending := rfl
@[simp] theorem State.onDev_mem (s : State) (f : Dev → Dev) : (s.onDev f).mem = s.mem := rfl
@[simp] theorem State.onDev_dev (s : State) (f : Dev → Dev) : (s.onDev f).dev = f s.dev := rfl
@[simp] theorem State.putRow_pending (s : State) (g : Nat) (r : RowData) : (s.putRow g r).pending = s.pending := rfl
@[simp] theorem State.putRow_mem (s : State) (g : Nat) (r : RowData) : (s.putRow g r).mem = writeRow s.mem g r := rfl
@[simp] theorem State.putRow_dev (s : State) (g : Nat) (r : RowData) : (s.putRow g r).dev = s.dev := rfl
@[simp] theorem State.onCore_pending (s : State) (k : Nat) (f : CoreSt → CoreSt) : (s.onCore k f).pending = s.pending := rfl
@[simp] theorem State.onCore_mem (s : State) (k : Nat) (f : CoreSt → CoreSt) : (s.onCore k f).mem = s.mem := rfl
@[simp] theorem State.onCore_dev (s : State) (k : Nat) (f : CoreSt → CoreSt) : (s.onCore k f).dev = s.dev.updCore k f := rfl

/-! ### The device -/

@[simp] theorem Dev.setReg_time (d : Dev) (a v : Nat) : (d.setReg a v).time = d.time := rfl
@[simp] theorem Dev.setReg_regs (d : Dev) (a v : Nat) : (d.setReg a v).regs = mapSet regReset d.regs a (BitVec.ofNat 32 v) := rfl
@[simp] theorem Dev.setReg_mg (d : Dev) (a v : Nat) : (d.setReg a v).mg = d.mg := rfl
@[simp] theorem Dev.setReg_cores (d : Dev) (a v : Nat) : (d.setReg a v).cores = d.cores := rfl
@[simp] theorem Dev.setReg_net (d : Dev) (a v : Nat) : (d.setReg a v).net = d.net := rfl
@[simp] theorem Dev.setReg_fab (d : Dev) (a v : Nat) : (d.setReg a v).fab = d.fab := rfl
@[simp] theorem Dev.setReg_slices (d : Dev) (a v : Nat) : (d.setReg a v).slices = d.slices := rfl
@[simp] theorem Dev.setReg_vault (d : Dev) (a v : Nat) : (d.setReg a v).vault = d.vault := rfl
@[simp] theorem Dev.setReg_tel (d : Dev) (a v : Nat) : (d.setReg a v).tel = d.tel := rfl
@[simp] theorem Dev.setReg_pwr (d : Dev) (a v : Nat) : (d.setReg a v).pwr = d.pwr := rfl
@[simp] theorem Dev.setReg_hlth (d : Dev) (a v : Nat) : (d.setReg a v).hlth = d.hlth := rfl
@[simp] theorem Dev.setReg_sec (d : Dev) (a v : Nat) : (d.setReg a v).sec = d.sec := rfl
@[simp] theorem Dev.setReg_pins (d : Dev) (a v : Nat) : (d.setReg a v).pins = d.pins := rfl
@[simp] theorem Dev.setReg_fresh (d : Dev) (a v : Nat) : (d.setReg a v).fresh = d.fresh := rfl

@[simp] theorem Dev.put_time (d : Dev) (f : Fld) (v : Nat) : (d.put f v).time = d.time := rfl
@[simp] theorem Dev.put_regs (d : Dev) (f : Fld) (v : Nat) : (d.put f v).regs = mapSet regReset d.regs f.addr (BitVec.ofNat 32 (setBits (d.reg f.addr) f.hi f.lo v)) := rfl
@[simp] theorem Dev.put_mg (d : Dev) (f : Fld) (v : Nat) : (d.put f v).mg = d.mg := rfl
@[simp] theorem Dev.put_cores (d : Dev) (f : Fld) (v : Nat) : (d.put f v).cores = d.cores := rfl
@[simp] theorem Dev.put_net (d : Dev) (f : Fld) (v : Nat) : (d.put f v).net = d.net := rfl
@[simp] theorem Dev.put_fab (d : Dev) (f : Fld) (v : Nat) : (d.put f v).fab = d.fab := rfl
@[simp] theorem Dev.put_slices (d : Dev) (f : Fld) (v : Nat) : (d.put f v).slices = d.slices := rfl
@[simp] theorem Dev.put_vault (d : Dev) (f : Fld) (v : Nat) : (d.put f v).vault = d.vault := rfl
@[simp] theorem Dev.put_tel (d : Dev) (f : Fld) (v : Nat) : (d.put f v).tel = d.tel := rfl
@[simp] theorem Dev.put_pwr (d : Dev) (f : Fld) (v : Nat) : (d.put f v).pwr = d.pwr := rfl
@[simp] theorem Dev.put_hlth (d : Dev) (f : Fld) (v : Nat) : (d.put f v).hlth = d.hlth := rfl
@[simp] theorem Dev.put_sec (d : Dev) (f : Fld) (v : Nat) : (d.put f v).sec = d.sec := rfl
@[simp] theorem Dev.put_pins (d : Dev) (f : Fld) (v : Nat) : (d.put f v).pins = d.pins := rfl
@[simp] theorem Dev.put_fresh (d : Dev) (f : Fld) (v : Nat) : (d.put f v).fresh = d.fresh := rfl

@[simp] theorem Dev.bump_time (d : Dev) (a n : Nat) : (d.bump a n).time = d.time := rfl
@[simp] theorem Dev.bump_regs (d : Dev) (a n : Nat) : (d.bump a n).regs = mapSet regReset d.regs a (BitVec.ofNat 32 (satAdd 32 (d.reg a) n)) := rfl
@[simp] theorem Dev.bump_mg (d : Dev) (a n : Nat) : (d.bump a n).mg = d.mg := rfl
@[simp] theorem Dev.bump_cores (d : Dev) (a n : Nat) : (d.bump a n).cores = d.cores := rfl
@[simp] theorem Dev.bump_net (d : Dev) (a n : Nat) : (d.bump a n).net = d.net := rfl
@[simp] theorem Dev.bump_fab (d : Dev) (a n : Nat) : (d.bump a n).fab = d.fab := rfl
@[simp] theorem Dev.bump_slices (d : Dev) (a n : Nat) : (d.bump a n).slices = d.slices := rfl
@[simp] theorem Dev.bump_vault (d : Dev) (a n : Nat) : (d.bump a n).vault = d.vault := rfl
@[simp] theorem Dev.bump_tel (d : Dev) (a n : Nat) : (d.bump a n).tel = d.tel := rfl
@[simp] theorem Dev.bump_pwr (d : Dev) (a n : Nat) : (d.bump a n).pwr = d.pwr := rfl
@[simp] theorem Dev.bump_hlth (d : Dev) (a n : Nat) : (d.bump a n).hlth = d.hlth := rfl
@[simp] theorem Dev.bump_sec (d : Dev) (a n : Nat) : (d.bump a n).sec = d.sec := rfl
@[simp] theorem Dev.bump_pins (d : Dev) (a n : Nat) : (d.bump a n).pins = d.pins := rfl
@[simp] theorem Dev.bump_fresh (d : Dev) (a n : Nat) : (d.bump a n).fresh = d.fresh := rfl

@[simp] theorem Dev.setCore_time (d : Dev) (k : Nat) (c : CoreSt) : (d.setCore k c).time = d.time := rfl
@[simp] theorem Dev.setCore_regs (d : Dev) (k : Nat) (c : CoreSt) : (d.setCore k c).regs = d.regs := rfl
@[simp] theorem Dev.setCore_mg (d : Dev) (k : Nat) (c : CoreSt) : (d.setCore k c).mg = d.mg := rfl
@[simp] theorem Dev.setCore_cores (d : Dev) (k : Nat) (c : CoreSt) : (d.setCore k c).cores = mapPut d.cores k c := rfl
@[simp] theorem Dev.setCore_net (d : Dev) (k : Nat) (c : CoreSt) : (d.setCore k c).net = d.net := rfl
@[simp] theorem Dev.setCore_fab (d : Dev) (k : Nat) (c : CoreSt) : (d.setCore k c).fab = d.fab := rfl
@[simp] theorem Dev.setCore_slices (d : Dev) (k : Nat) (c : CoreSt) : (d.setCore k c).slices = d.slices := rfl
@[simp] theorem Dev.setCore_vault (d : Dev) (k : Nat) (c : CoreSt) : (d.setCore k c).vault = d.vault := rfl
@[simp] theorem Dev.setCore_tel (d : Dev) (k : Nat) (c : CoreSt) : (d.setCore k c).tel = d.tel := rfl
@[simp] theorem Dev.setCore_pwr (d : Dev) (k : Nat) (c : CoreSt) : (d.setCore k c).pwr = d.pwr := rfl
@[simp] theorem Dev.setCore_hlth (d : Dev) (k : Nat) (c : CoreSt) : (d.setCore k c).hlth = d.hlth := rfl
@[simp] theorem Dev.setCore_sec (d : Dev) (k : Nat) (c : CoreSt) : (d.setCore k c).sec = d.sec := rfl
@[simp] theorem Dev.setCore_pins (d : Dev) (k : Nat) (c : CoreSt) : (d.setCore k c).pins = d.pins := rfl
@[simp] theorem Dev.setCore_fresh (d : Dev) (k : Nat) (c : CoreSt) : (d.setCore k c).fresh = d.fresh := rfl

@[simp] theorem Dev.updCore_time (d : Dev) (k : Nat) (f : CoreSt → CoreSt) : (d.updCore k f).time = d.time := rfl
@[simp] theorem Dev.updCore_regs (d : Dev) (k : Nat) (f : CoreSt → CoreSt) : (d.updCore k f).regs = d.regs := rfl
@[simp] theorem Dev.updCore_mg (d : Dev) (k : Nat) (f : CoreSt → CoreSt) : (d.updCore k f).mg = d.mg := rfl
@[simp] theorem Dev.updCore_cores (d : Dev) (k : Nat) (f : CoreSt → CoreSt) : (d.updCore k f).cores = mapPut d.cores k (f (d.core k)) := rfl
@[simp] theorem Dev.updCore_net (d : Dev) (k : Nat) (f : CoreSt → CoreSt) : (d.updCore k f).net = d.net := rfl
@[simp] theorem Dev.updCore_fab (d : Dev) (k : Nat) (f : CoreSt → CoreSt) : (d.updCore k f).fab = d.fab := rfl
@[simp] theorem Dev.updCore_slices (d : Dev) (k : Nat) (f : CoreSt → CoreSt) : (d.updCore k f).slices = d.slices := rfl
@[simp] theorem Dev.updCore_vault (d : Dev) (k : Nat) (f : CoreSt → CoreSt) : (d.updCore k f).vault = d.vault := rfl
@[simp] theorem Dev.updCore_tel (d : Dev) (k : Nat) (f : CoreSt → CoreSt) : (d.updCore k f).tel = d.tel := rfl
@[simp] theorem Dev.updCore_pwr (d : Dev) (k : Nat) (f : CoreSt → CoreSt) : (d.updCore k f).pwr = d.pwr := rfl
@[simp] theorem Dev.updCore_hlth (d : Dev) (k : Nat) (f : CoreSt → CoreSt) : (d.updCore k f).hlth = d.hlth := rfl
@[simp] theorem Dev.updCore_sec (d : Dev) (k : Nat) (f : CoreSt → CoreSt) : (d.updCore k f).sec = d.sec := rfl
@[simp] theorem Dev.updCore_pins (d : Dev) (k : Nat) (f : CoreSt → CoreSt) : (d.updCore k f).pins = d.pins := rfl
@[simp] theorem Dev.updCore_fresh (d : Dev) (k : Nat) (f : CoreSt → CoreSt) : (d.updCore k f).fresh = d.fresh := rfl

@[simp] theorem Dev.updSlice_time (d : Dev) (id : Nat) (f : Slice → Slice) : (d.updSlice id f).time = d.time := rfl
@[simp] theorem Dev.updSlice_regs (d : Dev) (id : Nat) (f : Slice → Slice) : (d.updSlice id f).regs = d.regs := rfl
@[simp] theorem Dev.updSlice_mg (d : Dev) (id : Nat) (f : Slice → Slice) : (d.updSlice id f).mg = d.mg := rfl
@[simp] theorem Dev.updSlice_cores (d : Dev) (id : Nat) (f : Slice → Slice) : (d.updSlice id f).cores = d.cores := rfl
@[simp] theorem Dev.updSlice_net (d : Dev) (id : Nat) (f : Slice → Slice) : (d.updSlice id f).net = d.net := rfl
@[simp] theorem Dev.updSlice_fab (d : Dev) (id : Nat) (f : Slice → Slice) : (d.updSlice id f).fab = d.fab := rfl
@[simp] theorem Dev.updSlice_slices (d : Dev) (id : Nat) (f : Slice → Slice) : (d.updSlice id f).slices = mapIf (fun s => s.id == id) f d.slices := rfl
@[simp] theorem Dev.updSlice_vault (d : Dev) (id : Nat) (f : Slice → Slice) : (d.updSlice id f).vault = d.vault := rfl
@[simp] theorem Dev.updSlice_tel (d : Dev) (id : Nat) (f : Slice → Slice) : (d.updSlice id f).tel = d.tel := rfl
@[simp] theorem Dev.updSlice_pwr (d : Dev) (id : Nat) (f : Slice → Slice) : (d.updSlice id f).pwr = d.pwr := rfl
@[simp] theorem Dev.updSlice_hlth (d : Dev) (id : Nat) (f : Slice → Slice) : (d.updSlice id f).hlth = d.hlth := rfl
@[simp] theorem Dev.updSlice_sec (d : Dev) (id : Nat) (f : Slice → Slice) : (d.updSlice id f).sec = d.sec := rfl
@[simp] theorem Dev.updSlice_pins (d : Dev) (id : Nat) (f : Slice → Slice) : (d.updSlice id f).pins = d.pins := rfl
@[simp] theorem Dev.updSlice_fresh (d : Dev) (id : Nat) (f : Slice → Slice) : (d.updSlice id f).fresh = d.fresh := rfl

/-! ### Events: the EVENTS bit and the sessions, nothing else -/

@[simp] theorem Dev.sendMsg_time (d : Dev) (e : EventMsg) : (d.sendMsg e).time = d.time := rfl
@[simp] theorem Dev.event_time (d : Dev) (b bit : Nat) (args : List Nat) : (d.event b bit args).time = d.time := rfl
@[simp] theorem Dev.sendMsg_mg (d : Dev) (e : EventMsg) : (d.sendMsg e).mg = d.mg := rfl
@[simp] theorem Dev.event_mg (d : Dev) (b bit : Nat) (args : List Nat) : (d.event b bit args).mg = d.mg := rfl
@[simp] theorem Dev.sendMsg_cores (d : Dev) (e : EventMsg) : (d.sendMsg e).cores = d.cores := rfl
@[simp] theorem Dev.event_cores (d : Dev) (b bit : Nat) (args : List Nat) : (d.event b bit args).cores = d.cores := rfl
@[simp] theorem Dev.sendMsg_net (d : Dev) (e : EventMsg) : (d.sendMsg e).net = d.net := rfl
@[simp] theorem Dev.event_net (d : Dev) (b bit : Nat) (args : List Nat) : (d.event b bit args).net = d.net := rfl
@[simp] theorem Dev.sendMsg_fab (d : Dev) (e : EventMsg) : (d.sendMsg e).fab = d.fab := rfl
@[simp] theorem Dev.event_fab (d : Dev) (b bit : Nat) (args : List Nat) : (d.event b bit args).fab = d.fab := rfl
@[simp] theorem Dev.sendMsg_slices (d : Dev) (e : EventMsg) : (d.sendMsg e).slices = d.slices := rfl
@[simp] theorem Dev.event_slices (d : Dev) (b bit : Nat) (args : List Nat) : (d.event b bit args).slices = d.slices := rfl
@[simp] theorem Dev.sendMsg_vault (d : Dev) (e : EventMsg) : (d.sendMsg e).vault = d.vault := rfl
@[simp] theorem Dev.event_vault (d : Dev) (b bit : Nat) (args : List Nat) : (d.event b bit args).vault = d.vault := rfl
@[simp] theorem Dev.sendMsg_pwr (d : Dev) (e : EventMsg) : (d.sendMsg e).pwr = d.pwr := rfl
@[simp] theorem Dev.event_pwr (d : Dev) (b bit : Nat) (args : List Nat) : (d.event b bit args).pwr = d.pwr := rfl
@[simp] theorem Dev.sendMsg_hlth (d : Dev) (e : EventMsg) : (d.sendMsg e).hlth = d.hlth := rfl
@[simp] theorem Dev.event_hlth (d : Dev) (b bit : Nat) (args : List Nat) : (d.event b bit args).hlth = d.hlth := rfl
@[simp] theorem Dev.sendMsg_sec (d : Dev) (e : EventMsg) : (d.sendMsg e).sec = d.sec := rfl
@[simp] theorem Dev.event_sec (d : Dev) (b bit : Nat) (args : List Nat) : (d.event b bit args).sec = d.sec := rfl
@[simp] theorem Dev.sendMsg_pins (d : Dev) (e : EventMsg) : (d.sendMsg e).pins = d.pins := rfl
@[simp] theorem Dev.event_pins (d : Dev) (b bit : Nat) (args : List Nat) : (d.event b bit args).pins = d.pins := rfl
@[simp] theorem Dev.sendMsg_fresh (d : Dev) (e : EventMsg) : (d.sendMsg e).fresh = d.fresh := rfl
@[simp] theorem Dev.event_fresh (d : Dev) (b bit : Nat) (args : List Nat) : (d.event b bit args).fresh = d.fresh := rfl

/-! ### Registers -/

/-- A register set reads back. -/
theorem Dev.reg_setReg_same (d : Dev) (a v : Nat) : (d.setReg a v).reg a = v % 2 ^ 32 := by
  simp [Dev.reg, mapGet_mapSet_self d.regs a (BitVec.ofNat 32 v)]

/-- A register set leaves every other. -/
theorem Dev.reg_setReg_other {d : Dev} {a b : Nat} (v : Nat) (h : b ≠ a) : (d.setReg a v).reg b = d.reg b := by
  simp [Dev.reg, mapGet_mapSet_ne (BitVec.ofNat 32 v) h]

/-- A field set leaves the registers at other addresses. -/
theorem Dev.reg_put_other {d : Dev} {f : Fld} {b : Nat} (v : Nat) (h : b ≠ f.addr) : (d.put f v).reg b = d.reg b :=
  Dev.reg_setReg_other _ h

/-- Registers keep their canonical form. -/
theorem Dev.setReg_wf {d : Dev} (a v : Nat) (h : mapWf regReset d.regs = true) : mapWf regReset (d.setReg a v).regs = true :=
  mapSet_wf a _ h (Nat.zero_le a)

/-! ### Steps -/

/-- A step on a queue with a command in front is that command on the rest. -/
theorem step_cons {s : State} {c : Instr} {rest : List Instr} (h : s.pending = c :: rest) :
    step s = exec c { s with pending := rest } := by
  simp [step, h]

/-- A step on an empty queue idles. -/
theorem step_nil {s : State} (h : s.pending = []) : step s = .next s := by
  simp [step, h]

/-- Commands that act on the device alone leave memory. -/
theorem ok_onDev_mem {s t : State} {f : Dev → Dev} (h : ok (s.onDev f) = .next t) : t.mem = s.mem := by
  simp only [ok, Host.Outcome.next.injEq] at h
  rw [← h]
  rfl

/-- What a slot operation can do: nothing, one waiting cycle of its bundle or of its own cause, a wait for its row, or its own effect
with the bundle taken as issued (04 R125, R136). -/
theorem State.slotOr_cases (s : State) (core : CoreId) (gx : Bool) (fits : CoreSt → Bool) (f g : State → State) :
    s.slotOr core gx fits f g = s ∨ s.slotOr core gx fits f g = s.onCore core CoreSt.sxWaitTick ∨
      (∃ row, badRow s core = some row ∧ s.slotOr core gx fits f g = s.rewriteWait core row) ∨ s.slotOr core gx fits f g = g s ∨
      s.slotOr core gx fits f g = f ((s.readCells core).onCore core (fun c => { c with issued := true })) := by
  unfold State.slotOr
  dsimp only
  repeat' split
  all_goals simp_all

/-- A store without error is read as it stands (14 Table 14.6). -/
theorem Dev.cellRead_sound {d : Dev} {core : Nat} (h : (d.core core).sound = true) (x : Cell) : d.cellRead core x = d := by
  simp only [CoreSt.sound, Bool.and_eq_true, List.isEmpty_iff, beq_iff_eq] at h
  obtain ⟨⟨⟨hs, hb⟩, hm⟩, hp⟩ := h
  cases x <;> simp [Dev.cellRead, CellErrs.faulty, hs, hb, hm, hp]

/-- The registers of a core without error are read with no other effect (14 Table 14.6). -/
theorem State.readCells_sound {s : State} {core : Nat} (h : (s.dev.core core).sound = true) : s.readCells core = s := by
  have fold : ∀ l : List Cell, l.foldl (fun d x => d.cellRead core x) s.dev = s.dev := by
    intro l
    induction l with
    | nil => rfl
    | cons x t ih => rw [List.foldl_cons, Dev.cellRead_sound h, ih]
  unfold State.readCells State.onDev
  split
  · rfl
  · simp only [fold]

/-- A slot operation of a core at issue acts when it can be accepted and its bundle issues (04 R125). -/
theorem State.slotOr_issues {s : State} {core : CoreId} {gx : Bool} {fits : CoreSt → Bool} (f g : State → State)
    (hr : s.dev.coreRuns core = true) (hc : (s.dev.core core).ready = true)
    (hb : badRow s core = none) (hs : (s.dev.core core).sound = true) (hf : fits (s.dev.core core) = true)
    (hi : ((s.dev.core core).issued || bundleFits s core gx) = true) :
    s.slotOr core gx fits f g = f (s.onCore core (fun c => { c with issued := true })) := by
  simp only [State.slotOr, hr, hc, hb, hf, hi, if_true, Bool.not_true, Bool.false_eq_true, if_false, State.readCells_sound hs]

/-- A slot operation of a core at issue that cannot be accepted only waits (04 R125). -/
theorem State.slotOr_full {s : State} {core : CoreId} {gx : Bool} {fits : CoreSt → Bool} (f g : State → State)
    (hr : s.dev.coreRuns core = true) (hc : (s.dev.core core).ready = true)
    (hb : badRow s core = none) (hf : fits (s.dev.core core) = false) :
    s.slotOr core gx fits f g = g s := by
  simp only [State.slotOr, hr, hc, hb, hf, if_true, Bool.not_false]

/-- What a PMBus command can do: nothing while the target is silent, its own effect on its pages, else CML (17 R504). -/
theorem State.pm_cases (s : State) (pages : List Nat) (f : Dev → Dev) :
    s.pm pages f = s.onDev id ∨ s.pm pages f = s.onDev f ∨ s.pm pages f = s.onDev Dev.pmIgnore := by
  unfold State.pm State.onDev
  simp only [id]
  split
  · exact .inl rfl
  · split
    · exact .inr (.inl rfl)
    · exact .inr (.inr rfl)

/-- What a JTAG command can do: nothing while the rails are down, else its effect (17 R503). -/
theorem State.onTap_cases (s : State) (f : State → State) : s.onTap f = s ∨ s.onTap f = f s := by
  unfold State.onTap
  split
  · exact .inr rfl
  · exact .inl rfl

end Sys2Proof.Machine
end

