-- ==== Sys2Proof/Laws/Registers.lean ====
section
/-! SUPPORT. Bit fields and the registers that events and audit records touch. -/

namespace Sys2Proof.Machine

/-! ### Fields -/

theorem setBits_eq (n hi lo v : Nat) (h : lo ≤ hi) :
    setBits n hi lo v = 2 ^ lo * (2 ^ (hi + 1 - lo) * (n >>> (hi + 1)) + v % 2 ^ (hi + 1 - lo)) + n % 2 ^ lo := by
  unfold setBits
  simp only [Nat.shiftLeft_eq]
  have : 2 ^ (hi + 1) = 2 ^ lo * 2 ^ (hi + 1 - lo) := by rw [← Nat.pow_add]; congr 1; omega
  rw [this]
  ring

/-- The bits of a number with one field replaced. -/
theorem testBit_setBits (n hi lo v k : Nat) (h : lo ≤ hi) :
    (setBits n hi lo v).testBit k = if k < lo then n.testBit k else if k ≤ hi then v.testBit (k - lo) else n.testBit k := by
  rw [setBits_eq n hi lo v h, Nat.testBit_two_pow_mul_add _ (Nat.mod_lt _ (Nat.two_pow_pos _))]
  by_cases h1 : k < lo
  · simp [h1, Nat.testBit_mod_two_pow]
  · rw [if_neg h1, if_neg h1, Nat.testBit_two_pow_mul_add _ (Nat.mod_lt _ (Nat.two_pow_pos _))]
    by_cases h2 : k ≤ hi
    · have : k - lo < hi + 1 - lo := by omega
      simp [h2, this, Nat.testBit_mod_two_pow]
    · have : ¬ k - lo < hi + 1 - lo := by omega
      rw [if_neg this, if_neg h2, Nat.testBit_shiftRight]
      congr 1
      omega

theorem testBit_bits (n hi lo k : Nat) : (bits n hi lo).testBit k = (decide (k < hi + 1 - lo) && n.testBit (lo + k)) := by
  unfold bits
  rw [Nat.testBit_mod_two_pow, Nat.testBit_shiftRight]

/-- A field set reads back. -/
theorem bits_setBits_same (n hi lo v : Nat) (h : lo ≤ hi) : bits (setBits n hi lo v) hi lo = v % 2 ^ (hi + 1 - lo) := by
  apply Nat.eq_of_testBit_eq
  intro k
  rw [testBit_bits, testBit_setBits _ _ _ _ _ h, Nat.testBit_mod_two_pow]
  by_cases hk : k < hi + 1 - lo
  · have h1 : ¬ lo + k < lo := by omega
    have h2 : lo + k ≤ hi := by omega
    simp [hk, h2]
  · simp [hk]

/-- A field set leaves every field apart from it. -/
theorem bits_setBits_apart (n hi lo v a b : Nat) (h : lo ≤ hi) (hd : a < lo ∨ hi < b) :
    bits (setBits n hi lo v) a b = bits n a b := by
  apply Nat.eq_of_testBit_eq
  intro k
  rw [testBit_bits, testBit_bits, testBit_setBits _ _ _ _ _ h]
  by_cases hk : k < a + 1 - b
  · rcases hd with hd | hd
    · have : b + k < lo := by omega
      simp [hk, this]
    · have h1 : ¬ b + k < lo := by omega
      have h2 : ¬ b + k ≤ hi := by omega
      simp [hk, h1, h2]
  · simp [hk]

theorem bits_mod (n a b w : Nat) (h : a < w) : bits (n % 2 ^ w) a b = bits n a b := by
  apply Nat.eq_of_testBit_eq
  intro k
  rw [testBit_bits, testBit_bits, Nat.testBit_mod_two_pow]
  by_cases hk : k < a + 1 - b
  · have : b + k < w := by omega
    simp [hk, this]
  · simp [hk]

/-- A field of a register put reads back. -/
theorem Dev.fld_put_same (d : Dev) (f : Fld) (v : Nat) (h : f.lo ≤ f.hi) (hw : f.hi < 32) :
    (d.put f v).fld f = v % 2 ^ (f.hi + 1 - f.lo) := by
  unfold Dev.fld Dev.put
  rw [Dev.reg_setReg_same, bits_mod _ _ _ _ hw, bits_setBits_same _ _ _ _ h]

/-- A field put leaves the other fields of its register. -/
theorem Dev.fld_put_apart (d : Dev) (f g : Fld) (v : Nat) (h : f.lo ≤ f.hi) (hw : g.hi < 32)
    (hd : g.addr ≠ f.addr ∨ g.hi < f.lo ∨ f.hi < g.lo) : (d.put f v).fld g = d.fld g := by
  by_cases ha : g.addr = f.addr
  · have hd' : g.hi < f.lo ∨ f.hi < g.lo := by
      rcases hd with hd | hd
      · exact absurd ha hd
      · exact hd
    unfold Dev.fld Dev.put
    rw [ha, Dev.reg_setReg_same, bits_mod _ _ _ _ hw, bits_setBits_apart _ _ _ _ _ _ h hd']
  · unfold Dev.fld
    rw [Dev.reg_put_other v ha]

/-! ### Events and audit records -/

/-- An event leaves every register but its EVENTS register and TELLER.EVENT_LOST. -/
theorem Dev.reg_event (d : Dev) (b bit : Nat) (args : List Nat) (a : Nat) (h1 : a ≠ regAddr b (eventReg b).1)
    (h2 : a ≠ regAddr 12 0x74) : (d.event b bit args).reg a = d.reg a := by
  unfold Dev.event Dev.sendEvent Dev.sendMsg Dev.bump
  show (Dev.setReg _ _ _).reg a = _
  rw [Dev.reg_setReg_other _ h2, Dev.reg_put_other _ h1]

theorem Dev.fld_event (d : Dev) (b bit : Nat) (args : List Nat) (f : Fld) (h1 : f.addr ≠ regAddr b (eventReg b).1)
    (h2 : f.addr ≠ regAddr 12 0x74) : (d.event b bit args).fld f = d.fld f := by
  unfold Dev.fld
  rw [Dev.reg_event d b bit args f.addr h1 h2]

/-- An audit record leaves every register but SEC.STATUS, SEC.EVENTS and TELLER.EVENT_LOST. -/
theorem Dev.reg_auditRaw (d : Dev) (kind role result : Nat) (actor : BitVec 128) (detail : BitVec 384) (a : Nat)
    (h1 : a ≠ regAddr 15 0) (h2 : a ≠ regAddr 15 0x14) (h3 : a ≠ regAddr 12 0x74) :
    (d.auditRaw kind role result actor detail).reg a = d.reg a := by
  unfold Dev.auditRaw
  dsimp only
  repeat' split
  all_goals first
    | rfl
    | (rw [Dev.reg_event _ _ _ _ _ h2 h3, Dev.reg_put_other _ h1]; rfl)

theorem Dev.fld_auditRaw (d : Dev) (kind role result : Nat) (actor : BitVec 128) (detail : BitVec 384) (f : Fld)
    (h1 : f.addr ≠ regAddr 15 0) (h2 : f.addr ≠ regAddr 15 0x14) (h3 : f.addr ≠ regAddr 12 0x74) :
    (d.auditRaw kind role result actor detail).fld f = d.fld f := by
  unfold Dev.fld
  rw [Dev.reg_auditRaw d kind role result actor detail f.addr h1 h2 h3]

end Sys2Proof.Machine
end

