-- ==== Sys2Proof/Laws/Frames.lean ====
section
/-! SUPPORT. What the shared operations leave unchanged, in the words of Safety: one lemma each, and how they compose. -/

namespace Sys2Proof.Machine

theorem Component.same_refl (p : Component) (d : Dev) : p.same d d := by
  cases p <;> simp [Component.same]

theorem Component.same_trans {p : Component} {d e f : Dev} (h : p.same d e) (k : p.same e f) : p.same d f := by
  cases p <;> simp only [Component.same] at h k ⊢ <;> first
    | exact k.trans h
    | exact ⟨k.1.trans h.1, k.2.1.trans h.2.1, k.2.2.trans h.2.2⟩

theorem Keeps.refl (l : List Component) (d : Dev) : Keeps l d d := fun p _ => p.same_refl d

theorem Keeps.weaken {a b : List Component} {d e : Dev} (h : Keeps a d e) (hs : ∀ p ∈ a, p ∈ b) : Keeps b d e :=
  fun p hp => h p (fun hq => hp (hs p hq))

theorem Keeps.trans {l : List Component} {d e f : Dev} (h : Keeps l d e) (k : Keeps l e f) : Keeps l d f :=
  fun p hp => Component.same_trans (h p hp) (k p hp)

theorem KeepsRegs.refl (l : List Nat) (d : Dev) : KeepsRegs l d d := fun _ _ => rfl

theorem KeepsRegs.weaken {a b : List Nat} {d e : Dev} (h : KeepsRegs a d e) (hs : ∀ p ∈ a, p ∈ b) : KeepsRegs b d e :=
  fun p hp => h p (fun hq => hp (hs p hq))

theorem KeepsRegs.trans {l : List Nat} {d e f : Dev} (h : KeepsRegs l d e) (k : KeepsRegs l e f) : KeepsRegs l d f :=
  fun p hp => (k p hp).trans (h p hp)

/-! ### Registers -/

theorem Dev.keeps_setReg (l : List Component) (d : Dev) (a v : Nat) : Keeps l d (d.setReg a v) :=
  fun p _ => by cases p <;> simp [Component.same]

theorem Dev.keeps_put (l : List Component) (d : Dev) (f : Fld) (v : Nat) : Keeps l d (d.put f v) :=
  fun p _ => by cases p <;> simp [Component.same]

theorem Dev.keeps_bump (l : List Component) (d : Dev) (a n : Nat) : Keeps l d (d.bump a n) :=
  fun p _ => by cases p <;> simp [Component.same]

theorem Dev.keeps_bumpWrap (l : List Component) (d : Dev) (a n : Nat) : Keeps l d (d.bumpWrap a n) :=
  fun p _ => by cases p <;> simp [Component.same, Dev.bumpWrap]

theorem Dev.keepsRegs_setReg {l : List Nat} (d : Dev) {a : Nat} (v : Nat) (h : a ∈ l) : KeepsRegs l d (d.setReg a v) :=
  fun _ hb => Dev.reg_setReg_other v (fun he => hb (he ▸ h))

theorem Dev.keepsRegs_put {l : List Nat} (d : Dev) {f : Fld} (v : Nat) (h : f.addr ∈ l) : KeepsRegs l d (d.put f v) :=
  fun _ hb => Dev.reg_put_other v (fun he => hb (he ▸ h))

theorem Dev.keepsRegs_bump {l : List Nat} (d : Dev) {a : Nat} (n : Nat) (h : a ∈ l) : KeepsRegs l d (d.bump a n) :=
  Dev.keepsRegs_setReg d _ h

theorem Dev.keepsRegs_bumpWrap {l : List Nat} (d : Dev) {a : Nat} (n : Nat) (h : a ∈ l) : KeepsRegs l d (d.bumpWrap a n) :=
  Dev.keepsRegs_setReg d _ h

/-! ### Events and records -/

theorem Dev.keeps_event {l : List Component} (d : Dev) (b bit : Nat) (args : List Nat) (h : .sessions ∈ l) : Keeps l d (d.event b bit args) :=
  fun p hp => by cases p <;> first | rfl | exact absurd h hp | exact ⟨rfl, rfl, rfl⟩

theorem Dev.keepsRegs_event {l : List Nat} (d : Dev) {b : Nat} (bit : Nat) (args : List Nat) (h : ∀ a ∈ eventRegs b, a ∈ l) :
    KeepsRegs l d (d.event b bit args) :=
  fun a ha => Dev.reg_event d b bit args a (fun he => ha (h a (by simp [eventRegs, he]))) (fun he => ha (h a (by simp [eventRegs, he])))

theorem Dev.keeps_auditRaw {l : List Component} (d : Dev) (kind role result : Nat) (actor : BitVec 128) (detail : BitVec 384)
    (h : .sessions ∈ l) (h' : .ledger ∈ l) : Keeps l d (d.auditRaw kind role result actor detail) := by
  unfold Dev.auditRaw
  split
  · exact Keeps.refl l d
  · have hk : ∀ (x : List AuditRec) (m n : Nat), Keeps l d { d with sec := { d.sec with ledger := x, nextSeq := m, unflushed := n } } :=
      fun x m n p hp => by cases p <;> first | rfl | exact absurd h' hp
    dsimp only
    repeat' split
    all_goals first
      | exact hk _ _ _
      | exact (hk _ _ _).trans ((Dev.keeps_put l _ _ _).trans (Dev.keeps_event _ _ _ _ h))

theorem Dev.keepsRegs_auditRaw {l : List Nat} (d : Dev) (kind role result : Nat) (actor : BitVec 128) (detail : BitVec 384)
    (h : ∀ a ∈ auditRegs, a ∈ l) : KeepsRegs l d (d.auditRaw kind role result actor detail) := by
  intro a ha
  have h1 : a ∉ auditRegs := fun hc => ha (h a hc)
  simp only [auditRegs, eventRegs, List.mem_cons, not_or] at h1
  exact Dev.reg_auditRaw d kind role result actor detail a h1.1 h1.2.1 h1.2.2.1

theorem Dev.keeps_auditSelf {l : List Component} (d : Dev) (kind : Nat) (args : List Nat)
    (h : .sessions ∈ l) (h' : .ledger ∈ l) : Keeps l d (d.auditSelf kind args) :=
  Dev.keeps_auditRaw d kind 0 0 0 _ h h'

theorem Dev.keepsRegs_auditSelf {l : List Nat} (d : Dev) (kind : Nat) (args : List Nat) (h : ∀ a ∈ auditRegs, a ∈ l) :
    KeepsRegs l d (d.auditSelf kind args) :=
  Dev.keepsRegs_auditRaw d kind 0 0 0 _ h

/-! ### Slices and cores -/

theorem Dev.keeps_updSlice {l : List Component} (d : Dev) (id : Nat) (f : Slice → Slice) (h : .slices ∈ l) : Keeps l d (d.updSlice id f) :=
  fun p hp => by cases p <;> first | rfl | exact absurd h hp | exact ⟨rfl, rfl, rfl⟩

theorem Dev.keepsRegs_updSlice (l : List Nat) (d : Dev) (id : Nat) (f : Slice → Slice) : KeepsRegs l d (d.updSlice id f) := fun _ _ => rfl

theorem Dev.keeps_updCore {l : List Component} (d : Dev) (k : Nat) (f : CoreSt → CoreSt) (h : .cores ∈ l) : Keeps l d (d.updCore k f) :=
  fun p hp => by cases p <;> first | rfl | exact absurd h hp | exact ⟨rfl, rfl, rfl⟩

theorem Dev.keepsRegs_updCore (l : List Nat) (d : Dev) (k : Nat) (f : CoreSt → CoreSt) : KeepsRegs l d (d.updCore k f) := fun _ _ => rfl

end Sys2Proof.Machine
end

