-- ==== Sys2Proof/WellFormed.lean ====
section
/-! DEFINITION. Well-formed commands: the operands that the owning rules admit and the types do not bound. -/

namespace Sys2Proof

/-- The TYPE of a control word (08 Tables 8.8 to 8.10). -/
def typeOf (w : CtrlWord) : Nat := (w.extractLsb' 124 4).toNat

/-- The cluster of a row of pad, accumulator or special space; none where the cluster field names none (02 R72, Table 2.6). -/
def rowOf (g : Gra) : Option Nat :=
  let c := (g.extractLsb' 23 7).toNat
  if c < 72 then some c else none

/-- A core site as cluster × 16 + site (14 R426): nine sites in each of 72 clusters. -/
def siteOk (v : BitVec 16) : Bool := decide (v.toNat / 16 < 72) && decide (v.toNat % 16 < 9)

/-- Whether a command's operands are ones that its rule admits. -/
def Instr.wellFormed (i : Instr) : Bool :=
  match i with
  | .laneErrorCheck _ _ c x => decide (c ≤ x.symbols)
  | .timeWord _ w _ _ => typeOf w == 1
  | .holdWord _ w => typeOf w == 2
  | .ackWord _ w => typeOf w == 3
  | .laneControlWord _ w => typeOf w == 4
  | .creditWord _ w => typeOf w == 5
  | .discoveryWord _ w0 w1 w2 => typeOf w0 == 6 && typeOf w1 == 6 && typeOf w2 == 6
  | .scrubComplete _ rows => rows.all (fun g => (rowOf g).isSome)
  | .hostLinkUp _ rate => decide (rate.toNat < 4)
  | .thermalSample j st => j.length == 24 && st.length == 12
  | .ageingCheck _ sites _ => sites.length == 9
  | .spareTest cl _ rows => rows.all (fun g => rowOf g == some cl.val)
  | .coldReset b => b.failingSites.all siteOk && b.failingRows.all (fun g => (rowOf g).isSome)
  | .stageWinWrite _ off vals => !vals.isEmpty && decide (0x1000 ≤ off.toNat) && decide (off.toNat + 4 * vals.length ≤ 0x1400) && off.toNat % 4 == 0
  | .attNonceWrite _ first vals => !vals.isEmpty && decide (first.val + vals.length ≤ 12)
  | .ecTick | .referenceInvalid _ | .referenceValid _ | .referenceReturnTimer | .ecBroadcast _ _ | .timeMeasurement
  | .syncTimeout | .ptpMessage _ _ _ | .parentTimeout | .firstLockStep | .ppsInEdge | .ppsMissing | .ppsOutRise | .ppsOutFall
  | .sliceLaunch _ | .notReadyCheck _ | .mxNop _ | .mxLoad _ _ | .mxFeed _ _ | .mxLoadStart _ | .mxFeedStart _
  | .mxLoadComplete _ _ | .sxNop _ | .sxAdd _ _ | .sxSub _ _ | .sxAddi _ _ | .sxMul _ _ | .sxAnd _ _ | .sxOr _ _ | .sxXor _ _
  | .sxShli _ _ | .sxShri _ _ | .sxSari _ _ | .sxMin _ _ | .sxMax _ _ | .sxMovi _ _ | .sxMovhi _ _ | .sxCmp _ _ | .sxCmpi _ _
  | .sxMovlc _ _ | .sxLdp _ _ | .sxVget _ _ | .sxLoop _ _ _ _ | .sxResultLand _ | .vxNop _ | .vxAdd _ _ | .vxSub _ _
  | .vxMul _ _ | .vxFma _ _ | .vxMin _ _ | .vxMax _ _ | .vxAbs _ _ | .vxDiv _ _ | .vxCvt _ _ | .vxFunc _ _ | .vxCmp _ _
  | .vxSel _ _ | .vxSplat _ _ | .vxRed _ _ | .vxBscale _ _ | .vxDrain _ _ | .vxStart _ | .vxWriteLand _ | .gxNop _ | .gxGate _
  | .gxKbegin _ | .gxKend _ | .gxSettle _ _ | .gxPublish _ _ | .gxRelease _ _ _ | .gxAcquire _ _ _ | .settleDone _
  | .kendDone _ | .releaseQueueRetire _ | .acquireSatisfied _ _ | .acquireTimeout _ | .dxNop _ | .dxRun _ _ | .dmaCopy _ _ _ _
  | .dmaFill _ _ _ _ | .dmaWrite _ _ _ | .dmaRead _ _ _ | .dmaSumwrite _ _ _ | .dmaMcast _ _ _ | .deferredWrite _
  | .ringWaitResolved _ _ | .ringUnderflow _ _ | .ringOverflow _ _ | .quotaWindow _ _ | .packetInvalidForm _
  | .packetWrite _ _ _ | .packetReadRequest _ | .packetReadReply _ _ | .packetSumWrite _ _ _ | .sumTimeout _ _ _
  | .packetMulticastWrite _ _ | .packetAcknowledgement _ | .semaphoreIncrement _ | .ringCredit _ | .n4ShortWrite _
  | .holdoverRelease _ | .holdoverHoldCheck _ | .routerFail _ | .atomicAdd _ | .transitForward _ _ _ | .chainForward _ _ _
  | .portSignalDetect _ | .trainingComplete _ _ | .trainingTimeout _ | .alignComplete _ _ | .alignTimeout _
  | .discoverTimeout _ | .portRetry _ | .latencyFenceExpiry _ | .portMissing _ | .controlFlitTimeout _ | .laneLossOfLock _ _
  | .laneSwitch _ | .controlFlitBad _ | .frameReceive _ _ | .replayTimeout _ _ _ _ | .framePresent _ | .frameEligible _
  | .generationBumpDeferred _ | .folioPutBegin _ _ | .folioPutPipe _ _ _ _ | .folioPutData _ _ _ _ _ | .folioCommit _ _ _ _
  | .libraryDelete _ _ | .libraryPin _ _ | .libraryUnpin _ _ | .libraryList _ _ | .loadBegin _ | .moverLoad _ _ _ _
  | .moverChain _ _ _ _ | .loadReady _ _ | .useUpdate | .pcCorrectionCheck _ _ _ _ | .startExchangeTimeout _
  | .barrierComplete _ | .gateDue _ | .resumeSend _ | .stretch _ | .stepEcReached | .vcoreSettled | .shardDecision _ _
  | .zeroSlotPublish _ _ | .shardHoldCap _ | .shardWrite _ _ | .pushSlotRead _ _ | .sessionOpen _ _ | .sessionClose _
  | .tellerAck _ _ _ | .sliceStart _ _ | .sliceStop _ _ | .stopAtFrameBoundary _ | .sliceKill _ _ | .killEffective _
  | .streamOpen _ _ _ _ _ _ | .streamClose _ _ | .ingressData _ _ | .mgmtRead _ _ _ _ | .mgmtWrite _ _ _ _ | .mgmtCommit _ _ _
  | .commitRun _ | .recordStart _ _ _ | .recordStop _ _ | .arm _ _ _ | .disarm _ _ _ | .recordingDelete _ _ | .recordingList _
  | .replayFeed _ | .retransmitTimeout _ | .ackTimer _ | .sessionIdleTimeout _ | .openingTimeout _ | .quarantineExpiry _
  | .nonTellerPacket _ | .echoRequest _ | .mediaTimeout _ | .hostLinkDown _ | .failover _ | .eventsLost _
  | .powerSample _ _ _ _ | .bladeLoss _ | .bladeOvervoltage _ | .bladeReconnect _ | .phaseFault _ | .thermalTrip _
  | .selfRefreshExit | .generatorUnlock _ | .generatorRelock _ | .repairWindow | .repairStopConfirmed _ | .rowCopyComplete _
  | .spareMarginTestDone _ _ | .relaunchEcReceived _ _ | .rowRewriteComplete _ _ | .mcCoreFault _ | .mcTakeoverComplete
  | .standbyPowerValid | .boardSlotSample _ | .converterStart | .railsSettled | .timeLockTimeout | .warmReset | .ctrlWarmReset
  | .resetNRise | .warmResetEnd | .standbyUndervoltage | .powerDown | .stageErase | .stageVerify _ | .stageActivate
  | .repairReq _ _ | .attestationReady | .debugResponse _ _ _ _ _ | .debugExpiry | .handoverReadyCheck _ | .handoverEc
  | .handoverResume | .handoverRevert | .handoverConfirm | .ledgerFlush | .rowWindowWrite _ | .jtagMgmtAcc _ | .jtagExtest
  | .jtagIdcode | .jtagSamplePreload | .jtagDbgChal | .jtagBypass | .tapReset | .pmPage _ | .pmClearFaults | .pmStatusWord
  | .pmStatusInput | .pmStatusTemperature | .pmReadVin | .pmReadIin | .pmReadTemperature1 | .pmReadTemperature2 | .pmReadPin
  | .pmRevision | .pmMfrId | .pmMfrModel | .pmMfrRevision | .pmMfrSerial | .pmInvalidMessage | .dmaDescriptorDone _ _
  | .sliceChannelCredit _ _ _ | .dhcpNdpArpMessage _ _ | .priorityFlowControlFrame _ _ _ | .protocolViolation _ _
  | .vnvm1v8CurrentLimit => true

end Sys2Proof
end

