-- ==== Sys2Proof/Tests/Slice0.lean ====
section
/-! SUPPORT. Tests on single steps: for every statement states that meet its hypotheses (`witness_…`), an ill-formed command for
every check of WellFormed, and values that the spec writes out (`test_…`). -/

namespace Sys2Proof.Tests

open Sys2Proof Sys2Proof.Machine

-- One theorem after another: each kernel evaluation that waits for the theorems before it would hold a thread of its own.
set_option Elab.async false

/-! ### Small states -/

/-- A state with fields of registers set. -/
def fields (l : List (Fld × Nat)) (s : State) : State := { s with dev := l.foldl (fun d x => d.put x.1 x.2) s.dev }
/-- A state with registers set. -/
def regs (l : List (Nat × Nat)) (s : State) : State := { s with dev := l.foldl (fun d x => d.setReg x.1 x.2) s.dev }
/-- A state with its device changed. -/
def dev (f : Dev → Dev) (s : State) : State := { s with dev := f s.dev }
def base : State := State.reset

/-! ### Time (01) -/

def wRef : State := regs [(regAddr 1 0x18, 0x61)] (dev (fun d => { d with time := { d.time with ec := 1024, ticks := 1000000000 } }) base)
def wMeas (src : Nat) (done : Bool) : State := fields [(fSrc, src)] (dev (fun d => { d with time := { d.time with
  ec := 1000000005, ticks := 2000000000, stepDone := done, ppsOffset := some 5, ptpOffset := some 7, measured := some 3,
  stepWaits := !done, measTick := 5, ptp := { seq := 1, t1 := some 100, t2 := some 130 } } }) base)
def wFollow : State := fields [(fSrc, 3), (fCur, 4), (fParent, 4), (fAlt, 5)] (dev (fun d => { d with time := { d.time with ticks := 2000000 } }) base)
def wPps : State := fields [(fSrc, 1), (⟨regAddr 1 8, 6, 6⟩, 1)] (dev (fun d => { d with
  time := { d.time with ec := 1000000000, ticks := 1200000000 }, pins := { d.pins with ppsOut := true } }) base)

/-- The premises about references, the trees and the return to REFA are met. -/
theorem witness_references :
    wRef.dev.fld (fTime (refBit .a)) = 1 ∧ wRef.dev.fld (fTime (refBit .b)) = 0 ∧ wRef.dev.fld fRefSel = 0 ∧
    wRef.dev.time.refASince + 1000000000 ≤ wRef.dev.time.ticks ∧ wRef.dev.now % 1024 = 0 ∧ wRef.dev.fld (fTime 5) = 1 ∧
    wRef.dev.fld (fTime 6) = 1 ∧ wRef.dev.fld (fTime 4) = b2n false := by decide +kernel

/-- The premises about measurements are met, with the first step made, to be made, and waiting. -/
theorem witness_measurements :
    (wMeas 1 true).dev.measurement = some 5 ∧ (wMeas 1 true).dev.time.stepDone = true ∧ (wMeas 1 true).dev.sec.lockWait = false ∧
    (wMeas 2 false).dev.measurement = some 7 ∧ (wMeas 2 false).dev.time.stepDone = false ∧ (wMeas 2 false).dev.anyLaunched = false ∧
    (wMeas 2 false).dev.time.stepWaits = true ∧ (wMeas 2 false).dev.time.measured = some 3 ∧ (wMeas 1 true).dev.fld fSrc ≠ 0 ∧
    (wMeas 1 true).dev.time.measTick + 1000000000 ≤ (wMeas 1 true).dev.time.ticks ∧
    wPps.dev.time.ppsUsed = none ∧ wPps.dev.time.ppsTick + 1100000000 ≤ wPps.dev.time.ticks ∧ wPps.dev.now % 1000000000 = 0 := by
  decide +kernel

/-- A parent lost, and a PTP exchange that its last message completes. -/
theorem witness_time_sources :
    wFollow.dev.fld fSrc = 3 ∧ wFollow.dev.fld fCur < 12 ∧
    (wFollow.dev.port (wFollow.dev.fld fCur)).timeTick + 1000000 ≤ wFollow.dev.time.ticks ∧
    (wMeas 2 true).dev.fld fSrc = 2 ∧ (wMeas 2 true).dev.activePort = 0 ∧ (wMeas 2 true).dev.time.ptp.t1 = some 100 ∧
    (wMeas 2 true).dev.fld ⟨regAddr 1 0xC, 23, 16⟩ = 0 ∧ (wMeas 2 true).dev.time.ptp.seq = 1 ∧ (wMeas 2 true).dev.time.ptp.t2.isSome = true ∧
    (wMeas 2 true).dev.ptpVia ⟨.udp6, false, false⟩ = true ∧ (wMeas 2 true).dev.ptpVia ⟨.layer2, false, false⟩ = false := by decide +kernel

/-! ### Cores (03, 04, 06) -/

/-- Core 0 of a running slice 5 on cluster 0. -/
def wSlice : Slice := { id := 5, launched := true, running := true, fo := { clusters := [0], cores := [{ core := 0, last := 9 }], sequences := 2 } }
def wCore (c : CoreSt) : State :=
  fields [(fClState 0, 1), (fClSlice 0, 5), (fClGen 0, 3)] (regs [(regAddr 2 0xC, 0xFFFFFF)]
    (dev (fun d => { d.setCore 0 c with slices := [wSlice] }) base))
/-- The state with a row of memory. -/
def wRow (g : Nat) (r : RowData) (s : State) : State := s.putRow g r
def sxF : SxFields := { pred := 0, pneg := false, d := 3, a := 1, b := 2, imm := 66 }
def cRegs : CoreSt := { s := [(1, 7), (2, 0xFFFFFFFFFFFFFFFF)], pc := 4, last := 9 }
def cQuiet : State := wCore cRegs
def cLoop : CoreSt := { pc := 6, last := 9, loops := [⟨2, 3, 4, 6⟩], lc := [(2, 1)] }
def cLast : CoreSt := { pc := 9, last := 9, first := 2, loops := [⟨2, 2, 4, 9⟩], lc := [(2, 1)] }
def cPend (landed : Bool) : CoreSt := { sxPend := [⟨4, 9, 2, landed⟩], seq := 6, issue := {} }

theorem witness_scalar :
    cQuiet.issues 0 = true ∧ (cQuiet.dev.core 0).quiet = true ∧ ((cQuiet.dev.core 0).pred 0 != false) = true ∧
    ((cQuiet.dev.core 0).pred 0 != true) = false ∧ sxF.d.toNat < 8 ∧ sxF.imm.toNat % 8 < 6 ∧ (cQuiet.dev.core 0).pc < 9 := by decide +kernel

theorem witness_loops :
    (wCore cLoop).issues 0 = true ∧ (wCore cLoop).dev.core 0 = cLoop ∧ (cLoop.lcv 2).toNat + 1 < 3 ∧ (wCore cLast).issues 0 = true ∧
    2 ≤ (cLast.lcv 2).toNat + 1 ∧ cLast.pc = cLast.last ∧ cLoop.quiet = true := by decide +kernel

theorem witness_late_results :
    cQuiet.clean (mkGra 0 0 0 ((7 + 66 / 64) % 2 ^ 64)) = true ∧ (cPend false).sxPend.length = 1 ∧
    (wCore (cPend false)).dev.coreRuns 0 = true ∧ (cPend false).waits = false ∧ (cPend false).sxLate = true ∧
    (wCore { pendW := [⟨.vreg 2, 5, 0⟩], seq := 1 }).atIssue 0 = true ∧ vgetBlocked (wCore { pendW := [⟨.vreg 2, 5, 0⟩], seq := 1 }) 0 2 = true := by decide +kernel

def mxF : MxFeedFields := { acc := 1, swap := false, half := false, entry := 5, count := 1, voff := 0, srcsel := false, sreg := 1, roff := 9 }
def mxL : MxLoadFields := { wfmt := 0, afmt := 0, trans := false, srcsel := false, sreg := 1, roff := 16 }
def cLoad : CoreSt := { mxQ := [.load mxL 16 0], activeB := true }
def cFeed : CoreSt := { mxQ := [.feed mxF 9 0] }
def cSwap : CoreSt := { mxQ := [.feed { mxF with count := 0, swap := true } 9 0] }
def cFull : CoreSt := { mxQ := [.load mxL 16 0, .load mxL 16 0] }
def cLoaded : CoreSt := { loading := some 0, loadStore := true }

theorem witness_matrix :
    cQuiet.issues 0 = true ∧ mxPairOk 0 0 = true ∧ mxF.acc ≠ 3 ∧ mxF.count.toNat ≤ 4096 ∧ (wCore cLoad).dev.coreRuns 0 = true ∧
    (∀ i, i < mxImageRows 0 → graValid ((16 + i) % 2 ^ 32) = true ∧ graSpace ((16 + i) % 2 ^ 32) = 0 ∧
      graCoreId ((16 + i) % 2 ^ 32) = 0 ∧ (wCore cLoad).clean ((16 + i) % 2 ^ 32) = true) ∧
    mxClass cFeed.active.afmt.toNat ≠ 1 ∧ graValid ((9 + vecRow (mxClass cFeed.active.afmt.toNat) 0) % 2 ^ 32) = true ∧
    (wCore cFeed).dev.coreRuns 0 = true ∧ (wCore cSwap).dev.coreRuns 0 = true ∧ (wCore cFull).atIssue 0 = true ∧ cFull.mxQ.length = 2 ∧
    (wCore cLoaded).dev.coreRuns 0 = true ∧ cLoaded.loadRun = none ∧ cFeed.sound = true ∧ cFeed.feedStage = none ∧ cFeed.feedAhead = none ∧
    (wCore cFeed).clean ((9 + vecRow (mxClass cFeed.active.afmt.toNat) 0) % 2 ^ 32) = true := by decide +kernel

/-- A ring descriptor: 4 slots of one row at pad row 32, two of them full. -/
def wRing : State := wRow (coreStateGra 0 0) (BitVec.ofNat 4096 0) cQuiet
def wSem (v : Nat) : State := wRow (mkGra 1 0 0 7) (BitVec.ofNat 4096 v) (wCore { s := [(1, BitVec.ofNat 64 (mkGra 1 0 0 5 + 2 ^ 48))] })
def wAcq (v : Nat) : State := wRow (mkGra 1 0 0 7) (BitVec.ofNat 4096 v) (wCore { wait := .acquire (mkGra 1 0 0 7) 1 true })

theorem witness_sync :
    (cQuiet.dev.sliceOf 0).isSome = true ∧ (cQuiet.dev.core 0).relQ.length < 4 ∧ (wSem 1).issues 0 = true ∧
    graValid (mkGra 1 0 0 7) = true ∧ graSpace (mkGra 1 0 0 7) = 1 ∧ memWf (wSem 1).mem = true ∧ memWf (wSem 0).mem = true ∧
    semOk (semCount (readRow (wSem 1).mem (mkGra 1 0 0 7))) 1 = true ∧ semOk (semCount (readRow (wSem 0).mem (mkGra 1 0 0 7))) 1 = false ∧
    semOk (semCount (readRow (wAcq 1).mem (mkGra 1 0 0 7))) 1 = true ∧ ((wAcq 0).dev.sliceOf 0).isSome = true ∧
    (wAcq 1).clean (mkGra 1 0 0 7) = true ∧ (wSem 1).clean (mkGra 1 0 0 7) = true ∧ (wAcq 0).dev.core 0 = { wait := .acquire (mkGra 1 0 0 7) 1 true } ∧
    settled {} 0xF 0 = true := by decide +kernel

/-- The program row of the first bundle of core 0 cannot be read. -/
def wBadRow : State := cQuiet.onDev (fun d => { d with hlth := { d.hlth with bad := [progGra 0 (d.core 0).pc] } })

theorem witness_bad_row :
    wBadRow.dev.coreRuns 0 = true ∧ (wBadRow.dev.core 0).ready = true ∧
    badRow wBadRow 0 = some (progGra 0 (wBadRow.dev.core 0).pc) := by decide +kernel

/-- The copies of a predicate that differ are ORed, until the predicate is written (14 Table 14.6). -/
theorem test_pred_copies :
    ({ cells := { pDiff := 4 } } : CoreSt).pred 2 = true ∧ (({ cells := { pDiff := 4 } } : CoreSt).setP 2 false).pred 2 = false := by decide

/-! ### Vector slot (04) -/

def vF : VxFields := { pred := 0, pneg := false, mreg := 0, mz := false, sr := false, ty := 2, dst := 3, srca := 1, srcb := 2, srcc := 0, fn := 0 }
def vRegs : CoreSt := { s := [(1, 7)], v := [(1, 0x80000000), (2, 0xFFFFFFFFFFFFFFFF)], m := [(1, 2)] }
def vPend (w : WLoc) : CoreSt := { vRegs with pendW := [⟨w, 5, 0⟩] }
def vBusy (n : Nat) : CoreSt := { vPend (.vreg 4) with vxQ := List.replicate n ⟨1, vF, true, 0, 0, 0, 0, 7, 0⟩ }
def vDrain : State := wRow (coreStateGra 0 0xC) (BitVec.ofNat 4096 (2 * 2 ^ 252 + 128 * 2 ^ 197 + 2 ^ 181 + 2 ^ 165 + 2 ^ 149)) (wCore vRegs)

theorem witness_vector_forms :
    (∀ op ∈ [1, 2, 3, 5, 6], vxFormOk op { vF with ty := 2 } = true) ∧ vxFormOk 4 { vF with ty := 0, srcc := 1 } = true ∧
    (∀ op ∈ [7, 0xD], vxFormOk op { vF with srcb := 0 } = true) ∧ vxFormOk 0xB vF = true ∧ vxFormOk 0xC { vF with mreg := 1 } = true ∧
    vxFormOk 8 { vF with ty := 0 } = true ∧
    (∀ op ∈ [9, 0xA, 0xE, 0xF], vxFormOk op { vF with ty := 0, srcb := 0 } = true) ∧ vxAllDirect vF = true ∧
    vxFormOk 0x10 { vF with ty := 0, srca := 32, srcb := 0 } = true := by decide +kernel

theorem witness_vector_queue :
    (wCore (vBusy 1)).issues 0 = true ∧ (vBusy 1).pendW ≠ [] ∧ (vBusy 2).vxQ.length = 2 ∧ (vBusy 1).sound = true ∧ (wCore vRegs).issues 0 = true ∧
    (vRegs.pred vF.pred.toNat != vF.pneg) = true ∧ (vRegs.pred vF.pred.toNat != true) = false ∧ vRegs.vxQ = [] ∧ vRegs.pendW = [] ∧ (wCore (vBusy 2)).atIssue 0 = true := by
  decide +kernel

theorem witness_drain :
    vDrain.issues 0 = true ∧ vDrain.dev.core 0 = vRegs ∧ (tdOf (tdWord vDrain 0 0)).loc = 2 ∧ (tdOf (tdWord vDrain 0 0)).ty = 0 ∧
    (tdOf (tdWord vDrain 0 0)).n0 = 128 ∧ (tdOf (tdWord vDrain 0 0)).n1 = 1 ∧ (tdOf (tdWord vDrain 0 0)).n2 = 1 ∧
    (tdOf (tdWord vDrain 0 0)).n3 = 1 := by decide +kernel

theorem witness_vector_lands :
    (∀ w ∈ [WLoc.mem (mkGra 0 0 0 5), .vreg 4, .mreg 1, .mreg 0], (wCore (vPend w)).dev.core 0 = vPend w) ∧
    memWf (wCore (vPend (.mem 5))).mem = true ∧ (wCore { vBusy 1 with pendW := [] }).dev.coreRuns 0 = true := by decide +kernel

/-! ### DMA and rings (05) -/

def dd (opc src dst rows sstr : Nat) (rest : Nat := 0) : BitVec 256 :=
  BitVec.ofNat 256 (opc * 2 ^ 252 + src * 2 ^ 204 + dst * 2 ^ 172 + rows * 2 ^ 156 + sstr * 2 ^ 144 + 2 ^ 132 + rest)
def dEnt (opc : Nat) (rest : Nat := 0) : DmaEntry := ⟨2, dd opc 16 40 6 1 rest, 0, 0, 7⟩
def dRun : CoreSt := { cRegs with r1 := { done := 2 }, dctr := { rowsMoved := 9 } }
def dQ (opc : Nat) (rest : Nat := 0) : CoreSt := { dRun with q1 := [dEnt opc rest] }
/-- Rows 18 and on hold data, and descriptor 2 of the table is in row 0x1_0004. -/
def dMem (s : State) : State := wRow 18 (BitVec.ofNat 4096 99) (wRow (coreStateGra 0 4) (BitVec.ofNat 4096 (2 ^ 512 * (dd 1 16 40 6 1).toNat)) s)
def dS (opc : Nat) (rest : Nat := 0) : State := dMem (wCore (dQ opc rest))
def dDef : CoreSt := { dRun with deferred := [⟨42, 5, some 1, none, none⟩] }
def dxF : DxFields := { queue := 1, desc := 2, sreg := 1, dreg := 1 }

theorem witness_dma_queue :
    (dMem (wCore dRun)).issues 0 = true ∧ (dMem (wCore dRun)).dev.hlth.bad.contains (coreStateGra 0 4) = false ∧
    dRun.q1.length < 8 ∧ 8 ≤ ({ dRun with q1 := List.replicate 8 (dEnt 1) } : CoreSt).q1.length ∧
    (wCore { dRun with q1 := List.replicate 8 (dEnt 1) }).atIssue 0 = true ∧
    ddTotal (dEnt 1) ≤ ({ dQ 1 with r1 := { done := 6 } } : CoreSt).r1.done := by decide +kernel

theorem witness_dma_moves :
    (∀ opc ∈ [1, 2, 3, 4, 5, 6], (dS opc).dev.coreRuns 0 = true ∧ ((dS opc).dev.core 0).q1.head? = some (dEnt opc) ∧
      ddOpc (dEnt opc) = opc ∧ ddSre (dEnt opc) = false ∧ ddDre (dEnt opc) = false ∧ ddSkew (dEnt opc) = 0 ∧
      ((dS opc).dev.core 0).r1.done < ddRows (dEnt opc) ∧ ((dS opc).dev.core 0).deferred = []) ∧
    memWf (dS 1).mem = true ∧ ownRow 0 18 = true ∧ ownRow 0 42 = true ∧ (dS 1).clean 18 = true ∧
    strideRow (ddSrc (dEnt 1)) 2 (ddSstr (dEnt 1)) = 18 ∧ strideRow (ddDst (dEnt 1)) 2 (ddDstr (dEnt 1)) = 42 ∧
    ((dS 1).dev.sliceOf 0).isSome = true := by decide +kernel

theorem witness_dma_sends :
    injectCheck (dS 3) 0 wSlice (dEnt 3) 0 4 = .yes ∧ (∀ i, i < 4 → ownRow 0 (18 + i) = true ∧ (dS 3).clean (18 + i) = true) ∧
    injectCheck (dS 4) 0 wSlice (dEnt 4) 0 0 = .yes := by decide +kernel

/-- Ring 0 of core 0: 4 slots of one row at pad row 32, with `n` of them published. -/
def dRing (n : Nat) (s : State) : State :=
  wRow (coreStateGra 0 0) (BitVec.ofNat 4096 (32 * 2 ^ 224 + 1 * 2 ^ 212 + 4 * 2 ^ 204 + n * 2 ^ 128)) s
def dWait (rest : Nat) : CoreSt := { dRun with q1 := [dEnt 1 rest], r1 := { done := 2, wait := 1 } }

theorem witness_ring_waits :
    ringOcc (ringDesc (dRing 2 (wCore (dWait (2 ^ 248)))) 0 0) = 2 ∧ ringSlots (ringDesc (dRing 2 (wCore (dWait (2 ^ 248)))) 0 0) = 4 ∧
    ddSre (dEnt 1 (2 ^ 248)) = true ∧ ddSring (dEnt 1 (2 ^ 248)) = 0 ∧ (dWait 0).feedAt 0 = false ∧ (dWait 0).loadAt 0 = false ∧
    waitsAsConsumer (dRing 0 (wCore (dWait (2 ^ 248)))) 0 1 0 = true ∧ waitsAsConsumer (dRing 0 (wCore (dWait (2 ^ 248)))) 0 0 0 = false ∧
    waitsAsProducer (dRing 4 (wCore (dWait (2 ^ 242)))) 0 1 = some 0 := by decide +kernel

/-- A LOAD waits at ring 0, a ring of KIND 1, and the slot comes. -/
def dLoadWait : CoreSt := { loadRun := some ⟨{ mxL with srcsel := true, sreg := 0 }, 0⟩ }
def dLoadRing : State :=
  wRow (coreStateGra 0 0) (BitVec.ofNat 4096 (32 * 2 ^ 224 + 32 * 2 ^ 212 + 4 * 2 ^ 204 + 2 ^ 202 + 2 ^ 128)) (wCore dLoadWait)
theorem witness_ring_load :
    dLoadRing.dev.core 0 = dLoadWait ∧ ringOcc (ringDesc dLoadRing 0 0) ≠ 0 ∧ ringKind (ringDesc dLoadRing 0 0) = 1 ∧
    isPullRing dLoadRing.dev 0 0 = false ∧ memWf dLoadRing.mem = true ∧
    (∀ i, i < mxImageRows 0 → let g := ringRow (ringDesc dLoadRing 0 0) (ringHead (ringDesc dLoadRing 0 0)) i
      graValid g = true ∧ graSpace g = 0 ∧ graCoreId g = 0 ∧ dLoadRing.clean g = true) := by decide +kernel

/-! ### Packets (07, 08) -/

/-- A fold over bytes that reaches each value before it takes the next byte. -/
def fRun (f : Nat → Nat → Nat) : Nat → List Nat → Nat
  | c, [] => c
  | 0, b :: l => fRun f (f 0 b) l
  | c + 1, b :: l => fRun f (f (c + 1) b) l

theorem foldl_eq_fRun (f : Nat → Nat → Nat) (l : List Nat) : ∀ c, l.foldl f c = fRun f c l := by
  induction l with
  | nil => intro c; cases c <;> simp only [List.foldl_nil, fRun]
  | cons b l ih => intro c; cases c <;> simp only [List.foldl_cons, fRun, ih]

theorem crc32c_eq (l : List Nat) : crc32c l = (fRun (fun c b => crcShift 8 (c ^^^ (b % 256))) 0xFFFFFFFF l) ^^^ 0xFFFFFFFF :=
  congrArg (· ^^^ 0xFFFFFFFF) (foldl_eq_fRun _ _ _)

def pkH (op cls : Nat) (oparg : Nat) (crc : Nat) : LongHdr := {
  cls, op, slice := 5, gen := 3, dchip := 0, dcl := 0, dcore := 2, gra := mkGra 0 0 2 42, len := 8, seq := 77, oparg, schip := 0,
  score := 9, squeue := 1, gate := 0, sat := 0, nan := 0, reply := mkGra 0 0 1 50, crc }
/-- A packet of one row, with its CRC32C as given. -/
def pkt (op cls : Nat) (oparg : Nat) (crc : Nat) : Packet := ⟨longFlit (pkH op cls oparg crc), rowFlits [BitVec.ofNat 4096 0x40000000]⟩
def pkWrite : Packet := pkt 0 0 0 0x990BA785
def pkReply : Packet := pkt 2 0 0 0xDBE167B0
def pkAtomic : Packet := pkt 3 3 0 0x6AABA6BD
def pkSum : Packet := pkt 3 0 (6 * 2 ^ 11) 0x944CA2A0
def pkTree (tree : Nat) : Packet := pkt 4 0 (tree * 2 ^ 18) (if tree = 1 then 0xF5E5E114 else 0x3C5CE03F)
def pkReq : Packet := ⟨longFlit { pkH 1 0 (2 ^ 19) 0x58F90069 with len := 0 }, []⟩
def pkS : State := wRow (mkGra 0 0 2 42) (BitVec.ofNat 4096 0x3F800000) (wCore {})
def fly (p : Packet) (s : State) : State := dev (fun d => { d with net := { d.net with flight := [p] } }) s
def pkShort (sop : Nat) (arg0 : Nat) (dcore : Nat := 2) : Flit :=
  shortFlit { sop, slice := 5, gen := 3, dchip := 0, dcl := 0, dcore, arg0, schip := 0, score := 10, arg1 := 0 }
/-- Core 2 has sent packet 77 of its queue 1, a read or not. -/
def pkOut (reply : Bool) : State := dev (fun d => d.setCore 2 { outst := [⟨1, 77, reply, 0, none, none, 0, 0, false⟩] }) pkS
/-- Network records of slice 5 at cluster 0: a sum over inputs 1 and 4 to output 0, and two tree entries. -/
def pkNet : State := dev (fun d => { d with slices := [{ wSlice with fo := { wSlice.fo with
  nets := [.sum 0 6 18 1 1, .tree 0 1 6 0 [], .flow 0 0x400 2 9, .tree 0 2 0 4 [0xFF, 0xFF, 0xFF, 0xFF, 0xFF, 0xFF, 0xFF, 0xFF]] } }] }) pkS
def pkHeld : State := dev (fun d => { d with slices := [{ wSlice with gate := 2 }], net := { d.net with held := [⟨0, 4, 2, 0xFF, pkTree 2⟩] } }) pkS

/-- The other contribution of that sum has come. -/
def pkFull : State := dev (fun d => { d with net := { d.net with sums := [⟨0, 5, 6, [(1, pkSum)]⟩] } }) pkNet
/-- The sum ends here and has one input; leaf core 2 of tree 2 names its ring 3. -/
def pkEnd : State := dev (fun d => { d with slices := [{ wSlice with fo := { wSlice.fo with
  nets := [.sum 0 6 16 4 1, .tree 0 2 0 4 [0xFF, 0xFF, 3, 0xFF, 0xFF, 0xFF, 0xFF, 0xFF]] } }] }) pkS

/-- A read request of the express class, while the serving core has no express quota left. -/
def pkReqX : Packet := ⟨longFlit { pkH 1 1 (2 ^ 19) 0xDB84B5B0 with len := 0 }, []⟩
/-- A packet at an input of cluster 0's router, past its first router. -/
def pkHop (p : Packet) (inPort : Nat) (s : State) : State := dev (fun d => { d with net := { d.net with hops := [⟨0, inPort, p, none, [], none⟩] } }) s
/-- The cluster has moved on to generation 4. -/
def pkOld (s : State) : State := fields [(fClGen 0, 4)] s

theorem witness_delivery :
    (fly pkWrite pkS).carries pkWrite 0 = true ∧ (fly pkWrite pkS).dev.accepts 0 5 3 = true ∧ memWf pkS.mem = true ∧
    pktRowOk pkS.dev 0 (mkGra 0 0 2 42) = true ∧ (∀ k, k < 32 → ringKind (ringDesc (fly pkWrite pkS) 2 k) ≠ 2) ∧
    (fly pkWrite pkS).arrives 2 pkWrite = true ∧ pkS.dev.openWay (longHdr pkWrite.hdr) = true := by
  simp only [State.carries, wholePkt, longOk, crcOf, crc32c_eq]
  decide +kernel

theorem witness_other_deliveries :
    (fly pkReply (pkOut true)).carries pkReply 2 = true ∧ (fly pkReply (pkOut true)).arrives 2 pkReply = true ∧ replyTurn ((pkOut true).dev.core 2) (longHdr pkReply.hdr) = true ∧
    (∀ o ∈ ((pkOut true).dev.core 2).outst, o.pub = none ∧ o.rel = none) ∧ ownRow 2 (mkGra 0 0 2 42) = true ∧
    (fly pkAtomic pkNet).dev.addFirst pkAtomic = true ∧ (fly pkAtomic pkNet).carries pkAtomic 3 = true ∧ (fly pkAtomic pkNet).dev.stopAdmits (ringStop 0) pkAtomic = true ∧
    pkS.clean (mkGra 0 0 2 42) = true ∧ (fly pkReq pkS).carries pkReq 1 = true ∧ (fly pkReq pkS).arrives 2 pkReq = true ∧
    bits (longHdr pkReq.hdr).oparg 22 19 = 1 := by
  simp only [State.carries, wholePkt, longOk, crcOf, crc32c_eq]
  decide +kernel

theorem witness_reply_turns :
    (match replyCheck (fly pkReq pkS) (longHdr pkReq.hdr), replyCheck (fly pkReqX pkS) (longHdr pkReqX.hdr) with
      | .yes, .quota => true | _, _ => false) = true ∧ (fly pkReqX pkS).carries pkReqX 1 = true ∧ (fly pkReqX pkS).arrives 2 pkReqX = true := by
  simp only [State.carries, wholePkt, longOk, crcOf, crc32c_eq]
  decide +kernel

theorem witness_bad_packets :
    ¬((pkOld pkS).dev.fld (fClState 0) = 1 ∧ (pkOld pkS).dev.fld (fClSlice 0) = 5 ∧ (pkOld pkS).dev.fld (fClGen 0) = 3) ∧
    (pkOld pkS).dev.fenced 0 = false ∧ (pkOld pkS).dev.openWay (pkH 0 0 0 0) = true ∧ (pkOld pkNet).dev.stopAdmits (ringStop 0) pkAtomic = true ∧
    pkS.dev.routerFailed 0 = false ∧ badForm ⟨0, []⟩ = true ∧ (fly ⟨pkShort 3 7, []⟩ pkS).carriesShort (pkShort 3 7) 3 = true := by
  decide +kernel

theorem witness_control_packets :
    (fly ⟨pkShort 0 (77 * 2 ^ 16), []⟩ (pkOut false)).carriesShort (pkShort 0 (77 * 2 ^ 16)) 0 = true ∧
    ((pkOut false).dev.core 2).served = [] ∧ pkS.dev.reaches 0 10 0 = true ∧
    (fly ⟨pkShort 1 (mkGra 1 0 0 7), []⟩ pkS).carriesShort (pkShort 1 (mkGra 1 0 0 7)) 1 = true ∧
    (fly ⟨pkShort 1 (mkGra 1 0 0 7), []⟩ pkS).arrives 2 ⟨pkShort 1 (mkGra 1 0 0 7), []⟩ = true ∧
    graSpace (shortPkt (pkShort 1 (mkGra 1 0 0 7))).arg0 = 1 ∧ pktRowOk pkS.dev 0 (mkGra 1 0 0 7) = true ∧
    (fly ⟨pkShort 2 (3 * 2 ^ 27 + 1), []⟩ pkS).carriesShort (pkShort 2 (3 * 2 ^ 27 + 1)) 2 = true := by decide +kernel

/-- At its first router a packet comes from its core, and later from the neighbour. -/
theorem witness_trees :
    (fly (pkTree 1) pkNet).treeAt 1 none (pkTree 1) = some ⟨1, 5, pkTree 1, none, [], none⟩ ∧
    (pkHop pkSum 4 pkNet).treeAt 0 (some 4) pkSum = some ⟨0, 4, pkSum, none, [], none⟩ ∧
    (∀ t ∈ [1, 2], (pkHop (pkTree t) 3 pkNet).treeAt 0 none (pkTree t) = some ⟨0, 3, pkTree t, none, [], none⟩) ∧
    pkNet.dev.outOpen 0 1 = true ∧ pkNet.dev.outOpen 0 2 = true := by decide +kernel

theorem witness_sums :
    wholePkt pkSum 3 = true ∧ sumEntry pkNet.dev 0 5 6 = some (18, 1, 1) ∧ bits (longHdr pkSum.hdr).oparg 22 11 = 6 ∧
    bitAt 18 1 = true ∧ bitAt 18 4 = true ∧ sumHeld pkNet.dev 0 = 0 ∧ pkNet.dev.sumParts 0 5 6 = [] ∧
    (∀ k, k < 12 → bitAt 18 k = true → k = 4 ∨ ∃ q ∈ pkFull.dev.sumParts 0 5 6, q.1 = k) ∧
    (insertRank (4, pkSum) (pkFull.dev.sumParts 0 5 6)).map (fun y => y.2) = [pkSum, pkSum] ∧
    sumEntry pkEnd.dev 0 5 6 = some (16, 4, 1) ∧ (∀ k, k < 12 → (bitAt 16 k = true ↔ k = 4)) := by
  simp only [wholePkt, longOk, crcOf, crc32c_eq]
  decide +kernel

theorem witness_multicast :
    wholePkt (pkTree 1) 4 = true ∧ treeEntry pkNet.dev 0 5 1 = some (6, 0, []) ∧ pkNet.dev.net.mcast = [] ∧
    wholePkt (pkTree 2) 4 = true ∧
    treeEntry pkEnd.dev 0 5 2 = some (0, 2 ^ 2, [0xFF, 0xFF, 3, 0xFF, 0xFF, 0xFF, 0xFF, 0xFF]) ∧
    leafShut (wRow (coreStateGra 2 0) (BitVec.ofNat 4096 ((4 * 2 ^ 204 + 2 ^ 212 + 2 ^ 202) * 2 ^ 768)) pkEnd) 2 3 = false ∧
    treeEntry pkNet.dev 0 5 2 = some (0, 2 ^ 2, [0xFF, 0xFF, 0xFF, 0xFF, 0xFF, 0xFF, 0xFF, 0xFF]) ∧
    (fly ⟨shortFlit { shortPkt (pkShort 5 0) with score := 2 }, []⟩ pkHeld).carriesShort (shortFlit { shortPkt (pkShort 5 0) with score := 2 }) 5 = true ∧
    (fly ⟨shortFlit { shortPkt (pkShort 5 0) with score := 2 }, []⟩ pkHeld).arrives 2 ⟨shortFlit { shortPkt (pkShort 5 0) with score := 2 }, []⟩ = true ∧
    pkHeld.dev.net.held.find? (fun h => h.cl == 0 && h.core == 2 && (longHdr h.pkt.hdr).slice == 5) = some ⟨0, 4, 2, 0xFF, pkTree 2⟩ ∧
    starved pkHeld 2 0xFF = false ∧ pkHeld.dev.net.held.any (heldTooLong pkHeld.dev.now { wSlice with gate := 2 }) = true ∧ pkHeld.dev.freeOfHolds 5 = true := by
  simp only [wholePkt, longOk, crcOf, crc32c_eq]
  decide +kernel
theorem witness_invalid_cluster : 72 ≤ (longHdr (longFlit { pkH 0 0 0 0 with dcl := 80 })).dcl ∧ pkS.dev.openWay { pkH 0 0 0 0 with dcl := 80 } = true := by
  decide +kernel
theorem witness_sum_timeout :
    pkFull.dev.net.sums.find? (fun b => b.cl == 0 && b.slice == 5 && b.rtag == 6) = some ⟨0, 5, 6, [(1, pkSum)]⟩ ∧
    sumEntry pkFull.dev 0 5 6 = some (18, 1, 1) ∧ pkFull.dev.outOpen 0 1 = true := by decide +kernel

/-! ### Slices (01, 11, 12) -/

def gFo : Folio := {
  clusters := [0], cores := [{ core := 0, first := 2, last := 9, sInit := [11, 12] }], semas := [mkGra 1 0 0 7],
  sSchuss := 600, sCarve := 700, sGlide := 800, f := 2, e := 1, seqmap := [.pull 0 1 0 3 0, .push 0 2 0 4 0] }
def gSl : Slice := { id := 5, fo := gFo, launched := true, running := true, key := 9, gate := 3, due := 5000, dues := [4400, 3800, 3200] }
/-- Slice 5 on cluster 0 at EC 5000, with a session of its host. -/
def gS (sl : Slice) : State :=
  fields [(fClState 0, 1), (fClSlice 0, 5), (fClGen 0, 3)] (regs [(regAddr 2 0xC, 0xFFFFFF)] (dev (fun d => { d with
    slices := [sl], time := { d.time with ec := 5000 }, tel := { d.tel with sessions := [{ id := 3, open_ := true, role := 3 }] } }) base))
def gReady : Slice := { gSl with running := false, launchAt := some 5000, gate := 0, dues := [], launchEc := 5000 }
/-- Slice 5 waits for the end of its frames before a relaunch. -/
def gBack : Slice := { gSl with launchAt := some 5000, stopping := some 1 }
def gOwn : Raise := { origin := 0, holdId := 4, cause := 2, causes := [], raiseEc := 4500, gate := 3, resume := some 5400, sendEc := some 5000, own := true }
/-- Port 2 is up and its first transmit entry names slice 5. -/
def gPort (s : State) : State := fields [(fPortState 2, 4)] (regs [(txAddr 2 0 0, 0x80000000), (txAddr 2 0 1, 5)] s)
def gWord : CtrlWord := holdWord 5 9 0 6 0x123 4800
def gPull : PullRun := { stream := 1, seq := 0, core := 0, ring := 3, gate := 0, iter := 1, publish := 1 }
def gShard : Shard := { frame := 1, crc := 0, frags := [(0, [7, 8])], complete := true }
def gStream : Stream := { id := 1, session := 3, slice := 5, index := 1, dir := 0, shardBytes := 512, lead := 1000, shards := [gShard] }
/-- Ring 3 of core 0 has 4 slots of one row, ring 4 one published result. -/
def gRings (s : State) : State := wRow (coreStateGra 0 0) (BitVec.ofNat 4096
  (2 ^ 768 * (32 * 2 ^ 224 + 1 * 2 ^ 212 + 4 * 2 ^ 204) + 2 ^ 1024 * (48 * 2 ^ 224 + 1 * 2 ^ 212 + 4 * 2 ^ 204 + 1 * 2 ^ 128))) s
def gStreams (s : State) (l : List Stream) : State := dev (fun d => { d with tel := { d.tel with streams := l } }) s

theorem witness_launch :
    (gS gReady).dev.slice? 5 = some gReady ∧ (gS gReady).dev.launchReady gReady = true ∧ memWf (gS gReady).mem = true ∧
    (gFo.cores.map (fun x => x.core)).Nodup ∧ (∀ r ∈ gFo.cores, r.core ∈ gReady.coresOf) ∧ (gS gReady).dev.freeOfHolds 5 = true ∧
    5000 ≤ (gS gReady).dev.now + gFo.holdLead * (gS gReady).dev.spacingNow gReady ∧ gReady.stopping = none ∧
    (gS gBack).dev.slice? 5 = some gBack ∧ gBack.launched = true ∧ gBack.launchAt = some 5000 ∧ gBack.running = true ∧ gBack.early = [] := by
  decide +kernel

theorem witness_gates :
    (gS { gSl with arrived := [0], due := 5001 }).dev.now < 5001 ∧ (∀ k ∈ gSl.progCores, k ∈ [0]) ∧ (gS gSl).dev.freeOfHolds 5 = true ∧
    (gS { gSl with barrier := true }).dev.now = 5000 ∧ gSl.gate % gFo.f ≠ 0 ∧ (gS gSl).dev.fld ⟨regAddr 14 0, 3, 3⟩ = 0 ∧
    gOwn.openOwn = true ∧ (gPort (gS gSl)).dev.portUp 2 = true ∧ (gPort (gS gSl)).dev.portNames 2 5 = true := by decide +kernel

theorem witness_hold_words :
    (fields [(fPortState 3, 4)] (gPort (gS gSl))).dev.portUp 3 = true ∧ (0x123, 5, 9) ∉ (gS gSl).dev.fab.seen ∧
    gWord = holdWord 5 9 0 6 0x123 4800 ∧ (gS gSl).dev.clocked 0 = true ∧ ((gS gSl).dev.slices.map (fun x => x.id)).Nodup ∧
    gSl.clusters.any (fun c => clRegion c == 0) = true ∧ gSl.dues ≠ [] ∧ gSl.barrier = false ∧
    (gS { gSl with stretches := 4 }).dev.freeOfHolds 5 = true ∧ gSl.armed = true ∧ gSl.stopping = none ∧
    (0x123, 5, 9) ∈ (dev (fun d => { d with fab := { d.fab with seen := [(0x123, 5, 9)] } }) (gS gSl)).dev.fab.seen ∧
    (gS gSl).dev.portUp 2 = false ∧ ({ gReady with launchAt := none } : Slice).launched = true ∧
    ({ gReady with launchAt := none } : Slice).armed = false := by decide +kernel

theorem witness_shards :
    (gStreams (gS { gSl with pulls := [gPull] }) [{ gStream with shards := [] }]).dev.decisionEc { gSl with pulls := [gPull] } gPull ≤ 5000 ∧
    gPull.present (gSl.frameOf 1) = false ∧
    ((gStreams (gS { gSl with pulls := [gPull], policy := 1 }) [gStream]).dev.streamOf 5 0 1).isSome = true ∧
    (gStreams (gS { gSl with pulls := [gPull], policy := 1 }) [gStream]).dev.decisionEc { gSl with pulls := [gPull], policy := 1 } gPull ≤ 5000 ∧
    (gRings (gStreams (gS { gSl with pulls := [gPull] }) [gStream])).nextShard gStream gPull = some gShard ∧
    memWf (gRings (gS gSl)).mem = true ∧ ringSlots (ringDesc (gRings (gS gSl)) 0 3) = 4 ∧ ringSlotRows (ringDesc (gRings (gS gSl)) 0 3) = 1 ∧
    ringRow (ringDesc (gRings (gS gSl)) 0 3) 1 0 ≠ coreStateGra 0 0 ∧ ringOcc (ringDesc (gRings (gS gSl)) 0 4) = 1 ∧
    (gRings (gS gSl)).slotFree gPull 1 = true ∧ (gS gSl).dev.dueOf gSl 2 ≤ 5000 ∧ ringKind (ringDesc (gRings (gS gSl)) 0 4) ≠ 2 ∧
    gFo.pushes.find? (fun p => p.2.1 == 2) = some (0, 2, 0, 4) ∧ isPullRing (gS gSl).dev 0 4 = false ∧
    (gS gSl).dev.net.held = [] ∧
    (∀ i, i < 1 → (gRings (gS gSl)).clean (ringRow (ringDesc (gRings (gS gSl)) 0 4) (ringHead (ringDesc (gRings (gS gSl)) 0 4)) i) = true) := by decide +kernel

theorem witness_ends :
    (gS { gSl with stopping := some 0, boundary := true, stopReq := [(3, 7)] }).dev.slice? 5 = some { gSl with stopping := some 0, boundary := true, stopReq := [(3, 7)] } ∧
    ((gS gSl).dev.session? 3).isSome = true ∧ (gS { gSl with killAt := some 5000 }).dev.now = 5000 ∧
    (fields [(fClState 0, 2)] (gStreams (dev (fun d => { d with slices := [] }) (gS gSl)) [])).dev.clustersIn 2 5 = [0] ∧
    (gS gSl).dev.failed = false ∧ (gS gSl).dev.clocked (clRegion 0) = true ∧ (gS gSl).dev.fld (fSite 0) ≠ 0xE := by decide +kernel

/-- A slice whose stop and core 0 have quotas for one row. -/
def gQuota : Slice := { gSl with fo := { gFo with nets := [.flow 0 0x400 0 9, .flow 1 0 0x400 9] }, pulls := [gPull] }
theorem witness_quotas_of_streams :
    gQuota.pullsOn 1 = [gPull] ∧ gQuota.pulls.filter (fun y => y.core == gPull.core && y.ring == gPull.ring) = [gPull] ∧
    gPull.going = none ∧ gPull.publish + 1 ∉ gPull.ready ∧ gPull.publish - ringOcc (ringDesc (gRings (gS gQuota)) 0 3) ∉ gPull.skip ∧
    gStream.shardBytes ≤ 512 * ringSlotRows (ringDesc (gRings (gS gQuota)) 0 3) ∧
    (gS gQuota).dev.stopUse (ringStop 0) 5 0 + 9 * cdiv gStream.shardBytes 512 ≤ gQuota.stopQuota 0 (ringStop 0) ∧
    (gS gQuota).dev.stopUse (ringStop 0) 5 0 + ringSlotRows (ringDesc (gRings (gS gQuota)) 0 4) ≤ gQuota.stopQuota 0 (ringStop 0) ∧
    ((gS gQuota).dev.core 0).quotaRep + 9 * ringSlotRows (ringDesc (gRings (gS gQuota)) 0 4) ≤ quotaOf gQuota 1 0 ∧
    gFo.pushes.find? (fun p => p.2.1 == 2 && ringOcc (ringDesc (gRings (gS gQuota)) p.2.2.1 p.2.2.2) != 0) = some (0, 2, 0, 4) ∧
    gSl.stopQuota 0 (ringStop 0) ≤ (gS gSl).dev.stopUse (ringStop 0) 5 0 ∧ ({ gSl with unskipped := [0] } : Slice).unskipped[0]? = some 0 ∧ gSl.frames = [] ∧
    ({ gPull with zeros := [(1, 0)] } : PullRun).zeros.find? (fun z => z.1 == 1 && decide ((gS gSl).dev.dueOf gSl z.2 ≤ 5000)) = some (1, 0) ∧
    ({ gPull with hold := some (1, 5000) } : PullRun).hold = some (1, 5000) ∧
    ({ gSl with barrier := true } : Slice).passEc = some gSl.due ∧ gSl.at gSl.gate = [] ∧ gSl.lateAt ≠ some 5000 := by decide +kernel

/-! ### The fabric (08; 01 R24) -/

/-- Port 2 in a state, enabled, 2 s after the cold reset. -/
def fS (st : Nat) (x : PortSt := {}) (l : List (Fld × Nat) := []) : State :=
  fields ((fPortState 2, st) :: l) (regs [(regAddr 8 8, 0xFFF)] (dev (fun d => { d with
    pins := { d.pins with rails := true }, sec := { d.sec with holdBoot := none }, time := { d.time with ticks := 2000000000 }, fab := { d.fab with ports := [(2, x)] } })
    (fields [(⟨regAddr 15 0, 31, 28⟩, 1)] (gS gSl))))
/-- Both slot tables of port 2 give slots 1 to 3900 to the requests of slice 5. -/
def fTab (s : State) : State :=
  regs ([txAddr 2 0 0, rxAddr 2 0 0].map (fun a => (a, 2 ^ 31 + 3900 * 2 ^ 12 + 1)) ++
    [txAddr 2 0 1, rxAddr 2 0 1].map (fun a => (a, 4000 * 2 ^ 12 + 5))) s
def fUp (x : PortSt := {}) : State := fields [(fPortSched 2, 1)] (fTab (fS 4 x))
/-- Discovery words of a neighbour at 0x100, its port 3. -/
def fW (k rest : Nat) : CtrlWord := BitVec.ofNat 128 ((24 + k) * 2 ^ 122 + rest)
def fW1 (chip : Nat) : CtrlWord := fW 1 (chip * 2 ^ 104 + 3 * 2 ^ 97 + (fS 3).dev.dims * 2 ^ 85 + 1 * 2 ^ 77)
def fDisc : State := dev (fun d => { d with fab := { d.fab with plan := [(2, ⟨0x100, 3, 0⟩)] } }) (fS 3)
def fLead (cls slot : Nat) : LeadHdr := { ltype := 2, lclass := cls, net := 0, dline := 0, owner := 5, lseq := 0, body := 1, slot, sendUs := 4 }
/-- A frame that carries one short packet. -/
def fFrame (cls slot : Nat) : Frame := mkFrame (fLead cls slot) [pkShort 1 7]
def fPkt : Packet := ⟨longFlit { pkH 0 0 0 0 with dchip := 0x100, len := 0 }, []⟩
def fOut : State := regs [(regAddr 8 0, 0x01100000), (regAddr 8 (0x10000 + 16 * 5), 0x4), (regAddr 8 (0x10000 + 16 * 5 + 12), 0x80000000)]
  (fields [(fPortState 0, 4), (fPortSched 0, 1)] (dev (fun d => { d with fab := { d.fab with out := [(15600, fPkt)] } })
    (regs [(txAddr 0 0 0, 2 ^ 31 + 3900 * 2 ^ 12 + 1), (txAddr 0 0 1, 4000 * 2 ^ 12 + 5)] (fS 0))))
def fSent : SentFrame := ⟨fFrame 0 8801, 8801, 8803, false, false⟩

theorem witness_training :
    (∀ st ∈ [0, 1, 2, 3, 5, 6], (fS st).dev.pstate 2 = st) ∧ (fS 0).dev.portEn 2 = true ∧ (fS 0).dev.portsHeld = false ∧
    ((fS 0).dev.port 2).retry = false ∧ ((fS 1).dev.port 2).since + 300000000 ≤ (fS 1).dev.time.ticks ∧
    ((fS 0 { retry := true, signal := true }).dev.port 2).retry = true ∧ (fS 5 { signal := true } [(fPortWhy 2, 6)]).dev.fld (fPortWhy 2) = 6 ∧
    (fields [(fPortState 2, 1)] fDisc).dev.fab.plan.any (fun x => x.1 == 2) = true ∧ (fDisc.dev.port 2).reached = false ∧
    (∀ l ∈ [(3 : Int), 51 * 65536], ((fS 2 { latency := some l }).dev.port 2).latency = some l) ∧ (3 : Int) ≤ 50 * 65536 ∧ (20 : Nat) ≤ 20 ∧
    ¬(51 * 65536 : Int) ≤ 50 * 65536 := by decide +kernel

theorem witness_discovery :
    (fS 4).dev.pstate 2 = 4 ∧ ((fS 4).dev.port 2).rediscover = false ∧
    fDisc.dev.pstate 2 = 3 ∧ fDisc.dev.portEn 2 = true ∧ bits (fW 0 0).toNat 127 122 = 24 ∧ bits (fW1 0x100).toNat 127 122 = 25 ∧
    bits (fW 2 0).toNat 127 122 = 26 ∧ fDisc.dev.discWhy 2 (fW 0 0) (fW1 0x100) (fW 2 0) = none ∧
    fDisc.dev.discWhy 2 (fW 0 0) (fW1 0x200) (fW 2 0) = some 2 ∧ fDisc.dev.laneLive 2 = true ∧
    bits (BitVec.ofNat 128 (2 ^ 124 + 77)).toNat 127 124 = 1 := by decide +kernel

/-- Port 2 is UP, and slice 5 only transits this device. -/
def fPass : State := regs [(regAddr 8 (0x10000 + 16 * 5 + 12), 0x80000000)] (dev (fun d => { d with slices := [] }) fUp)
theorem witness_lanes :
    (fUp).dev.portUp 2 = true ∧ (fUp.dev.port 2).lastCtrl + 1000 ≤ fUp.dev.time.ticks ∧ fUp.dev.slicesOn 2 = [5] ∧ fUp.dev.freeOfHolds 5 = true ∧
    (fS 4 {} [(fLane 2, 15)]).dev.laneSound 2 3 = true ∧
    0 < 7 * 10 ^ (fS 4).dev.fld ⟨regAddr 8 8, 19, 16⟩ ∧ (fS 4 { laneSwitch := some (3, 3) }).dev.wheel = 3 ∧
    (fS 4 { laneSwitch := some (3, 9) } [(fLane 2, 15)]).dev.laneUsed 2 = true ∧
    (fS 4 { laneSwitch := some (3, 9) } [(fLane 2, 15)]).dev.laneGoing 2 4 = false ∧ fPass.dev.portUp 2 = true ∧
    fPass.dev.transitsOn 2 = [5] := by decide +kernel

theorem witness_bad_control_flit : ctrlFlitOk 0 = false := by
  simp only [ctrlFlitOk, crc32c_eq]
  decide +kernel

theorem witness_frames :
    fUp.dev.expects 2 (fFrame 0 15601) = true ∧ fUp.dev.slotOwned 2 (leadHdr (fFrame 0 15601).lead) = true ∧
    leadOk (fFrame 2 15601) = true ∧ (fFrame 2 15601).tail ≠ 0 ∧ fUp.dev.slotOwned 2 (leadHdr (fFrame 0 15600).lead) = false ∧
    fUp.dev.expects 2 (fFrame 0 15600) = true ∧ leadOk ⟨0, [], 0⟩ = false := by decide +kernel

/-- A frame for this device whose slot has come, of a slice with a quota at the stop. -/
def fIn : State := regs [(regAddr 8 (0x10000 + 16 * 5 + 12), 0xC0000000)] (dev (fun d => { d with
  slices := [{ gSl with fo := { gFo with nets := [.flow 0 0x400 0 9] } }] }) (fUp { rx := [⟨fFrame 0 15600, 15600, false⟩] }))
/-- A frame that came over port 2 waits for port 0. -/
def fVia : State := dev (fun d => { d with fab := { d.fab with out := [], wait := [⟨2, 15600, mkFrame (fLead 0 15600) [fPkt.hdr], none⟩] } }) fOut

theorem witness_frame_packets :
    (fIn.dev.port 2).rx.find? (fun x => decide (x.slot ≤ fIn.dev.slotLast)) = some ⟨fFrame 0 15600, 15600, false⟩ ∧ tooOld fIn.dev.now (leadHdr (fFrame 0 15600).lead) = false ∧
    (∀ k ∈ framePkts (fFrame 0 15600), pktChip k = fIn.dev.coord ∧ fIn.dev.routeOf k 2 0 = .here ∧
      fIn.dev.stopAdmits (ringStop (pktCl k)) k = true) ∧ fIn.dev.net.atStop = [] ∧
    (framePkts (mkFrame (fLead 0 15600) [fPkt.hdr])).any (fun k => fVia.dev.routeOf k 2 0 == .port 0) = true ∧
    (fOut.dev.itemsFor 0).head? = some (.own 15600 fPkt) ∧ pktForm fPkt = 2 ∧ (pktClass fPkt).1 = 0 ∧ fOut.dev.routeOf fPkt 12 0 = .port 0 ∧ fOut.dev.portUp 0 = true ∧
    fOut.dev.fld (fPortSched 0) = 1 ∧ ((slotAfter (slotsOf (fOut.dev.entries true 0) (sourceLead fPkt).use) (fOut.dev.startFrom 0 (sourceLead fPkt).use 15600) 0).bind
      (entryAt (fOut.dev.entries true 0))) = some (1, 3900, 0, 5, 4000) ∧ (fOut.dev.port 0).outLen (fOut.dev.entries true 0) (1, 3900, 0, 5, 4000) fOut.dev.slotNow + 3 ≤ 4000 ∧
    slotsOf (fOut.dev.entries true 0) (sourceLead fPkt).use ≠ [] := by decide +kernel

theorem witness_link_words :
    ((fUp { replay := [fSent] }).dev.port 2).replay.find? (fun g => (leadHdr g.fr.lead).seqKey == 40) = some fSent ∧
    (match slotAfter (slotsOf ((fUp { replay := [fSent] }).dev.entries true 2) (leadHdr fSent.fr.lead).use)
        ((fUp { replay := [fSent] }).dev.freeFrom 2 (fun g => g == fSent) (leadHdr fSent.fr.lead).use) 0 with
      | some a => !tooOld (a * 8 / 25) (leadHdr fSent.fr.lead)
      | none => false) = true ∧ 8803 * 8 / 25 + 2000 ≤ fUp.dev.now ∧
    tooOld fUp.dev.now (leadHdr fSent.fr.lead) = false ∧ fUp.dev.fld (fPortSched 2) ≠ 0 ∧
    slotsOf (fUp.dev.entries true 2) (leadHdr fSent.fr.lead).use ≠ [] ∧ bits (BitVec.ofNat 128 (5 * 2 ^ 124 + 2 ^ 112)).toNat 127 124 = 5 := by
  decide +kernel

def fUsed : Slice := { gSl with fo := { gFo with nets := [.flow 0 0 1 9], chains := [⟨1, 1, 9, 0, 0⟩] }, chanUsed := [(0, 2, 3)], chanOwed := [(0, 2, 1)] }
/-- A packet of one row waits in the chain buffer of hop 0 of slice 5's load. -/
def fChain : State := dev (fun d => { d with vault := { d.vault with
  chain := [⟨5, 1, 0, 2, pkWrite, true⟩], loads := [{ slice := 5, key := 9, fo := fUsed.fo, phase := .moving, resumeEc := 0 }] } }) (gS fUsed)

theorem witness_quotas :
    (gS fUsed).dev.sliceOf 0 = some fUsed ∧ fUsed.chanOwed = [(0, 2, 0 + 1)] ∧ (gS fUsed).dev.net.atStop = [] ∧ base.dev.routerFailed 7 = false ∧ base.dev.fld (fClState 7) = 0 ∧
    base.dev.fld (fSite 7) ≠ 0xE ∧ base.dev.slices = [] ∧ base.dev.vault.loads = [] ∧
    (dev (fun d => { d with fab := { d.fab with genWait := [0] } }) base).dev.genRecent 0 1 = false ∧
    fChain.dev.vault.chain.find? (fun c => c.slice == 5 && c.hop == 0 && c.pkt == pkWrite) = some ⟨5, 1, 0, 2, pkWrite, true⟩ ∧
    (fChain.dev.load? 5).isSome = true ∧ fUsed.fo.hop 1 1 = some ⟨1, 1, 9, 0, 0⟩ ∧
    (longHdr pkWrite.hdr).dchip = fChain.dev.coord ∧ (longHdr pkWrite.hdr).len = 8 := by decide +kernel
theorem witness_transit :
    firstByRank (fVia.dev.fab.wait.filter (fVia.dev.transitDue 2 0)) = some ⟨2, 15600, mkFrame (fLead 0 15600) [fPkt.hdr], none⟩ ∧
    fVia.dev.ringTaken (portStop 2) 0 (ringRank ⟨2, 15600, mkFrame (fLead 0 15600) [fPkt.hdr], none⟩) = false := by decide +kernel

/-! ### Keys -/

/-- The public key of the private key 1, the base point of P-384, and its digest. -/
def kKey : PubKey := 0x5f0eea907c1d437a9d817e1dceb1600ac0b8f0b51331dae97c149a28bd1df4f829dc9292bf989e5d6f2c26964ade1736b70a7672385e543a6c2955bf5df20255382a5482e041f759989ba78b623b1d6e74ad20f31ec7b18e37058bbe22ca87aa04
def kDig : BitVec 384 := 0x1dd5e1afb0969cd83edacd4c19820fc9a05bb4f440a2f442388caffb48d02f21e50d135a70067686edf9b71224264f8c
theorem test_key : keyDigest kKey = kDig ∧ ecG.bytes = toLe 97 kKey.toNat := by decide +kernel

/-! ### The vault library and loads (09; 12 R386, R387) -/

def lH : MsgHdr := { hp := 0, session := 3, seq := 1 }
def lX : Session := { id := 3, open_ := true, role := 1 }
/-- An operator's session, on a device with a slice 5. -/
def lS (s : State) : State := dev (fun d => { d with tel := { d.tel with sessions := [lX] } }) s
def lE : Entry := { key := 77, index := 0, folio := false, state := .arriving, parts := [⟨0, 0, 4, []⟩], rows := 4, digest := 0, depositing := true }
def lLib (e : Entry) : State := lS (dev (fun d => { d with vault := { d.vault with lib := [e] } }) (gS gSl))
def lB (rows : BitVec 32) : PutBegin := { kind := 2, stack := 0xFF, devices := 0, key := 88, rows, digest := 5 }
def lData : List Byte := List.replicate 512 3
/-- The CRC32C of the 512 bytes. -/
def lCrc : BitVec 32 := 0x65597fae
/-- A mover descriptor of four rows for mover 2, stride 2, to pad row 64 of core 0. -/
def lMd (opc : Nat) : MoverDesc :=
  ⟨BitVec.ofNat 256 (opc * 2 ^ 252 + 2 * 2 ^ 247 + 2 * 2 ^ 242 + 4 * 2 ^ 170 + 64 * 2 ^ 138 + 2 * 2 ^ 126)⟩
def lFo (opc : Nat) : Folio := { gFo with plan := [lMd opc] }
def lLoad (opc : Nat) : Load := { slice := 5, key := 77, fo := lFo opc, phase := .moving, resumeEc := 0 }
def lSt (l : Load) (sl : Slice) (cl : Nat) : State :=
  fields [(fClState 0, cl)] (dev (fun d => { d with vault := { d.vault with loads := [l], lib := [{ lE with state := .stored, depositing := false }] } }) (lS (gS sl)))

theorem witness_deposits :
    (lS (gS gSl)).dev.session? 3 = some lX ∧ bitAt roleOp 1 = true ∧ (lS (gS gSl)).dev.handing = false ∧ (lS (gS gSl)).dev.ledgerFull = false ∧
    (lS (gS gSl)).dev.hibernate = false ∧ (lLib lE).dev.entry? 88 = none ∧
    (lLib lE).dev.depositPlan 88 none 4 = some ([], [(1, 4)]) ∧
    (lLib lE).dev.depositPlan 88 none 0xFFFFFFFF = none ∧ (lLib lE).dev.entry? 77 = some lE ∧ lData.length = 512 ∧
    (lLib { lE with pipeLen := 2 }).dev.entry? 77 = some { lE with pipeLen := 2 } ∧
    (lLib { lE with pipeLen := 1 }).dev.placement (mapIf (fun f => f.key == 77) (fun f => { f with parts := [] })
      (lLib { lE with pipeLen := 1 }).dev.vault.lib) none 4 = some [(0, 4)] := by decide +kernel

theorem witness_deposit_crc : crc32c (lData.map (fun b => b.toNat)) = lCrc.toNat ∧ lCrc ≠ 0 := by
  simp only [crc32c_eq]
  decide +kernel

/-- An entry whose digest is that of its rows, and one whose digest is not. -/
theorem witness_digests :
    sha384 lE.bytes = 38779414149500646540981089630773200111780069684781968428720474528494713863641637616675352563698391310188281696944318 ∧
    sha384 lE.bytes ≠ lE.digest ∧ (2 : BitVec 32).toNat < lE.rows := by decide +kernel

/-- A directory of nine entries: two answers of a list. -/
def lMany : State := lS (dev (fun d => { d with vault := { d.vault with lib := (List.range 9).map (fun k => { lE with key := k, index := k }) } }) (gS gSl))
theorem witness_lists :
    ((lMany.dev.vault.lib.filter (fun e => decide (0 ≤ e.index))).foldl (fun a e => insertIndex e a) []).map (fun e => e.index) = List.range 9 ∧
    (lMany.dev.maxBody lX - 32) / 174 = 7 := by decide +kernel

theorem witness_library :
    (lLib { lE with depositing := false }).dev.refs { lE with depositing := false } = 0 ∧ (lLib lE).dev.refs lE ≠ 0 ∧ lE.pin = false ∧
    (regs [(regAddr 9 8, 1)] (lLib lE)).dev.pinned + lE.rows * 512 ≤ (regs [(regAddr 9 8, 1)] (lLib lE)).dev.reg (regAddr 9 8) * 1000000000 ∧
    (regs [(regAddr 9 8, 0)] (lLib lE)).dev.reg (regAddr 9 8) * 1000000000 < (lLib lE).dev.pinned + lE.rows * 512 := by decide +kernel

theorem witness_loads :
    (lSt { lLoad 1 with phase := .queued } { gSl with running := false } 0).dev.clustersIn 1 5 = [] ∧
    (lSt { lLoad 1 with phase := .queued } { gSl with running := false } 0).dev.hlth.repairs = [] ∧ gFo.clusters = [0] ∧
    (∀ opc ∈ [1, 2], (lSt (lLoad opc) { gSl with running := false } 1).dev.moverLoad 2 = some (lLoad opc) ∧
      (lSt (lLoad opc) { gSl with running := false } 1).dev.loadSetUp (lLoad opc) = true ∧
      (lSt (lLoad opc) { gSl with running := false } 1).dev.outstanding 2 < 256 ∧
      runningDesc ((lLoad opc).plan 2) ((lLoad opc).doneBy 2) = some (lMd opc, 0) ∧ mdOpc (lMd opc) = opc ∧ 2 ≤ mdHops (lMd 2) ∧
      ((lSt (lLoad opc) { gSl with running := false } 1).dev.entry? ((lLoad opc).entryKey (lMd opc))).isSome = true ∧
      hopDst (lFo opc) (lMd opc) 0 0 < 2 ^ 32) ∧
    (lSt (lLoad 1) { gSl with running := false } 1).dev.fenced (clHalf (moverCl 2)) = false ∧
    (lSt { lLoad 1 with done := [(2, 4)] } { gSl with running := false } 1).dev.loadDone { lLoad 1 with done := [(2, 4)] } = true ∧
    (lSt { lLoad 1 with done := [(2, 4)] } gSl 1).dev.coordinates gSl = true ∧ gSl.gens.length ≤ 0 := by
  decide +kernel

theorem witness_vault_timers :
    (fS 0).dev.vault.useTick + (fS 0).dev.fld ⟨regAddr 9 4, 27, 16⟩ * 1000000 ≤ (fS 0).dev.time.ticks ∧
    base.dev.fld (fStackState 3) ≠ 3 ∧ base.dev.vault.corr = [] ∧ (3, 7) ∉ base.dev.vault.lost ∧
    base.dev.fld ⟨regAddr 14 4, 15, 8⟩ * 1024 < 300000 ∧ 0 < base.dev.fld (fStackSpares 3) ∧
    (fields [(fStackSpares 3, 0)] base).dev.fld (fStackSpares 3) = 0 ∧ (lS (fS 0)).dev.session? 3 = some lX ∧
    (dev (fun d => { d with tel := { d.tel with starts := [(5, 0, 3, 1)] } }) (lS (fS 0))).dev.tel.starts.find?
      (fun y => y.1 == 5 && decide (y.2.1 + 10000000 ≤ (lS (fS 0)).dev.time.ticks)) = some (5, 0, 3, 1) := by decide +kernel

/-! ### The Teller engine (12) -/

/-- A certificate of the key under its own signature, of a leaf and of a root. -/
def oLeaf : Cert := {
  kind := 2, role := 2, serial := 0, certId := 0, issuer := kDig, key := kKey,
  sig := 0x33e9ac34e0c2ac8aeec9219f33fc9534477cf8995bfb5c2bc987dd0f9781d0c21ff18e92b98fcf4108bdeb177639b9c7b70a7672385e543a6c2955bf5df20255382a5482e041f759989ba78b623b1d6e74ad20f31ec7b18e37058bbe22ca87aa }
def oRoot : Cert := { oLeaf with
  kind := 3,
  sig := 0x229da8e0b5b1cbccc6c68c3c092f93cbef33c29965e646cab9d7c46748a03652924fa38da84201ba57a4457e57c28faab70a7672385e543a6c2955bf5df20255382a5482e041f759989ba78b623b1d6e74ad20f31ec7b18e37058bbe22ca87aa }
def oReq : OpenReq := {
  minVer := 1, maxVer := 1, role := 2, flags := 0, mask := 7, nonce := 5, key := kKey, chain := [oLeaf, oRoot], rootKey := kKey,
  sig := 0xc3e17ac27eddf374df1e4e7660319731701e9980395dc4abe80005a2eecd5230b43257fa146993ef41f13f046a3a32c1b70a7672385e543a6c2955bf5df20255382a5482e041f759989ba78b623b1d6e74ad20f31ec7b18e37058bbe22ca87aa }
def oBase : State := dev (fun d => { d with tel := { d.tel with opened := true } }) (fS 0)
/-- A device with one session, on which 2 s have passed. -/
def oS (x : Session) : State := dev (fun d => { d with tel := { d.tel with opened := true, sessions := [x] } }) (fS 0)
def oMsg : SentMsg := { seq := 1, body := .result 1 0 0 [], tick := 0 }

theorem witness_opens :
    oBase.dev.tel.opened = true ∧ oBase.dev.fld ⟨regAddr 12 0, 2, 2⟩ = 0 ∧ oBase.dev.openSessionCode oReq = 0 ∧
    oBase.dev.openSessionCode { oReq with minVer := 2 } = 0x0C01 ∧
    oBase.dev.openSessionCode { oReq with nonce := 6 } = 0x0C03 ∧ oBase.dev.frameOk oReq.frame = true ∧ oBase.dev.ledgerFull = false ∧ bitAt roleAll 1 = true ∧
    (oS { lX with open_ := false }).dev.session? 3 = some { lX with open_ := false } ∧ lX.since + 1000000000 ≤ (oS lX).dev.time.ticks ∧
    (fields [(⟨regAddr 12 4, 31, 24⟩, 1)] (oS lX)).dev.fld ⟨regAddr 12 4, 31, 24⟩ = 1 := by decide +kernel

/-- A session whose first message has not been acknowledged, in the window and as messages to acknowledge. -/
def oWait : Session := { lX with sent := [oMsg], txSeq := 2, unacked := 1, evLost := 1 }
theorem witness_windows :
    (oS oWait).dev.session? 3 = some oWait ∧ (∀ m ∈ oWait.sent, m.seq < oWait.txSeq) ∧ (oS oWait).dev.retryDue oWait = some oMsg ∧
    oMsg.tries < (oS lX).dev.fld ⟨regAddr 12 4, 15, 12⟩ ∧ 0 < oWait.unacked ∧ 0 < oWait.evLost ∧
    (fields [(⟨regAddr 12 4, 15, 12⟩, 0)] (oS lX)).dev.fld ⟨regAddr 12 4, 15, 12⟩ = 0 ∧ lX.ackTick + 20000 ≤ (oS lX).dev.time.ticks ∧
    lX.evq.length < 4096 ∧ (lastSecond (oS lX).dev.time.ticks lX.tagFails).length < (oS lX).dev.fld ⟨regAddr 12 0x14, 31, 24⟩ ∧
    (lastSecond (oS lX).dev.time.ticks lX.errs).length < (oS lX).dev.fld ⟨regAddr 12 0x14, 23, 16⟩ := by decide +kernel

/-- A datagram of the session under keys of zeros, of a TYPE that Table 12.3 does not list. -/
def oDgram : List Byte := bytesOf (headerBytes 1 0x99 3 1 0 0 0 0 ++
  [205, 213, 21, 65, 16, 5, 165, 43, 20, 231, 250, 149, 231, 177, 248, 149])
theorem witness_datagrams :
    rawHdr { lH with session := 0, seq := 0 } (oDgram.map (fun b => b.toNat)) = lH ∧ fieldOf (oDgram.map (fun b => b.toNat)) 0 2 = 0x544C ∧
    lX.opened (oDgram.map (fun b => b.toNat)) = some [] ∧ (oS lX).dev.judge lX (oDgram.map (fun b => b.toNat)) [] = some 0x0C11 ∧
    oDgram.length = 48 ∧ (lastSecond (oS lX).dev.time.ticks lX.errSent).length < 1000 := by decide +kernel

def iPull : PullRun := { gPull with gate := 1 }
def iSl : Slice := { gSl with fo := { gFo with nets := [.flow 0 0x400 0 9, .flow 0 0 0x400 9, .flow 1 0 0x400 9, .flow 1 0x400 0 9] }, pulls := [iPull], gate := 2 }
def iSt : Stream := { id := 1, session := 3, slice := 5, index := 1, dir := 0, shardBytes := 2, lead := 9000 }
def iS (l : List Stream) : State := gStreams (gRings (lS (gS iSl))) l
def iMsg (crc : Word) (data : List Byte) : IngressMsg := { stream := 1, frame := 1, shardBytes := 2, offset := 0, crc, data }

theorem witness_streams :
    (iS []).dev.openCode 5 1 0 2 9000 ((iS []).pullSlot 5 1) = 0 ∧ (iS []).dev.openCode 5 1 0 2 5999 ((iS []).pullSlot 5 1) = 0x0C36 ∧
    (iS [iSt]).dev.stream? 1 = some iSt ∧ iSl.pullsOn 1 = [iPull] ∧ iSl.settled 1 1 = false ∧
    iSl.settled 1 0 = true ∧ iSl.settled 1 60 = false ∧ 1 < iSl.nextPull iPull + 8 ∧ iSl.nextPull iPull + 8 ≤ 60 ∧ 24 + 2 ≤ (iS []).dev.maxBody lX ∧
    iPull.present 1 = false ∧ stagedBytes [iSt] + 2 ≤ 128 * 2 ^ 20 ∧
    crc32c ((({ frame := 1, crc := 0x1D5E658, frags := [(0, [7, 8])] } : Shard).bytes 2).map (fun y => y.toNat)) = 0x1D5E658 := by
  decide +kernel

/-- A folio of four rows with no program: header and directory, CLAIM, ENTRIES, signature block of key 7. -/
def kHeader : Nat :=
  packFields 8 (toLe 4 0x4C4F4643 ++ toLe 2 1 ++ toLe 2 256 ++ toLe 4 0 ++ toLe 4 0 ++ toLe 8 1696 ++ toLe 8 1536 ++ toLe 16 1 ++ toLe 2 0 ++
    toLe 2 1 ++ toLe 2 6 ++ toLe 2 0 ++ [0, 9, 1, 1] ++ toLe 4 0 ++ toLe 4 1000 ++ toLe 4 1000 ++ toLe 4 1000 ++ toLe 4 1 ++ toLe 8 1000 ++
    toLe 4 1 ++ [1, 0, 0, 0] ++ toLe 160 0 ++
    ([(1, 1, 512, 64), (2, 0, 1024, 0), (3, 0, 1024, 0), (7, 0, 1024, 0), (8, 1, 1024, 64), (9, 0, 1024, 0)].flatMap
      (fun x => toLe 2 x.1 ++ toLe 2 0 ++ toLe 4 x.2.1 ++ toLe 8 x.2.2.1 ++ toLe 8 x.2.2.2)))
/-- The signature of its first three rows. -/
def kSig : SigBytes :=
  0x7053fc127fe741ae8cbd57cbf9e4c99d256ccad0cbbcb6a62b73a8b79d238b44d4e4d6dbe6ea86c53634181bf9e86656b70a7672385e543a6c2955bf5df20255382a5482e041f759989ba78b623b1d6e74ad20f31ec7b18e37058bbe22ca87aa
def kData : List (Nat × RowData) :=
  [(0, BitVec.ofNat 4096 kHeader), (1, 1), (3, BitVec.ofNat 4096 (kDig.toNat + kSig.toNat * 2 ^ 384))]
def kE : Entry := { lE with folio := true, state := .stored, depositing := false, data := kData, fo := some (folioOf (mapGet (fun _ => 0) kData)) }
def kReq : StartReq := { slice := 5, t := 3, policy := 1, launchEc := 106240, resumeEc := 106240, keys := [77], exchange := none }
def kStop : Slice := { gSl with key := 77, fo := folioOf (mapGet (fun _ => 0) kData), running := false, launched := false }
def kS (sls : List Slice) : State := regs [(regAddr 8 (0x10000 + 16 * 5 + 12), 0xC0000000)] <| fields [(fPark, 0)] (dev (fun d => { d with
  vault := { d.vault with lib := [kE] }, slices := sls, sec := { d.sec with opKeys := [kKey] } }) (lS (gS gSl)))

theorem witness_folio :
    (folioOf (mapGet (fun _ => 0) kData)).clusters = [0] ∧ (folioOf (mapGet (fun _ => 0) kData)).devCount = 1 ∧
    loadFail (kS []).dev kE.row kE.rows (folioOf kE.row) [] none = none := by decide +kernel

theorem witness_starts :
    (match ((kS [kStop]).dev.variant kReq false 0 77).res with | .ok u => u == 0 | .error _ => false) = true ∧
    (match ((kS []).dev.variant kReq true 0 77).res with | .ok u => u == 0 | .error _ => false) = true ∧
    (kS []).dev.holders 5 ((kS []).dev.variant kReq true 0 77).fo = [] ∧ (kS []).dev.load? 5 = none ∧ (kS [kStop]).dev.load? 5 = none ∧ (kS []).dev.ledgerFull = false ∧
    (lS (gS gSl)).dev.loaded gSl = true ∧ gSl.waiting = false ∧ (lS (gS gSl)).dev.loaded { gSl with key := 0 } = false := by decide +kernel

def qRec : Recording := { id := 2, slice := 5, key := 9, digest := 6, launchEc := 4000, running := true, records := [⟨4500, 1, 1, 2, 0, 0x1D5E658, [7, 8]⟩] }
def qS (dig : BitVec 384) (s : State) : State := fields [(⟨regAddr 12 0x18, 31, 31⟩, 1), (⟨regAddr 12 0x18, 27, 16⟩, 1)] (dev (fun d => { d with
  vault := { d.vault with lib := [{ lE with key := 9, digest := dig, depositing := false }] }, tel := { d.tel with recs := [qRec], replays := [(5, 2, 0)] } }) s)

theorem witness_recordings :
    (qS 6 (iS [])).dev.fld ⟨regAddr 12 0x18, 31, 31⟩ = 1 ∧ 
    (qS 6 (iS [])).dev.tel.recs.foldl (fun a r => a + r.bytes) 0 + 512 ≤ (qS 6 (iS [])).dev.recRows * 512 ∧ (qS 6 (iS [])).dev.rec? 3 = none ∧ (qS 6 (iS [])).dev.rec? 2 = some qRec ∧
    (qS 6 (iS [])).dev.tel.replays.find? (fun y => y.1 == 5) = some (5, 2, 0) ∧ qRec.records[0]?.isSome = true ∧ iSl.running = true ∧
    (qS 6 (iS [])).dev.sliceKey 5 = some (9, 6) ∧ (qS 7 (iS [])).dev.sliceKey 5 = some (9, 7) ∧
    (fields [(⟨regAddr 12 0x18, 31, 31⟩, 0)] (iS [])).dev.fld ⟨regAddr 12 0x18, 31, 31⟩ = 0 ∧ 4500 + iSl.launchEc - 4000 ≤ (iS []).dev.now := by decide +kernel

theorem witness_host_ports :
    (fS 0).dev.fld ⟨regAddr 12 0, 2, 2⟩ = 0 ∧ (fields [(⟨regAddr 12 0x14, 15, 8⟩, 0)] (fS 0)).dev.fld ⟨regAddr 12 0x14, 15, 8⟩ = 0 ∧
    1 ≤ (fS 0).dev.fld ⟨regAddr 12 0x14, 15, 8⟩ * 64 ∧ (fS 0).dev.fld (fLink 0) ≠ 2 ∧ (fS 0).dev.tries 0 3 = true ∧
    ((fS 0).dev.hport 0).attemptTick + 500000000 ≤ (fS 0).dev.time.ticks ∧ (fields [(fLink 0, 2)] (fS 0)).dev.fld (fLink 0) = 2 ∧
    (fields [(fLink 1, 2)] (fS 0)).dev.activePort = 0 ∧ ((fS 0).dev.hport 0).failed = false ∧
    (fields [(⟨regAddr 12 0xC, 31, 31⟩, 1), (⟨regAddr 12 0xC, 1, 1⟩, 1)] (fS 0)).dev.fld ⟨regAddr 12 0xC, 31, 31⟩ = 1 ∧
    (regs [(regAddr 12 0xC, 2), (regAddr 12 0x10, 99)] (fS 0)).dev.holds4 0 99 = true ∧
    (fields [(⟨regAddr 12 4, 7, 7⟩, 1)] (fS 0)).dev.fld ⟨regAddr 12 4, 7, 7⟩ = 1 ∧ bitAt 255 ((fS 0).dev.fld ⟨regAddr 12 8, 15, 13⟩) = true ∧
    ((fS 0).dev.hport 0).downTick + 10000000 ≤ (fS 0).dev.time.ticks ∧
    (dev (fun d => { d with time := { d.time with ticks := 999999999 } }) (fS 0)).dev.time.ticks < ((fS 0).dev.hport 0).v6Since + 1000000000 := by
  decide +kernel

/-- SEQ 2 comes before SEQ 1: it waits, and closes the session when SEQ 1 has come. -/
def oAhead : State := match exec (.sessionClose { lH with seq := 2 }) (oS lX) with | .next t => t | _ => oS lX
theorem witness_ahead :
    (oAhead.dev.session? 3).map (fun y => (y.ahead, y.cum, y.got)) = some ([(2, .cmd (.sessionClose { lH with seq := 2 }))], 0, [2]) ∧
    oAhead.dev.handing = false ∧ oAhead.dev.frameOk {} = true ∧
    (match exec (.tellerAck lH 0 0) oAhead with | .next t => t.dev.session? 3 | _ => some lX) = none := by decide +kernel

/-! ### Power and health (13, 14) -/

/-- Every generator locked, both blades in range, mode Schuss, no park, with slice 5. -/
def pS (p : PwrSt → PwrSt := id) (l : List (Fld × Nat) := []) : State :=
  fields ([(⟨regAddr 2 0, 7, 4⟩, 15), (⟨regAddr 2 0, 3, 2⟩, 0), (fMode, 0), (fPark, 0), (⟨regAddr 13 0, 5, 5⟩, 0), (⟨regAddr 13 0, 2, 2⟩, 0)] ++ l)
    (dev (fun d => { d with pwr := p { d.pwr with bladeA := true, bladeB := true } }) (fS 0))
def pStep (park : Nat) : StepRec := { ec := 5000, mode := 1, park, causes := 1 }
def hSl : Slice := { gSl with dueSeen := true, raises := [{ gOwn with cause := 8, causes := [8], resume := none, sendEc := none }] }
def hRep (relaunch : Bool) : Repair := { slice := 5, relaunch, rows := if relaunch then [] else [7], sites := if relaunch then [(0, 3)] else [], raiseEc := 4500, confirmed := true }
def hS (r : Repair) (sl : Slice := hSl) : State := fields [(fSite 0, 0xF)] (dev (fun d => { d with hlth := { d.hlth with repairs := [r], bad := [7] } }) (gS sl))
def hRewrite : State := dev (fun d => { d.setCore 0 { rewrite := some (mkGra 3 0 0 0) } with
  vault := { d.vault with lib := [{ lE with key := 9, data := [(0, 88)] }] } }) (gS gSl)

theorem witness_steps :
    (pS (fun p => { p with steps := [pStep 0] })).dev.pwr.steps = [pStep 0] ∧ (pStep 0).ec ≤ (pS).dev.now ∧ (pS).dev.locked 1 = true ∧
    (pS).dev.failed = false ∧ (pStep 0).park = (pS).dev.fld fPark ∧
    (pS (fun p => { p with rising := some (0, 0, 1, 1999990000) })).dev.pwr.rising = some (0, 0, 1, 1999990000) := by decide +kernel

theorem witness_loops_of_power :
    (pS).dev.paused = false ∧ (pS).dev.pwr.samples = [] ∧ (pS).dev.pwr.powerFired = none ∧ 0 < (pS).dev.time.ticks ∧
    (pS).dev.powerCap < 30000 + 30000 ∧ (fields [(⟨regAddr 13 0, 5, 5⟩, 1)] pS).dev.paused = true ∧
    105 ≤ (([105, 3] : List Nat).take 24).foldl max 0 := by decide +kernel

theorem witness_power_faults :
    (pS).dev.bladeOk .a = true ∧ (pS).dev.bladeOk .b = true ∧ (pS (fun p => { p with bladeB := false })).dev.bladeOk .b = false ∧
    (pS).dev.pins.pwrok = true ∧ (pS).dev.mode = 0 ∧ (pS).dev.fld ⟨regAddr 13 0, 2, 2⟩ = 0 ∧
    (∀ g ∈ [Generator.schuss, .carve, .glide, .ring], (pS).dev.fld ⟨regAddr 2 0, genBit g, genBit g⟩ = 1) ∧
    (fields [(⟨regAddr 2 0, 4, 4⟩, 0)] pS).dev.fld ⟨regAddr 2 0, genBit .schuss, genBit .schuss⟩ = 0 := by decide +kernel

theorem witness_repairs :
    0 ≤ (hS (hRep false)).dev.fld ⟨regAddr 14 4, 7, 0⟩ * 10 ∧ (hS (hRep false)).dev.fld (fSite 0) = 0xF ∧
    (hS (hRep false)).dev.fld ⟨regAddr 14 4, 7, 0⟩ * 10 < 65000 ∧ (dev (fun d => { d with slices := [] }) (hS (hRep false))).dev.unitHeld 0 = none ∧
    (hS (hRep false)).dev.spareLeft 7 = true ∧ hSl.repairStop = true ∧ (hS (hRep true)).dev.repair? 5 = some (hRep true) ∧
    gReady.launchAt = some 5000 ∧ (gS gReady).dev.repair? 5 = none ∧ (gS gSl).dev.hlth.repairs = [] ∧ (hRewrite.dev.core 0).rewrite = some (mkGra 3 0 0 0) ∧ memWf hRewrite.mem = true ∧
    (hRewrite.dev.entry? 9).isSome = true ∧ (gFo.cores.find? (fun x => x.core == 0)).isSome = true ∧ graRow (mkGra 3 0 0 0) < 0x200 := by
  decide +kernel

theorem witness_management_cores :
    (pS).dev.fld ⟨regAddr 14 0, 8, 8⟩ = 1 ∧ (pS).dev.sec.handover = none ∧ (pS).dev.hlth.mcSpare = some 2 ∧
    (pS).dev.fld ⟨regAddr 14 0, 10, 8⟩ ≠ 2 ^ 0 ∧ (fields [(⟨regAddr 14 0, 10, 8⟩, 1)] pS).dev.fld ⟨regAddr 14 0, 10, 8⟩ = 2 ^ 0 ∧
    (dev (fun d => { d with hlth := { d.hlth with takeover := true } }) pS).dev.handing = false := by decide +kernel
theorem witness_open_window :
    (dev (fun d => { d with slices := [], hlth := { d.hlth with rowsPending := [7] } }) (hS (hRep false))).dev.hlth.rowsPending.find? (fun g =>
      (dev (fun d => { d with slices := [], hlth := { d.hlth with rowsPending := [7] } }) (hS (hRep false))).dev.windowOpen g (graCluster g)) = some 7 ∧
    (hS (hRep false)).dev.repair? 5 = some (hRep false) ∧ (hRep false).rows ≠ [] ∧ (hRep true).rows = [] ∧ (hRep true).tested = false ∧
    (hRep true).sites = [(0, 3)] ∧ gSl.armed = true ∧ gSl.dueSeen = false ∧ hSl.armed = true ∧
    (pS (fun p => { p with rising := some (0, 0, 1, 1999990000) })).dev.railsSettled = true ∧ (pS).dev.pwr.steps = [] ∧
    (pS).dev.modeAt ((pS).dev.now + 1000) = 0 ∧ ({ (pS).dev.pwr with waking := some 5 } : PwrSt).waking = some 5 ∧
    (∀ x ∈ (pS).dev.tel.sessions, ∀ a ∈ x.ahead, x.cum < a.1) := by decide +kernel

/-! ### Management registers and commits (16) -/

def mI : Session := { lX with role := 2 }
/-- The time at which the commits of these tests fall due. -/
def mNow : Nat := (oS mI).dev.now
def mC (block : Nat) (sh : List (Nat × Word)) : Armed := { block, role := 2, target := mNow, shadow := sh, actor := 7 }
def mS (l : List Armed) : State := dev (fun d => { d with mg := { d.mg with armed := l }, slices := [] }) (oS mI)

theorem witness_accesses :
    (oS mI).dev.session? 3 = some mI ∧ mI.open_ = true ∧ bitAt roleAll 2 = true ∧ (oS mI).dev.handing = false ∧
    (oS mI).dev.readCode (sessionActor mI) 2 (regOffs 0 2) = 0 ∧ regRow 2 0x40 = none ∧ regRow 2 2 = none ∧
    (regRow 2 0).isSome = true ∧ (oS lX).dev.may (sessionActor lX) 2 4 5 = false ∧ (oS mI).dev.may (sessionActor mI) 2 4 5 = true ∧
    (oS mI).dev.may (sessionActor mI) 2 0 5 = true ∧ roWrite 2 0 5 = true := by decide +kernel

theorem witness_writes :
    (oS mI).dev.mgmtWriteCode (sessionActor mI) 2 0 [(4, 5)] = 0 ∧ (regRow 2 4).map (fun r => r.cw) = some 0xFF ∧
    (oS mI).dev.mgmtWriteCode (sessionActor mI) 2 0 [(8, 1)] = 0 ∧ (regRow 2 8).map (fun r => (r.cw, r.w1c)) = some (0, 7) ∧
    (oS mI).dev.mgmtWriteCode (sessionActor mI) 15 0 [(0x1C, 9)] = 0 ∧
    (regRow 15 0x1C).map (fun r => (r.cw, r.w1c, r.rw)) = some (0, 0, 0xFFFFFFFF) := by decide +kernel

theorem witness_commits_armed :
    (∀ t ∈ [0, mNow + 10000, mNow + 60000000000],
      (oS mI).dev.writeCode (sessionActor mI) 2 0 [(0xF00, t % 2 ^ 32), (0xF04, t / 2 ^ 32)] = 0) ∧
    (∀ t ∈ [mNow + 9999, mNow + 60000000001],
      (oS mI).dev.writeCode (sessionActor mI) 2 0 [(0xF00, t % 2 ^ 32), (0xF04, t / 2 ^ 32)] = 0x0013) ∧
    blockRegs 2 ≠ [] ∧ mI.claimant = false ∧ (oS mI).dev.sec.warm = none ∧ (mS [mC 2 []]).dev.hasArmed 2 2 = true := by decide +kernel

theorem witness_commits_run :
    (∀ c ∈ [mC 2 [(4, 11)], mC 2 [(4, 1)], mC 9 [(8, 0)], mC 1 [(8, 0x2710FF08), (0x10, 7)], mC 15 [(8, 0x70000000)], mC 15 [(4, 0x40000000)],
      mC 13 [], mC 12 []], (mS [c]).dev.nextCommit = some c) ∧
    blockRules (mS [mC 2 [(4, 11)]]).dev ((mS [mC 2 [(4, 11)]]).dev.overlay 2 [(4, 11)]) [(4, 11)] (mC 2 [(4, 11)]) false = 0x0220 ∧
    (∀ c ∈ [mC 2 [(4, 1)], mC 9 [], mC 1 [(8, 0x2710FF08), (0x10, 7)], mC 15 [(8, 0x70000000)], mC 15 [(4, 0x40000000)],
      mC 13 [], mC 12 []], blockRules (mS [c]).dev ((mS [c]).dev.overlay c.block c.shadow) c.shadow c false = 0) ∧
    (mS []).dev.ledgerFull = false ∧ bitAt ((mS []).dev.inForce (mC 1 [(8, 0x2710FF08)]) 8) 3 = true := by decide +kernel

/-- A commit of FAB with every port enabled and no slot of a port written, at a multiple of 1,280. -/
def mF : Armed := { mC 8 [] with target := 1280 }
def mFab : State := regs ((regAddr 8 8, 0xFFF) :: (List.range 12).map (fun p => (txAddr p 0 0, 2 ^ 31 + 2 * 2 ^ 29 + 9 * 2 ^ 12 + 1))) (mS [mF])
theorem witness_fab_commit :
    (dev (fun d => { d with time := { d.time with ec := 5000 } }) mFab).dev.nextCommit = some mF ∧
    blockRules mFab.dev (mFab.dev.overlay 8 []) [] mF false = 0 ∧ (∀ p, p < 12 → mFab.dev.portEn p = true) ∧
    (∀ p, p < 12 → (mFab.dev.port p).signal = false) ∧
    blockRules (regs [(regAddr 8 8, 0xFFE)] mFab).dev ((regs [(regAddr 8 8, 0xFFE)] mFab).dev.overlay 8 []) [] mF false = 0 ∧
    ((regs [(regAddr 8 8, 0xFFE)] mFab).dev.overlay 8 []).portEn 0 = false ∧ ((regs [(regAddr 8 8, 0xFFE)] mFab).dev.overlay 8 []).pstate 0 = 0 := by
  decide +kernel

/-! ### Staging, handover, debug, reports and orders (15) -/

def nM : Session := { lX with role := 3 }
/-- The shortest firmware image: IMAGE_BYTES 128, with a signature of the maker root. -/
def nFw (svn : Nat) (sig : SigBytes) : List (Nat × Byte) :=
  ((toLe 4 0x58594441 ++ toLe 4 0 ++ toLe 4 svn ++ toLe 4 128 ++ toLe 112 0 ++ toLe 48 kDig.toNat ++ toLe 96 sig.toNat ++
    toLe 16 0).zipIdx.map (fun x => (x.2, BitVec.ofNat 8 x.1)))
/-- The signature of the image with SVN 3, and that of a debug response with SCOPE 2 that expires a day after reset. -/
def nSig : SigBytes :=
  0x3daf2b3c19da146e735bb07b7e15184223b42de508e13e865b8d06a5e557ce5cf4428c19bcd093e8d55a7065f4f19e4ab70a7672385e543a6c2955bf5df20255382a5482e041f759989ba78b623b1d6e74ad20f31ec7b18e37058bbe22ca87aa
def nDbg : DebugSig := ⟨kKey,
  0x3047f3b7753cc6e9fbc652565c507e175a3cfebe42adfea5771209c7f1f6f96450a00507eac2392d6af1989fbfc8cc42b70a7672385e543a6c2955bf5df20255382a5482e041f759989ba78b623b1d6e74ad20f31ec7b18e37058bbe22ca87aa⟩
def nF : FwImage := fwOf kDig (nFw 3 nSig) kKey
def nCfg (seq : BitVec 64) : CfgImage := {
  seq, anchor := 9, digest := 1, planId := 0, dims := (1, 1, 1), plan := [], slots := [], routes := [], regs := [], opKeys := [4],
  revoked := [6], saks := [], transfer := none, ok := true }
def nS (f : SecSt → SecSt) (l : List (Fld × Nat) := []) : State :=
  fields l (dev (fun d => { d with sec := f d.sec, slices := [] }) (oS nM))
def nH (phase : Nat) (ready : Bool) (h : Nat) : Handover := { h, phase, image := nF, core := 2, old := none, ready }
def nHS (x : Handover) : State := nS (fun y => { y with handover := some x })

theorem witness_images :
    nF.ok = true ∧ nF.svn = 3 ∧ (fwOf kDig (nFw 2 nSig) kKey).ok = false ∧ (fwOf 0 (nFw 3 nSig) kKey).ok = false ∧
    (nS (fun x => { x with verify := some 1, stageFw := nFw 3 nSig })).dev.sec.verify = some 1 ∧
    (nS (fun x => { x with svn := 4 })).dev.sec.svn.toNat > nF.svn.toNat ∧ (nS id).dev.pins.vnvm = true ∧
    (nS id [(fTarget, 1)]).dev.writeCode (sessionActor nM) 15 0 (regPairs 0x1000 [1, 2]) = 0 ∧ (nS id).dev.ledgerFull = false ∧
    bitAt roleAll nM.role = true ∧ (nS id).dev.handing = false := by decide +kernel

theorem witness_activations :
    (nS (fun x => { x with activate := some (99, 2), stagedCfg := some (nCfg 5), owners := [9] })).dev.sec.owners ≠ [] ∧
    (nS id).dev.sec.owners = [] ∧ (nS id).dev.now < 1000000 ∧ (nS id).dev.hlth.takeover = false ∧
    (nS id).dev.hlth.mcSpare = some 2 ∧ (nS id).dev.sec.handover = none := by decide +kernel

theorem witness_handovers :
    (nHS (nH 1 false 9000)).dev.now + 100000000 ≥ 9000 ∧ (nHS (nH 1 true 0)).dev.hlth.takeoverWaits = false ∧
    (nHS (nH 1 true 0)).dev.now ≥ 0 ∧ (nHS (nH 1 true 0)).dev.mg.armed = [] ∧ (nHS (nH 3 true 0)).dev.now < 0 + 1000000000 ∧
    (dev (fun d => { d with time := { d.time with ec := 1000000000 } }) (nHS (nH 3 true 0))).dev.now = 0 + 1000000000 := by decide +kernel

theorem witness_debug :
    (nS (fun y => { y with makerRoot := kDig }) [(⟨regAddr 15 4, 31, 31⟩, 1)]).dev.debugCode 2 0 86400000000000 nDbg = 0 ∧
    (nS id).dev.debugCode 0 0 0 nDbg = 0 ∧ (nS id).dev.debugCode 4 0 0 nDbg = 0x0F20 ∧
    (nS id).dev.debugCode 2 0 86400000000000 nDbg = 0x0F50 ∧
    (nS id).dev.writeCode (sessionActor nM) 15 0 [(0x216C, 0)] = 0 ∧ (nS id).dev.pins.rails = true ∧
    (nS id [(fScope, 3)]).dev.fld fScope = 3 ∧ (nS id).dev.sec.expiry ≤ (nS id).dev.now := by decide +kernel

theorem witness_orders :
    (nS id).dev.writeCode (sessionActor nM) 15 0 [(0x200, 5)] = 0 ∧ (nS id).dev.writeCode (sessionActor nM) 15 0 [(0x22C, 5)] = 0 ∧
    (nS id).dev.writeCode (sessionActor nM) 15 0 [(0x18, 0x12)] = 0 ∧
    (nS id).dev.fld (fSite 1) ≠ 2 ∧ (nS id).dev.fld (fSite 1) ≠ 0xE ∧ graValid (mkGra 0 3 0 7) = true ∧ graSpace (mkGra 0 3 0 7) = 0 ∧
    (nS id [(fPortState 2, 4)]).dev.laneSound 2 4 = true ∧ (nS id).dev.vault.lost = [] ∧ (nS id).dev.fld (fStackState 0) ≠ 3 ∧
    0 < (nS id [(fStackSpares 0, 1)]).dev.fld (fStackSpares 0) := by decide +kernel

/-! ### Power, boot, resets, JTAG, PMBus (15, 16, 17) -/

def bS : State := dev (fun d => { d with pins := { d.pins with pwrok := false } }) base
def bF : FwImage := { version := 7, svn := 3, tellerMin := 1, tellerMax := 1, folioMin := 1, folioMax := 2, tkMin := 0, tkMax := 9, linkver := 1, digest := 0, ok := true }
def bP : Provision := { serial := 5, makerRoot := 0, owners := [], svn := 2, mac := 1, siteMap := [], activeFw := false, activeCfg := false, fw0 := some bF, fw1 := none, cfg0 := none, cfg1 := none }
def bPc : Provision := { bP with cfg0 := some (nCfg 5), owners := [9] }
def bE (p : Option Provision) : BootEnv := ⟨1, 2, 3, 0, true, true, p, true, 7, 0xFFF, false, [], [], 15, none⟩
def bOff : State := dev (fun d => { d with pins := { d.pins with standby := false, slot := none, rails := false, converters := false } }) base
def bUp : State := fields [(fBoot, 1)] base
def bWarm : State := dev (fun d => { d with sec := { d.sec with warm := some 0 }, time := { d.time with ticks := 100000 } }) bUp

theorem witness_power_up :
    bOff.dev.pins.standby = false ∧ (base.dev.pwr.bladeA || base.dev.pwr.bladeB) = true ∧ base.dev.pins.rails = true ∧ bS.atPowerUp = true ∧ base.dev.pins.resetN = true ∧ base.dev.fld ⟨regAddr 14 0, 10, 8⟩ ≠ 0 ∧
    (nCfg 5).ok = true ∧ bF.ok = true ∧ bP.svn.toNat ≤ bF.svn.toNat ∧ base.dev.sec.lastSeq.toNat ≤ (nCfg 5).seq.toNat ∧
    base.dev.sec.holdBoot = none ∧ bUp.dev.bootState = 1 ∧ bUp.dev.sec.warm = none ∧ bWarm.dev.sec.warm = some 0 ∧
    0 + 100000 ≤ bWarm.dev.time.ticks ∧ bWarm.dev.pins.resetN = true := by decide +kernel

/-- An access of MGMT_ACC by its fields. -/
def jDr (op commit blk off v : Nat) : BitVec 96 := BitVec.ofNat 96 (op <<< 95 + commit <<< 94 + off <<< 72 + blk <<< 64 + v)
def jS : State := fields [(fScope, 2)] (nS id)
def j3 : State := regs [(regAddr 10 4, mkGra 0 3 0 7), (regAddr 10 0x404, 5)] (fields [(fScope, 3)] (nS id))

theorem witness_jtag :
    jS.dev.pins.rails = true ∧ jS.dev.readCode jtagActor 2 [4] = 0 ∧ jS.dev.readCode jtagActor 2 [0x40] = 0x0011 ∧
    (nS id).dev.readCode jtagActor 2 [4] = 0x0016 ∧ jS.dev.mgmtWriteCode jtagActor 2 0 [(4, 5)] = 0 ∧
    jS.dev.mgmtWriteCode jtagActor 15 0 [(0x1C, 5)] = 0 ∧ (nS id).dev.mgmtWriteCode jtagActor 2 0 [(4, 5)] = 0x0016 ∧
    jS.dev.writeCode jtagActor 2 0 [(0xF00, 0), (0xF04, 0)] = 0 ∧ jS.dev.ledgerFull = false ∧ memWf j3.mem = true ∧
    j3.dev.mgmtWriteCode jtagActor 10 0 [(8, 1)] = 0 := by decide +kernel

/-- The standby domain at a page, with blade A at 48 V and 1,200 W. -/
def pP (p : BitVec 8) : State :=
  regs [(regAddr 13 0x18, 48000)] (dev (fun d => { d with pwr := { d.pwr with wattsA := 1200 }, pins := { d.pins with page := p, slot := some 2 } }) base)
theorem witness_pmbus :
    (∀ p ∈ [0, 1, 0xFF], (pP p).dev.pmOn = true) ∧ (pP 0).dev.bladeMv ≠ 0 ∧ 48000 < 1023 * 2 ^ 15 * 1000 ∧
    (pP 0).dev.bladeW * 1000 < 1023 * 2 ^ 15 * (pP 0).dev.bladeMv := by decide +kernel

/-! ### Steps and memory (00, 06) -/

theorem witness_general :
    ({ base with pending := [.ecTick] } : State).pending = .ecTick :: [] ∧ memWf base.mem = true ∧ memWf (dRing 2 cQuiet).mem = true ∧
    (dRing 2 cQuiet).mem ≠ [] ∧ base.goes { base with pending := [] } ∧ base.dev.anyLaunched = false := by
  refine ⟨rfl, by decide +kernel, by decide +kernel, by decide +kernel, ?_, by decide +kernel⟩
  rfl

/-- A PUBLISH of ring 0 that every write it covers has passed. -/
def gRel : State := dRing 2 (wCore { cRegs with relQ := [.publish 0 0] })
theorem witness_publish_retires :
    gRel.dev.core 0 = { cRegs with relQ := [.publish 0 0] } ∧ memWf gRel.mem = true ∧ settled (gRel.dev.core 0) 0xF 0 = true ∧
    ringOcc (ringDesc gRel 0 0) ≠ ringSlots (ringDesc gRel 0 0) := by decide +kernel

/-! ### Ill-formed commands are refused, one for each check of WellFormed -/

def wWord (n : Nat) : CtrlWord := BitVec.ofNat 128 (n * 2 ^ 124)
theorem test_ill_formed :
    ∀ i ∈ ([.laneErrorCheck 0 0 3 ⟨2, 0⟩, .timeWord 0 (wWord 2) 0 0, .holdWord 0 (wWord 1), .ackWord 0 (wWord 2), .laneControlWord 0 (wWord 3),
      .creditWord 0 (wWord 4), .discoveryWord 0 (wWord 6) (wWord 5) (wWord 6), .scrubComplete 5 [BitVec.ofNat 32 (72 * 2 ^ 23)],
      .hostLinkUp 0 4, .thermalSample [] [], .ageingCheck 0 [] 0, .spareTest 0 true [BitVec.ofNat 32 (2 ^ 23)],
      .coldReset { bE none with failingSites := [9] }, .stageWinWrite lH 0x1000 [], .stageWinWrite lH 0x0FFC [1],
      .stageWinWrite lH 0x13FC [1, 2], .stageWinWrite lH 0x1002 [1], .attNonceWrite lH 0 [], .attNonceWrite lH 11 [1, 2]] : List Instr),
    i.wellFormed = false := by decide +kernel

theorem test_well_formed :
    ∀ i ∈ ([.laneErrorCheck 0 0 2 ⟨2, 0⟩, .timeWord 0 (wWord 1) 0 0, .discoveryWord 0 (wWord 6) (wWord 6) (wWord 6), .hostLinkUp 0 3,
      .spareTest 1 true [BitVec.ofNat 32 (2 ^ 23)], .coldReset (bE none), .stageWinWrite lH 0x13FC [1], .attNonceWrite lH 11 [1]] : List Instr),
    i.wellFormed = true := by decide +kernel

/-! ### Values that the spec writes out -/

/-- 4,150 W is the LINEAR11 word 0x1A07 (17 section 7). -/
theorem test_linear11 : linear11 4150 1 false = 0x1A07 ∧ linear11 4150 1 true = 0x1A07 := by decide +kernel

/-- The IDCODE of the device is 0x24E0_678B (16 Table 16.12). -/
theorem test_idcode :
    (match exec .jtagIdcode base with | .next t => t.dev.sec.tdo == [0x8B, 0x67, 0xE0, 0x24] | _ => false) = true := by decide +kernel

/-- No row of the table gives bits. -/
theorem test_no_words : decodeTableWord 8 0 = none ∧ base.withFetchWord 8 0 = base := ⟨rfl, rfl⟩

/-- CRC32C of the nine digits is 0xE3069283, as published for this polynomial. -/
theorem test_crc32c : crc32c [0x31, 0x32, 0x33, 0x34, 0x35, 0x36, 0x37, 0x38, 0x39] = 0xE3069283 := by decide +kernel

/-- ADD wraps modulo 2⁶⁴ (04 R132). -/
theorem test_sx_add_wraps :
    (match exec (.sxAdd 0 { sxF with a := 2, b := 1 }) cQuiet with
      | .next t => (t.dev.core 0).sreg 3 == 6 | _ => false) = true := by decide +kernel

/-! ### Known answers of the standards (log entry 13) -/

/-- SHA-384 of "abc" (FIPS 180-4). -/
theorem test_sha384 : beNat (sha384Bytes [0x61, 0x62, 0x63]) =
    0xcb00753f45a35e8bb5a03d699ac65007272c32ab0eded1631a8b605a43ff5bed8086072ba1e7cc2358baeca134c825a7 := by decide +kernel

/-- AES-256-GCM of a block of zeros under a key and a nonce of zeros (test case 14 of GCM). -/
theorem test_gcm : gcmSeal (toLe 32 0) (toLe 12 0) [] (toLe 16 0) =
    (toBe 16 0xcea7403d4d606b6e074ec5d3baf39d18, toBe 16 0xd0d1c8a799996bf0265b98b5d48ab919) := by decide +kernel

/-- ECDSA on P-384 with SHA-384 over "sample" (RFC 6979 A.2.6). -/
theorem test_ecdsa : ecdsaOk (4 ::
      (toBe 48 0xEC3A4E415B4E19A4568618029F427FA5DA9A8BC4AE92E02E06AAE5286B300C64DEF8F0EA9055866064A254515480BC13 ++
       toBe 48 0x8015D9B72D7D57244EA8EF9AC0C621896708A59367F9DFB9F54CA84B3F1C9DB1288B231C3AE0D4FE7344FD2533264720))
    [0x73, 0x61, 0x6d, 0x70, 0x6c, 0x65]
    0x94EDBB92A5ECB8AAD4736E56C691916B3F88140666CE9FA73D64C4EA95AD133C81A648152E44ACF96E36DD1E80FABE46
    0x99EF4AEB15F178CEA1FE40DB2603138F130E740A19624526203B6351D0A3A94FA329C145786E679E7B82C71A38628AC8 = true := by decide +kernel

/-- HKDF over SHA-384 expands by blocks of 48 bytes, each chained to the one before (RFC 5869). -/
theorem test_hkdf : (hkdfExpand [1] [2] 88).length = 88 ∧ (hkdfExpand [1] [2] 88).take 48 = hmac384 [1] [2, 1] := by decide +kernel

end Sys2Proof.Tests
end

section
/-! SUPPORT. A command that only changes the device; what an update of one part of the device leaves. -/

namespace Sys2Proof.Machine

/-- A command that completes with the device changed by `f` acts as a statement about `f` says. -/
theorem Acts.of_onDev {c : Instr} {s : State} {p : Dev → Prop} (f : Dev → Dev) (h : exec c s = ok (s.onDev f)) (hp : p (f s.dev)) :
    Acts c s p := ⟨f s.dev, h, hp⟩

theorem KeepsRegs.of_regs_eq {d e : Dev} (l : List Nat) (h : e.regs = d.regs) : KeepsRegs l d e := fun a _ => by
  simp only [Dev.reg, h]

theorem Dev.keeps_setTime {l : List Component} (d : Dev) (t : TimeSt) (h : .time ∈ l) : Keeps l d { d with time := t } :=
  fun p hp => by cases p <;> first | rfl | exact absurd h hp | exact ⟨rfl, rfl, rfl⟩

theorem Dev.keepsRegs_setTime (l : List Nat) (d : Dev) (t : TimeSt) : KeepsRegs l d { d with time := t } := KeepsRegs.of_regs_eq l rfl

theorem Dev.keeps_setNet {l : List Component} (d : Dev) (n : NetSt) (h : .net ∈ l) : Keeps l d { d with net := n } :=
  fun p hp => by cases p <;> first | rfl | exact absurd h hp | exact ⟨rfl, rfl, rfl⟩

theorem Dev.keeps_setFab {l : List Component} (d : Dev) (f : FabSt) (h : .fab ∈ l) : Keeps l d { d with fab := f } :=
  fun p hp => by cases p <;> first | rfl | exact absurd h hp | exact ⟨rfl, rfl, rfl⟩

theorem Dev.keeps_updPort {l : List Component} (d : Dev) (p : Nat) (f : PortSt → PortSt) (h : .fab ∈ l) : Keeps l d (d.updPort p f) :=
  d.keeps_setFab _ h

end Sys2Proof.Machine
end

section
/-! The tick (01 R14). -/

namespace Sys2Proof.Machine

/-- A control slot moves its port alone (08 R281). -/
theorem Dev.ctrlSlot_eq (d : Dev) (p : Nat) : ∃ f, d.ctrlSlot p = { d with fab := f } := by
  unfold Dev.ctrlSlot
  dsimp only
  split
  · exact ⟨_, rfl⟩
  · split
    · exact ⟨_, rfl⟩
    · exact ⟨d.fab, rfl⟩

/-- The control slots of any ports move the ports alone. -/
theorem Dev.foldl_ctrlSlot_eq (l : List Nat) (d : Dev) : ∃ f, l.foldl Dev.ctrlSlot d = { d with fab := f } := by
  induction l generalizing d with
  | nil => exact ⟨d.fab, rfl⟩
  | cons p l ih =>
    obtain ⟨f, hf⟩ := d.ctrlSlot_eq p
    obtain ⟨g, hg⟩ := ih { d with fab := f }
    exact ⟨g, by rw [List.foldl_cons, hf, hg]⟩

/-- A rewrite of the express route tables moves the mesh alone (07 R248). -/
theorem Dev.rewriteRoutes_eq (d : Dev) : d.rewriteRoutes = { d with net := d.rewriteRoutes.net } := by
  unfold Dev.rewriteRoutes
  split
  · split <;> rfl
  · rfl

/-- The device in the next tick, before its control slots. -/
def Dev.ticked (d : Dev) : Dev :=
  ({ d with time := { d.time with ec := d.time.ec + 1, ticks := d.time.ticks + 1 } } : Dev).rewriteRoutes

theorem Dev.ticked_eq (d : Dev) :
    d.ticked = { d with time := { d.time with ec := d.time.ec + 1, ticks := d.time.ticks + 1 }, net := d.ticked.net } :=
  Dev.rewriteRoutes_eq _

/-- Without a rewrite to come the mesh stays. -/
theorem Dev.ticked_net_none {d : Dev} (h : d.net.rewriteAt = none) : d.ticked.net = d.net := by
  simp [Dev.ticked, Dev.rewriteRoutes, h]

/-- A rewrite that is due leads round the failed routers (07 R248). -/
theorem Dev.ticked_net_some {d : Dev} {t : Nat} (h : d.net.rewriteAt = some t) :
    d.ticked.net = if t ≤ d.time.ticks + 1 then { d.net with rewriteAt := none, around := d.failedRouters } else d.net := by
  simp only [Dev.ticked, Dev.rewriteRoutes, h]
  split <;> rfl

/-- A tick: the ports move in one EC of eight. -/
theorem exec_ecTick (s : State) : ∃ f, exec .ecTick s = .next { s with dev := { s.dev.ticked with fab := f } } ∧
    ((s.dev.time.ec + 1).toNat % 8 ≠ 7 → f = s.dev.fab) := by
  have hnow : s.dev.ticked.now = (s.dev.time.ec + 1).toNat := by rw [Dev.ticked_eq]; rfl
  by_cases h : s.dev.ticked.now % 8 = 7
  · obtain ⟨f, hf⟩ := Dev.foldl_ctrlSlot_eq (List.range 12) s.dev.ticked
    refine ⟨f, ?_, fun hn => absurd (hnow ▸ h) hn⟩
    show ok (s.onDev _) = _
    rw [← hf]
    exact congrArg (fun d => (.next { s with dev := d } : Res)) (if_pos h)
  · refine ⟨s.dev.fab, ?_, fun _ => rfl⟩
    have hfab : s.dev.ticked = { s.dev.ticked with fab := s.dev.fab } := by rw [Dev.ticked_eq]
    rw [← hfab]
    exact congrArg (fun d => (.next { s with dev := d } : Res)) (if_neg h)

/-- Settles O6: a tick is the rewrite of the route tables that is due and, in one EC of eight, the ports' control slots. -/
theorem tickAdvancesEc : Obligations.TickAdvancesEc := by
  intro s
  obtain ⟨f, hf, hfab⟩ := exec_ecTick s
  refine ⟨_, hf, ?_⟩
  have hd : { s.dev.ticked with fab := f } =
      { s.dev with time := { s.dev.time with ec := s.dev.time.ec + 1, ticks := s.dev.time.ticks + 1 }, net := s.dev.ticked.net, fab := f } := by
    rw [Dev.ticked_eq]
  rw [hd]
  refine ⟨rfl, ?_, KeepsRegs.of_regs_eq _ rfl, hfab, Dev.ticked_net_none, fun t ht => Dev.ticked_net_some ht⟩
  exact (((s.dev.keeps_setTime _ (by decide)).trans (Dev.keeps_setNet _ _ (by decide))).trans (Dev.keeps_setFab _ _ (by decide)))

end Sys2Proof.Machine
end

section
/-! The machine as PWROK rises (01 R18, 16 R475). -/

namespace Sys2Proof.Machine

theorem State.reset_reg (a : Nat) : State.reset.dev.reg a = (regReset a).toNat := rfl

theorem State.reset_pstate : ∀ p, p < 12 → State.reset.dev.pstate p = 0 := by decide

/-- Every cluster is free and its sites carry their reset value (02 Table 2.13). -/
theorem State.reset_cluster : ∀ c, c < 72 → State.reset.dev.fld (fSite c) = 0xF ∧ State.reset.dev.fld (fClState c) = 0 := by decide +kernel

/-- Settles O5: no register is listed at reset, so each reads its table's reset value. -/
theorem resetHoldsTheResetValues : Obligations.ResetHoldsTheResetValues :=
  ⟨rfl, rfl, rfl, fun _ => rfl, State.reset_reg, by decide, by decide, by decide, State.reset_pstate, State.reset_cluster, rfl, rfl, rfl, rfl⟩

end Sys2Proof.Machine
end

section
/-! SUPPORT. Registers after a choice of devices, after an event, and after an audit record. -/

namespace Sys2Proof.Machine

theorem Dev.fld_ite (c : Prop) [Decidable c] (d e : Dev) (f : Fld) : (if c then d else e).fld f = if c then d.fld f else e.fld f :=
  apply_ite (fun x : Dev => x.fld f) c d e

theorem Keeps.ite {l : List Component} {c : Prop} [Decidable c] {x d e : Dev} (hd : Keeps l x d) (he : Keeps l x e) :
    Keeps l x (if c then d else e) := by
  split <;> assumption

theorem KeepsRegs.ite {l : List Nat} {c : Prop} [Decidable c] {x d e : Dev} (hd : KeepsRegs l x d) (he : KeepsRegs l x e) :
    KeepsRegs l x (if c then d else e) := by
  split <;> assumption

/-- Registers that are kept keep their fields. -/
theorem KeepsRegs.fld {l : List Nat} {d e : Dev} (h : KeepsRegs l d e) {f : Fld} (hf : f.addr ∉ l) : e.fld f = d.fld f := by
  unfold Dev.fld
  rw [h f.addr hf]

/-- An event sets its bit of EVENTS. -/
theorem Dev.saw_event_same (d : Dev) (b bit : Nat) (args : List Nat) (hbit : bit < 32) (hreg : regAddr b (eventReg b).1 ≠ regAddr 12 0x74) :
    (d.event b bit args).saw b bit = true := by
  have hset : (d.put ⟨regAddr b (eventReg b).1, bit, bit⟩ 1).fld ⟨regAddr b (eventReg b).1, bit, bit⟩ = 1 := by
    rw [Dev.fld_put_same _ _ _ (Nat.le_refl _) hbit]
    simp
  have hlost : (d.event b bit args).fld ⟨regAddr b (eventReg b).1, bit, bit⟩ =
      (d.put ⟨regAddr b (eventReg b).1, bit, bit⟩ 1).fld ⟨regAddr b (eventReg b).1, bit, bit⟩ := by
    unfold Dev.fld Dev.event Dev.sendEvent Dev.sendMsg Dev.bump
    exact congrArg (fun n => bits n bit bit) (Dev.reg_setReg_other _ hreg)
  rw [Dev.saw, hlost, hset]
  rfl

/-- An EVENTS bit is as its register is. -/
theorem KeepsRegs.saw {l : List Nat} {d e : Dev} (h : KeepsRegs l d e) {b : Nat} (bit : Nat) (hb : regAddr b (eventReg b).1 ∉ l) :
    e.saw b bit = d.saw b bit := by
  unfold Dev.saw
  rw [h.fld hb]

end Sys2Proof.Machine
end

section
/-! References and distribution trees (01 R15 to R22). -/

namespace Sys2Proof.Machine

/-! ### EPOCH.STATUS -/

theorem Dev.fTime_put_same (d : Dev) {k : Nat} (v : Nat) (hk : k < 32) : (d.put (fTime k) v).fld (fTime k) = v % 2 := by
  rw [Dev.fld_put_same d (fTime k) v (Nat.le_refl k) hk]
  simp [fTime]

theorem Dev.fTime_put_ne (d : Dev) {j k : Nat} (v : Nat) (hj : j < 32) (h : j ≠ k) : (d.put (fTime k) v).fld (fTime j) = d.fld (fTime j) :=
  Dev.fld_put_apart d (fTime k) (fTime j) v (Nat.le_refl k) hj (.inr (by simp only [fTime]; omega))

@[simp] theorem Dev.fRefSel_put_fTime (d : Dev) (k v : Nat) : (d.put (fTime k) v).fld fRefSel = d.fld fRefSel :=
  Dev.fld_put_apart d (fTime k) fRefSel v (Nat.le_refl k) (by decide) (.inl (by simp [fTime, fRefSel, regAddr]))

@[simp] theorem Dev.fTime_event (d : Dev) (bit : Nat) (args : List Nat) (k : Nat) : (d.event 1 bit args).fld (fTime k) = d.fld (fTime k) :=
  Dev.fld_event d 1 bit args _ (by simp [fTime, regAddr, eventReg]) (by simp [fTime, regAddr])

@[simp] theorem Dev.fRefSel_event (d : Dev) (bit : Nat) (args : List Nat) : (d.event 1 bit args).fld fRefSel = d.fld fRefSel :=
  Dev.fld_event d 1 bit args _ (by decide) (by decide)

@[simp] theorem Dev.fTime_auditSelf (d : Dev) (kind : Nat) (args : List Nat) (k : Nat) : (d.auditSelf kind args).fld (fTime k) = d.fld (fTime k) :=
  Dev.fld_auditRaw d kind 0 0 0 _ _ (by simp [fTime, regAddr]) (by simp [fTime, regAddr]) (by simp [fTime, regAddr])

@[simp] theorem Dev.fRefSel_auditSelf (d : Dev) (kind : Nat) (args : List Nat) : (d.auditSelf kind args).fld fRefSel = d.fld fRefSel :=
  Dev.fld_auditRaw d kind 0 0 0 _ _ (by decide) (by decide) (by decide)

theorem Dev.saw_auditSelf (d : Dev) (kind : Nat) (args : List Nat) (bit : Nat) : (d.auditSelf kind args).saw 1 bit = d.saw 1 bit :=
  (Dev.keepsRegs_auditSelf (l := auditRegs) d kind args (fun _ h => h)).saw bit (by decide)

theorem Dev.fTime_lt (d : Dev) (k : Nat) : d.fld (fTime k) < 2 := by
  have h := Nat.mod_lt (d.reg (fTime k).addr >>> k) (Nat.two_pow_pos (k + 1 - k))
  simpa [Dev.fld, bits, fTime] using h

end Sys2Proof.Machine
end

section
/-! SUPPORT. The reference in use taken again (01 R15 to R17): what it sets, what it leaves. -/

namespace Sys2Proof.Machine

/-- The registers of a change of reference or tree: EPOCH.STATUS, the events, the record of a switch. -/
def switchRegs : List Nat := regAddr 1 0x18 :: (eventRegs 1 ++ auditRegs)

theorem Dev.keepsRegs_put_fTime (d : Dev) (k v : Nat) : KeepsRegs switchRegs d (d.put (fTime k) v) :=
  d.keepsRegs_put v List.mem_cons_self

theorem Dev.keepsRegs_switch (d : Dev) (k v bit : Nat) (args : List Nat) : KeepsRegs switchRegs d ((d.put (fTime k) v).event 1 bit args) :=
  (d.keepsRegs_put_fTime k v).trans (Dev.keepsRegs_event _ _ _ (by decide))

theorem Dev.keeps_switch (d : Dev) (k v bit : Nat) (args : List Nat) : Keeps [.sessions, .ledger] d ((d.put (fTime k) v).event 1 bit args) :=
  (d.keeps_put _ _ v).trans (Dev.keeps_event _ _ _ _ (by decide))

/-! ### The reference in use -/

theorem Dev.refEval_some {d : Dev} {returns : Bool} {r : Nat} (h : d.refPick returns = some r) :
    d.refEval returns =
      let d1 := d.put (fTime 9) 1
      let d2 := if d1.fld (fTime 3) = 1 then (d1.put (fTime 3) 0).event 1 2 [] else d1
      if d2.fld (fTime 2) = r then d2 else ((d2.put (fTime 2) r).event 1 0 []).auditSelf 15 [] := by
  simp only [Dev.refEval, h]

theorem Dev.refEval_none {d : Dev} {returns : Bool} (h : d.refPick returns = none) :
    d.refEval returns =
      let d1 := d.put (fTime 9) 0
      if d1.fld (fTime 3) = 1 then d1 else (d1.put (fTime 3) 1).event 1 1 [] := by
  simp only [Dev.refEval, h]

theorem Dev.keeps_refEval (d : Dev) (returns : Bool) : Keeps [.sessions, .ledger] d (d.refEval returns) := by
  have hput : ∀ v, Keeps [.sessions, .ledger] d (d.put (fTime 9) v) := d.keeps_put _ _
  cases h : d.refPick returns with
  | none =>
    rw [Dev.refEval_none h]
    exact Keeps.ite (hput 0) ((hput 0).trans (Dev.keeps_switch _ _ _ _ _))
  | some r =>
    rw [Dev.refEval_some h]
    have hlock := Keeps.ite (c := (d.put (fTime 9) 1).fld (fTime 3) = 1) ((hput 1).trans (Dev.keeps_switch _ 3 0 2 [])) (hput 1)
    exact Keeps.ite hlock ((hlock.trans (Dev.keeps_switch _ _ _ _ _)).trans (Dev.keeps_auditSelf _ _ _ (by decide) (by decide)))

theorem Dev.keepsRegs_refEval (d : Dev) (returns : Bool) : KeepsRegs switchRegs d (d.refEval returns) := by
  have hput : ∀ v, KeepsRegs switchRegs d (d.put (fTime 9) v) := d.keepsRegs_put_fTime 9
  cases h : d.refPick returns with
  | none =>
    rw [Dev.refEval_none h]
    exact KeepsRegs.ite (hput 0) ((hput 0).trans (Dev.keepsRegs_switch _ _ _ _ _))
  | some r =>
    rw [Dev.refEval_some h]
    have hlock := KeepsRegs.ite (c := (d.put (fTime 9) 1).fld (fTime 3) = 1) ((hput 1).trans (Dev.keepsRegs_switch _ 3 0 2 [])) (hput 1)
    exact KeepsRegs.ite hlock ((hlock.trans (Dev.keepsRegs_switch _ _ _ _ _)).trans (Dev.keepsRegs_auditSelf _ _ _ (by decide)))

@[simp] theorem Dev.refEval_time (d : Dev) (returns : Bool) : (d.refEval returns).time = d.time := d.keeps_refEval returns .time (by decide)

/-- The bits of EPOCH.STATUS that do not follow the reference in use stay. -/
theorem Dev.fTime_refEval (d : Dev) (returns : Bool) {k : Nat} (hk : k < 32) (h2 : k ≠ 2) (h3 : k ≠ 3) (h9 : k ≠ 9) :
    (d.refEval returns).fld (fTime k) = d.fld (fTime k) := by
  unfold Dev.refEval
  split <;>
    simp [Dev.fld_ite, Dev.fTime_put_ne _ _ hk h2, Dev.fTime_put_ne _ _ hk h3, Dev.fTime_put_ne _ _ hk h9]

theorem Dev.fRefSel_refEval (d : Dev) (returns : Bool) : (d.refEval returns).fld fRefSel = d.fld fRefSel :=
  (d.keepsRegs_refEval returns).fld (by decide)

/-- LOCKED says that a reference is taken. -/
theorem Dev.locked_refEval (d : Dev) (returns : Bool) : (d.refEval returns).fld (fTime 9) = b2n (d.refPick returns).isSome := by
  unfold Dev.refEval
  split <;> simp_all [Dev.fld_ite, Dev.fTime_put_ne, Dev.fTime_put_same, b2n]

/-- HOLDOVER says that none is. -/
theorem Dev.holdover_refEval (d : Dev) (returns : Bool) : (d.refEval returns).fld (fTime 3) = b2n (d.refPick returns).isNone := by
  have h3 := Dev.fTime_lt d 3
  unfold Dev.refEval
  split
  · simp_all [Dev.fld_ite, Dev.fTime_put_ne, Dev.fTime_put_same, b2n]
    omega
  · simp_all [Dev.fld_ite, Dev.fTime_put_ne, Dev.fTime_put_same, b2n]

/-- The reference taken is the one in use; a change of it is reported. -/
theorem Dev.active_refEval {d : Dev} {returns : Bool} {r : Nat} (h : d.refPick returns = some r) (hr : r < 2) :
    (d.refEval returns).fld (fTime 2) = r ∧ (d.fld (fTime 2) ≠ r → (d.refEval returns).saw 1 0 = true) := by
  rw [Dev.refEval_some h]
  have hpast : ∀ x : Dev, (if (x.put (fTime 9) 1).fld (fTime 3) = 1 then ((x.put (fTime 9) 1).put (fTime 3) 0).event 1 2 []
      else x.put (fTime 9) 1).fld (fTime 2) = x.fld (fTime 2) := fun x => by
    simp [Dev.fld_ite, Dev.fTime_put_ne]
  dsimp only
  by_cases hs : d.fld (fTime 2) = r
  · rw [if_pos ((hpast d).trans hs)]
    exact ⟨(hpast d).trans hs, fun hn => absurd hs hn⟩
  · rw [if_neg (fun hn => hs ((hpast d).symm.trans hn))]
    refine ⟨?_, fun _ => ?_⟩
    · rw [Dev.fTime_auditSelf, Dev.fTime_event, Dev.fTime_put_same _ _ (by decide)]
      exact Nat.mod_eq_of_lt hr
    · rw [Dev.saw_auditSelf]
      exact Dev.saw_event_same _ _ _ _ (by decide) (by decide)

/-- A reference is taken exactly when a selected one is valid (01 R15). -/
theorem Dev.refPick_isSome (d : Dev) (returns : Bool) : (d.refPick returns).isSome = refUsable d := by
  unfold Dev.refPick refUsable
  match d.fld fRefSel with
  | 0 => cases d.fld (fTime 0) == 1 <;> cases d.fld (fTime 1) == 1 <;> simp [apply_ite Option.isSome]
  | 1 => cases d.fld (fTime 0) == 1 <;> rfl
  | 2 => cases d.fld (fTime 1) == 1 <;> rfl
  | _ + 3 => rfl

/-- What is selected and valid is as the bits of EPOCH.STATUS and REF_SEL are. -/
theorem refUsable_refEval (d : Dev) (returns : Bool) : refUsable (d.refEval returns) = refUsable d := by
  simp [refUsable, Dev.fRefSel_refEval, Dev.fTime_refEval]

/-- HOLDOVER and LOCKED after the reference is taken again, by what is usable then. -/
theorem Dev.refEval_status (d : Dev) (returns : Bool) :
    (d.refEval returns).fld (fTime 3) = b2n (!refUsable (d.refEval returns)) ∧
    (d.refEval returns).fld (fTime 9) = b2n (refUsable (d.refEval returns)) := by
  rw [Dev.holdover_refEval, Dev.locked_refEval, refUsable_refEval, ← Dev.refPick_isSome d returns]
  simp

/-- In Auto, a REFA valid for 1 s is taken (01 R15). -/
theorem Dev.refPick_returns {d : Dev} (hsel : d.fld fRefSel = 0) (ha : d.fld (fTime 0) = 1) : d.refPick true = some 0 := by
  simp [Dev.refPick, hsel, ha]

/-! ### The active tree -/

/-- The regions move to a tree. -/
def Dev.treeTo (d : Dev) (t : Nat) : Dev := ((d.put (fTime 4) t).event 1 3 []).auditSelf 15 []

theorem Dev.keeps_treeTo (d : Dev) (t : Nat) : Keeps [.sessions, .ledger] d (d.treeTo t) :=
  (d.keeps_switch 4 t 3 []).trans (Dev.keeps_auditSelf _ _ _ (by decide) (by decide))

theorem Dev.keepsRegs_treeTo (d : Dev) (t : Nat) : KeepsRegs switchRegs d (d.treeTo t) :=
  (d.keepsRegs_switch 4 t 3 []).trans (Dev.keepsRegs_auditSelf _ _ _ (by decide))

theorem Dev.saw_treeTo (d : Dev) (t : Nat) : (d.treeTo t).saw 1 3 = true := by
  rw [Dev.treeTo, Dev.saw_auditSelf]
  exact Dev.saw_event_same _ _ _ _ (by decide) (by decide)

theorem Dev.fTime_treeTo (d : Dev) (t : Nat) {k : Nat} (hk : k < 32) :
    (d.treeTo t).fld (fTime k) = if k = 4 then t % 2 else d.fld (fTime k) := by
  by_cases h : k = 4
  · simp [Dev.treeTo, h, Dev.fTime_put_same]
  · simp [Dev.treeTo, h, Dev.fTime_put_ne _ _ hk h]

/-- A broadcast that finds the fault of the active tree marks it and moves the regions to the other (01 R20, R22). -/
theorem exec_ecBroadcast {s : State} (onB : Bool) (hdue : s.dev.now % 1024 = 0) (hA : s.dev.fld (fTime 5) = 1)
    (hB : s.dev.fld (fTime 6) = 1) (ht : s.dev.fld (fTime 4) = b2n onB) :
    exec (.ecBroadcast (!onB) onB) s = ok (s.onDev (fun d => (d.put (fTime (if onB then 6 else 5)) 0).treeTo (b2n (!onB)))) := by
  show execEcBroadcast _ _ s = _
  cases onB <;> simp [execEcBroadcast, State.onDev, hdue, Dev.fTime_put_ne, Dev.fTime_put_same, hA, hB, ht, b2n, Dev.treeTo]

end Sys2Proof.Machine
end
section
/-! O7. -/
namespace Sys2Proof.Machine

/-- A reference that becomes invalid (01 R15, R17). -/
theorem acts_referenceInvalid {s : State} {r : RefInput} (h : s.dev.fld (fTime (refBit r)) = 1) :
    Acts (.referenceInvalid r) s fun d =>
      d.fld (fTime (refBit r)) = 0 ∧ d.fld (fTime 3) = b2n (!refUsable d) ∧ d.fld (fTime 9) = b2n (refUsable d) ∧
      Keeps [.sessions, .ledger] s.dev d ∧ KeepsRegs switchRegs s.dev d := by
  refine Acts.of_onDev (fun d => (d.put (fTime (refBit r)) 0).refEval false) (congrArg ok (if_pos h)) ⟨?_, ?_, ?_, ?_, ?_⟩
  · rw [Dev.fTime_refEval] <;> cases r <;> simp [refBit, Dev.fTime_put_same]
  · exact (Dev.refEval_status _ _).1
  · exact (Dev.refEval_status _ _).2
  · exact (s.dev.keeps_put _ _ _).trans (Dev.keeps_refEval _ _)
  · exact (s.dev.keepsRegs_put_fTime _ _).trans (Dev.keepsRegs_refEval _ _)

/-- The valid bit of a reference set, and the tick from which REFA has been valid (01 R15). -/
def Dev.refMarked (d : Dev) (r : RefInput) : Dev :=
  let d := d.put (fTime (refBit r)) 1
  match r with | .a => { d with time := { d.time with refASince := d.time.ticks } } | .b => d

theorem Dev.refMarked_frame (d : Dev) (r : RefInput) :
    (d.refMarked r).time.ec = d.time.ec ∧ (d.refMarked r).time.ticks = d.time.ticks ∧ (d.refMarked r).fld (fTime (refBit r)) = 1 ∧
    Keeps [.time, .sessions, .ledger] d (d.refMarked r) ∧ KeepsRegs switchRegs d (d.refMarked r) := by
  have hbit : (d.put (fTime (refBit r)) 1).fld (fTime (refBit r)) = 1 := by cases r <;> simp [refBit, Dev.fTime_put_same]
  cases r with
  | a => exact ⟨rfl, rfl, hbit, (d.keeps_put _ _ _).trans (Dev.keeps_setTime _ _ (by decide)), d.keepsRegs_put_fTime 0 1⟩
  | b => exact ⟨rfl, rfl, hbit, d.keeps_put _ _ _, d.keepsRegs_put_fTime 1 1⟩

/-- A reference that becomes valid (01 R15, R17). -/
theorem acts_referenceValid {s : State} {r : RefInput} (h : s.dev.fld (fTime (refBit r)) = 0) :
    Acts (.referenceValid r) s fun d =>
      d.fld (fTime (refBit r)) = 1 ∧ d.fld (fTime 3) = b2n (!refUsable d) ∧ d.fld (fTime 9) = b2n (refUsable d) ∧
      d.time.ec = s.dev.time.ec ∧ d.time.ticks = s.dev.time.ticks ∧
      Keeps [.time, .sessions, .ledger] s.dev d ∧ KeepsRegs switchRegs s.dev d := by
  obtain ⟨hec, hticks, hbit, hkeeps, hregs⟩ := s.dev.refMarked_frame r
  refine Acts.of_onDev (fun d => (d.refMarked r).refEval false) (congrArg ok (if_pos h)) ⟨?_, ?_, ?_, ?_, ?_, ?_, ?_⟩
  · rw [Dev.fTime_refEval, hbit] <;> cases r <;> simp [refBit]
  · exact (Dev.refEval_status _ _).1
  · exact (Dev.refEval_status _ _).2
  · rw [Dev.refEval_time, hec]
  · rw [Dev.refEval_time, hticks]
  · exact hkeeps.trans ((Dev.keeps_refEval _ _).weaken (by decide))
  · exact hregs.trans (Dev.keepsRegs_refEval _ _)

/-- The return to REFA in Auto (01 R15, R16). -/
theorem acts_referenceReturnTimer {s : State} (hsel : s.dev.fld fRefSel = 0) (ha : s.dev.fld (fTime 0) = 1)
    (hdue : s.dev.time.refASince + 1000000000 ≤ s.dev.time.ticks) :
    Acts .referenceReturnTimer s fun d =>
      d.fld (fTime 2) = 0 ∧ (s.dev.fld (fTime 2) = 1 → d.saw 1 0 = true) ∧
      Keeps [.sessions, .ledger] s.dev d ∧ KeepsRegs switchRegs s.dev d := by
  obtain ⟨hactive, hsaw⟩ := Dev.active_refEval (Dev.refPick_returns hsel ha) (by decide)
  refine ⟨s.dev.refEval true, congrArg (fun d => (.next { s with dev := d } : Res)) (if_pos ⟨hsel, ha, hdue⟩), hactive, fun h1 => hsaw (by omega), ?_, ?_⟩
  · exact Dev.keeps_refEval _ _
  · exact Dev.keepsRegs_refEval _ _

/-- A fault on the active tree (01 R20, R22). -/
theorem acts_ecBroadcast {s : State} {onB : Bool} (hdue : s.dev.now % 1024 = 0) (hA : s.dev.fld (fTime 5) = 1)
    (hB : s.dev.fld (fTime 6) = 1) (ht : s.dev.fld (fTime 4) = b2n onB) :
    Acts (.ecBroadcast (!onB) onB) s fun d =>
      d.fld (fTime 4) = b2n (!onB) ∧ d.fld (fTime 5) = b2n onB ∧ d.fld (fTime 6) = b2n (!onB) ∧ d.saw 1 3 = true ∧
      Keeps [.sessions, .ledger] s.dev d ∧ KeepsRegs switchRegs s.dev d := by
  refine Acts.of_onDev _ (exec_ecBroadcast onB hdue hA hB ht) ⟨?_, ?_, ?_, Dev.saw_treeTo _ _, ?_, ?_⟩
  · cases onB <;> simp [Dev.fTime_treeTo, b2n]
  · cases onB <;> simp [Dev.fTime_treeTo, Dev.fTime_put_same, Dev.fTime_put_ne, hA, b2n]
  · cases onB <;> simp [Dev.fTime_treeTo, Dev.fTime_put_same, Dev.fTime_put_ne, hB, b2n]
  · exact (s.dev.keeps_put _ _ _).trans (Dev.keeps_treeTo _ _)
  · exact (s.dev.keepsRegs_put_fTime _ _).trans (Dev.keepsRegs_treeTo _ _)

/-- Settles O7: each command puts its bit and takes the reference, or the tree, again. -/
theorem referencesAndTreesFallBack : Obligations.ReferencesAndTreesFallBack :=
  ⟨⟨fun _ _ => acts_referenceInvalid, fun _ _ => acts_referenceValid⟩, fun _ => acts_referenceReturnTimer,
    fun _ hdue hA hB _ => acts_ecBroadcast hdue hA hB⟩

end Sys2Proof.Machine
end

section
/-! SUPPORT. What a hold raised or cleared leaves (11 R357, R358), and changes over a list. -/

namespace Sys2Proof.Machine

theorem Keeps.foldl {α : Type} {l : List Component} {f : Dev → α → Dev} (h : ∀ d x, Keeps l d (f d x)) (xs : List α) (d : Dev) :
    Keeps l d (xs.foldl f d) := by
  induction xs generalizing d with
  | nil => exact Keeps.refl l d
  | cons x xs ih => exact (h d x).trans (ih (f d x))

theorem KeepsRegs.foldl {α : Type} {l : List Nat} {f : Dev → α → Dev} (h : ∀ d x, KeepsRegs l d (f d x)) (xs : List α) (d : Dev) :
    KeepsRegs l d (xs.foldl f d) := by
  induction xs generalizing d with
  | nil => exact KeepsRegs.refl l d
  | cons x xs ih => exact (h d x).trans (ih (f d x))

/-- Copies of a word to ports move the ports alone. -/
theorem Dev.keeps_forward {l : List Component} (d : Dev) (sid : Nat) (w : CtrlWord) (except : Nat) (h : .fab ∈ l) :
    Keeps l d (d.forward sid w except) :=
  Keeps.foldl (fun d _ => Keeps.ite (d.keeps_updPort _ _ h) (Keeps.refl l d)) _ _

theorem Dev.keepsRegs_updPort (l : List Nat) (d : Dev) (p : Nat) (f : PortSt → PortSt) : KeepsRegs l d (d.updPort p f) :=
  KeepsRegs.of_regs_eq l rfl

theorem Dev.keepsRegs_forward (l : List Nat) (d : Dev) (sid : Nat) (w : CtrlWord) (except : Nat) : KeepsRegs l d (d.forward sid w except) :=
  KeepsRegs.foldl (fun d _ => KeepsRegs.ite (d.keepsRegs_updPort l _ _) (KeepsRegs.refl l d)) _ _

theorem Dev.keeps_ownWord {l : List Component} (d : Dev) (sid kind cause ec : Nat) (h : .fab ∈ l) : Keeps l d (d.ownWord sid kind cause ec).1 :=
  (d.keeps_setFab _ h).trans (Dev.keeps_forward _ _ _ _ h)

theorem Dev.keepsRegs_ownWord (l : List Nat) (d : Dev) (sid kind cause ec : Nat) : KeepsRegs l d (d.ownWord sid kind cause ec).1 := by
  intro a ha
  exact Dev.keepsRegs_forward l { d with fab := _ } sid _ 12 a ha

/-- A hold raised changes its slice, counts, reports, and goes out as a word. -/
theorem Dev.keeps_raiseHold (d : Dev) (sid cause : Nat) : Keeps [.fab, .slices, .sessions] d (d.raiseHold sid cause) := by
  unfold Dev.raiseHold
  split
  · refine Keeps.ite (Keeps.refl _ d) (Keeps.ite (d.keeps_updSlice _ _ (by decide)) ?_)
    refine (Dev.keeps_ownWord d sid 0 cause d.now (by decide)).trans ?_
    exact (Dev.keeps_updSlice _ _ _ (by decide)).trans (((Dev.keeps_bump _ _ _ _).trans (Dev.keeps_setReg _ _ _ _)).trans
      (Dev.keeps_event _ _ _ _ (by decide)))
  · exact Keeps.refl _ d

theorem Dev.keepsRegs_raiseHold (d : Dev) (sid cause : Nat) : KeepsRegs holdRegs d (d.raiseHold sid cause) := by
  unfold Dev.raiseHold
  split
  · refine KeepsRegs.ite (KeepsRegs.refl _ d) (KeepsRegs.ite (d.keepsRegs_updSlice _ _ _) ?_)
    refine (Dev.keepsRegs_ownWord holdRegs d sid 0 cause d.now).trans ?_
    exact (Dev.keepsRegs_updSlice _ _ _ _).trans (((Dev.keepsRegs_bump _ _ (by decide)).trans (Dev.keepsRegs_setReg _ _ (by decide))).trans
      (Dev.keepsRegs_event _ _ _ (by decide)))
  · exact KeepsRegs.refl _ d

/-- A cause cleared changes its slice; the hold's clearing counts and is reported. -/
theorem Dev.keeps_clearCause (d : Dev) (sid cause : Nat) : Keeps [.slices, .sessions] d (d.clearCause sid cause) := by
  unfold Dev.clearCause
  split
  · split
    · refine Keeps.ite (d.keeps_updSlice _ _ (by decide)) (Keeps.ite ?_ (d.keeps_updSlice _ _ (by decide)))
      exact ((d.keeps_updSlice _ _ (by decide)).trans (Dev.keeps_bump _ _ _ _)).trans (Dev.keeps_event _ _ _ _ (by decide))
    · exact Keeps.refl _ d
  · exact Keeps.refl _ d

/-- The registers that a hold's clearing may set. -/
def clearRegs : List Nat := regAddr 11 0x10 :: eventRegs 11

theorem Dev.keepsRegs_clearCause (d : Dev) (sid cause : Nat) : KeepsRegs clearRegs d (d.clearCause sid cause) := by
  unfold Dev.clearCause
  split
  · split
    · refine KeepsRegs.ite (d.keepsRegs_updSlice _ _ _) (KeepsRegs.ite ?_ (d.keepsRegs_updSlice _ _ _))
      exact ((d.keepsRegs_updSlice _ _ _).trans (Dev.keepsRegs_bump _ _ (by decide))).trans (Dev.keepsRegs_event _ _ _ (by decide))
    · exact KeepsRegs.refl _ d
  · exact KeepsRegs.refl _ d

end Sys2Proof.Machine
end

section
/-! SUPPORT. Measurements (01 R26 to R31): SYNCED, the step at the first lock, the holds. -/

namespace Sys2Proof.Machine

/-- The registers that SYNCED taken again may set. -/
def syncRegs : List Nat := regAddr 1 0x18 :: eventRegs 1

/-! ### SYNCED -/

theorem Dev.keeps_syncEval (d : Dev) : Keeps [.sessions] d d.syncEval := by
  have hput : Keeps [.sessions] d (d.put (fTime 7) (b2n d.syncedNow)) := d.keeps_put _ _ _
  have hev : ∀ bit, Keeps [.sessions] d ((d.put (fTime 7) (b2n d.syncedNow)).event 1 bit []) :=
    fun bit => hput.trans (Dev.keeps_event _ _ _ _ (by decide))
  exact Keeps.ite (hev 4) (Keeps.ite (hev 5) hput)

theorem Dev.keepsRegs_syncEval (d : Dev) : KeepsRegs syncRegs d d.syncEval := by
  have hput : KeepsRegs syncRegs d (d.put (fTime 7) (b2n d.syncedNow)) := d.keepsRegs_put _ (by decide)
  have hev : ∀ bit, KeepsRegs syncRegs d ((d.put (fTime 7) (b2n d.syncedNow)).event 1 bit []) :=
    fun bit => hput.trans (Dev.keepsRegs_event _ _ _ (by decide))
  exact KeepsRegs.ite (hev 4) (KeepsRegs.ite (hev 5) hput)

@[simp] theorem Dev.syncEval_time (d : Dev) : d.syncEval.time = d.time := d.keeps_syncEval .time (by decide)

theorem Dev.synced_syncEval (d : Dev) : d.syncEval.fld (fTime 7) = b2n d.syncedNow := by
  have hv : b2n d.syncedNow < 2 := by cases d.syncedNow <;> decide
  simp [Dev.syncEval, Dev.fld_ite, Dev.fTime_put_same, Nat.mod_eq_of_lt hv]

/-- SYNC_LOST reports that SYNCED falls (Table 1.8). -/
theorem Dev.syncLost_syncEval {d : Dev} (hwas : d.fld (fTime 7) = 1) (hnow : d.syncedNow = false) : d.syncEval.saw 1 4 = true := by
  have h : d.syncEval = (d.put (fTime 7) 0).event 1 4 [] := by simp [Dev.syncEval, hwas, hnow, b2n]
  rw [h]
  exact Dev.saw_event_same _ _ _ _ (by decide) (by decide)

/-- Without a measurement for 1 s a device with a time source is not in step (01 R31). -/
theorem Dev.syncedNow_of_late {d : Dev} (hsrc : d.fld fSrc ≠ 0) (hlate : d.time.measTick + 1000000000 ≤ d.time.ticks) :
    d.syncedNow = false := by
  have hl : ¬ d.time.ticks < d.time.measTick + 1000000000 := by omega
  unfold Dev.syncedNow
  split <;> simp [hsrc, hl]

/-! ### EC set -/

theorem Dev.keeps_stepRegs (l : List Component) (d : Dev) : Keeps l d d.stepRegs :=
  ((d.keeps_setReg l _ _).trans (Dev.keeps_setReg l _ _ _)).trans (Dev.keeps_put l _ _ _)

theorem Dev.keepsRegs_stepRegs {l : List Nat} (d : Dev) (h : ∀ a ∈ [regAddr 13 0x24, regAddr 13 0x28, regAddr 13 0], a ∈ l) :
    KeepsRegs l d d.stepRegs :=
  ((d.keepsRegs_setReg _ (h _ (by simp))).trans (Dev.keepsRegs_setReg _ _ (h _ (by simp)))).trans (Dev.keepsRegs_put _ _ (h _ (by simp)))

theorem Dev.setEc_time (d : Dev) (new : Nat) (own : Option Nat) : (d.setEc new own).time = { d.time with ec := BitVec.ofNat 64 new } := rfl

/-- The registers that a set of EC may change: the first step of mode that is set, and STEPPED. -/
def setEcRegs : List Nat := [regAddr 13 0x24, regAddr 13 0x28, regAddr 13 0] ++ eventRegs 1

/-- A set carries what is pending (01 R30), and leaves the rest. -/
theorem Dev.keeps_setEc (d : Dev) (new : Nat) (own : Option Nat) : Keeps [.time, .mg, .slices, .vault, .sessions, .pwr, .sec] d (d.setEc new own) := by
  have hcarry : ∀ (t : TimeSt) (m : MgmtSt) (w : PwrSt) (v : VaultSt) (sl : List Slice) (x y z),
      Keeps [.time, .mg, .slices, .vault, .sessions, .pwr, .sec] d { d with
        time := t, mg := m, pwr := w, vault := v, slices := sl, sec := { d.sec with handover := x, activate := y, expiry := z } } := by
    intro t m w v sl x y z p hp
    cases p <;> first | rfl | exact absurd (by decide) hp | exact ⟨rfl, rfl, rfl⟩
  exact (hcarry _ _ _ _ _ _ _ _).trans ((Dev.keeps_stepRegs _ _).trans (Dev.keeps_event _ _ _ _ (by decide)))

theorem Dev.keepsRegs_setEc (d : Dev) (new : Nat) (own : Option Nat) : KeepsRegs setEcRegs d (d.setEc new own) := by
  intro a ha
  exact ((Dev.keepsRegs_stepRegs (l := setEcRegs) { d with time := _, mg := _, pwr := _, vault := _, slices := _, sec := _ } (by decide)).trans
    (Dev.keepsRegs_event (l := setEcRegs) (b := 1) _ 7 [] (by decide))) a ha

theorem Dev.setEc_lockWait (d : Dev) (new : Nat) (own : Option Nat) : (d.setEc new own).sec.lockWait = d.sec.lockWait := rfl

end Sys2Proof.Machine
end

section
/-! SUPPORT. A measurement taken (01 R26 to R28, R32). -/

namespace Sys2Proof.Machine

theorem toField_lt (w : Nat) (i : Int) : toField w i < 2 ^ w := by
  have hpos : (0 : Int) < ((2 ^ w : Nat) : Int) := by exact_mod_cast Nat.two_pow_pos w
  have hlt := Int.emod_lt_of_pos i hpos
  have hge := Int.emod_nonneg i (ne_of_gt hpos)
  unfold toField
  omega

/-! ### The step at the first lock -/

theorem Dev.lockStep_time (d : Dev) (off : Int) : (d.lockStep off).time =
    { d.time with stepDone := true, stepWaits := false, ec := BitVec.ofNat 64 (toField 64 ((d.now : Int) - off)) } :=
  (Dev.keeps_auditSelf (l := [.sessions, .ledger]) _ 2 _ (by decide) (by decide)) .time (by decide)

/-- The step removes the whole offset (01 R27, R28). -/
theorem Dev.lockStep_now (d : Dev) (off : Int) : (d.lockStep off).now = toField 64 ((d.now : Int) - off) := by
  rw [Dev.now, Dev.lockStep_time, BitVec.toNat_ofNat, Nat.mod_eq_of_lt (toField_lt 64 _)]

theorem Dev.keeps_lockStep (d : Dev) (off : Int) :
    Keeps [.time, .mg, .slices, .vault, .sessions, .pwr, .ledger, .sec] d (d.lockStep off) :=
  (d.keeps_setTime _ (by decide)).trans (((Dev.keeps_setEc _ _ _).weaken (by decide)).trans
    (Dev.keeps_auditSelf _ _ _ (by decide) (by decide)))

theorem Dev.keepsRegs_lockStep (d : Dev) (off : Int) : KeepsRegs (setEcRegs ++ auditRegs) d (d.lockStep off) :=
  (d.keepsRegs_setTime _ _).trans (((Dev.keepsRegs_setEc _ _ _).weaken (fun _ h => List.mem_append_left _ h)).trans
    (Dev.keepsRegs_auditSelf _ _ _ (fun _ h => List.mem_append_right _ h)))

theorem Keeps.lockWait {l : List Component} {d e : Dev} (h : Keeps l d e) (hs : .sec ∉ l) : e.sec.lockWait = d.sec.lockWait := by
  have hsec : { e.sec with ledger := [], nextSeq := 0, unflushed := 0 } = { d.sec with ledger := [], nextSeq := 0, unflushed := 0 } := h .sec hs
  have hwait := congrArg SecSt.lockWait hsec
  exact hwait

theorem Dev.lockStep_lockWait (d : Dev) (off : Int) : (d.lockStep off).sec.lockWait = d.sec.lockWait :=
  (Dev.keeps_auditSelf (l := [.sessions, .ledger]) _ _ _ (by decide) (by decide)).lockWait (by decide)

/-! ### The holds of R32 -/

theorem Dev.keeps_timeHolds (d : Dev) (off : Int) : Keeps [.fab, .slices, .sessions] d (d.timeHolds off) := by
  refine Keeps.ite (Keeps.foldl (fun d sid => ?_) _ _) (Keeps.ite (Keeps.foldl (fun d sid => ?_) _ _) (Keeps.refl _ d))
  · split
    · exact Keeps.ite (Keeps.refl _ d) (d.keeps_raiseHold _ _)
    · exact Keeps.refl _ d
  · exact (d.keeps_clearCause _ _).weaken (by decide)

theorem Dev.keepsRegs_timeHolds (d : Dev) (off : Int) : KeepsRegs linkRegs d (d.timeHolds off) := by
  refine KeepsRegs.ite (KeepsRegs.foldl (fun d sid => ?_) _ _) (KeepsRegs.ite (KeepsRegs.foldl (fun d sid => ?_) _ _) (KeepsRegs.refl _ d))
  · split
    · exact KeepsRegs.ite (KeepsRegs.refl _ d) ((d.keepsRegs_raiseHold _ _).weaken (by decide))
    · exact KeepsRegs.refl _ d
  · exact (d.keepsRegs_clearCause _ _).weaken (by decide)

/-! ### The measurement -/

/-- EPOCH.OFFSET shows the measurement, clamped to 32 bits (Table 1.3). -/
def Dev.noteOffset (d : Dev) (off : Int) : Dev :=
  ({ d with time := { d.time with measured := some off, measTick := d.time.ticks } } : Dev).setReg (regAddr 1 0x20)
    (toField 32 (max (-2147483648) (min 2147483647 off)))

/-- What a measurement does to EC: the first step or its wait, else the slew (01 R26 to R28). -/
def Dev.steer (d : Dev) (off : Int) : Dev :=
  if !d.time.stepDone then
    (if d.anyLaunched then { d with time := { d.time with stepWaits := true } } else d.lockStep off)
  else if d.fld ⟨regAddr 1 8, 31, 16⟩ = 0 then d
  else d.setReg (regAddr 1 0x24) (toField 32 (slew off (d.fld ⟨regAddr 1 8, 31, 16⟩)))

theorem Dev.timeMeasured_eq (d : Dev) (off : Int) : d.timeMeasured off = (((d.noteOffset off).steer off).timeHolds off).syncEval := rfl

/-- The registers that steering may set. -/
def steerRegs : List Nat := regAddr 1 0x24 :: (setEcRegs ++ auditRegs)

theorem Dev.keeps_steer (d : Dev) (off : Int) : Keeps [.time, .mg, .slices, .vault, .sessions, .pwr, .ledger, .sec] d (d.steer off) :=
  Keeps.ite (Keeps.ite (d.keeps_setTime _ (by decide)) (d.keeps_lockStep off)) (Keeps.ite (Keeps.refl _ d) (d.keeps_setReg _ _ _))

theorem Dev.keepsRegs_steer (d : Dev) (off : Int) : KeepsRegs steerRegs d (d.steer off) :=
  KeepsRegs.ite (KeepsRegs.ite (KeepsRegs.of_regs_eq _ rfl) ((d.keepsRegs_lockStep off).weaken (fun _ h => List.mem_cons_of_mem _ h)))
    (KeepsRegs.ite (KeepsRegs.refl _ d) (d.keepsRegs_setReg _ List.mem_cons_self))

theorem Dev.steer_lockWait (d : Dev) (off : Int) : (d.steer off).sec.lockWait = d.sec.lockWait := by
  unfold Dev.steer
  split
  · split
    · rfl
    · exact d.lockStep_lockWait off
  · split <;> rfl

/-- What steering does to time. -/
theorem Dev.steer_time (d : Dev) (off : Int) : (d.steer off).time =
    if d.time.stepDone then d.time else if d.anyLaunched then { d.time with stepWaits := true } else (d.lockStep off).time := by
  unfold Dev.steer
  cases d.time.stepDone <;> cases d.anyLaunched <;> simp [apply_ite Dev.time]

theorem Dev.timeMeasured_time (d : Dev) (off : Int) : (d.timeMeasured off).time = ((d.noteOffset off).steer off).time := by
  rw [Dev.timeMeasured_eq, Dev.syncEval_time]
  exact Dev.keeps_timeHolds _ off .time (by decide)

/-- The registers that the end of a measurement may set: those of holds and of SYNCED. -/
def holdSyncRegs : List Nat := linkRegs ++ syncRegs

theorem Dev.keepsRegs_holdsSync (d : Dev) (off : Int) : KeepsRegs holdSyncRegs d (d.timeHolds off).syncEval :=
  ((d.keepsRegs_timeHolds off).weaken (fun _ h => List.mem_append_left _ h)).trans
    ((Dev.keepsRegs_syncEval _).weaken (fun _ h => List.mem_append_right _ h))

theorem Dev.keeps_timeMeasured (d : Dev) (off : Int) :
    Keeps [.time, .mg, .fab, .slices, .vault, .sessions, .pwr, .ledger, .sec] d (d.timeMeasured off) :=
  (((d.keeps_setTime _ (by decide)).trans (Dev.keeps_setReg _ _ _ _)).trans ((Dev.keeps_steer _ off).weaken (by decide))).trans
    (((Dev.keeps_timeHolds _ off).weaken (by decide)).trans ((Dev.keeps_syncEval _).weaken (by decide)))

theorem Dev.timeMeasured_lockWait (d : Dev) (off : Int) : (d.timeMeasured off).sec.lockWait = d.sec.lockWait := by
  rw [Dev.timeMeasured_eq, (Dev.keeps_syncEval _).lockWait (by decide), (Dev.keeps_timeHolds _ _).lockWait (by decide), Dev.steer_lockWait]
  rfl

/-- EPOCH.OFFSET after a measurement. -/
theorem Dev.offset_timeMeasured (d : Dev) (off : Int) :
    (d.timeMeasured off).reg (regAddr 1 0x20) = toField 32 (max (-2147483648) (min 2147483647 off)) := by
  rw [Dev.timeMeasured_eq, Dev.keepsRegs_holdsSync _ off _ (by decide), Dev.keepsRegs_steer _ off _ (by decide), Dev.noteOffset,
    Dev.reg_setReg_same, Nat.mod_eq_of_lt (toField_lt 32 _)]

/-- EPOCH.STEER after the first step has been made (01 R26). -/
theorem Dev.steer_timeMeasured {d : Dev} (off : Int) (hdone : d.time.stepDone = true) (hlimit : d.fld ⟨regAddr 1 8, 31, 16⟩ ≠ 0) :
    (d.timeMeasured off).reg (regAddr 1 0x24) = toField 32 (slew off (d.fld ⟨regAddr 1 8, 31, 16⟩)) := by
  have hf : (d.noteOffset off).fld ⟨regAddr 1 8, 31, 16⟩ = d.fld ⟨regAddr 1 8, 31, 16⟩ := by
    unfold Dev.fld Dev.noteOffset
    rw [Dev.reg_setReg_other _ (by decide)]
    rfl
  have hd : (d.noteOffset off).time.stepDone = true := hdone
  have hs : (d.noteOffset off).steer off = (d.noteOffset off).setReg (regAddr 1 0x24) (toField 32 (slew off (d.fld ⟨regAddr 1 8, 31, 16⟩))) := by
    rw [Dev.steer, hd, hf, if_neg (by decide), if_neg hlimit]
  rw [Dev.timeMeasured_eq, Dev.keepsRegs_holdsSync _ off _ (by decide), hs, Dev.reg_setReg_same, Nat.mod_eq_of_lt (toField_lt 32 _)]

/-- A measurement that stands ready, once it has been taken. -/
theorem exec_timeMeasurement {s : State} {off : Int} (hm : s.dev.measurement = some off) (hw : s.dev.sec.lockWait = false) :
    exec .timeMeasurement s = ok (s.onDev (fun d =>
      ({ d with time := { d.time with ppsOffset := none, ptpOffset := none } } : Dev).timeMeasured off)) := by
  have ht : s.dev.takeMeasurement = ({ s.dev with time := { s.dev.time with ppsOffset := none, ptpOffset := none } } : Dev).timeMeasured off := by
    simp only [Dev.takeMeasurement, hm]
  show execTimeMeasurement s = _
  simp only [execTimeMeasurement, State.onDev, ht, Dev.timeMeasured_lockWait, hw]
  simp

end Sys2Proof.Machine
end

section
/-! What measurements, edges and their absence do (01 R26 to R33; 17 R499). -/

namespace Sys2Proof.Machine

theorem acts_timeMeasurement {s : State} {off : Int} (hm : s.dev.measurement = some off) (hw : s.dev.sec.lockWait = false) :
    Acts .timeMeasurement s fun d =>
      d.time.measured = some off ∧ d.time.measTick = s.dev.time.ticks ∧
      d.reg (regAddr 1 0x20) = toField 32 (max (-2147483648) (min 2147483647 off)) ∧
      (s.dev.time.stepDone = true → d.time.ec = s.dev.time.ec ∧
        (s.dev.fld ⟨regAddr 1 8, 31, 16⟩ ≠ 0 → d.reg (regAddr 1 0x24) = toField 32 (slew off (s.dev.fld ⟨regAddr 1 8, 31, 16⟩)))) ∧
      (s.dev.time.stepDone = false → s.dev.anyLaunched = false →
        d.now = toField 64 ((s.dev.now : Int) - off) ∧ d.time.stepDone = true) ∧
      (s.dev.time.stepDone = false → s.dev.anyLaunched = true → d.time.ec = s.dev.time.ec ∧ d.time.stepWaits = true) ∧
      Keeps [.time, .mg, .fab, .slices, .vault, .sessions, .pwr, .ledger, .sec] s.dev d := by
  refine Acts.of_onDev _ (exec_timeMeasurement hm hw) ?_
  generalize he : ({ s.dev with time := { s.dev.time with ppsOffset := none, ptpOffset := none } } : Dev) = e
  have hdone : (e.noteOffset off).time.stepDone = s.dev.time.stepDone := by rw [← he]; rfl
  have hany : (e.noteOffset off).anyLaunched = s.dev.anyLaunched := by rw [← he]; rfl
  have htime := (e.timeMeasured_time off).trans (Dev.steer_time _ off)
  rw [hdone, hany, Dev.lockStep_time] at htime
  refine ⟨?_, ?_, e.offset_timeMeasured off, fun h => ⟨?_, fun hl => ?_⟩, fun h hl => ⟨?_, ?_⟩, fun h hl => ?_, ?_⟩
  · rw [htime]; split_ifs <;> rfl
  · rw [htime, ← he]; split_ifs <;> rfl
  · rw [htime, h, ← he]; rfl
  · rw [← he]; exact Dev.steer_timeMeasured off h hl
  · rw [Dev.now, htime, h, hl, ← he]
    exact Nat.mod_eq_of_lt (toField_lt 64 _)
  · rw [htime, h, hl]; rfl
  · rw [htime, h, hl, ← he]; exact ⟨rfl, rfl⟩
  · rw [← he]; exact (s.dev.keeps_setTime _ (by decide)).trans (Dev.keeps_timeMeasured _ off)

theorem acts_firstLockStep {s : State} {off : Int} (hw : s.dev.time.stepWaits = true) (hm : s.dev.time.measured = some off)
    (hl : s.dev.anyLaunched = false) :
    Acts .firstLockStep s fun d =>
      d.now = toField 64 ((s.dev.now : Int) - off) ∧ d.time.stepDone = true ∧ d.time.stepWaits = false ∧
      Keeps [.time, .mg, .slices, .vault, .sessions, .pwr, .ledger, .sec] s.dev d := by
  refine ⟨(s.dev.lockStep off).syncEval, ?_, ?_, ?_, ?_, ?_⟩
  · show execFirstLockStep s = _
    simp [execFirstLockStep, State.onDev, ok, hw, hm, hl]
  · rw [Dev.now, Dev.syncEval_time]; exact s.dev.lockStep_now off
  · rw [Dev.syncEval_time, Dev.lockStep_time]
  · rw [Dev.syncEval_time, Dev.lockStep_time]
  · exact (s.dev.keeps_lockStep off).trans ((Dev.keeps_syncEval _).weaken (by decide))

theorem acts_syncTimeout {s : State} (hsrc : s.dev.fld fSrc ≠ 0) (hlate : s.dev.time.measTick + 1000000000 ≤ s.dev.time.ticks) :
    Acts .syncTimeout s fun d =>
      d.fld (fTime 7) = 0 ∧ (s.dev.fld (fTime 7) = 1 → d.saw 1 4 = true) ∧ Keeps [.sessions] s.dev d ∧ KeepsRegs syncRegs s.dev d := by
  have hnow := Dev.syncedNow_of_late hsrc hlate
  refine Acts.of_onDev Dev.syncEval (congrArg ok (if_pos ⟨hsrc, hlate⟩)) ⟨?_, fun h => Dev.syncLost_syncEval h hnow, ?_, ?_⟩
  · simp [Dev.synced_syncEval, hnow, b2n]
  · exact s.dev.keeps_syncEval
  · exact s.dev.keepsRegs_syncEval

theorem acts_ppsInEdge {s : State} (hsrc : s.dev.fld fSrc = 1) (hused : s.dev.time.ppsUsed = none) :
    Acts .ppsInEdge s fun d =>
      d.measurement = some (secondOffset s.dev.now) ∧ d.time.ec = s.dev.time.ec ∧ Keeps [.time] s.dev d ∧ KeepsRegs [] s.dev d := by
  refine ⟨{ s.dev with time := { s.dev.time with
    ppsTick := s.dev.time.ticks, ppsUsed := some s.dev.time.ticks, ppsOffset := some (secondOffset s.dev.now), ppsMissed := false } }, ?_, ?_, rfl, s.dev.keeps_setTime _ (by decide), KeepsRegs.of_regs_eq _ rfl⟩
  · show execPpsInEdge s = _
    simp [execPpsInEdge, State.onDev, ok, hsrc, hused]
  · have hsrc' : ∀ t, ({ s.dev with time := t } : Dev).fld fSrc = 1 := fun _ => hsrc
    simp only [Dev.measurement, hsrc']

theorem acts_ppsMissing {s : State} (hsrc : s.dev.fld fSrc = 1) (hmissed : s.dev.time.ppsMissed = false)
    (hlate : s.dev.time.ppsTick + 1100000000 ≤ s.dev.time.ticks) :
    Acts .ppsMissing s fun d =>
      d.saw 1 8 = true ∧ d.time.ec = s.dev.time.ec ∧ Keeps [.time, .sessions] s.dev d ∧ KeepsRegs (eventRegs 1) s.dev d := by
  refine ⟨({ s.dev with time := { s.dev.time with ppsMissed := true } } : Dev).event 1 8 [], ?_, ?_, rfl, ?_, ?_⟩
  · exact congrArg (fun d => (.next { s with dev := d } : Res)) (if_pos ⟨hsrc, by simp [hmissed], hlate⟩)
  · exact Dev.saw_event_same _ _ _ _ (by decide) (by decide)
  · exact (s.dev.keeps_setTime _ (by decide)).trans (Dev.keeps_event _ _ _ _ (by decide))
  · intro a ha
    exact Dev.keepsRegs_event (l := eventRegs 1) { s.dev with time := _ } 8 [] (fun _ h => h) a ha

/-- Settles O8: a measurement taken is noted, steers, and leaves EC to the one step; PPS edges stand as measurements. -/
theorem measurementsSteerEc : Obligations.MeasurementsSteerEc :=
  ⟨⟨fun _ _ => acts_timeMeasurement, fun _ _ => acts_firstLockStep⟩, fun _ => acts_syncTimeout, fun _ => acts_ppsInEdge, fun _ => acts_ppsMissing,
    fun s hen hec => congrArg (fun d => (.next { s with dev := d } : Res)) (if_pos ⟨hen, hec⟩),
    fun s hout hec => congrArg (fun d => (.next { s with dev := d } : Res)) (if_pos ⟨hout, hec⟩)⟩

end Sys2Proof.Machine
end

section
/-! A time word that takes SCHED_OK away drops the scheduled frames sent and not yet delivered (08 R291, R301). The long packets of such
frames are answered with STATUS 4, and an answer whose way over the mesh leads through a failed router is itself dropped and counted
in MESH's register at 0x10 (07 R248): a register outside the frame that O9 states. -/

namespace Sys2Proof.Machine

/-- A scheduled frame with a long write of core 0 on cluster 9 for another device, still held for replay. -/
def lostFrame : SentFrame where
  fr := {
    lead := leadFlit { ltype := 1, lclass := 0, net := 0, dline := 0, owner := 0, lseq := 0, body := 1, slot := 0, sendUs := 0 }
    body := [longFlit {
      cls := 0, op := 0, slice := 0, gen := 0, dchip := 1, dcl := 0, dcore := 0, gra := 0, len := 0, seq := 0, oparg := 0,
      schip := 0, score := 72, squeue := 0, gate := 0, sat := 0, nan := 0, reply := 0, crc := 0 }]
    tail := 0 }
  first := 0
  last := 0

/-- Port 0 is UP with SCHED_OK = 1 and holds that frame; the routers of clusters 0 to 31 have failed. -/
def lostState : State :=
  { State.reset with dev := ((State.reset.dev.setReg (regAddr 7 0) 0xFFFFFFFF).setReg (portReg 0) 0x80800000).updPort 0 (fun x =>
      { x with replay := [lostFrame] }) }

/-- A time word with every field 0. -/
def zeroTimeWord : CtrlWord := 1#128 <<< 124

/-- A register of the state that an outcome ends in. -/
def regAfter (r : Res) (a : Nat) : Option Nat := match r with | .next t => some (t.dev.reg a) | _ => none

/-- The answer to the lost frame's packet is dropped at a failed router, and counted. -/
theorem regAfter_timeWord_lostState : regAfter (exec (.timeWord 0 zeroTimeWord 0 0) lostState) (regAddr 7 0x10) = some 1 := by
  decide +kernel

/-- Refutes O9: a time word on a port with scheduled frames still to be delivered can count a packet as unreachable, in a register of
block 7 that the statement's frame leaves out. -/
theorem not_timeComesFromPtpOrAParent : ¬ Obligations.TimeComesFromPtpOrAParent := by
  rintro ⟨-, hword, -⟩
  obtain ⟨d, hd, -, -, -, -, -, -, hregs⟩ :=
    hword lostState 0 zeroTimeWord 0 0 0 0 (by decide +kernel) (by decide +kernel) (by decide +kernel) (by decide +kernel)
  have hkept : d.reg (regAddr 7 0x10) = 0 := hregs _ (by decide)
  have hcount := regAfter_timeWord_lostState
  rw [hd] at hcount
  have hone : d.reg (regAddr 7 0x10) = 1 := Option.some.inj hcount
  omega

end Sys2Proof.Machine
end

section
/-! SUPPORT. Rows cleared: what reads of them and of other rows return; the ranges of a cluster's scrub (06 R225, Table 6.8). -/

namespace Sys2Proof.Machine

/-- Rows cleared are the cells of other rows. -/
theorem clearRows_eq_filter {m : List Host.Cell} {lo hi : Nat} (h : memWf m = true) :
    clearRows m lo hi = m.filter (fun c => decide (c.1 < lo * 512)) ++ m.filter (fun c => decide (hi * 512 ≤ c.1)) := by
  unfold memWf mapWf at h
  rw [clearRows, takeWhile_eq_filter h, dropWhile_eq_filter h]

/-- A cleared row reads 0; any other reads as before. -/
theorem readRow_clearRows {m : List Host.Cell} {lo hi : Nat} (g : Nat) (h : memWf m = true) (hl : lo ≤ hi) :
    readRow (clearRows m lo hi) g = if lo ≤ g ∧ g < hi then 0 else readRow m g := by
  rw [readRow_eq g (clearRows_wf h hl), readRow_eq g h, clearRows_eq_filter h]
  simp only [List.filter_append, List.filter_filter]
  split
  next hin =>
    rw [filter_none (fun x _ => by simp only [Bool.and_eq_false_iff, decide_eq_false_iff_not]; omega),
      filter_none (fun x _ => by simp only [Bool.and_eq_false_iff, decide_eq_false_iff_not]; omega)]
    rfl
  next hout =>
    by_cases hlo : g < lo
    · rw [filter_none (l := m) (p := fun c => _ && (_ && decide (hi * 512 ≤ c.1)))
        (fun x _ => by simp only [Bool.and_eq_false_iff, decide_eq_false_iff_not]; omega), List.append_nil]
      congr 2
      exact List.filter_congr (fun x _ => by rw [Bool.eq_iff_iff]; simp only [Bool.and_eq_true, decide_eq_true_eq]; omega)
    · rw [filter_none (l := m) (p := fun c => _ && (_ && decide (c.1 < lo * 512)))
        (fun x _ => by simp only [Bool.and_eq_false_iff, decide_eq_false_iff_not]; omega), List.nil_append]
      congr 2
      exact List.filter_congr (fun x _ => by rw [Bool.eq_iff_iff]; simp only [Bool.and_eq_true, decide_eq_true_eq]; omega)

/-- A byte of another row reads as before. -/
theorem memByte_clearRows_other {m : List Host.Cell} {lo hi a : Nat} (h : memWf m = true) (hl : lo ≤ hi) (ha : ¬ (lo ≤ a / 512 ∧ a / 512 < hi)) :
    memByte (clearRows m lo hi) a = memByte m a := by
  rw [clearRows_eq_filter h]
  unfold memByte
  have hside : a < lo * 512 ∨ hi * 512 ≤ a := by omega
  rcases hside with hside | hside
  · rw [mapGet_append_left]
    · exact mapGet_filter (fun v => by simpa using hside)
    · intro x hx
      have := (List.mem_filter.mp hx).2
      simp only [decide_eq_true_eq] at this
      omega
  · rw [mapGet_append]
    · exact mapGet_filter (fun v => by simpa using hside)
    · intro x hx
      have := (List.mem_filter.mp hx).2
      simp only [decide_eq_true_eq] at this
      omega

/-! ### Several ranges -/

/-- Ranges of rows cleared, one after another. -/
def clearAll (rs : List (Nat × Nat)) (m : List Host.Cell) : List Host.Cell := rs.foldl (fun m r => clearRows m r.1 r.2) m

/-- A row lies in one of the ranges. -/
def inRanges (rs : List (Nat × Nat)) (g : Nat) : Prop := ∃ r ∈ rs, r.1 ≤ g ∧ g < r.2

theorem clearAll_wf {rs : List (Nat × Nat)} {m : List Host.Cell} (hr : ∀ r ∈ rs, r.1 ≤ r.2) (h : memWf m = true) :
    memWf (clearAll rs m) = true := by
  induction rs generalizing m with
  | nil => exact h
  | cons r rs ih =>
    exact ih (fun x hx => hr x (List.mem_cons_of_mem r hx)) (clearRows_wf h (hr r List.mem_cons_self))

/-- A row that reads 0 reads 0 once ranges are cleared. -/
theorem readRow_clearAll_zero {rs : List (Nat × Nat)} {m : List Host.Cell} {g : Nat} (hr : ∀ r ∈ rs, r.1 ≤ r.2) (h : memWf m = true)
    (hg : inRanges rs g ∨ readRow m g = 0) : readRow (clearAll rs m) g = 0 := by
  induction rs generalizing m with
  | nil =>
    obtain ⟨r, hmem, -⟩ | hz := hg
    · exact absurd hmem List.not_mem_nil
    · exact hz
  | cons r rs ih =>
    have hlo := hr r List.mem_cons_self
    refine ih (fun x hx => hr x (List.mem_cons_of_mem r hx)) (clearRows_wf h hlo) ?_
    rw [readRow_clearRows g h hlo]
    obtain ⟨x, hmem, hx⟩ | hz := hg
    · rcases List.mem_cons.mp hmem with rfl | hmem
      · exact .inr (if_pos hx)
      · exact .inl ⟨x, hmem, hx⟩
    · exact .inr (by rw [hz, ite_self])

theorem memByte_clearAll_other {rs : List (Nat × Nat)} {m : List Host.Cell} {a : Nat} (hr : ∀ r ∈ rs, r.1 ≤ r.2) (h : memWf m = true)
    (ha : ¬ inRanges rs (a / 512)) : memByte (clearAll rs m) a = memByte m a := by
  induction rs generalizing m with
  | nil => rfl
  | cons r rs ih =>
    have hlo := hr r List.mem_cons_self
    refine (ih (fun x hx => hr x (List.mem_cons_of_mem r hx)) (clearRows_wf h hlo) (fun ⟨x, hx, hin⟩ => ha ⟨x, List.mem_cons_of_mem r hx, hin⟩)).trans ?_
    exact memByte_clearRows_other h hlo (fun hin => ha ⟨r, List.mem_cons_self, hin⟩)

/-! ### A cluster -/

/-- The rows of one core: pad, accumulators, and the two parts of its core state. -/
def coreRanges (cl k : Nat) : List (Nat × Nat) :=
  [(mkGra 0 cl k 0, mkGra 0 cl k 0x2000), (mkGra 2 cl k 0, mkGra 2 cl k 0x200), (mkGra 3 cl k 0, mkGra 3 cl k 0x200),
   (mkGra 3 cl k 0x10000, mkGra 3 cl k 0x10010)]

/-- The rows of a cluster: its store, and those of its eight cores. -/
def scrubRanges (cl : Nat) : List (Nat × Nat) := (mkGra 1 cl 0 0, mkGra 1 cl 0 0x18000) :: (List.range 8).flatMap (coreRanges cl)

theorem scrubMem_eq (m : List Host.Cell) (cl : Nat) : scrubMem m cl = clearAll (scrubRanges cl) m := by
  rw [scrubMem, clearAll, scrubRanges, List.foldl_cons, List.foldl_flatMap]
  rfl

theorem mkGra_eq (space cl core row : Nat) : mkGra space cl core row = space * 2 ^ 30 + cl * 2 ^ 23 + core * 2 ^ 20 + row := by
  simp only [mkGra, Nat.shiftLeft_eq]

/-- A range of a cluster's scrub: rows of one space and core of the cluster. -/
theorem mem_scrubRanges {cl : Nat} {r : Nat × Nat} (h : r ∈ scrubRanges cl) :
    ∃ space core lo hi, space < 4 ∧ core < 8 ∧ lo ≤ hi ∧ hi ≤ 2 ^ 20 ∧ r = (mkGra space cl core lo, mkGra space cl core hi) := by
  rcases List.mem_cons.mp h with rfl | h
  · exact ⟨1, 0, 0, 0x18000, by omega, by omega, by omega, by omega, rfl⟩
  · obtain ⟨k, hk, hr⟩ := List.mem_flatMap.mp h
    have hk8 := List.mem_range.mp hk
    simp only [coreRanges, List.mem_cons, List.not_mem_nil, or_false] at hr
    rcases hr with rfl | rfl | rfl | rfl
    · exact ⟨0, k, 0, 0x2000, by omega, hk8, by omega, by omega, rfl⟩
    · exact ⟨2, k, 0, 0x200, by omega, hk8, by omega, by omega, rfl⟩
    · exact ⟨3, k, 0, 0x200, by omega, hk8, by omega, by omega, rfl⟩
    · exact ⟨3, k, 0x10000, 0x10010, by omega, hk8, by omega, by omega, rfl⟩

theorem scrubRanges_le {cl : Nat} : ∀ r ∈ scrubRanges cl, r.1 ≤ r.2 := by
  intro r h
  obtain ⟨space, core, lo, hi, -, -, hle, -, rfl⟩ := mem_scrubRanges h
  simp only [mkGra_eq]
  omega

/-- The rows scrubbed are rows of the cluster. -/
theorem graCluster_of_inRanges {cl g : Nat} (hcl : cl < 72) (h : inRanges (scrubRanges cl) g) : graCluster g = cl := by
  obtain ⟨r, hr, hlo, hhi⟩ := h
  obtain ⟨space, core, lo, hi, hs, hc, -, htop, rfl⟩ := mem_scrubRanges hr
  simp only [mkGra_eq] at hlo hhi
  simp only [graCluster, bits, Nat.shiftRight_eq_div_pow]
  omega

/-- A row address is that of its parts. -/
theorem mkGra_parts {g : Nat} (h : g < 2 ^ 32) : mkGra (graSpace g) (graCluster g) (graCore g) (graRow g) = g := by
  simp only [mkGra_eq, graSpace, graCluster, graCore, graRow, bits, Nat.shiftRight_eq_div_pow]
  omega

/-- The ranges of each core are among its cluster's. -/
theorem coreRanges_mem {cl k : Nat} {r : Nat × Nat} (hk : k < 8) (h : r ∈ coreRanges cl k) : r ∈ scrubRanges cl :=
  List.mem_cons_of_mem _ (List.mem_flatMap.mpr ⟨k, List.mem_range.mpr hk, h⟩)

/-- Every row of the cluster is scrubbed. -/
theorem inRanges_of_graValid {g : Nat} (h : graValid g = true) : inRanges (scrubRanges (graCluster g)) g := by
  simp only [graValid, Bool.and_eq_true, decide_eq_true_eq] at h
  obtain ⟨⟨hlt, -⟩, hrow⟩ := h
  have hg := mkGra_parts hlt
  have hcore : graCore g < 8 := Nat.mod_lt _ (by decide)
  have hspace : graSpace g < 4 := Nat.mod_lt _ (by decide)
  have hwithin : ∀ {lo hi}, (mkGra (graSpace g) (graCluster g) (graCore g) lo, mkGra (graSpace g) (graCluster g) (graCore g) hi) ∈
      scrubRanges (graCluster g) → lo ≤ graRow g → graRow g < hi → inRanges (scrubRanges (graCluster g)) g := by
    intro lo hi hmem hlo hhi
    rw [mkGra_eq] at hg
    exact ⟨_, hmem, by simp only [mkGra_eq]; omega, by simp only [mkGra_eq]; omega⟩
  obtain hs | hs | hs | hs : graSpace g = 0 ∨ graSpace g = 1 ∨ graSpace g = 2 ∨ graSpace g = 3 := by omega
  all_goals rw [hs] at hrow hwithin
  · exact hwithin (coreRanges_mem hcore (by simp [coreRanges])) (Nat.zero_le _) (of_decide_eq_true hrow)
  · simp only [Bool.and_eq_true, decide_eq_true_eq] at hrow
    rw [hrow.1] at hwithin
    exact hwithin List.mem_cons_self (Nat.zero_le _) hrow.2
  · exact hwithin (coreRanges_mem hcore (by simp [coreRanges])) (Nat.zero_le _) (of_decide_eq_true hrow)
  · simp only [Bool.or_eq_true, Bool.and_eq_true, decide_eq_true_eq] at hrow
    rcases hrow with hrow | hrow
    · exact hwithin (lo := 0) (coreRanges_mem hcore (by simp [coreRanges])) (Nat.zero_le _) hrow
    · exact hwithin (coreRanges_mem hcore (by simp [coreRanges])) hrow.1 hrow.2

/-! ### Clusters -/

theorem scrubMem_wf {m : List Host.Cell} (cl : Nat) (h : memWf m = true) : memWf (scrubMem m cl) = true := by
  rw [scrubMem_eq]
  exact clearAll_wf scrubRanges_le h

/-- Once clusters are scrubbed, their rows read 0. -/
theorem readRow_scrubbed {cls : List Nat} {m : List Host.Cell} {g : Nat} (h : memWf m = true) (hg : graValid g = true)
    (hc : graCluster g ∈ cls ∨ readRow m g = 0) : readRow (cls.foldl scrubMem m) g = 0 := by
  induction cls generalizing m with
  | nil => exact hc.resolve_left List.not_mem_nil
  | cons cl cls ih =>
    rw [List.foldl_cons]
    refine ih (scrubMem_wf cl h) ?_
    rw [scrubMem_eq]
    rcases hc with hc | hz
    · rcases List.mem_cons.mp hc with rfl | hc
      · exact .inr (readRow_clearAll_zero scrubRanges_le h (.inl (inRanges_of_graValid hg)))
      · exact .inl hc
    · exact .inr (readRow_clearAll_zero scrubRanges_le h (.inr hz))

/-- Bytes of other clusters stay. -/
theorem memByte_scrubbed_other {cls : List Nat} {m : List Host.Cell} {a : Nat} (h : memWf m = true) (hlt : ∀ c ∈ cls, c < 72)
    (ha : graCluster (a / 512) ∉ cls) : memByte (cls.foldl scrubMem m) a = memByte m a := by
  induction cls generalizing m with
  | nil => rfl
  | cons cl cls ih =>
    have hcl := hlt cl List.mem_cons_self
    rw [List.foldl_cons, ih (scrubMem_wf cl h) (fun c hc => hlt c (List.mem_cons_of_mem cl hc)) (fun hc => ha (List.mem_cons_of_mem cl hc)), scrubMem_eq]
    exact memByte_clearAll_other scrubRanges_le h (fun hin => ha (graCluster_of_inRanges hcl hin ▸ List.mem_cons_self))

end Sys2Proof.Machine
end

section
/-! SUPPORT. The end of scrubs (06 R225, R226): registers, cores, check bits. -/

namespace Sys2Proof.Machine

/-- A part of the device changed. -/
theorem Dev.keeps_setHlth {l : List Component} (d : Dev) (h : HealthSt) (hl : .hlth ∈ l) : Keeps l d { d with hlth := h } :=
  fun p hp => by cases p <;> first | rfl | exact absurd hl hp | exact ⟨rfl, rfl, rfl⟩

theorem Dev.keepsRegs_setHlth (l : List Nat) (d : Dev) (h : HealthSt) : KeepsRegs l d { d with hlth := h } := KeepsRegs.of_regs_eq l rfl

theorem Dev.keeps_setPwr {l : List Component} (d : Dev) (w : PwrSt) (hl : .pwr ∈ l) : Keeps l d { d with pwr := w } :=
  fun p hp => by cases p <;> first | rfl | exact absurd hl hp | exact ⟨rfl, rfl, rfl⟩

theorem Dev.keeps_setCore {l : List Component} (d : Dev) (k : Nat) (c : CoreSt) (hl : .cores ∈ l) : Keeps l d (d.setCore k c) :=
  fun p hp => by cases p <;> first | rfl | exact absurd hl hp | exact ⟨rfl, rfl, rfl⟩

theorem Dev.keepsRegs_setCore (l : List Nat) (d : Dev) (k : Nat) (c : CoreSt) : KeepsRegs l d (d.setCore k c) := KeepsRegs.of_regs_eq l rfl

theorem Keeps.core {l : List Component} {d e : Dev} (h : Keeps l d e) (hc : .cores ∉ l) (k : Nat) : e.core k = d.core k := by
  have hcores : e.cores = d.cores := h .cores hc
  rw [Dev.core, Dev.core, hcores]

theorem Keeps.now {l : List Component} {d e : Dev} (h : Keeps l d e) (ht : .time ∉ l) : e.now = d.now := by
  have htime : e.time = d.time := h .time ht
  rw [Dev.now, Dev.now, htime]

theorem Dev.core_setCore (d : Dev) (j k : Nat) (c : CoreSt) : (d.setCore k c).core j = if j = k then c else d.core j := by
  unfold Dev.core
  split
  next h => rw [h]; exact mapGet_mapPut_self d.cores k c
  next h => exact mapGet_mapPut_ne c h

/-! ### The registers of clusters -/

/-- FAB.CLn of a cluster (08 Table 8.19). -/
def clReg (c : Nat) : Nat := regAddr 8 (0x200 + 4 * c)

theorem clReg_inj {a b : Nat} (h : clReg a = clReg b) : a = b := by
  simp only [clReg, regAddr] at h
  omega

theorem fClState_put (d : Dev) (c cl v : Nat) : (d.put (fClState cl) v).fld (fClState c) = if c = cl then v % 4 else d.fld (fClState c) := by
  split
  next h => rw [h, Dev.fld_put_same _ _ _ (by simp [fClState]) (by simp [fClState])]; rfl
  next h => exact Dev.fld_put_apart _ _ _ _ (by simp [fClState]) (by simp [fClState]) (.inl (fun ha => h (clReg_inj ha)))

theorem fClState_putSlice (d : Dev) (c cl v : Nat) : (d.put (fClSlice cl) v).fld (fClState c) = d.fld (fClState c) :=
  Dev.fld_put_apart _ _ _ _ (by simp [fClSlice]) (by simp [fClState]) (.inr (.inr (by simp [fClState, fClSlice])))

theorem fClSlice_put (d : Dev) (c cl v : Nat) : (d.put (fClSlice cl) v).fld (fClSlice c) = if c = cl then v % 4096 else d.fld (fClSlice c) := by
  split
  next h => rw [h, Dev.fld_put_same _ _ _ (by simp [fClSlice]) (by simp [fClSlice])]; rfl
  next h => exact Dev.fld_put_apart _ _ _ _ (by simp [fClSlice]) (by simp [fClSlice]) (.inl (fun ha => h (clReg_inj ha)))

theorem fClSlice_putState (d : Dev) (c cl v : Nat) : (d.put (fClState cl) v).fld (fClSlice c) = d.fld (fClSlice c) :=
  Dev.fld_put_apart _ _ _ _ (by simp [fClState]) (by simp [fClSlice]) (.inr (.inl (by simp [fClState, fClSlice])))

/-! ### One cluster -/

/-- The cores of a cluster forgotten. -/
def Dev.clearCores (d : Dev) (cl : Nat) : Dev := (List.range 8).foldl (fun d k => d.setCore (cl * 8 + k) {}) d

theorem Dev.keeps_clearCores (d : Dev) (cl : Nat) : Keeps [.cores] d (d.clearCores cl) :=
  Keeps.foldl (fun d _ => d.keeps_setCore _ _ (by decide)) _ _

theorem Dev.keepsRegs_clearCores (l : List Nat) (d : Dev) (cl : Nat) : KeepsRegs l d (d.clearCores cl) :=
  KeepsRegs.foldl (fun d _ => d.keepsRegs_setCore l _ _) _ _

theorem Dev.core_foldl_setCore (ks : List Nat) (d : Dev) (cl j : Nat) :
    (ks.foldl (fun d k => d.setCore (cl * 8 + k) {}) d).core j = if ∃ k ∈ ks, j = cl * 8 + k then {} else d.core j := by
  induction ks generalizing d with
  | nil => simp
  | cons k ks ih =>
    rw [List.foldl_cons, ih, Dev.core_setCore]
    by_cases h : j = cl * 8 + k <;> simp [h]

theorem Dev.core_clearCores (d : Dev) (cl j : Nat) : (d.clearCores cl).core j = if j / 8 = cl then {} else d.core j := by
  have hiff : (∃ k ∈ List.range 8, j = cl * 8 + k) ↔ j / 8 = cl :=
    ⟨fun ⟨k, hk, hj⟩ => by have := List.mem_range.mp hk; omega, fun h => ⟨j % 8, List.mem_range.mpr (by omega), by omega⟩⟩
  rw [Dev.clearCores, Dev.core_foldl_setCore]
  simp only [hiff]

theorem Dev.scrubbed_false (d : Dev) (cl : Nat) : d.scrubbed false cl =
    ((d.clearCores cl).put (fClState cl) (if (d.clearCores cl).fld (fSite cl) = 0xE then 3 else 0)).put (fClSlice cl) 0 := rfl

theorem Dev.keeps_scrubbed (d : Dev) (cl : Nat) : Keeps [.cores] d (d.scrubbed false cl) :=
  (d.keeps_clearCores cl).trans ((Dev.keeps_put _ _ _ _).trans (Dev.keeps_put _ _ _ _))

theorem Dev.keepsRegs_scrubbed (d : Dev) (cl : Nat) : KeepsRegs [clReg cl] d (d.scrubbed false cl) := by
  have hstate : (fClState cl).addr ∈ [clReg cl] := List.mem_cons_self
  have hslice : (fClSlice cl).addr ∈ [clReg cl] := List.mem_cons_self
  rw [Dev.scrubbed_false]
  exact (d.keepsRegs_clearCores _ cl).trans ((Dev.keepsRegs_put _ _ hstate).trans (Dev.keepsRegs_put _ _ hslice))

theorem Dev.core_scrubbed (d : Dev) (cl j : Nat) : (d.scrubbed false cl).core j = if j / 8 = cl then {} else d.core j :=
  d.core_clearCores cl j

theorem Dev.fClState_scrubbed {d : Dev} {cl : Nat} (c : Nat) (hsite : d.fld (fSite cl) ≠ 0xE) :
    (d.scrubbed false cl).fld (fClState c) = if c = cl then 0 else d.fld (fClState c) := by
  have hkept : ∀ f, (d.clearCores cl).fld f = d.fld f := fun f => (d.keepsRegs_clearCores [] cl).fld List.not_mem_nil
  rw [Dev.scrubbed_false, fClState_putSlice, fClState_put, hkept, hkept, if_neg hsite]

theorem Dev.fClSlice_scrubbed (d : Dev) (c cl : Nat) : (d.scrubbed false cl).fld (fClSlice c) = if c = cl then 0 else d.fld (fClSlice c) := by
  have hkept : (d.clearCores cl).fld (fClSlice c) = d.fld (fClSlice c) := (d.keepsRegs_clearCores [] cl).fld List.not_mem_nil
  rw [Dev.scrubbed_false, fClSlice_put, fClSlice_putState, hkept]

/-! ### Several clusters -/

/-- A cluster is free and its cores are as at reset. -/
def Dev.freed (d : Dev) (c : Nat) : Prop := d.fld (fClState c) = 0 ∧ d.fld (fClSlice c) = 0 ∧ ∀ k, k < 8 → d.core (c * 8 + k) = {}

theorem Dev.freed_scrubbed {d : Dev} {cl c : Nat} (hsite : d.fld (fSite cl) ≠ 0xE) (h : c = cl ∨ d.freed c) : (d.scrubbed false cl).freed c := by
  refine ⟨?_, ?_, fun k hk => ?_⟩
  · rw [Dev.fClState_scrubbed c hsite]
    split
    · rfl
    · exact (h.resolve_left ‹_›).1
  · rw [Dev.fClSlice_scrubbed]
    split
    · rfl
    · exact (h.resolve_left ‹_›).2.1
  · rw [Dev.core_scrubbed]
    split
    · rfl
    · rename_i hne
      exact (h.resolve_left (fun he => hne (by omega))).2.2 k hk

/-- CFG.SITE_MAPn is none of the clusters' registers. -/
theorem Dev.fSite_scrubbed (d : Dev) (c cl : Nat) (hcl : cl < 72) : (d.scrubbed false cl).fld (fSite c) = d.fld (fSite c) :=
  (d.keepsRegs_scrubbed cl).fld (by simp only [fSite, clReg, regAddr, List.mem_singleton]; omega)

theorem Dev.freed_foldl {cls : List Nat} {d : Dev} {c : Nat} (hlt : ∀ x ∈ cls, x < 72) (hsite : ∀ x ∈ cls, d.fld (fSite x) ≠ 0xE)
    (h : c ∈ cls ∨ d.freed c) : (cls.foldl (fun d c => d.scrubbed false c) d).freed c := by
  induction cls generalizing d with
  | nil => exact h.resolve_left List.not_mem_nil
  | cons cl cls ih =>
    have hcl := hsite cl List.mem_cons_self
    rw [List.foldl_cons]
    refine ih (fun x hx => hlt x (List.mem_cons_of_mem cl hx)) (fun x hx => ?_) ?_
    · rw [Dev.fSite_scrubbed d x cl (hlt cl List.mem_cons_self)]
      exact hsite x (List.mem_cons_of_mem cl hx)
    · rcases h with h | h
      · rcases List.mem_cons.mp h with rfl | h
        · exact .inr (Dev.freed_scrubbed hcl (.inl rfl))
        · exact .inl h
      · exact .inr (Dev.freed_scrubbed hcl (.inr h))

/-! ### What follows the scrubs -/

theorem Dev.keeps_afterScrub (d : Dev) : Keeps [.pwr] d d.afterScrub := by
  have hlift : ∀ e v, Keeps [.pwr] e (({ e with pwr := v } : Dev).put ⟨regAddr 11 0, 1, 0⟩
      (match e.fld fPark with | 1 => 1 | 2 => 2 | 0 => 0 | _ => 3)) := fun e v => (e.keeps_setPwr v (by decide)).trans (Dev.keeps_put _ _ _ _)
  refine (Keeps.ite (hlift d _) (Keeps.refl _ d)).trans (Keeps.ite ?_ (Keeps.refl _ _))
  exact (((Dev.keeps_setPwr _ _ (by decide)).trans (Dev.keeps_setReg _ _ _ _)).trans (Dev.keeps_put _ _ _ _)).trans (Dev.keeps_setPwr _ _ (by decide))

/-- The registers that what follows scrubs may set: the fences, the clock mode and the regions clocked. -/
def afterScrubRegs : List Nat := [regAddr 11 0, regAddr 2 0x0C, regAddr 2 0]

theorem Dev.keepsRegs_setPwr (l : List Nat) (d : Dev) (w : PwrSt) : KeepsRegs l d { d with pwr := w } := KeepsRegs.of_regs_eq l rfl

theorem Dev.keepsRegs_afterScrub (d : Dev) : KeepsRegs afterScrubRegs d d.afterScrub := by
  refine (KeepsRegs.ite ((d.keepsRegs_setPwr _ _).trans (Dev.keepsRegs_put _ _ (by decide))) (KeepsRegs.refl _ d)).trans
    (KeepsRegs.ite ?_ (KeepsRegs.refl _ _))
  exact (((Dev.keepsRegs_setPwr _ _ _).trans (Dev.keepsRegs_setReg _ _ (by decide))).trans (Dev.keepsRegs_put _ _ (by decide))).trans
    (Dev.keepsRegs_setPwr _ _ _)

/-- The device once the scrub of clusters that no slice keeps has ended. -/
def Dev.scrubEnd (d : Dev) (sid : Nat) (cls : List Nat) : Dev :=
  let e := (cls.foldl (fun d c => d.scrubbed false c) d).cleanRows cls
  let done := mapIf (fun (r : Repair) => r.slice == sid && r.tested) (fun r => { r with scrubbed := true }) e.hlth.repairs
  (({ e with hlth := { e.hlth with repairs := done } } : Dev).event 8 10 (cls ++ [sid])).afterScrub

theorem exec_scrubComplete {s : State} {slice : SliceId} (hslice : s.dev.slice? slice.toNat = none)
    (hcls : s.dev.clustersIn 2 slice.toNat ≠ []) (hfailed : s.dev.failed = false)
    (hclk : ∀ c ∈ s.dev.clustersIn 2 slice.toNat, s.dev.clocked (clRegion c) = true) :
    exec (.scrubComplete slice []) s = ok { s with
      mem := (s.dev.clustersIn 2 slice.toNat).foldl scrubMem s.mem,
      dev := s.dev.scrubEnd slice.toNat (s.dev.clustersIn 2 slice.toNat) } := by
  have hany : (s.dev.clustersIn 2 slice.toNat).any (fun c => !s.dev.clocked (clRegion c)) = false :=
    List.any_eq_false.mpr (fun c hc => by simp [hclk c hc])
  show execScrubComplete slice [] s = _
  simp [execScrubComplete, hslice, hcls, hfailed, hany, Dev.scrubEnd]

end Sys2Proof.Machine
end

section
/-! The end of a slice's scrub (06 R225, R226). -/

namespace Sys2Proof.Machine

theorem Dev.mem_clustersIn {d : Dev} {st sid c : Nat} :
    c ∈ d.clustersIn st sid ↔ c < 72 ∧ d.fld (fClState c) = st ∧ d.fld (fClSlice c) = sid := by
  simp [Dev.clustersIn, List.mem_filter, List.mem_range]

/-- The end of the scrub from the clusters freed on. -/
theorem Dev.keeps_scrubEnd_tail (d : Dev) (sid : Nat) (cls : List Nat) :
    Keeps [.hlth, .pwr, .sessions] (cls.foldl (fun d c => d.scrubbed false c) d) (d.scrubEnd sid cls) :=
  ((Dev.keeps_setHlth _ _ (by decide)).trans (Dev.keeps_setHlth _ _ (by decide))).trans
    ((Dev.keeps_event _ _ _ _ (by decide)).trans ((Dev.keeps_afterScrub _).weaken (by decide)))

theorem Dev.keepsRegs_scrubEnd_tail (d : Dev) (sid : Nat) (cls : List Nat) :
    KeepsRegs (afterScrubRegs ++ eventRegs 8) (cls.foldl (fun d c => d.scrubbed false c) d) (d.scrubEnd sid cls) :=
  ((Dev.keepsRegs_setHlth _ _ _).trans (Dev.keepsRegs_setHlth _ _ _)).trans
    ((Dev.keepsRegs_event _ _ _ (fun _ h => List.mem_append_right _ h)).trans
      ((Dev.keepsRegs_afterScrub _).weaken (fun _ h => List.mem_append_left _ h)))

/-- What the end of the scrub leaves of the device but its cores, its health, its rails and its sessions. -/
theorem Dev.keeps_scrubEnd (d : Dev) (sid : Nat) (cls : List Nat) : Keeps [.cores, .hlth, .pwr, .sessions] d (d.scrubEnd sid cls) := by
  have hfold : Keeps [.cores, .hlth, .pwr, .sessions] d (cls.foldl (fun d c => d.scrubbed false c) d) :=
    Keeps.foldl (fun d c => (d.keeps_scrubbed c).weaken (by decide)) _ _
  exact hfold.trans ((d.keeps_scrubEnd_tail sid cls).weaken (by decide))

/-- The clusters are free, whatever else the end of the scrub does. -/
theorem Dev.freed_scrubEnd {d : Dev} (sid : Nat) {cls : List Nat} {c : Nat} (hlt : ∀ x ∈ cls, x < 72) (hsite : ∀ x ∈ cls, d.fld (fSite x) ≠ 0xE)
    (h : c ∈ cls) : (d.scrubEnd sid cls).freed c := by
  obtain ⟨hstate, hslice, hcores⟩ := Dev.freed_foldl hlt hsite (.inl h)
  have hkeeps := d.keeps_scrubEnd_tail sid cls
  have hregs := d.keepsRegs_scrubEnd_tail sid cls
  have hreg : clReg c ∉ afterScrubRegs ++ eventRegs 8 := by
    have := hlt c h
    simp only [clReg, afterScrubRegs, eventRegs, eventReg, regAddr, List.mem_append, List.mem_cons, List.not_mem_nil, or_false]
    omega
  exact ⟨(hregs.fld hreg).trans hstate, (hregs.fld hreg).trans hslice, fun k hk => (hkeeps.core (by decide) _).trans (hcores k hk)⟩

/-- SCRUB_DONE is reported. -/
theorem Dev.saw_scrubEnd (d : Dev) (sid : Nat) (cls : List Nat) : (d.scrubEnd sid cls).saw 8 10 = true :=
  ((Dev.keepsRegs_afterScrub _).saw 10 (by decide)).trans (Dev.saw_event_same _ _ _ _ (by decide) (by decide))

/-- The check bits of the clusters' rows are valid. -/
theorem State.clean_scrubEnd (s : State) (m : List Host.Cell) (sid : Nat) {cls : List Nat} {g : Nat} (hg : graCluster g ∈ cls) :
    ({ s with mem := m, dev := s.dev.scrubEnd sid cls } : State).clean g = true := by
  have hhlth : ∀ e : Dev, e.afterScrub.hlth = e.hlth := fun e => e.keeps_afterScrub .hlth (by decide)
  simp [State.clean, Dev.scrubEnd, hhlth, Dev.cleanRows, hg]

theorem ends_scrubComplete {s : State} {slice : SliceId} (hmem : memWf s.mem = true) (hslice : s.dev.slice? slice.toNat = none)
    (hcls : s.dev.clustersIn 2 slice.toNat ≠ []) (hfailed : s.dev.failed = false)
    (hok : ∀ c ∈ s.dev.clustersIn 2 slice.toNat, s.dev.clocked (clRegion c) = true ∧ s.dev.fld (fSite c) ≠ 0xE) :
    Ends (.scrubComplete slice []) s fun t =>
      (∀ c ∈ s.dev.clustersIn 2 slice.toNat, t.dev.fld (fClState c) = 0 ∧ t.dev.fld (fClSlice c) = 0 ∧
        (∀ g, graValid g = true → graCluster g = c → readRow t.mem g = 0 ∧ t.clean g = true) ∧ ∀ k, k < 8 → t.dev.core (c * 8 + k) = {}) ∧
      (∀ a, graValid (a / 512) = true → graCluster (a / 512) ∉ s.dev.clustersIn 2 slice.toNat → memByte t.mem a = memByte s.mem a) ∧
      t.dev.saw 8 10 = true ∧ Keeps [.cores, .hlth, .pwr, .sessions] s.dev t.dev := by
  have hlt : ∀ c ∈ s.dev.clustersIn 2 slice.toNat, c < 72 := fun c hc => (Dev.mem_clustersIn.mp hc).1
  refine ⟨_, exec_scrubComplete hslice hcls hfailed (fun c hc => (hok c hc).1), rfl, fun c hc => ?_, fun a _ ha => ?_, ?_, ?_⟩
  · obtain ⟨hstate, hsl, hcores⟩ := Dev.freed_scrubEnd slice.toNat hlt (fun x hx => (hok x hx).2) hc
    refine ⟨hstate, hsl, fun g hg hgc => ⟨?_, ?_⟩, hcores⟩
    · exact readRow_scrubbed hmem hg (.inl (hgc ▸ hc))
    · exact s.clean_scrubEnd _ _ (hgc ▸ hc)
  · exact memByte_scrubbed_other hmem hlt ha
  · exact Dev.saw_scrubEnd _ _ _
  · exact Dev.keeps_scrubEnd _ _ _

end Sys2Proof.Machine
end

section
/-! SUPPORT. What is to be told to sessions (12 R384, R396): a session goes on when what it has to send stays to be sent. -/

namespace Sys2Proof.Machine

/-! ### One session -/

/-- The bodies sent and not acknowledged, and those that wait. -/
def Session.bodies (x : Session) : List OutBody := x.sent.map (fun m => m.body) ++ x.waitQ

/-- What the window can still take leaves SEQ below its end (Table 12.5). -/
def Session.fits (x : Session) : Prop := x.txSeq + (256 - x.sent.length) < 2 ^ 48

theorem Session.fits_of_fresh {x : Session} (h : x.fresh) : x.fits := by
  simp only [Session.fresh, Session.fits] at *
  omega

/-- A body that no close of a stream takes back. -/
def OutBody.lasts (b : OutBody) : Prop := ∀ stream, isResult stream b = false

theorem OutBody.result_lasts (refSeq code item : Nat) (data : List Byte) : (OutBody.result refSeq code item data).lasts := fun _ => rfl

/-- A session later: the same session, its SEQ still short of its end, and what it had to send sent or still to be sent. -/
structure Session.GoesOn (x y : Session) : Prop where
  sameId : y.id = x.id
  fits : x.fits → y.fits
  bodies : ∀ b : OutBody, b.lasts → b ∈ x.bodies → b ∈ y.bodies

theorem Session.GoesOn.refl (x : Session) : x.GoesOn x := ⟨rfl, fun h => h, fun _ _ h => h⟩

theorem Session.GoesOn.trans {x y z : Session} (h : x.GoesOn y) (k : y.GoesOn z) : x.GoesOn z :=
  ⟨k.sameId.trans h.sameId, fun hx => k.fits (h.fits hx), fun b hb hx => k.bodies b hb (h.bodies b hb hx)⟩

theorem Session.GoesOn.foldl {α : Type} {f : Session → α → Session} (h : ∀ (x : Session) a, x.GoesOn (f x a)) (l : List α) (x : Session) :
    x.GoesOn (l.foldl f x) := by
  induction l generalizing x with
  | nil => exact .refl x
  | cons a l ih => exact (h x a).trans (ih (f x a))

/-- What the window takes keeps its order and leaves its room (12 R384). -/
theorem Session.goesOn_pump (x : Session) (at_ : SendAt) : x.GoesOn (x.pump at_) := by
  unfold Session.pump
  dsimp only
  generalize hroom : (if at_.paused.contains x.hp then 0 else min (256 - x.sent.length) (2 ^ 48 - x.txSeq)) = room
  have hle : room ≤ 256 - x.sent.length := by rw [← hroom]; split <;> omega
  refine ⟨rfl, fun hx => ?_, fun b _ hb => ?_⟩
  · simp only [Session.fits, List.length_append, List.length_map, List.length_zipIdx, List.length_take] at hx ⊢
    omega
  · simp only [Session.bodies, List.mem_append, List.map_append, List.map_map] at hb ⊢
    rcases hb with hb | hb
    · exact .inl (.inl hb)
    · have hdrop : x.waitQ.drop (x.waitQ.take room).length = x.waitQ.drop room := by
        rw [List.length_take]
        rcases Nat.le_total room x.waitQ.length with h | h
        · rw [Nat.min_eq_left h]
        · rw [Nat.min_eq_right h, List.drop_length, List.drop_eq_nil_of_le h]
      rw [hdrop]
      rw [← List.take_append_drop room x.waitQ, List.mem_append] at hb
      rcases hb with hb | hb
      · refine .inl (.inr ?_)
        have hmem : b ∈ (x.waitQ.take room ++ (x.evq.take (room - (x.waitQ.take room).length)).map OutBody.event) := List.mem_append_left _ hb
        obtain ⟨i, hi, rfl⟩ := List.mem_iff_getElem.mp hmem
        refine List.mem_map.mpr ⟨(_, i), List.mem_zipIdx_iff_getElem?.mpr (List.getElem?_eq_getElem hi), rfl⟩
      · exact .inr hb

theorem Session.goesOn_queueEvent (at_ : SendAt) (e : EventMsg) (x : Session) : x.GoesOn (queueEvent at_ e x) := by
  unfold queueEvent
  split
  · have hq : x.GoesOn { x with evq := x.evq ++ [e] } := ⟨rfl, fun h => h, fun _ _ h => h⟩
    exact hq.trans (Session.goesOn_pump _ at_)
  · exact ⟨rfl, fun h => h, fun _ _ h => h⟩

/-- A close of a stream takes back its results alone (12 R391). -/
theorem Session.goesOn_dropResults (x : Session) (stream : Nat) :
    x.GoesOn { x with waitQ := x.waitQ.filter (fun b => !isResult stream b) } := by
  refine ⟨rfl, fun h => h, fun b hb hx => ?_⟩
  simp only [Session.bodies, List.mem_append, List.mem_filter] at hx ⊢
  exact hx.imp_right (fun h => ⟨h, by simp [hb stream]⟩)

/-- A body queued. -/
theorem Session.goesOn_enqueue (x : Session) (b : OutBody) (at_ : SendAt) : x.GoesOn ({ x with waitQ := x.waitQ ++ [b] }.pump at_) := by
  have hq : x.GoesOn { x with waitQ := x.waitQ ++ [b] } :=
    ⟨rfl, fun h => h, fun _ _ h => by rw [Session.bodies, ← List.append_assoc]; exact List.mem_append_left _ h⟩
  exact hq.trans (Session.goesOn_pump _ at_)

theorem Session.mem_enqueue (x : Session) {b : OutBody} (hb : b.lasts) (at_ : SendAt) :
    b ∈ ({ x with waitQ := x.waitQ ++ [b] }.pump at_).bodies :=
  (Session.goesOn_pump _ at_).bodies b hb (by simp [Session.bodies])

/-! ### The sessions of a device -/

/-- Every session of a device goes on. -/
def SessionsGoOn (d e : Dev) : Prop := ∃ f : Session → Session, (∀ x : Session, x.GoesOn (f x)) ∧ e.tel.sessions = d.tel.sessions.map f

theorem SessionsGoOn.of_eq {d e : Dev} (h : e.tel.sessions = d.tel.sessions) : SessionsGoOn d e :=
  ⟨id, Session.GoesOn.refl, by rw [h, List.map_id]⟩

theorem SessionsGoOn.trans {d e k : Dev} (h : SessionsGoOn d e) (hk : SessionsGoOn e k) : SessionsGoOn d k := by
  obtain ⟨f, hf, he⟩ := h
  obtain ⟨g, hg, hk⟩ := hk
  exact ⟨g ∘ f, fun x => (hf x).trans (hg (f x)), by rw [hk, he, List.map_map]⟩

theorem SessionsGoOn.of_mapIf {d e : Dev} {p : Session → Bool} {f : Session → Session} (hf : ∀ x : Session, x.GoesOn (f x))
    (h : e.tel.sessions = mapIf p f d.tel.sessions) : SessionsGoOn d e := by
  refine ⟨fun x => if p x then f x else x, fun x => ?_, h⟩
  dsimp only
  split
  · exact hf x
  · exact .refl x

/-- A session is found again, and has gone on. -/
theorem SessionsGoOn.session? {d e : Dev} (h : SessionsGoOn d e) (id : Nat) :
    ∃ f : Session → Session, (∀ x : Session, x.GoesOn (f x)) ∧ e.session? id = (d.session? id).map f := by
  obtain ⟨f, hf, he⟩ := h
  refine ⟨f, hf, ?_⟩
  have hp : (fun x : Session => x.id == id) ∘ f = fun x => x.id == id := funext fun x => by simp [(hf x).sameId]
  rw [Dev.session?, Dev.session?, he, List.find?_map, hp]

theorem SessionsGoOn.isSome {d e : Dev} (h : SessionsGoOn d e) (id : Nat) : (e.session? id).isSome = (d.session? id).isSome := by
  obtain ⟨f, -, he⟩ := h.session? id
  rw [he, Option.isSome_map]

/-- Every session with an ID is far enough from the end of its SEQ. -/
def Dev.sessionFits (d : Dev) (id : Nat) : Prop := ∀ x, d.session? id = some x → x.fits

theorem SessionsGoOn.sessionFits {d e : Dev} (h : SessionsGoOn d e) {id : Nat} (hd : d.sessionFits id) : e.sessionFits id := by
  obtain ⟨f, hf, he⟩ := h.session? id
  intro y hy
  rw [he] at hy
  obtain ⟨x, hx, rfl⟩ := Option.map_eq_some_iff.mp hy
  exact (hf x).fits (hd x hx)

theorem Dev.outbox_eq (d : Dev) (id : Nat) : d.outbox id = ((d.session? id).map Session.bodies).getD [] := by
  unfold Dev.outbox
  split <;> simp_all [Session.bodies]

/-- What is told stays told. -/
theorem SessionsGoOn.told {d e : Dev} (h : SessionsGoOn d e) {id : Nat} {b : OutBody} (hb : b.lasts) (hd : d.told id b) : e.told id b := by
  obtain ⟨f, hf, he⟩ := h.session? id
  simp only [Dev.told, Dev.outbox_eq, he] at hd ⊢
  cases hx : d.session? id with
  | none => simp [hx] at hd
  | some x => exact (hf x).bodies b hb (by simpa [hx] using hd)

/-! ### Bodies sent -/

theorem Dev.sessionsGoOn_enqueue (d : Dev) (id : Nat) (b : OutBody) : SessionsGoOn d (d.enqueue id b) :=
  .of_mapIf (fun x => x.goesOn_enqueue b d.sendAt) rfl

/-- Far from the end of SEQ no session closes by its answer. -/
theorem Dev.seqEnd_of_fits {d : Dev} {id : Nat} (h : d.sessionFits id) : d.seqEnd id = d := by
  unfold Dev.seqEnd
  split
  next x hx =>
    have := h x hx
    simp only [Session.fits] at this
    exact if_neg (fun hn => by omega)
  next => rfl

theorem Dev.post_eq_enqueue {d : Dev} {id : Nat} (b : OutBody) (h : d.sessionFits id) : d.post id b = d.enqueue id b :=
  Dev.seqEnd_of_fits ((d.sessionsGoOn_enqueue id b).sessionFits h)

/-- A body queued to a session that stands is told. -/
theorem Dev.told_enqueue {d : Dev} {id : Nat} {b : OutBody} (hb : b.lasts) (h : (d.session? id).isSome = true) : (d.enqueue id b).told id b := by
  obtain ⟨x, hx⟩ := Option.isSome_iff_exists.mp h
  have hid : (x.id == id) = true := by simpa using List.find?_some hx
  have hfind : (d.enqueue id b).session? id = some ({ x with waitQ := x.waitQ ++ [b] }.pump d.sendAt) := by
    have hp : (fun x : Session => x.id == id) ∘ (fun x : Session => if x.id == id then { x with waitQ := x.waitQ ++ [b] }.pump d.sendAt else x) =
        fun x => x.id == id := funext fun x => by
      dsimp only [Function.comp]
      split
      · rfl
      · rfl
    have : (d.enqueue id b).session? id = (d.session? id).map (fun x => if x.id == id then { x with waitQ := x.waitQ ++ [b] }.pump d.sendAt else x) := by
      rw [Dev.session?, Dev.session?, Dev.enqueue, Dev.updSession, mapIf, List.find?_map, hp]
    rw [this, hx, Option.map_some, if_pos hid]
  simp only [Dev.told, Dev.outbox_eq, hfind]
  exact x.mem_enqueue hb d.sendAt

end Sys2Proof.Machine
end

section
/-! SUPPORT. Changes that leave most of the device, what the slices are, and what the sessions are to be told. -/

namespace Sys2Proof.Machine

/-- What identifies a slice and says how far its life has come, with the requests that wait for its stop. -/
def Slice.face (x : Slice) : Nat × Nat × Bool × Bool × Option Nat × List (Nat × Nat) :=
  (x.id, x.key, x.running, x.launched, x.stopping, x.stopReq)

/-- Every slice is what it was. -/
def SlicesAgree (d e : Dev) : Prop := e.slices.map Slice.face = d.slices.map Slice.face

theorem SlicesAgree.trans {d e k : Dev} (h : SlicesAgree d e) (hk : SlicesAgree e k) : SlicesAgree d k := Eq.trans hk h

theorem SlicesAgree.of_eq {d e : Dev} (h : e.slices = d.slices) : SlicesAgree d e := by rw [SlicesAgree, h]

/-- A slice is found again, and is what it was. -/
theorem SlicesAgree.slice? {d e : Dev} (h : SlicesAgree d e) (id : Nat) : (e.slice? id).map Slice.face = (d.slice? id).map Slice.face := by
  have hp : (fun x : Slice => x.id == id) = (fun v : Nat × Nat × Bool × Bool × Option Nat × List (Nat × Nat) => v.1 == id) ∘ Slice.face := rfl
  rw [Dev.slice?, Dev.slice?, hp, ← List.find?_map, ← List.find?_map, h]

theorem SlicesAgree.slice?_some {d e : Dev} (h : SlicesAgree d e) {id : Nat} {x : Slice} (hx : d.slice? id = some x) :
    ∃ y, e.slice? id = some y ∧ y.face = x.face := by
  have hf := h.slice? id
  rw [hx] at hf
  exact Option.map_eq_some_iff.mp hf

/-- A change to one slice that leaves what it is. -/
theorem Dev.slicesAgree_updSlice (d : Dev) (id : Nat) {f : Slice → Slice} (hf : ∀ x, (f x).face = x.face) : SlicesAgree d (d.updSlice id f) := by
  rw [SlicesAgree, Dev.updSlice_slices, mapIf, List.map_map]
  refine List.map_congr_left (fun x _ => ?_)
  dsimp only [Function.comp]
  split
  · exact hf x
  · rfl

/-- A change to a device: the parts and the registers that it may set; every slice stays what it was, and every session goes on. -/
structure Leaves (l : List Component) (r : List Nat) (d e : Dev) : Prop where
  keeps : Keeps l d e
  regs : KeepsRegs r d e
  slices : SlicesAgree d e
  sessions : SessionsGoOn d e

namespace Leaves

variable {l l' : List Component} {r r' : List Nat} {d e k : Dev}

theorem refl (l : List Component) (r : List Nat) (d : Dev) : Leaves l r d d := ⟨.refl l d, .refl r d, .of_eq rfl, .of_eq rfl⟩

theorem trans (h : Leaves l r d e) (hk : Leaves l r e k) : Leaves l r d k :=
  ⟨h.keeps.trans hk.keeps, h.regs.trans hk.regs, h.slices.trans hk.slices, h.sessions.trans hk.sessions⟩

theorem weaken (h : Leaves l r d e) (hl : ∀ p ∈ l, p ∈ l') (hr : ∀ a ∈ r, a ∈ r') : Leaves l' r' d e :=
  ⟨h.keeps.weaken hl, h.regs.weaken hr, h.slices, h.sessions⟩

theorem ite {c : Prop} [Decidable c] {x : Dev} (hd : Leaves l r x d) (he : Leaves l r x e) : Leaves l r x (if c then d else e) := by
  split <;> assumption

theorem foldl {α : Type} {f : Dev → α → Dev} (h : ∀ d x, Leaves l r d (f d x)) (xs : List α) (d : Dev) : Leaves l r d (xs.foldl f d) := by
  induction xs generalizing d with
  | nil => exact refl l r d
  | cons x xs ih => exact (h d x).trans (ih (f d x))

/-- A change that keeps the slices and the sessions. -/
theorem of_keeps (h : Keeps l d e) (hr : KeepsRegs r d e) (hs : .slices ∉ l) (hx : .sessions ∉ l) : Leaves l r d e :=
  ⟨h, hr, .of_eq (h .slices hs), .of_eq (h .sessions hx)⟩

/-- A register set. -/
theorem setReg (l : List Component) (d : Dev) {a : Nat} (v : Nat) (h : a ∈ r) : Leaves l r d (d.setReg a v) :=
  ⟨d.keeps_setReg l a v, d.keepsRegs_setReg v h, .of_eq rfl, .of_eq rfl⟩

theorem put (l : List Component) (d : Dev) {f : Fld} (v : Nat) (h : f.addr ∈ r) : Leaves l r d (d.put f v) := setReg l d _ h

theorem bump (l : List Component) (d : Dev) {a : Nat} (n : Nat) (h : a ∈ r) : Leaves l r d (d.bump a n) := setReg l d _ h

/-- An event reaches the sessions that subscribe its block. -/
theorem event (d : Dev) {b : Nat} (bit : Nat) (args : List Nat) (hl : .sessions ∈ l) (hr : ∀ a ∈ eventRegs b, a ∈ r) :
    Leaves l r d (d.event b bit args) :=
  ⟨d.keeps_event b bit args hl, d.keepsRegs_event bit args hr, .of_eq rfl, .of_mapIf (fun x => x.goesOn_queueEvent _ _) rfl⟩

/-- A slice changed in what it is not known by. -/
theorem updSlice (d : Dev) (id : Nat) {f : Slice → Slice} (hf : ∀ x, (f x).face = x.face) (hl : .slices ∈ l) : Leaves l r d (d.updSlice id f) :=
  ⟨d.keeps_updSlice id f hl, d.keepsRegs_updSlice r id f, d.slicesAgree_updSlice id hf, .of_eq rfl⟩

theorem updCore (d : Dev) (j : Nat) (f : CoreSt → CoreSt) (hl : .cores ∈ l) : Leaves l r d (d.updCore j f) :=
  ⟨d.keeps_updCore j f hl, d.keepsRegs_updCore r j f, .of_eq rfl, .of_eq rfl⟩

/-- A change of the mesh, the fabric, the library's engine, or health alone. -/
theorem setNet (d : Dev) (n : NetSt) (hl : .net ∈ l) : Leaves l r d { d with net := n } :=
  ⟨d.keeps_setNet n hl, .of_regs_eq r rfl, .of_eq rfl, .of_eq rfl⟩

theorem setFab (d : Dev) (f : FabSt) (hl : .fab ∈ l) : Leaves l r d { d with fab := f } :=
  ⟨d.keeps_setFab f hl, .of_regs_eq r rfl, .of_eq rfl, .of_eq rfl⟩

theorem setHlth (d : Dev) (h : HealthSt) (hl : .hlth ∈ l) : Leaves l r d { d with hlth := h } :=
  ⟨d.keeps_setHlth h hl, .of_regs_eq r rfl, .of_eq rfl, .of_eq rfl⟩

theorem setVault (d : Dev) (v : VaultSt) (hl : .vault ∈ l) : Leaves l r d { d with vault := v } :=
  ⟨fun p hp => by cases p <;> first | rfl | exact absurd hl hp | exact ⟨rfl, rfl, rfl⟩, .of_regs_eq r rfl, .of_eq rfl, .of_eq rfl⟩

/-- The streams changed. -/
theorem setStreams (d : Dev) (xs : List Stream) (hl : .teller ∈ l) : Leaves l r d { d with tel := { d.tel with streams := xs } } :=
  ⟨fun p hp => by cases p <;> first | rfl | exact absurd hl hp | exact ⟨rfl, rfl, rfl⟩, .of_regs_eq r rfl, .of_eq rfl, .of_eq rfl⟩

/-- The sessions changed, each going on. -/
theorem mapSessions (d : Dev) (p : Session → Bool) {f : Session → Session} (hf : ∀ x : Session, x.GoesOn (f x)) (hl : .sessions ∈ l) :
    Leaves l r d { d with tel := { d.tel with sessions := mapIf p f d.tel.sessions } } :=
  ⟨fun p hp => by cases p <;> first | rfl | exact absurd hl hp | exact ⟨rfl, rfl, rfl⟩, .of_regs_eq r rfl, .of_eq rfl, .of_mapIf hf rfl⟩

theorem enqueue (d : Dev) (id : Nat) (b : OutBody) (hl : .sessions ∈ l) : Leaves l r d (d.enqueue id b) :=
  mapSessions d _ (fun x => x.goesOn_enqueue b d.sendAt) hl

/-- An answer to a session far from the end of its SEQ. -/
theorem post {d : Dev} {id : Nat} (b : OutBody) (h : d.sessionFits id) (hl : .sessions ∈ l) : Leaves l r d (d.post id b) := by
  rw [Dev.post_eq_enqueue b h]
  exact enqueue d id b hl

/-- A cause of a hold cleared. -/
theorem clearCause (d : Dev) (sid cause : Nat) : Leaves [.slices, .sessions] clearRegs d (d.clearCause sid cause) := by
  unfold Dev.clearCause
  split
  · split
    · refine ite (updSlice d _ (by intro; rfl) (by decide)) (ite ?_ (updSlice d _ (by intro; rfl) (by decide)))
      exact ((updSlice d _ (by intro; rfl) (by decide)).trans (bump _ _ _ (by decide))).trans (event _ _ _ (by decide) (by decide))
    · exact refl _ _ d
  · exact refl _ _ d

end Leaves

/-! ### Answers to several requests -/

/-- The results of requests, each to its session. -/
def Dev.tellAll (d : Dev) (data : List Byte) (l : List (Nat × Nat)) : Dev :=
  l.foldl (fun d y => d.post y.1 (.result y.2 0 0xFFFFFFFF data)) d

/-- Far from the end of their SEQ, the sessions go on. -/
theorem Dev.leaves_tellAll {l : List (Nat × Nat)} {d : Dev} (data : List Byte) (h : ∀ y ∈ l, d.sessionFits y.1) :
    Leaves [.sessions] [] d (d.tellAll data l) := by
  induction l generalizing d with
  | nil => exact .refl _ _ d
  | cons y l ih =>
    have hpost : Leaves [.sessions] [] d (d.post y.1 (.result y.2 0 0xFFFFFFFF data)) := .post _ (h y List.mem_cons_self) (by decide)
    exact hpost.trans (ih (fun z hz => hpost.sessions.sessionFits (h z (List.mem_cons_of_mem y hz))))

/-- Each request whose session stands is answered. -/
theorem Dev.told_tellAll {l : List (Nat × Nat)} {d : Dev} (data : List Byte) (h : ∀ y ∈ l, d.sessionFits y.1) :
    ∀ y ∈ l, (d.session? y.1).isSome = true → (d.tellAll data l).told y.1 (.result y.2 0 0xFFFFFFFF data) := by
  induction l generalizing d with
  | nil => exact fun y hy => absurd hy List.not_mem_nil
  | cons z l ih =>
    have hz := h z List.mem_cons_self
    have hpost : Leaves [.sessions] [] d (d.post z.1 (.result z.2 0 0xFFFFFFFF data)) := .post _ hz (by decide)
    have hrest : ∀ y ∈ l, (d.post z.1 (.result z.2 0 0xFFFFFFFF data)).sessionFits y.1 :=
      fun y hy => hpost.sessions.sessionFits (h y (List.mem_cons_of_mem z hy))
    intro y hy hsome
    rcases List.mem_cons.mp hy with rfl | hy
    · have htold := Dev.told_enqueue (OutBody.result_lasts y.2 0 0xFFFFFFFF data) hsome
      rw [← Dev.post_eq_enqueue _ hz] at htold
      exact (Dev.leaves_tellAll data hrest).sessions.told (OutBody.result_lasts _ _ _ _) htold
    · exact ih hrest y hy ((hpost.sessions.isSome y.1).trans hsome)

/-! ### Streams that close -/

/-- The results that a stream has not sent are dropped and counted, and its other bodies wait for their session (12 R391). -/
def Dev.closeQueue (d : Dev) (st : Stream) (id : Nat) : Dev :=
  let frames := match d.session? st.session with
    | some x => (((x.waitQ ++ st.later).filter (isResult id)).map OutBody.frame).eraseDups
    | none => []
  let d := d.bump (regAddr 12 0x6C) frames.length
  let d := d.updSession st.session (fun x => { x with waitQ := x.waitQ.filter (fun b => !isResult id b) })
  (st.later.filter (fun b => !isResult id b)).foldl (fun d b => d.enqueue st.session b) d

/-- The slice of an ingress stream that closes: idle from now, and its shard holds on the stream no more (12 R393; 09 R324). -/
def Slice.idleFrom (now : Nat) (sl : Slice) : Slice := { sl with idleSince := now }
def Slice.unheld (index : Nat) (sl : Slice) : Slice :=
  { sl with pulls := mapIf (fun p => p.stream == index) (fun p => { p with hold := none, going := none }) sl.pulls }

/-- Every shard hold of a slice is on one stream. -/
def Dev.heldBy (d : Dev) (st : Stream) : Bool :=
  match d.slice? st.slice with
  | some sl => sl.pulls.any (fun p => p.stream == st.index && p.hold.isSome) &&
      (sl.pulls.filter (fun p => p.hold.isSome)).all (fun p => p.stream == st.index)
  | none => false

/-- The close of an ingress stream is remembered, and a shard hold on it clears. -/
def Dev.closeHold (d : Dev) (st : Stream) : Dev :=
  if st.dir = 0 then
    let idle := d.updSlice st.slice (Slice.idleFrom d.now)
    match idle.heldBy st with
    | true => (idle.updSlice st.slice (Slice.unheld st.index)).clearCause st.slice 4
    | false => idle.updSlice st.slice (Slice.unheld st.index)
  else d

/-- The streams without one ID. -/
def Dev.dropStream (d : Dev) (id : Nat) : Dev := { d with tel := { d.tel with streams := d.tel.streams.filter (fun x => x.id != id) } }

theorem Dev.closeStream_some {d : Dev} {id : Nat} {st : Stream} (h : d.stream? id = some st) :
    d.closeStream id = (((d.dropStream id).closeQueue st id).closeHold st).event 12 7 [id, st.slice] := by
  unfold Dev.closeStream
  rw [h]
  rfl

theorem Dev.closeStream_none {d : Dev} {id : Nat} (h : d.stream? id = none) : d.closeStream id = d := by
  unfold Dev.closeStream
  rw [h]

theorem Dev.leaves_closeQueue (d : Dev) (st : Stream) (id : Nat) : Leaves [.sessions] [regAddr 12 0x6C] d (d.closeQueue st id) :=
  ((Leaves.bump _ d _ (by decide)).trans (.mapSessions _ _ (fun x => x.goesOn_dropResults id) (by decide))).trans
    (.foldl (fun d b => .enqueue d _ b (by decide)) _ _)

theorem Dev.leaves_closeHold (d : Dev) (st : Stream) : Leaves [.slices, .sessions] clearRegs d (d.closeHold st) := by
  have hslice : Leaves [.slices, .sessions] clearRegs d ((d.updSlice st.slice (Slice.idleFrom d.now)).updSlice st.slice (Slice.unheld st.index)) :=
    .trans (e := d.updSlice st.slice (Slice.idleFrom d.now)) (.updSlice d _ (fun _ => rfl) List.mem_cons_self)
      (.updSlice _ _ (fun _ => rfl) List.mem_cons_self)
  refine .ite ?_ (.refl _ _ d)
  dsimp only
  split
  · exact hslice.trans (.clearCause _ _ _)
  · exact hslice

end Sys2Proof.Machine
end

section
/-! SUPPORT. Streams that close (12 R391): what they leave. -/

namespace Sys2Proof.Machine

theorem Keeps.streams {l : List Component} {d e : Dev} (h : Keeps l d e) (ht : .teller ∉ l) : e.tel.streams = d.tel.streams := by
  have htel : { e.tel with sessions := [] } = { d.tel with sessions := [] } := h .teller ht
  have hs := congrArg TellerSt.streams htel
  exact hs

/-- An event leaves the other bits of its register. -/
theorem Dev.saw_event_other (d : Dev) (b bit : Nat) (args : List Nat) {i : Nat} (hi : i < 32) (hne : i ≠ bit)
    (hreg : regAddr b (eventReg b).1 ≠ regAddr 12 0x74) : (d.event b bit args).saw b i = d.saw b i := by
  have hlost : (d.event b bit args).fld ⟨regAddr b (eventReg b).1, i, i⟩ =
      (d.put ⟨regAddr b (eventReg b).1, bit, bit⟩ 1).fld ⟨regAddr b (eventReg b).1, i, i⟩ := by
    unfold Dev.fld Dev.event Dev.sendEvent Dev.sendMsg Dev.bump
    exact congrArg (fun n => bits n i i) (Dev.reg_setReg_other _ hreg)
  rw [Dev.saw, hlost, Dev.fld_put_apart _ _ _ _ (Nat.le_refl _) hi (.inr (by dsimp only; omega)), Dev.saw]

/-- One stream closed. -/
theorem Dev.leaves_closeStream (d : Dev) (id : Nat) : Leaves [.slices, .teller, .sessions] closeRegs d (d.closeStream id) := by
  cases h : d.stream? id with
  | none => rw [Dev.closeStream_none h]; exact .refl _ _ d
  | some st =>
    rw [Dev.closeStream_some h]
    have hdrop : Leaves [.slices, .teller, .sessions] closeRegs d (d.dropStream id) := .setStreams d _ (by decide)
    have hqueue := (Dev.leaves_closeQueue (d.dropStream id) st id).weaken (l' := [.slices, .teller, .sessions]) (r' := closeRegs) (by decide) (by decide)
    have hhold := (Dev.leaves_closeHold ((d.dropStream id).closeQueue st id) st).weaken (l' := [.slices, .teller, .sessions]) (r' := closeRegs)
      (by decide) (by decide)
    exact ((hdrop.trans hqueue).trans hhold).trans (.event _ _ _ (by decide) (by decide))

/-- The streams with an ID that closes are gone. -/
theorem Dev.streams_closeStream (d : Dev) (id : Nat) : (d.closeStream id).tel.streams = d.tel.streams.filter (fun x => x.id != id) := by
  cases h : d.stream? id with
  | none =>
    rw [Dev.closeStream_none h]
    refine (List.filter_eq_self.mpr (fun x hx => ?_)).symm
    have := List.find?_eq_none.mp h x hx
    simpa using this
  | some st =>
    rw [Dev.closeStream_some h, (Dev.keeps_event (l := [.sessions]) _ _ _ _ (by decide)).streams (by decide),
      (Dev.leaves_closeHold _ _).keeps.streams (by decide), (Dev.leaves_closeQueue _ _ _).keeps.streams (by decide)]
    rfl

/-- No bit of TELLER.EVENTS but that of the close changes. -/
theorem Dev.saw_closeStream (d : Dev) (id : Nat) {i : Nat} (hi : i < 32) (hne : i ≠ 7) : (d.closeStream id).saw 12 i = d.saw 12 i := by
  cases h : d.stream? id with
  | none => rw [Dev.closeStream_none h]
  | some st =>
    rw [Dev.closeStream_some h, Dev.saw_event_other _ _ _ _ hi hne (by decide), (Dev.leaves_closeHold _ _).regs.saw i (by decide),
      (Dev.leaves_closeQueue _ _ _).regs.saw i (by decide)]
    rfl

/-! ### Several streams -/

theorem Dev.leaves_closeStreams (d : Dev) (p : Stream → Bool) : Leaves [.slices, .teller, .sessions] closeRegs d (d.closeStreams p) :=
  .foldl Dev.leaves_closeStream _ _

theorem Dev.streams_foldl_closeStream (ids : List Nat) (d : Dev) :
    (ids.foldl Dev.closeStream d).tel.streams = d.tel.streams.filter (fun x => !ids.contains x.id) := by
  induction ids generalizing d with
  | nil => simp
  | cons i ids ih =>
    rw [List.foldl_cons, ih, Dev.streams_closeStream, List.filter_filter]
    refine List.filter_congr (fun x _ => ?_)
    rw [List.contains_cons, Bool.not_or, Bool.and_comm]
    rfl

/-- No stream stands that was to close. -/
theorem Dev.streams_closeStreams {d : Dev} {p : Stream → Bool} : ∀ st ∈ (d.closeStreams p).tel.streams, p st = false := by
  intro st hst
  rw [Dev.closeStreams, Dev.streams_foldl_closeStream] at hst
  obtain ⟨hmem, hid⟩ := List.mem_filter.mp hst
  by_contra hp
  have hin : st.id ∈ (d.tel.streams.filter p).map (fun x => x.id) :=
    List.mem_map.mpr ⟨st, List.mem_filter.mpr ⟨hmem, by simpa using hp⟩, rfl⟩
  simp [hin] at hid

theorem Dev.saw_closeStreams (d : Dev) (p : Stream → Bool) {i : Nat} (hi : i < 32) (hne : i ≠ 7) : (d.closeStreams p).saw 12 i = d.saw 12 i := by
  unfold Dev.closeStreams
  generalize (d.tel.streams.filter p).map (fun x => x.id) = ids
  induction ids generalizing d with
  | nil => rfl
  | cons j ids ih => rw [List.foldl_cons, ih, d.saw_closeStream j hi hne]

end Sys2Proof.Machine
end

section
/-! A stop at a frame boundary (01 R47; 12 R389). -/

namespace Sys2Proof.Machine

/-! ### The cores of a slice -/

theorem CoreSt.halt_halt (c : CoreSt) : c.halt.halt = c.halt := rfl

theorem Dev.core_updCore (d : Dev) (j k : Nat) (f : CoreSt → CoreSt) : (d.updCore k f).core j = if j = k then f (d.core j) else d.core j := by
  unfold Dev.core
  split
  next h => rw [h]; exact mapGet_mapPut_self d.cores k _
  next h => exact mapGet_mapPut_ne _ h

/-- Cores halted one after another. -/
def Dev.haltCores (d : Dev) (ks : List Nat) : Dev := ks.foldl (fun d k => d.updCore k CoreSt.halt) d

theorem Dev.leaves_haltCores (ks : List Nat) (d : Dev) : Leaves [.cores] [] d (d.haltCores ks) :=
  .foldl (fun d k => .updCore d k _ (by decide)) ks d

theorem Dev.core_haltCores {ks : List Nat} {d : Dev} {j : Nat} (c : CoreSt) (h : j ∈ ks ∧ d.core j = c ∨ d.core j = c.halt) :
    (d.haltCores ks).core j = c.halt := by
  induction ks generalizing d with
  | nil => exact h.resolve_left (fun hj => List.not_mem_nil hj.1)
  | cons k ks ih =>
    refine ih ?_
    rw [Dev.core_updCore]
    by_cases hjk : j = k
    · rw [if_pos hjk]
      rcases h with ⟨-, h⟩ | h
      · exact .inr (by rw [h])
      · exact .inr (by rw [h, CoreSt.halt_halt])
    · rw [if_neg hjk]
      exact h.imp_left (fun ⟨hmem, hc⟩ => ⟨(List.mem_cons.mp hmem).resolve_left hjk, hc⟩)

/-! ### Slices changed -/

theorem Dev.slice?_id {d : Dev} {id : Nat} {sl : Slice} (h : d.slice? id = some sl) : sl.id = id := by
  simpa using List.find?_some h

theorem Dev.slice?_updSlice {d : Dev} {id : Nat} {sl : Slice} {f : Slice → Slice} (hf : ∀ x, (f x).id = x.id) (h : d.slice? id = some sl) :
    (d.updSlice id f).slice? id = some (f sl) := by
  have hp : (fun x : Slice => x.id == id) ∘ (fun x => if x.id == id then f x else x) = fun x => x.id == id := funext fun x => by
    dsimp only [Function.comp]
    split
    · rw [hf]
    · rfl
  have hid : (sl.id == id) = true := by simp [Dev.slice?_id h]
  rw [Dev.slice?, Dev.updSlice_slices, mapIf, List.find?_map, hp, show d.slices.find? (fun x => x.id == id) = some sl from h, Option.map_some, if_pos hid]

/-- A slice that has stopped running. -/
def Slice.halted (x : Slice) : Slice := { x with running := false, stopping := none, boundary := false, raises := [], launchAt := none }
def Slice.unlaunched (x : Slice) : Slice := { x with launched := false }
def Slice.unasked (x : Slice) : Slice := { x with stopReq := [] }

/-- A stop without a repair, a relaunch or a load after it. -/
theorem Dev.stopDone_plain {d : Dev} {sl : Slice} (hstop : sl.stopping = some 0) (hrepair : ∀ r ∈ d.hlth.repairs, r.slice ≠ sl.id) :
    d.stopDone sl = ((((d.haltCores sl.coresOf).updSlice sl.id Slice.halted).closeStreams (fun st => st.slice == sl.id)).stopped sl.id).updSlice
      sl.id Slice.unlaunched := by
  have hany : d.hlth.repairs.any (fun r => r.slice == sl.id) = false := List.any_eq_false.mpr (fun r hr => by simpa using hrepair r hr)
  unfold Dev.stopDone
  rw [hany, hstop]
  rfl

/-- The event of a stop and its answers. -/
theorem Dev.stopped_some {d : Dev} {sid : Nat} {sl : Slice} (h : d.slice? sid = some sl) :
    d.stopped sid = ((d.event 12 10 [sid, sl.lastFrame]).tellAll [] sl.stopReq).updSlice sid Slice.unasked := by
  unfold Dev.stopped
  rw [h]
  rfl

end Sys2Proof.Machine
end

section
namespace Sys2Proof.Machine

/-- The device as a stop leaves it before it is reported: cores halted, the slice no longer running, its streams closed. -/
def Dev.stopQuiet (d : Dev) (sl : Slice) : Dev :=
  ((d.haltCores sl.coresOf).updSlice sl.id Slice.halted).closeStreams (fun st => st.slice == sl.id)

theorem Dev.keeps_stopQuiet (d : Dev) (sl : Slice) : Keeps [.cores, .slices, .teller, .sessions] d (d.stopQuiet sl) :=
  ((d.leaves_haltCores sl.coresOf).keeps.weaken (by decide)).trans
    ((Dev.keeps_updSlice _ _ _ (by decide)).trans ((Dev.leaves_closeStreams _ _).keeps.weaken (by decide)))

theorem Dev.keepsRegs_stopQuiet (d : Dev) (sl : Slice) : KeepsRegs closeRegs d (d.stopQuiet sl) :=
  ((d.leaves_haltCores sl.coresOf).regs.weaken (by decide)).trans
    ((Dev.keepsRegs_updSlice _ _ _ _).trans (Dev.leaves_closeStreams _ _).regs)

theorem Dev.sessionsGoOn_stopQuiet (d : Dev) (sl : Slice) : SessionsGoOn d (d.stopQuiet sl) :=
  (d.leaves_haltCores sl.coresOf).sessions.trans ((SessionsGoOn.of_eq (by rfl)).trans (Dev.leaves_closeStreams _ _).sessions)

/-- Its slice has stopped, and its requests still wait. -/
theorem Dev.slice?_stopQuiet {d : Dev} {sid : Nat} {sl : Slice} (h : d.slice? sid = some sl) :
    ∃ x, (d.stopQuiet sl).slice? sl.id = some x ∧ x.face = sl.halted.face := by
  have hid := Dev.slice?_id h
  have hcores : (d.haltCores sl.coresOf).slice? sl.id = some sl := by
    have hs : (d.haltCores sl.coresOf).slices = d.slices := (d.leaves_haltCores sl.coresOf).keeps .slices (by decide)
    rw [Dev.slice?, hs, hid]
    exact h
  exact (Dev.leaves_closeStreams _ _).slices.slice?_some (Dev.slice?_updSlice (fun _ => rfl) hcores)

theorem Dev.core_stopQuiet {d : Dev} {sl : Slice} {k : Nat} (h : k ∈ sl.coresOf) : (d.stopQuiet sl).core k = (d.core k).halt :=
  ((Dev.leaves_closeStreams _ _).keeps.core (by decide) k).trans (Dev.core_haltCores (d.core k) (.inl ⟨h, rfl⟩))

/-- A stop, from a device on which its slice has stopped: it is reported, and its requests are answered. -/
def Dev.stopTold (d : Dev) (sid : Nat) (sl : Slice) : Dev := (d.event 12 10 [sid, sl.lastFrame]).tellAll [] sl.stopReq

theorem Dev.leaves_stopTold {d : Dev} (sid : Nat) {sl : Slice} (h : ∀ y ∈ sl.stopReq, d.sessionFits y.1) :
    Leaves [.sessions] (eventRegs 12) d (d.stopTold sid sl) := by
  have hev : Leaves [.sessions] (eventRegs 12) d (d.event 12 10 [sid, sl.lastFrame]) := .event _ _ _ (by decide) (by decide)
  exact hev.trans ((Dev.leaves_tellAll [] (fun y hy => hev.sessions.sessionFits (h y hy))).weaken (by decide) (by decide))

theorem Dev.saw_stopTold {d : Dev} (sid : Nat) {sl : Slice} (h : ∀ y ∈ sl.stopReq, d.sessionFits y.1) : (d.stopTold sid sl).saw 12 10 = true := by
  have hev : Leaves [.sessions] (eventRegs 12) d (d.event 12 10 [sid, sl.lastFrame]) := .event _ _ _ (by decide) (by decide)
  exact ((Dev.leaves_tellAll [] (fun y hy => hev.sessions.sessionFits (h y hy))).regs.saw 10 List.not_mem_nil).trans
    (Dev.saw_event_same _ _ _ _ (by decide) (by decide))

theorem Dev.told_stopTold {d : Dev} (sid : Nat) {sl : Slice} (h : ∀ y ∈ sl.stopReq, d.sessionFits y.1) :
    ∀ y ∈ sl.stopReq, (d.session? y.1).isSome = true → (d.stopTold sid sl).told y.1 (.result y.2 0 0xFFFFFFFF []) := by
  have hev : Leaves [.sessions] (eventRegs 12) d (d.event 12 10 [sid, sl.lastFrame]) := .event _ _ _ (by decide) (by decide)
  exact fun y hy hsome => Dev.told_tellAll [] (fun z hz => hev.sessions.sessionFits (h z hz)) y hy ((hev.sessions.isSome y.1).trans hsome)

/-- The stop of a slice at its frame boundary. -/
theorem exec_stopAtFrameBoundary {s : State} {slice : SliceId} {sl : Slice} (hsl : s.dev.slice? slice.toNat = some sl)
    (hrun : sl.running = true) (hstop : sl.stopping = some 0) (hbound : sl.boundary = true) (hframes : sl.frames = [])
    (hkill : sl.killAt = none) (hrepair : ∀ r ∈ s.dev.hlth.repairs, r.slice ≠ slice.toNat) :
    ∃ x, (s.dev.stopQuiet sl).slice? sl.id = some x ∧ x.face = sl.halted.face ∧
      exec (.stopAtFrameBoundary slice) s = .next { s with
        dev := (((s.dev.stopQuiet sl).stopTold sl.id x).updSlice sl.id Slice.unasked).updSlice sl.id Slice.unlaunched } := by
  obtain ⟨x, hx, hface⟩ := Dev.slice?_stopQuiet hsl
  refine ⟨x, hx, hface, ?_⟩
  have hdone : s.dev.stopDone sl = (((s.dev.stopQuiet sl).stopTold sl.id x).updSlice sl.id Slice.unasked).updSlice sl.id Slice.unlaunched := by
    rw [Dev.stopDone_plain hstop (fun r hr => (Dev.slice?_id hsl).symm ▸ hrepair r hr)]
    exact congrArg (fun d => d.updSlice sl.id Slice.unlaunched) (Dev.stopped_some hx)
  show execStopAtFrameBoundary slice s = _
  simp [execStopAtFrameBoundary, State.onDev, ok, hsl, hrun, hstop, hbound, hframes, hkill, hdone]

theorem acts_stopAtFrameBoundary {s : State} {slice : SliceId} {sl : Slice} (hsl : s.dev.slice? slice.toNat = some sl)
    (hrun : sl.running = true) (hstop : sl.stopping = some 0) (hbound : sl.boundary = true) (hframes : sl.frames = [])
    (hkill : sl.killAt = none) (hrepair : ∀ r ∈ s.dev.hlth.repairs, r.slice ≠ slice.toNat)
    (hfresh : ∀ y ∈ sl.stopReq, ∀ x, s.dev.session? y.1 = some x → x.fresh) :
    Acts (.stopAtFrameBoundary slice) s fun d =>
      (∃ x, d.slice? slice.toNat = some x ∧ x.running = false ∧ x.launched = false ∧ x.stopping = none ∧ x.key = sl.key) ∧
      (∀ st ∈ d.tel.streams, st.slice ≠ slice.toNat) ∧ (∀ k ∈ sl.coresOf, d.core k = (s.dev.core k).halt) ∧ d.saw 12 10 = true ∧
      (∀ y ∈ sl.stopReq, (s.dev.session? y.1).isSome = true → d.told y.1 (.result y.2 0 0xFFFFFFFF [])) ∧
      Keeps [.cores, .slices, .teller, .sessions] s.dev d ∧ KeepsRegs closeRegs s.dev d := by
  obtain ⟨x, hx, hface, hexec⟩ := exec_stopAtFrameBoundary hsl hrun hstop hbound hframes hkill hrepair
  have hid : sl.id = slice.toNat := Dev.slice?_id hsl
  simp only [Slice.face, Slice.halted, Prod.mk.injEq] at hface
  obtain ⟨-, hkey, hxrun, -, hxstop, hreq⟩ := hface
  have hgo := s.dev.sessionsGoOn_stopQuiet sl
  have hfits : ∀ y ∈ x.stopReq, (s.dev.stopQuiet sl).sessionFits y.1 := fun y hy =>
    hgo.sessionFits (fun z hz => Session.fits_of_fresh (hfresh y (hreq ▸ hy) z hz))
  have htold := Dev.leaves_stopTold sl.id hfits
  refine ⟨_, hexec, ?_, ?_, ?_, ?_, ?_, ?_, ?_⟩
  · obtain ⟨z, hz, hzface⟩ := htold.slices.slice?_some hx
    simp only [Slice.face, Prod.mk.injEq] at hzface
    obtain ⟨-, hzkey, hzrun, -, hzstop, -⟩ := hzface
    have hasked := Dev.slice?_updSlice (f := Slice.unasked) (fun _ => rfl) hz
    have hlast := Dev.slice?_updSlice (f := Slice.unlaunched) (fun _ => rfl) hasked
    rw [← hid]
    exact ⟨z.unasked.unlaunched, hlast, hzrun.trans hxrun, rfl, hzstop.trans hxstop, hzkey.trans hkey⟩
  · intro st hst
    have hclosed : st ∈ (s.dev.stopQuiet sl).tel.streams := by
      rw [← htold.keeps.streams (by decide)]
      exact hst
    have := Dev.streams_closeStreams st hclosed
    simpa [hid] using this
  · exact fun k hk => (htold.keeps.core (by decide) k).trans (Dev.core_stopQuiet hk)
  · exact Dev.saw_stopTold sl.id hfits
  · intro y hy hsome
    exact Dev.told_stopTold sl.id hfits y (hreq ▸ hy) ((hgo.isSome y.1).trans hsome)
  · exact ((s.dev.keeps_stopQuiet sl).trans (htold.keeps.weaken (by decide))).trans
      ((Dev.keeps_updSlice _ _ _ (by decide)).trans (Dev.keeps_updSlice _ _ _ (by decide)))
  · exact ((s.dev.keepsRegs_stopQuiet sl).trans (htold.regs.weaken (by decide))).trans
      ((Dev.keepsRegs_updSlice _ _ _ _).trans (Dev.keepsRegs_updSlice _ _ _ _))

end Sys2Proof.Machine
end

section
/-! SUPPORT. What a kill does to the device (06 R223; 12 R389): its report, its clusters, its load and its repair. -/

namespace Sys2Proof.Machine

theorem Leaves.foldl_mem {α : Type} {l : List Component} {r : List Nat} {f : Dev → α → Dev} {xs : List α}
    (h : ∀ x ∈ xs, ∀ d, Leaves l r d (f d x)) (d : Dev) : Leaves l r d (xs.foldl f d) := by
  induction xs generalizing d with
  | nil => exact .refl l r d
  | cons x xs ih => exact (h x List.mem_cons_self d).trans (ih (fun y hy => h y (List.mem_cons_of_mem x hy)) (f d x))

/-! ### The report -/

/-- The registers that the counter rows' errors and lost events may set. -/
def killReadRegs : List Nat := regAddr 14 0x14 :: regAddr 14 0x18 :: eventRegs 14

theorem Dev.leaves_counterRead (d : Dev) (g : Nat) : Leaves [.sessions] killReadRegs d (d.counterRead g) := by
  have hsoft : Leaves [.sessions] killReadRegs d (if d.hlth.soft.contains g then d.bump (regAddr 14 0x14) 1 else d) :=
    .ite (.bump _ d 1 (by decide)) (.refl _ _ d)
  exact .ite (.refl _ _ d) (.ite ((hsoft.trans (.bump _ _ 1 (by decide))).trans (.event _ _ _ (by decide) (by decide))) hsoft)

/-- The kill event, once its bit is set. -/
theorem Dev.leaves_killEvent (d : Dev) (sl : Slice) : Leaves [.sessions] killReadRegs (d.put ⟨regAddr 12 0x1C, 9, 9⟩ 1) (d.killEvent sl) := by
  have hreads := Leaves.foldl Dev.leaves_counterRead (sl.coresOf.flatMap counterRows) (d.put ⟨regAddr 12 0x1C, 9, 9⟩ 1)
  have hsend : ∀ (e : Dev) (parts : Session → List EventMsg) (x : Session),
      x.GoesOn ((parts x).foldl (fun x m => queueEvent e.sendAt m x) x) :=
    fun e parts x => Session.GoesOn.foldl (fun x m => x.goesOn_queueEvent e.sendAt m) (parts x) x
  exact (hreads.trans (.mapSessions _ _ (hsend _ _) (by decide))).trans (.bump _ _ _ (by decide))

theorem Dev.saw_killEvent (d : Dev) (sl : Slice) : (d.killEvent sl).saw 12 9 = true := by
  rw [(d.leaves_killEvent sl).regs.saw 9 (by decide), Dev.saw]
  exact beq_iff_eq.mpr (Dev.fld_put_same d _ 1 (Nat.le_refl _) (by decide))

/-! ### Packets refused -/

/-- The parts and registers that packets dropped or answered may change. -/
def ackParts : List Component := [.slices, .vault, .net, .fab, .sessions]
def ackRegs : List Nat := regAddr 7 0x10 :: eventRegs 7

theorem Dev.leaves_oweRows (d : Dev) (h : LongHdr) (n : Nat) : Leaves ackParts ackRegs d (d.oweRows h n) := by
  refine .ite (.updSlice d _ (fun x => ?_) (by decide)) (.refl _ _ d)
  dsimp only
  split <;> rfl

theorem Dev.leaves_chainGrant (d : Dev) (h : LongHdr) (status : Nat) : Leaves ackParts ackRegs d (d.chainGrant h status) :=
  .ite (.setVault d _ (by decide)) (.refl _ _ d)

theorem Dev.leaves_send (d : Dev) (p : Packet) : Leaves ackParts ackRegs d (d.send p) :=
  .ite (.setNet d _ (by decide)) (.setFab d _ (by decide))

theorem Dev.leaves_unreach (d : Dev) : Leaves ackParts ackRegs d d.unreach :=
  (Leaves.bump _ d 1 (by decide)).trans (.event _ _ _ (by decide) (by decide))

theorem Dev.leaves_sendFrom (d : Dev) (src : Nat) (p : Packet) : Leaves ackParts ackRegs d (d.sendFrom src p) :=
  .ite (.ite d.leaves_unreach (d.leaves_send p))
    (.ite (.ite (d.leaves_unreach.trans (Dev.leaves_send _ _)) d.leaves_unreach) (d.leaves_send p))

theorem Dev.leaves_ackRows (d : Dev) (h : LongHdr) (status rows : Nat) : Leaves ackParts ackRegs d (d.ackRows h status rows) :=
  ((d.leaves_oweRows h rows).trans (Dev.leaves_chainGrant _ h status)).trans (.ite (Dev.leaves_send _ _) (Dev.leaves_sendFrom _ _ _))

theorem Dev.leaves_refuseDeferred (d : Dev) (cl : Nat) : Leaves ackParts ackRegs d (d.refuseDeferred cl) := by
  refine .foldl (fun d k => .foldl (fun d x => ?_) _ _) _ _
  split
  · exact d.leaves_ackRows _ 3 1
  · exact .refl _ _ d

/-! ### Clusters released -/

/-- The parts and registers that a cluster isolated may change. -/
def scrubParts : List Component := .cores :: ackParts
def releaseRegs : List Nat := (List.range 72).map clReg ++ ackRegs

theorem clReg_mem {cl : Nat} (h : cl < 72) : clReg cl ∈ releaseRegs :=
  List.mem_append_left _ (List.mem_map.mpr ⟨cl, List.mem_range.mpr h, rfl⟩)

theorem clReg_notMem_ackRegs {c : Nat} (h : c < 72) : clReg c ∉ ackRegs := by
  simp only [clReg, ackRegs, eventRegs, eventReg, regAddr, List.mem_cons, List.not_mem_nil, or_false]
  omega

theorem Dev.leaves_haltCluster (d : Dev) (cl : Nat) : Leaves [.cores] [] d (d.haltCluster cl) :=
  .foldl (fun d k => .updCore d _ _ (by decide)) _ _

theorem Dev.leaves_bumpGen (d : Dev) (cl : Nat) : Leaves [.fab] [clReg cl] d (d.bumpGen cl) :=
  .ite (.ite (.refl _ _ d) (.setFab d _ (by decide))) ((Leaves.setFab d _ (by decide)).trans (.put _ _ _ List.mem_cons_self))

theorem Dev.leaves_beginScrub (d : Dev) {cl : Nat} (h : cl < 72) : Leaves scrubParts releaseRegs d (d.beginScrub cl) := by
  have hput : Leaves scrubParts releaseRegs d (d.put (fClState cl) 2) := .put _ d 2 (clReg_mem h)
  have hrefuse := (Dev.leaves_refuseDeferred (d.put (fClState cl) 2) cl).weaken (l' := scrubParts) (r' := releaseRegs)
    (fun _ hp => List.mem_cons_of_mem _ hp) (fun _ ha => List.mem_append_right _ ha)
  have hhalt := (Dev.leaves_haltCluster ((d.put (fClState cl) 2).refuseDeferred cl) cl).weaken (l' := scrubParts) (r' := releaseRegs)
    (by decide) (fun _ ha => absurd ha List.not_mem_nil)
  refine ((hput.trans hrefuse).trans hhalt).trans ((Dev.leaves_bumpGen _ cl).weaken (by decide) (fun a ha => ?_))
  rw [List.mem_singleton.mp ha]
  exact clReg_mem h

theorem Dev.leaves_releaseClusters (d : Dev) (sid : Nat) : Leaves scrubParts releaseRegs d (d.releaseClusters sid) := by
  have hscrub : Leaves scrubParts releaseRegs d ((d.clustersIn 1 sid).foldl Dev.beginScrub d) :=
    .foldl_mem (fun c hc e => e.leaves_beginScrub (Dev.mem_clustersIn.mp hc).1) d
  refine hscrub.trans (.foldl_mem (fun c hc e => (e.leaves_bumpGen c).weaken (by decide) (fun a ha => ?_)) _)
  have hlt : c < 72 := by
    split at hc
    · exact (Dev.mem_clustersIn.mp (List.mem_filter.mp hc).1).1
    · exact absurd hc List.not_mem_nil
  rw [List.mem_singleton.mp ha]
  exact clReg_mem hlt

/-- A generation bumped leaves every cluster's state and slice. -/
theorem Dev.fClState_bumpGen (d : Dev) (c cl : Nat) : (d.bumpGen cl).fld (fClState c) = d.fld (fClState c) := by
  unfold Dev.bumpGen
  rw [Dev.fld_ite, Dev.fld_ite]
  have hput : ∀ e : Dev, ∀ g, (e.put (fClGen cl) g).fld (fClState c) = e.fld (fClState c) :=
    fun e g => Dev.fld_put_apart _ _ _ _ (by simp [fClGen]) (by simp [fClState]) (.inr (.inr (by simp [fClState, fClGen])))
  rw [Dev.giveGen, hput]
  exact (ite_congr rfl (fun _ => ite_self _) (fun _ => rfl)).trans (ite_self _)

theorem Dev.fClSlice_bumpGen (d : Dev) (c cl : Nat) : (d.bumpGen cl).fld (fClSlice c) = d.fld (fClSlice c) := by
  unfold Dev.bumpGen
  rw [Dev.fld_ite, Dev.fld_ite]
  have hput : ∀ e : Dev, ∀ g, (e.put (fClGen cl) g).fld (fClSlice c) = e.fld (fClSlice c) :=
    fun e g => Dev.fld_put_apart _ _ _ _ (by simp [fClGen]) (by simp [fClSlice]) (.inr (.inl (by simp [fClSlice, fClGen])))
  rw [Dev.giveGen, hput]
  exact (ite_congr rfl (fun _ => ite_self _) (fun _ => rfl)).trans (ite_self _)

/-- A cluster isolated scrubs; the others stay as they are. -/
theorem Dev.fClState_beginScrub (d : Dev) {c : Nat} (cl : Nat) (hc : c < 72) :
    (d.beginScrub cl).fld (fClState c) = if c = cl then 2 else d.fld (fClState c) := by
  rw [Dev.beginScrub, Dev.fClState_bumpGen, (Dev.leaves_haltCluster _ _).regs.fld List.not_mem_nil,
    (Dev.leaves_refuseDeferred _ _).regs.fld (clReg_notMem_ackRegs hc), fClState_put]

theorem Dev.fClSlice_beginScrub (d : Dev) {c : Nat} (cl : Nat) (hc : c < 72) : (d.beginScrub cl).fld (fClSlice c) = d.fld (fClSlice c) := by
  rw [Dev.beginScrub, Dev.fClSlice_bumpGen, (Dev.leaves_haltCluster _ _).regs.fld List.not_mem_nil,
    (Dev.leaves_refuseDeferred _ _).regs.fld (clReg_notMem_ackRegs hc), fClSlice_putState]

theorem Dev.fClState_foldl_beginScrub (cls : List Nat) (d : Dev) {c : Nat} (hc : c < 72) :
    (cls.foldl Dev.beginScrub d).fld (fClState c) = if c ∈ cls then 2 else d.fld (fClState c) := by
  induction cls generalizing d with
  | nil => simp
  | cons cl cls ih =>
    rw [List.foldl_cons, ih, d.fClState_beginScrub cl hc]
    by_cases h : c = cl <;> simp [h]

theorem Dev.fClSlice_foldl_beginScrub (cls : List Nat) (d : Dev) {c : Nat} (hc : c < 72) :
    (cls.foldl Dev.beginScrub d).fld (fClSlice c) = d.fld (fClSlice c) := by
  induction cls generalizing d with
  | nil => rfl
  | cons cl cls ih => rw [List.foldl_cons, ih, d.fClSlice_beginScrub cl hc]

theorem Dev.fld_foldl_bumpGen {f : Fld} (h : ∀ (d : Dev) (cl : Nat), (d.bumpGen cl).fld f = d.fld f) (cls : List Nat) (d : Dev) :
    (cls.foldl Dev.bumpGen d).fld f = d.fld f := by
  induction cls generalizing d with
  | nil => rfl
  | cons cl cls ih => rw [List.foldl_cons, ih, h]

/-- The clusters assigned to the slice scrub (06 R223). -/
theorem Dev.fClState_releaseClusters (d : Dev) (sid : Nat) {c : Nat} (hc : c < 72) :
    (d.releaseClusters sid).fld (fClState c) = if c ∈ d.clustersIn 1 sid then 2 else d.fld (fClState c) := by
  rw [Dev.releaseClusters, Dev.fld_foldl_bumpGen (fun e cl => e.fClState_bumpGen c cl), Dev.fClState_foldl_beginScrub _ _ hc]

theorem Dev.fClSlice_releaseClusters (d : Dev) (sid : Nat) {c : Nat} (hc : c < 72) :
    (d.releaseClusters sid).fld (fClSlice c) = d.fld (fClSlice c) := by
  rw [Dev.releaseClusters, Dev.fld_foldl_bumpGen (fun e cl => e.fClSlice_bumpGen c cl), Dev.fClSlice_foldl_beginScrub _ _ hc]

/-! ### Load and repair -/

theorem Dev.leaves_dropLoad (d : Dev) (sid : Nat) : Leaves [.vault] [regAddr 9 0] d (d.dropLoad sid) :=
  (Leaves.setVault d _ (by decide)).trans (.put _ _ _ (by decide))

theorem Dev.load?_dropLoad (d : Dev) (sid : Nat) : (d.dropLoad sid).load? sid = none :=
  List.find?_eq_none.mpr (fun l hl => by simpa using (List.mem_filter.mp (show l ∈ d.vault.loads.filter (fun l => l.slice != sid) from hl)).2)

theorem Dev.leaves_dropRepair (d : Dev) (sid : Nat) : Leaves [.hlth] [regAddr 14 0] d (d.dropRepair sid) :=
  (Leaves.setHlth d _ (by decide)).trans (.put _ _ _ (by decide))

end Sys2Proof.Machine
end

section
/-! A kill at its EC (06 R223; 12 R389), and the end of slices in all its forms. -/

namespace Sys2Proof.Machine

/-- The parts that a kill changes. -/
def killedParts : List Component := [.cores, .slices, .vault, .hlth, .net, .fab, .teller, .sessions]

/-- A slice killed and not yet answered: reported, its clusters isolated, its load and repair dropped, its streams closed. -/
def Dev.killQuiet (d : Dev) (sl : Slice) : Dev :=
  (((((d.killEvent sl).releaseClusters sl.id).dropLoad sl.id).dropRepair sl.id).closeStreams (fun st => st.slice == sl.id))

/-- The answers of a kill: to those who asked for it with its EC, then to those who had asked for a stop (log entry 25). -/
def Dev.killTold (d : Dev) (sl : Slice) : Dev := (d.tellAll (bytesOf (toLe 8 d.now)) sl.killReq).tellAll [] sl.stopReq

/-- Answers that carry the EC carry one EC. -/
theorem Dev.foldl_post_now {l : List (Nat × Nat)} {d : Dev} (h : ∀ y ∈ l, d.sessionFits y.1) :
    l.foldl (fun d y => d.post y.1 (.result y.2 0 0xFFFFFFFF (bytesOf (toLe 8 d.now)))) d = d.tellAll (bytesOf (toLe 8 d.now)) l := by
  induction l generalizing d with
  | nil => rfl
  | cons y l ih =>
    have hpost : Leaves [.sessions] [] d (d.post y.1 (.result y.2 0 0xFFFFFFFF (bytesOf (toLe 8 d.now)))) :=
      .post _ (h y List.mem_cons_self) (by decide)
    rw [List.foldl_cons, ih (fun z hz => hpost.sessions.sessionFits (h z (List.mem_cons_of_mem y hz))), hpost.keeps.now (by decide)]
    rfl

theorem Dev.endAnswers_eq {d : Dev} {sl : Slice} (h : ∀ y ∈ sl.killReq, d.sessionFits y.1) : d.endAnswers sl = d.killTold sl := by
  rw [Dev.killTold, ← Dev.foldl_post_now h]
  rfl

theorem Dev.killSlice_eq {d : Dev} {sl : Slice} (h : sl.stopping ≠ some 2) (hfits : ∀ y ∈ sl.killReq, (d.killQuiet sl).sessionFits y.1) :
    d.killSlice sl = ((d.killQuiet sl).killTold sl).endSlice sl.id := by
  rw [← Dev.endAnswers_eq hfits]
  unfold Dev.killSlice
  dsimp only
  rw [if_neg h, Dev.killQuiet]

/-- The registers of a kill beside the bit of its event. -/
def killRegs : List Nat := killReadRegs ++ releaseRegs ++ [regAddr 9 0, regAddr 14 0] ++ closeRegs

theorem Dev.leaves_killQuiet (d : Dev) (sl : Slice) :
    Leaves killedParts killRegs (d.put ⟨regAddr 12 0x1C, 9, 9⟩ 1) (d.killQuiet sl) := by
  have hevent := (d.leaves_killEvent sl).weaken (l' := killedParts) (r' := killRegs) (by decide)
    (fun _ h => List.mem_append_left _ (List.mem_append_left _ (List.mem_append_left _ h)))
  have hrelease := (Dev.leaves_releaseClusters (d.killEvent sl) sl.id).weaken (l' := killedParts) (r' := killRegs) (by decide)
    (fun _ h => List.mem_append_left _ (List.mem_append_left _ (List.mem_append_right _ h)))
  have hload := (Dev.leaves_dropLoad ((d.killEvent sl).releaseClusters sl.id) sl.id).weaken (l' := killedParts) (r' := killRegs) (by decide)
    (by decide)
  have hrepair := (Dev.leaves_dropRepair (((d.killEvent sl).releaseClusters sl.id).dropLoad sl.id) sl.id).weaken (l' := killedParts)
    (r' := killRegs) (by decide) (by decide)
  exact (((hevent.trans hrelease).trans hload).trans hrepair).trans ((Dev.leaves_closeStreams _ _).weaken (by decide)
    (fun _ h => List.mem_append_right _ h))

theorem Dev.keeps_killQuiet (d : Dev) (sl : Slice) : Keeps killedParts d (d.killQuiet sl) :=
  (d.keeps_put _ _ 1).trans (d.leaves_killQuiet sl).keeps

theorem Dev.sessionsGoOn_killQuiet (d : Dev) (sl : Slice) : SessionsGoOn d (d.killQuiet sl) :=
  (SessionsGoOn.of_eq (by rfl)).trans (d.leaves_killQuiet sl).sessions

theorem Dev.slicesAgree_killQuiet (d : Dev) (sl : Slice) : SlicesAgree d (d.killQuiet sl) :=
  (SlicesAgree.of_eq (by rfl)).trans (d.leaves_killQuiet sl).slices

theorem Dev.load?_killQuiet (d : Dev) (sl : Slice) : (d.killQuiet sl).load? sl.id = none := by
  have hvault : (d.killQuiet sl).vault = (((d.killEvent sl).releaseClusters sl.id).dropLoad sl.id).vault :=
    ((Dev.leaves_closeStreams _ _).keeps .vault (by decide)).trans ((Dev.leaves_dropRepair _ _).keeps .vault (by decide))
  rw [Dev.load?, hvault]
  exact Dev.load?_dropLoad _ _

/-- The event of the kill stands. -/
theorem Dev.saw_killQuiet (d : Dev) (sl : Slice) : (d.killQuiet sl).saw 12 9 = true := by
  rw [Dev.killQuiet, Dev.saw_closeStreams _ _ (by decide) (by decide), (Dev.leaves_dropRepair _ _).regs.saw 9 (by decide),
    (Dev.leaves_dropLoad _ _).regs.saw 9 (by decide), (Dev.leaves_releaseClusters _ _).regs.saw 9 (by decide)]
  exact d.saw_killEvent sl

/-- Registers of clusters that the report and the end of load, repair and streams leave. -/
theorem clReg_notMem {c : Nat} (h : c < 72) :
    clReg c ∉ killReadRegs ∧ clReg c ≠ regAddr 12 0x1C ∧ clReg c ∉ [regAddr 9 0] ∧ clReg c ∉ [regAddr 14 0] ∧ clReg c ∉ closeRegs := by
  simp only [clReg, killReadRegs, closeRegs, eventRegs, eventReg, regAddr, List.mem_cons, List.mem_append, List.not_mem_nil, or_false]
  omega

/-- A cluster's register changes by its release alone. -/
theorem Dev.fld_killQuiet (d : Dev) (sl : Slice) {f : Fld} {c : Nat} (hc : c < 72) (hf : f.addr = clReg c) :
    (d.killQuiet sl).fld f = ((d.killEvent sl).releaseClusters sl.id).fld f ∧ (d.killEvent sl).fld f = d.fld f := by
  obtain ⟨hread, hbit, hload, hrepair, hclose⟩ := clReg_notMem hc
  rw [← hf] at hread hbit hload hrepair hclose
  constructor
  · rw [Dev.killQuiet, (Dev.leaves_closeStreams _ _).regs.fld hclose, (Dev.leaves_dropRepair _ _).regs.fld hrepair,
      (Dev.leaves_dropLoad _ _).regs.fld hload]
  · rw [(d.leaves_killEvent sl).regs.fld hread]
    exact (d.keepsRegs_put (l := [regAddr 12 0x1C]) 1 List.mem_cons_self).fld (fun h => hbit (List.mem_singleton.mp h))

/-- The clusters assigned to the slice scrub. -/
theorem Dev.fClState_killQuiet (d : Dev) (sl : Slice) {c : Nat} (hc : c < 72) :
    (d.killQuiet sl).fld (fClState c) = if c ∈ d.clustersIn 1 sl.id then 2 else d.fld (fClState c) := by
  obtain ⟨hquiet, hstate⟩ := d.fld_killQuiet sl (f := fClState c) hc rfl
  obtain ⟨-, hslice⟩ := d.fld_killQuiet sl (f := fClSlice c) hc rfl
  rw [hquiet, Dev.fClState_releaseClusters _ _ hc]
  simp only [Dev.mem_clustersIn, hstate, hslice]

theorem Dev.fClSlice_killQuiet (d : Dev) (sl : Slice) {c : Nat} (hc : c < 72) : (d.killQuiet sl).fld (fClSlice c) = d.fld (fClSlice c) := by
  obtain ⟨hquiet, hslice⟩ := d.fld_killQuiet sl (f := fClSlice c) hc rfl
  rw [hquiet, Dev.fClSlice_releaseClusters _ _ hc, hslice]

/-- No cluster is assigned to the slice any more. -/
theorem Dev.clustersIn_killQuiet (d : Dev) (sl : Slice) : (d.killQuiet sl).clustersIn 1 sl.id = [] := by
  refine List.eq_nil_iff_forall_not_mem.mpr (fun c hmem => ?_)
  obtain ⟨hc, hstate, hslice⟩ := Dev.mem_clustersIn.mp hmem
  rw [d.fClSlice_killQuiet sl hc] at hslice
  rw [d.fClState_killQuiet sl hc] at hstate
  split at hstate
  · omega
  · rename_i hnot
    exact hnot (Dev.mem_clustersIn.mpr ⟨hc, hstate, hslice⟩)

theorem Dev.clustersIn_killQuiet_scrub (d : Dev) (sl : Slice) {c : Nat} (h : c ∈ d.clustersIn 1 sl.id) :
    c ∈ (d.killQuiet sl).clustersIn 2 sl.id := by
  obtain ⟨hc, -, hslice⟩ := Dev.mem_clustersIn.mp h
  exact Dev.mem_clustersIn.mpr ⟨hc, by rw [d.fClState_killQuiet sl hc, if_pos h], by rw [d.fClSlice_killQuiet sl hc, hslice]⟩

/-! ### Its answers -/

theorem Dev.leaves_killTold {d : Dev} {sl : Slice} (h : ∀ y ∈ sl.killReq ++ sl.stopReq, d.sessionFits y.1) :
    Leaves [.sessions] [] d (d.killTold sl) := by
  have hkill := Dev.leaves_tellAll (bytesOf (toLe 8 d.now)) (fun y hy => h y (List.mem_append_left _ hy))
  exact hkill.trans (Dev.leaves_tellAll [] (fun y hy => hkill.sessions.sessionFits (h y (List.mem_append_right _ hy))))

theorem Dev.told_killTold {d : Dev} {sl : Slice} (h : ∀ y ∈ sl.killReq ++ sl.stopReq, d.sessionFits y.1) :
    (∀ y ∈ sl.killReq, (d.session? y.1).isSome = true → (d.killTold sl).told y.1 (.result y.2 0 0xFFFFFFFF (bytesOf (toLe 8 d.now)))) ∧
    (∀ y ∈ sl.stopReq, (d.session? y.1).isSome = true → (d.killTold sl).told y.1 (.result y.2 0 0xFFFFFFFF [])) := by
  have hfits : ∀ y ∈ sl.killReq, d.sessionFits y.1 := fun y hy => h y (List.mem_append_left _ hy)
  have hkill := Dev.leaves_tellAll (bytesOf (toLe 8 d.now)) hfits
  have hstop : ∀ y ∈ sl.stopReq, (d.tellAll (bytesOf (toLe 8 d.now)) sl.killReq).sessionFits y.1 :=
    fun y hy => hkill.sessions.sessionFits (h y (List.mem_append_right _ hy))
  constructor
  · intro y hy hsome
    exact (Dev.leaves_tellAll [] hstop).sessions.told (OutBody.result_lasts _ _ _ _) (Dev.told_tellAll _ hfits y hy hsome)
  · intro y hy hsome
    exact Dev.told_tellAll [] hstop y hy ((hkill.sessions.isSome y.1).trans hsome)

/-! ### The record leaves -/

/-- The slices without one ID. -/
def Dev.dropSlice (d : Dev) (sid : Nat) : Dev := { d with slices := d.slices.filter (fun x => x.id != sid) }

theorem Dev.endSlice_eq {d : Dev} {sid : Nat} {x : Slice} (h : d.slice? sid = some x) (hstop : x.stopping ≠ some 2) :
    d.endSlice sid = d.dropSlice sid := by
  unfold Dev.endSlice
  rw [h]
  exact if_neg hstop

theorem Dev.slice?_dropSlice (d : Dev) (sid : Nat) : (d.dropSlice sid).slice? sid = none :=
  List.find?_eq_none.mpr (fun x hx => by simpa using (List.mem_filter.mp (show x ∈ d.slices.filter (fun x => x.id != sid) from hx)).2)

theorem Dev.keeps_dropSlice (d : Dev) (sid : Nat) : Keeps killedParts d (d.dropSlice sid) :=
  fun p hp => by cases p <;> first | rfl | exact absurd (by decide) hp | exact ⟨rfl, rfl, rfl⟩

/-- The kill of a slice that no load is to follow. -/
theorem exec_killEffective {s : State} {slice : SliceId} {sl : Slice} {e : Nat} (hsl : s.dev.slice? slice.toNat = some sl)
    (hkill : sl.killAt = some e) (hdue : e ≤ s.dev.now) (hstop : sl.stopping ≠ some 2) (hstart : sl.stopping = some 1 → sl.start = none)
    (hfits : ∀ y ∈ sl.killReq ++ sl.stopReq, (s.dev.killQuiet sl).sessionFits y.1) :
    exec (.killEffective slice) s = .next { s with dev := ((s.dev.killQuiet sl).killTold sl).dropSlice sl.id } := by
  have hslice : s.dev.slice? sl.id = some sl := by rw [Dev.slice?_id hsl]; exact hsl
  obtain ⟨x, hx, hface⟩ := ((s.dev.slicesAgree_killQuiet sl).trans (Dev.leaves_killTold hfits).slices).slice?_some hslice
  have hxstop : x.stopping ≠ some 2 := by
    simp only [Slice.face, Prod.mk.injEq] at hface
    obtain ⟨-, -, -, -, hxs, -⟩ := hface
    exact hxs ▸ hstop
  have hnow : ¬ s.dev.now < e := by omega
  have hkilled : s.dev.killSlice sl = ((s.dev.killQuiet sl).killTold sl).dropSlice sl.id := by
    rw [Dev.killSlice_eq hstop (fun y hy => hfits y (List.mem_append_left _ hy)), Dev.endSlice_eq hx hxstop]
  rw [← hkilled]
  show execKillEffective slice s = _
  simp only [execKillEffective, State.onDev, ok, hsl, hkill, if_neg hnow]
  split
  next b h1 hb => rw [hstart h1] at hb; exact absurd hb (by simp)
  next => rfl

theorem acts_killEffective {s : State} {slice : SliceId} {sl : Slice} {e : Nat} (hsl : s.dev.slice? slice.toNat = some sl)
    (hkill : sl.killAt = some e) (hdue : e ≤ s.dev.now) (hstop : sl.stopping ≠ some 2) (hstart : sl.stopping = some 1 → sl.start = none)
    (hfresh : ∀ y ∈ sl.killReq ++ sl.stopReq, ∀ x, s.dev.session? y.1 = some x → x.fresh) :
    Acts (.killEffective slice) s fun d =>
      d.slice? slice.toNat = none ∧ d.load? slice.toNat = none ∧ (∀ st ∈ d.tel.streams, st.slice ≠ slice.toNat) ∧
      d.clustersIn 1 slice.toNat = [] ∧ (∀ c, c < 72 → c ∈ s.dev.clustersIn 1 slice.toNat → c ∈ d.clustersIn 2 slice.toNat) ∧
      d.saw 12 9 = true ∧
      (∀ y ∈ sl.killReq, (s.dev.session? y.1).isSome = true → d.told y.1 (.result y.2 0 0xFFFFFFFF (bytesOf (toLe 8 s.dev.now)))) ∧
      (∀ y ∈ sl.stopReq, (s.dev.session? y.1).isSome = true → d.told y.1 (.result y.2 0 0xFFFFFFFF [])) ∧
      Keeps killedParts s.dev d := by
  have hid : sl.id = slice.toNat := Dev.slice?_id hsl
  have hgo := s.dev.sessionsGoOn_killQuiet sl
  have hfits : ∀ y ∈ sl.killReq ++ sl.stopReq, (s.dev.killQuiet sl).sessionFits y.1 := fun y hy =>
    hgo.sessionFits (fun z hz => Session.fits_of_fresh (hfresh y hy z hz))
  have htold := Dev.leaves_killTold hfits
  have hnow : (s.dev.killQuiet sl).now = s.dev.now := (s.dev.keeps_killQuiet sl).now (by decide)
  have hfld : ∀ f, (((s.dev.killQuiet sl).killTold sl).dropSlice sl.id).fld f = (s.dev.killQuiet sl).fld f :=
    fun f => htold.regs.fld List.not_mem_nil
  have hcl : ∀ st sid, (((s.dev.killQuiet sl).killTold sl).dropSlice sl.id).clustersIn st sid = (s.dev.killQuiet sl).clustersIn st sid :=
    fun st sid => by simp only [Dev.clustersIn, hfld]
  obtain ⟨hkillTold, hstopTold⟩ := Dev.told_killTold hfits
  refine ⟨_, exec_killEffective hsl hkill hdue hstop hstart hfits, ?_, ?_, ?_, ?_, ?_, ?_, ?_, ?_, ?_⟩
  · rw [← hid]; exact Dev.slice?_dropSlice _ _
  · have hvault : ((s.dev.killQuiet sl).killTold sl).vault = (s.dev.killQuiet sl).vault := htold.keeps .vault (by decide)
    have hload := s.dev.load?_killQuiet sl
    rw [Dev.load?, ← hvault, hid] at hload
    exact hload
  · intro st hst
    have hclosed : st ∈ (s.dev.killQuiet sl).tel.streams := by
      rw [← htold.keeps.streams (by decide)]
      exact hst
    have := Dev.streams_closeStreams st hclosed
    simpa [hid] using this
  · rw [hcl, ← hid]; exact s.dev.clustersIn_killQuiet sl
  · intro c _ hc
    rw [hcl, ← hid]
    exact s.dev.clustersIn_killQuiet_scrub sl (hid.symm ▸ hc)
  · exact (htold.regs.saw 9 List.not_mem_nil).trans (s.dev.saw_killQuiet sl)
  · intro y hy hsome
    rw [← hnow]
    exact hkillTold y hy ((hgo.isSome y.1).trans hsome)
  · exact fun y hy hsome => hstopTold y hy ((hgo.isSome y.1).trans hsome)
  · exact ((s.dev.keeps_killQuiet sl).trans (htold.keeps.weaken (by decide))).trans (Dev.keeps_dropSlice _ _)

/-- Settles O30: a stop, a kill and the end of a scrub are each cut into what they report, what they close, and whom they answer. -/
theorem slicesEnd : Obligations.SlicesEnd :=
  ⟨fun _ _ _ => acts_stopAtFrameBoundary, fun _ _ _ _ => acts_killEffective, fun _ _ => ends_scrubComplete⟩

end Sys2Proof.Machine
end

section
/-! SUPPORT. The record of time through folds, branches and field updates. -/

namespace Sys2Proof.Machine

@[simp] theorem Dev.foldl_time {α : Type} {f : Dev → α → Dev} (h : ∀ d x, (f d x).time = d.time) (l : List α) (d : Dev) :
    (l.foldl f d).time = d.time := by
  induction l generalizing d with
  | nil => rfl
  | cons x l ih => rw [List.foldl_cons, ih, h]

@[simp] theorem State.foldl_time {α : Type} {f : State → α → State} (h : ∀ s x, (f s x).dev.time = s.dev.time) (l : List α) (s : State) :
    (l.foldl f s).dev.time = s.dev.time := by
  induction l generalizing s with
  | nil => rfl
  | cons x l ih => rw [List.foldl_cons, ih, h]

theorem State.onDev_time {s : State} {f : Dev → Dev} (h : ∀ d, (f d).time = d.time) : (s.onDev f).dev.time = s.dev.time := h s.dev

theorem State.onCore_time (s : State) (k : Nat) (f : CoreSt → CoreSt) : (s.onCore k f).dev.time = s.dev.time := by simp

theorem State.ite_time {c : Prop} [Decidable c] {a b : State} {t : TimeSt} (ha : a.dev.time = t) (hb : b.dev.time = t) :
    (if c then a else b).dev.time = t := by split <;> assumption

/-- The time of a device, by a name that is not a projection: the kernel compares such terms argument by argument. -/
def Dev.clock (d : Dev) : TimeSt := d.time

theorem Dev.clock_of_time {d e : Dev} (h : d.time = e.time) : d.clock = e.clock := h

theorem Dev.time_of_clock {d e : Dev} (h : d.clock = e.clock) : d.time = e.time := h

theorem Dev.ite_clock {c : Prop} [Decidable c] {a b : Dev} {t : TimeSt} (ha : a.clock = t) (hb : b.clock = t) :
    (if c then a else b).clock = t := by split <;> assumption

theorem Dev.ite_time {c : Prop} [Decidable c] {a b : Dev} {t : TimeSt} (ha : a.time = t) (hb : b.time = t) :
    (if c then a else b).time = t := by split <;> assumption

end Sys2Proof.Machine
end

section
/-! SUPPORT. The operations of Machine/Ops leave the record of time. -/

namespace Sys2Proof.Machine

@[simp] theorem Dev.bumpWrap_time (d : Dev) (a n : Nat) :
    (d.bumpWrap a n).time = d.time := by simp [Dev.bumpWrap]

@[simp] theorem Dev.sendEvent_time (d : Dev) (code : Nat) (args : List Nat) :
    (d.sendEvent code args).time = d.time := by simp [Dev.sendEvent]

@[simp] theorem Dev.markCore_time (d : Dev) (core bit : Nat) :
    (d.markCore core bit).time = d.time := by
  unfold Dev.markCore
  split <;> simp

@[simp] theorem Dev.markSlice_time (d : Dev) (id bit : Nat) :
    (d.markSlice id bit).time = d.time := by simp [Dev.markSlice]

@[simp] theorem Dev.markAtGate_time (d : Dev) (id g bit : Nat) :
    (d.markAtGate id g bit).time = d.time := by simp [Dev.markAtGate]

@[simp] theorem Dev.ooa_time (d : Dev) (kind core gra : Nat) :
    (d.ooa kind core gra).time = d.time := by
  simp [Dev.ooa, apply_ite Dev.time]

@[simp] theorem Dev.ooaCore_time (d : Dev) (kind core gra : Nat) :
    (d.ooaCore kind core gra).time = d.time := by simp [Dev.ooaCore]

@[simp] theorem Dev.draw_time (d : Dev) :
    (d.draw).2.time = d.time := by simp [Dev.draw]

@[simp] theorem Dev.pendRow_time (d : Dev) (g : Nat) :
    (d.pendRow g).time = d.time := by
  unfold Dev.pendRow
  split <;> simp

@[simp] theorem Dev.corrected_time (d : Dev) (g : Nat) :
    (d.corrected g).time = d.time := by
  simp [Dev.corrected, apply_ite Dev.time]

@[simp] theorem Dev.eccRead_time (d : Dev) (core g : Nat) :
    (d.eccRead core g).time = d.time := by
  simp [Dev.eccRead, apply_ite Dev.time]

@[simp] theorem Dev.mendRow_time (d : Dev) (g : Nat) :
    (d.mendRow g).time = d.time := by simp [Dev.mendRow]

@[simp] theorem Dev.cellRead_time (d : Dev) (core : Nat) (x : Cell) :
    (d.cellRead core x).time = d.time := by
  simp [Dev.cellRead, apply_ite Dev.time]

@[simp] theorem State.engRead_time (s : State) (core g : Nat) :
    (s.engRead core g).2.dev.time = s.dev.time := by simp [State.engRead]

@[simp] theorem State.rewriteWait_time (s : State) (core g : Nat) :
    (s.rewriteWait core g).dev.time = s.dev.time := by simp [State.rewriteWait]

@[simp] theorem State.readCells_time (s : State) (core : Nat) :
    (s.readCells core).dev.time = s.dev.time := by
  unfold State.readCells
  split <;> simp

@[simp] theorem State.slotOr_time (s : State) (core : CoreId) (gxSlot : Bool) (fits : CoreSt → Bool) (f g : State → State)
    (hf : ∀ s', (f s').dev.time = s'.dev.time) (hg : ∀ s', (g s').dev.time = s'.dev.time) :
    (s.slotOr core gxSlot fits f g).dev.time = s.dev.time := by
  unfold State.slotOr
  dsimp only
  repeat' split
  all_goals simp [hf, hg]

@[simp] theorem State.slot_time (s : State) (core : CoreId) (f : State → State) (hf : ∀ s', (f s').dev.time = s'.dev.time) :
    (s.slot core f).dev.time = s.dev.time := by simp [State.slot, hf]

@[simp] theorem State.gxSlot_time (s : State) (core : CoreId) (f : State → State) (hf : ∀ s', (f s').dev.time = s'.dev.time) :
    (s.gxSlot core f).dev.time = s.dev.time := by simp [State.gxSlot, hf]

end Sys2Proof.Machine
end

section
/-! SUPPORT. The operations of Machine/Packets leave the record of time. -/

namespace Sys2Proof.Machine

@[simp] theorem Dev.send_time (d : Dev) (p : Packet) :
    (d.send p).time = d.time := by
  unfold Dev.send
  split <;> simp

@[simp] theorem Dev.unreach_time (d : Dev) :
    (d.unreach).time = d.time := by simp [Dev.unreach]

@[simp] theorem Dev.take_time (d : Dev) (p : Packet) :
    (d.take p).time = d.time := by simp [Dev.take]

@[simp] theorem Dev.oweRows_time (d : Dev) (h : LongHdr) (n : Nat) :
    (d.oweRows h n).time = d.time := by
  unfold Dev.oweRows
  split <;> simp

@[simp] theorem Dev.oweCredit_time (d : Dev) (h : LongHdr) :
    (d.oweCredit h).time = d.time := by simp [Dev.oweCredit]

@[simp] theorem Dev.sendFrom_time (d : Dev) (src : Nat) (p : Packet) :
    (d.sendFrom src p).time = d.time := by
  simp [Dev.sendFrom, apply_ite Dev.time]

@[simp] theorem Dev.chainGrant_time (d : Dev) (h : LongHdr) (status : Nat) :
    (d.chainGrant h status).time = d.time := by
  unfold Dev.chainGrant
  split <;> simp

@[simp] theorem Dev.ackRows_time (d : Dev) (h : LongHdr) (status rows : Nat) :
    (d.ackRows h status rows).time = d.time := by
  simp [Dev.ackRows, apply_ite Dev.time]

@[simp] theorem Dev.ack_time (d : Dev) (h : LongHdr) (status : Nat) :
    (d.ack h status).time = d.time := by simp [Dev.ack]

@[simp] theorem Dev.ackEdge_time (d : Dev) (h : LongHdr) (status : Nat) :
    (d.ackEdge h status).time = d.time := by simp [Dev.ackEdge]

@[simp] theorem setRing_time (s : State) (core k v : Nat) :
    (setRing s core k v).dev.time = s.dev.time := by simp [setRing]

@[simp] theorem ringPublish_time (s : State) (core k n : Nat) :
    (ringPublish s core k n).dev.time = s.dev.time := by simp [ringPublish]

@[simp] theorem Dev.leafRelease_time (d : Dev) (core k : Nat) :
    (d.leafRelease core k).time = d.time := by
  unfold Dev.leafRelease
  split <;> simp

@[simp] theorem ringZero_time (s : State) (r first n : Nat) : (ringZero s r first n).dev.time = s.dev.time :=
  State.foldl_time (fun s j => State.foldl_time (f := fun s i => s.putRow (ringRow r (first + j) i) 0) (fun _ _ => rfl) _ s) _ s

@[simp] theorem ringRelease_time (s : State) (core k n : Nat) :
    (ringRelease s core k n).dev.time = s.dev.time := by
  simp [ringRelease, apply_ite State.dev, apply_ite Dev.time]

@[simp] theorem Dev.underflow_time (d : Dev) (core k : Nat) :
    (d.underflow core k).time = d.time := by simp [Dev.underflow]

@[simp] theorem Dev.overflow_time (d : Dev) (core k : Nat) :
    (d.overflow core k).time = d.time := by simp [Dev.overflow]

end Sys2Proof.Machine
end

section
/-! SUPPORT. The operations of Machine/Sync leave the record of time. -/

namespace Sys2Proof.Machine

@[simp] theorem acquireDone_time (s : State) (core gra waited : Nat) (timeout : Bool) :
    (acquireDone s core gra waited timeout).dev.time = s.dev.time := by simp [acquireDone]

@[simp] theorem semMeet_time (cl g count : Nat) (s : State) :
    (semMeet cl g count s).dev.time = s.dev.time :=
  State.foldl_time (fun _ _ => State.onCore_time ..) _ _

@[simp] theorem State.release_time (s : State) (core : CoreId) (e : CoreSt → RelEntry) :
    (s.release core e).dev.time = s.dev.time :=
  State.slotOr_time _ _ _ _ _ _ (fun _ => rfl) (fun _ => rfl)

@[simp] theorem acquire_time (core : Nat) (sreg : BitVec 5) (soff : BitVec 12) (s : State) :
    (acquire core sreg soff s).dev.time = s.dev.time := by
  simp [acquire, apply_ite State.dev, apply_ite Dev.time]

@[simp] theorem retirePublish_time (s : State) (core ring : Nat) :
    (retirePublish s core ring).dev.time = s.dev.time := by
  simp [retirePublish, apply_ite State.dev, apply_ite Dev.time]

@[simp] theorem retireRelease_time (s : State) (core gra chip : Nat) :
    (retireRelease s core gra chip).dev.time = s.dev.time := by
  simp [retireRelease, apply_ite State.dev, apply_ite Dev.time]

end Sys2Proof.Machine
end

section
/-! SUPPORT. The operations of Machine/Dma leave the record of time. -/

namespace Sys2Proof.Machine

@[simp] theorem State.onRun_time (s : State) (core q : Nat) (f : DmaRun → DmaRun) :
    (s.onRun core q f).dev.time = s.dev.time := by simp [State.onRun]

@[simp] theorem dmaRead_time (s : State) (core g : Nat) :
    (dmaRead s core g).2.dev.time = s.dev.time := by
  unfold dmaRead
  split <;> simp

@[simp] theorem dmaPut_time (s : State) (core g : Nat) (r : RowData) :
    (dmaPut s core g r).dev.time = s.dev.time := by
  unfold dmaPut
  split <;> simp

@[simp] theorem skewFill_time (core q src key n : Nat) (s : State) : (skewFill core q src key n s).dev.time = s.dev.time := by
  induction n with
  | zero => rfl
  | succ n ih =>
    unfold skewFill
    dsimp only
    split <;> simp [ih]

@[simp] theorem skewRow_time (s : State) (core q : Nat) (e : DmaEntry) (r : Nat) :
    (skewRow s core q e r).2.dev.time = s.dev.time := by
  unfold skewRow
  dsimp only
  repeat' split
  all_goals simp

@[simp] theorem dmaLose_time (core q lost : Nat) (s : State) :
    (dmaLose core q lost s).dev.time = s.dev.time := by
  unfold dmaLose
  split <;> simp

@[simp] theorem dmaWait_time (s : State) (core q why : Nat) :
    (dmaWait s core q why).dev.time = s.dev.time := by simp [dmaWait]

@[simp] theorem srcRow_time (s : State) (core q : Nat) (e : DmaEntry) :
    (srcRow s core q e).2.dev.time = s.dev.time := by
  unfold srcRow
  dsimp only
  repeat' split
  all_goals simp

@[simp] theorem localRow_time (s : State) (core q : Nat) (e : DmaEntry) (meets : Bool) :
    (localRow s core q e meets).dev.time = s.dev.time := by
  unfold localRow
  dsimp only
  repeat' split
  all_goals simp

@[simp] theorem localLoop_time (core q : Nat) (e : DmaEntry) (meets : Bool) (n : Nat) (s : State) :
    (localLoop core q e meets n s).dev.time = s.dev.time := by
  induction n generalizing s with
  | zero => rfl
  | succ n ih =>
    unfold localLoop
    dsimp only
    repeat' split
    all_goals simp [ih]

@[simp] theorem gatherRows_time (core q : Nat) (e : DmaEntry) (n : Nat) (s : State) :
    (gatherRows core q e n s).2.dev.time = s.dev.time := by
  induction n generalizing s with
  | zero => rfl
  | succ n ih =>
    unfold gatherRows
    split
    · simp
    · have rest := ih ((srcRow s core q e).2.onRun core q (fun x => { x with done := x.done + 1, forcedSrc := false, forcedDst := false }))
      dsimp only
      split <;> simp_all

@[simp] theorem injectUse_time (s : State) (core : Nat) (sl : Slice) (e : DmaEntry) (dst rows flits : Nat) :
    (injectUse s core sl e dst rows flits).dev.time = s.dev.time := by
  unfold injectUse
  repeat' split
  all_goals simp

@[simp] theorem injectHeld_time (s : State) (core q flits : Nat) (why : Inject) :
    (injectHeld s core q flits why).dev.time = s.dev.time := by
  unfold injectHeld
  repeat' split
  all_goals simp

@[simp] theorem sendPkt_time (s : State) (core q : Nat) (e : DmaEntry) : (sendPkt s core q e).dev.time = s.dev.time := by
  unfold sendPkt
  dsimp only
  have gathered := gatherRows_time core q e (readyRows s core q e (pktRows s core q e)) s
  repeat' split
  all_goals simp_all -implicitDefEqProofs

@[simp] theorem sendLoop_time (core q : Nat) (e : DmaEntry) (n : Nat) (s : State) :
    (sendLoop core q e n s).dev.time = s.dev.time := by
  induction n generalizing s with
  | zero => rfl
  | succ n ih =>
    unfold sendLoop
    dsimp only
    repeat' split
    all_goals simp [ih]

@[simp] theorem chanLate_time (core q late : Nat) (e : DmaEntry) (s s' : State) :
    (chanLate core q late e s s').dev.time = s'.dev.time := by
  unfold chanLate
  split <;> simp

@[simp] theorem dmaSend_time (core : CoreId) (q : Fin 4) (opc : Nat) (x : SendTurn) (s : State) :
    (dmaSend core q opc x s).dev.time = s.dev.time := by
  unfold dmaSend
  split <;> simp

@[simp] theorem sendRead_time (s : State) (core q : Nat) (e : DmaEntry) :
    (sendRead s core q e).dev.time = s.dev.time := by
  unfold sendRead
  dsimp only
  repeat' split
  all_goals simp -implicitDefEqProofs

@[simp] theorem readLoop_time (core q : Nat) (e : DmaEntry) (n : Nat) (s : State) :
    (readLoop core q e n s).dev.time = s.dev.time := by
  induction n generalizing s with
  | zero => rfl
  | succ n ih =>
    unfold readLoop
    dsimp only
    repeat' split
    all_goals simp [ih]

@[simp] theorem dxRun_time (core : Nat) (f : DxFields) (s : State) :
    (dxRun core f s).dev.time = s.dev.time := by simp [dxRun]

@[simp] theorem clearRingWait_time (core k : Nat) (s : State) (q : Nat) :
    (clearRingWait core k s q).dev.time = s.dev.time := by
  unfold clearRingWait
  repeat' split
  all_goals simp

end Sys2Proof.Machine
end

section
/-! SUPPORT. The operations of Machine/Matrix leave the record of time. -/

namespace Sys2Proof.Machine

@[simp] theorem accWrite_time (s : State) (core acc : Nat) (half : Bool) (entry : Nat) (vals : List (Nat × Bool)) :
    (accWrite s core acc half entry vals).dev.time = s.dev.time := by
  unfold accWrite
  dsimp only
  repeat' split
  all_goals simp

@[simp] theorem completePos_time (s : State) (core : Nat) (vecs : List StreamVec) :
    (completePos s core vecs).dev.time = s.dev.time := by
  unfold completePos
  dsimp only
  repeat' split
  all_goals simp

@[simp] theorem pushVec_time (s : State) (core : Nat) (v : StreamVec) :
    (pushVec s core v).dev.time = s.dev.time := by
  simp [pushVec, apply_ite State.dev, apply_ite Dev.time]

@[simp] theorem feedRow_time (s : State) (core g : Nat) :
    (feedRow s core g).2.dev.time = s.dev.time := by
  unfold feedRow
  split <;> simp

@[simp] theorem feedStaged_time (s : State) (core g : Nat) :
    (feedStaged s core g).2.dev.time = s.dev.time := by
  unfold feedStaged
  dsimp only
  repeat' split
  all_goals simp

@[simp] theorem feedAheadOf_time (s : State) (core g : Nat) :
    (feedAheadOf s core g).dev.time = s.dev.time := by
  unfold feedAheadOf
  split <;> simp

@[simp] theorem ringVec_time (s : State) (core k cls : Nat) :
    (ringVec s core k cls).2.dev.time = s.dev.time := by
  unfold ringVec
  dsimp only
  repeat' split
  all_goals simp

@[simp] theorem feedPush_time (s : State) (core : Nat) (f : MxFeedFields) (seq i : Nat) (raw : BitVec 2048) (side : DWord) :
    (feedPush s core f seq i raw side).dev.time = s.dev.time := by
  simp [feedPush, apply_ite State.dev, apply_ite Dev.time]

@[simp] theorem feedSide_time (s : State) (core g : Nat) (held : Option Staged) :
    (feedSide s core g held).2.dev.time = s.dev.time := by
  unfold feedSide
  dsimp only
  repeat' split
  all_goals simp

@[simp] theorem feedLoop_time (core : Nat) (f : MxFeedFields) (base seq : Nat) (side : Option Staged) (n i : Nat) (s : State) :
    (feedLoop core f base seq side n i s).dev.time = s.dev.time := by
  induction n generalizing side i s with
  | zero => rfl
  | succ k ih =>
    unfold feedLoop
    dsimp only
    repeat' split
    all_goals simp [ih]

@[simp] theorem feedStart_time (s : State) (core : Nat) (f : MxFeedFields) (base seq : Nat) :
    (feedStart s core f base seq).dev.time = s.dev.time := by
  simp [feedStart, apply_ite State.dev, apply_ite Dev.time]

@[simp] theorem feedTryStart_time (s : State) (core : Nat) :
    (feedTryStart s core).dev.time = s.dev.time := by
  unfold feedTryStart
  dsimp only
  repeat' split
  all_goals simp

@[simp] theorem loadRow_time (s : State) (core g : Nat) :
    (loadRow s core g).2.dev.time = s.dev.time := by
  unfold loadRow
  split <;> simp

@[simp] theorem loadImage_time (core : Nat) (l : List Nat) (s : State) : (loadImage core l s).2.dev.time = s.dev.time := by
  induction l generalizing s with
  | nil => rfl
  | cons g t ih => simp [loadImage, ih]

@[simp] theorem loadPlane_time (s : State) (core : Nat) (f : MxLoadFields) (img : List RowData) (store : Bool) :
    (loadPlane s core f img store).dev.time = s.dev.time := by simp [loadPlane]

@[simp] theorem loadProceed_time (s : State) (core : Nat) (force : Bool) :
    (loadProceed s core force).dev.time = s.dev.time := by
  unfold loadProceed
  dsimp only
  repeat' split
  all_goals simp

@[simp] theorem loadTryStart_time (s : State) (core : Nat) :
    (loadTryStart s core).dev.time = s.dev.time := by
  unfold loadTryStart
  dsimp only
  repeat' split
  all_goals simp

@[simp] theorem mxEnqueue_time (core : CoreId) (op : CoreSt → MxOp) (s : State) : (mxEnqueue core op s).dev.time = s.dev.time :=
  State.slotOr_time _ _ _ _ _ _ (fun _ => rfl) (fun _ => rfl)

end Sys2Proof.Machine
end

section
/-! SUPPORT. The operations of Machine/RingWaits leave the record of time. -/

namespace Sys2Proof.Machine

@[simp] theorem feedResume_time (s : State) (core : Nat) :
    (feedResume s core).dev.time = s.dev.time := by
  unfold feedResume
  split <;> simp

@[simp] theorem ringUnderflow_time (s : State) (core k : Nat) :
    (ringUnderflow s core k).dev.time = s.dev.time := by
  unfold ringUnderflow
  dsimp only
  repeat' split
  all_goals simp

@[simp] theorem inboundPublish_time (s : State) (core schip score gra n : Nat) :
    (inboundPublish s core schip score gra n).dev.time = s.dev.time := by
  unfold inboundPublish
  split <;> simp

@[simp] theorem requestDone_time (s : State) (core : Nat) (o : OutPkt) (landed : Bool) :
    (requestDone s core o landed).dev.time = s.dev.time := by
  unfold requestDone
  dsimp only
  repeat' split
  all_goals simp

@[simp] theorem replyDone_time (s : State) (core queue seq : Nat) (landed : Bool) :
    (replyDone s core queue seq landed).dev.time = s.dev.time := by
  unfold replyDone
  split <;> simp

@[simp] theorem replyLost_time (s : State) (core queue seq : Nat) :
    (replyLost s core queue seq).dev.time = s.dev.time := by
  unfold replyLost
  dsimp only
  repeat' split
  all_goals simp

end Sys2Proof.Machine
end

section
/-! SUPPORT. The operations of Machine/Holds leave the record of time. -/

namespace Sys2Proof.Machine

@[simp] theorem Dev.respaceAll_time (d : Dev) :
    (d.respaceAll).time = d.time := by simp [Dev.respaceAll]

@[simp] theorem Dev.updPort_time (d : Dev) (p : Nat) (f : PortSt → PortSt) :
    (d.updPort p f).time = d.time := by simp [Dev.updPort]

@[simp] theorem Dev.forward_time (d : Dev) (sid : Nat) (w : CtrlWord) (except : Nat) :
    (d.forward sid w except).time = d.time := by
  simp [Dev.forward, apply_ite Dev.time]

@[simp] theorem Dev.ownWord_time (d : Dev) (sid kind cause ec : Nat) :
    (d.ownWord sid kind cause ec).1.time = d.time := by simp [Dev.ownWord]

@[simp] theorem Dev.transitRaise_time (d : Dev) (sid cause : Nat) :
    (d.transitRaise sid cause).time = d.time := by
  unfold Dev.transitRaise
  split <;> simp

@[simp] theorem Dev.transitClear_time (d : Dev) (sid cause : Nat) :
    (d.transitClear sid cause).time = d.time := by
  unfold Dev.transitClear
  dsimp only
  repeat' split
  all_goals simp

@[simp] theorem Dev.raiseHold_time (d : Dev) (sid cause : Nat) :
    (d.raiseHold sid cause).time = d.time := by
  unfold Dev.raiseHold
  dsimp only
  repeat' split
  all_goals simp

@[simp] theorem Dev.clearCause_time (d : Dev) (sid cause : Nat) :
    (d.clearCause sid cause).time = d.time := by
  unfold Dev.clearCause
  dsimp only
  repeat' split
  all_goals simp

@[simp] theorem Dev.raiseFor_time (d : Dev) (sid cause : Nat) :
    (d.raiseFor sid cause).time = d.time := by
  unfold Dev.raiseFor
  split <;> simp

@[simp] theorem Dev.clearFor_time (d : Dev) (sid cause : Nat) :
    (d.clearFor sid cause).time = d.time := by
  unfold Dev.clearFor
  split <;> simp

@[simp] theorem Dev.recvRaise_time (d : Dev) (sl : Slice) (origin holdId cause ec : Nat) :
    (d.recvRaise sl origin holdId cause ec).time = d.time := by
  unfold Dev.recvRaise
  dsimp only
  repeat' split
  all_goals simp

@[simp] theorem Dev.recvResume_time (d : Dev) (sl : Slice) (origin ec : Nat) :
    (d.recvResume sl origin ec).time = d.time := by
  unfold Dev.recvResume
  dsimp only
  repeat' split
  all_goals simp

@[simp] theorem Dev.recvEarly_time (d : Dev) (sl : Slice) (origin holdId kind ec : Nat) :
    (d.recvEarly sl origin holdId kind ec).time = d.time := by
  unfold Dev.recvEarly
  split <;> simp

@[simp] theorem Dev.recvHold_time (d : Dev) (port : Nat) (w : CtrlWord) :
    (d.recvHold port w).time = d.time := by
  unfold Dev.recvHold
  dsimp only
  repeat' split
  all_goals simp

@[simp] theorem Dev.settleStretch_time (d : Dev) (sid : Nat) :
    (d.settleStretch sid).time = d.time := by
  unfold Dev.settleStretch
  repeat' split
  all_goals simp

@[simp] theorem Dev.stretchSlice_time (r : Nat) (d : Dev) (sl : Slice) :
    (d.stretchSlice r sl).time = d.time := by
  simp [Dev.stretchSlice, apply_ite Dev.time]

end Sys2Proof.Machine
end

section
/-! SUPPORT. The operations of Machine/Network leave the record of time. -/

namespace Sys2Proof.Machine

@[simp] theorem Dev.crcFail_time (d : Dev) :
    (d.crcFail).time = d.time := by simp [Dev.crcFail]

@[simp] theorem Dev.fenceDrop_time (d : Dev) :
    (d.fenceDrop).time = d.time := by simp [Dev.fenceDrop]

@[simp] theorem Dev.deliver_time (d : Dev) (stopped : Bool) (cl slice gen : Nat) :
    (d.deliver stopped cl slice gen).2.time = d.time := by
  unfold Dev.deliver
  repeat' split
  all_goals simp

@[simp] theorem Dev.deliverLong_time (d : Dev) (h : LongHdr) :
    (d.deliverLong h).2.time = d.time := by
  unfold Dev.deliverLong
  split <;> simp

@[simp] theorem landRows_time (mover : Bool) (cl core : Nat) (l : List RowData) (g : Nat) (s : State) :
    (landRows mover cl core l g s).2.dev.time = s.dev.time := by
  induction l generalizing g s with
  | nil => rfl
  | cons r t ih =>
    unfold landRows
    dsimp only
    split <;> simp [ih]

@[simp] theorem Dev.measured_time (d : Dev) (schip score dcl n latency : Nat) :
    (d.measured schip score dcl n latency).time = d.time := by
  simp [Dev.measured, apply_ite Dev.time]

@[simp] theorem Dev.measure_time (d : Dev) (h : LongHdr) (latency : Nat) :
    (d.measure h latency).time = d.time := by
  unfold Dev.measure
  split <;> simp

@[simp] theorem Dev.crossLate_time (d : Dev) (h : LongHdr) (late : List (Fin 24)) : (d.crossLate h late).time = d.time := by
  unfold Dev.crossLate
  exact Dev.ite_time ((Dev.foldl_time (f := fun d (r : Fin 24) => d.event 11 7 [r.val]) (fun d r => d.event_time 11 7 _) _ _).trans (by simp)) rfl

@[simp] theorem Dev.ackAll_time (n : Nat) (d : Dev) (f : Flit) (st : Nat) : (Dev.ackAll n d f st).time = d.time := by
  induction n generalizing d f with
  | zero => exact d.ack_time _ _
  | succ n ih =>
    unfold Dev.ackAll
    split
    · exact Dev.foldl_time (fun d x => ih d x) _ _
    · exact d.ack_time _ _

/-- The last row of a write packet, taken apart where its write meets a read of its core. -/
theorem State.lastRow_time {meetsRead : Bool} {last : Option RowData} {a : RowData → State} {b : State} {t : TimeSt}
    (ha : ∀ r, (a r).dev.time = t) (hb : b.dev.time = t) :
    (match meetsRead, last with | true, some r => a r | _, _ => b).dev.time = t := by
  cases meetsRead <;> cases last
  case true.some r => exact ha r
  all_goals exact hb

@[simp] theorem landWritePkt_time (p : Packet) (meetsRead : Bool) (s : State) :
    (landWritePkt p meetsRead s).dev.time = s.dev.time := by
  have delivered := s.dev.deliverLong_time (longHdr p.hdr)
  have landed := fun m c k l g => (landRows_time m c k l g { s with dev := (s.dev.deliverLong (longHdr p.hdr)).2 }).trans delivered
  unfold landWritePkt
  dsimp only
  refine State.ite_time ((Dev.ack_time _ _ _).trans delivered) (State.ite_time
    ((Dev.ack_time _ _ _).trans ((Dev.crcFail_time _).trans delivered)) (State.lastRow_time (fun r => State.ite_time ?_ ?_) ?_))
  · exact (Dev.oweRows_time _ _ _).trans ((State.onCore_time _ _ _).trans (landed _ _ _ _ _))
  · exact (Dev.ack_time _ _ _).trans ((Dev.ite_time (Dev.ooa_time _ _ _ _) (Dev.ooa_time _ _ _ _)).trans (landed _ _ _ _ _))
  · exact (Dev.ack_time _ _ _).trans ((inboundPublish_time _ _ _ _ _ _).trans (landed _ _ _ _ _))

@[simp] theorem Dev.arrived_time (d : Dev) (h : LongHdr) (x : Trip) :
    (d.arrived h x).time = d.time := by simp [Dev.arrived]

@[simp] theorem readRows_time (core : Nat) (l : List Nat) (s : State) : (readRows core l s).2.dev.time = s.dev.time := by
  induction l generalizing s with
  | nil => rfl
  | cons g t ih => simp [readRows, ih]

@[simp] theorem replyUse_time (s : State) (h : LongHdr) (rows : Nat) :
    (replyUse s h rows).dev.time = s.dev.time := by
  simp [replyUse, apply_ite State.dev, apply_ite Dev.time]

@[simp] theorem serveRead_time (p : Packet) (s : State) :
    (serveRead p s).dev.time = s.dev.time := by
  simp [serveRead, apply_ite State.dev, apply_ite Dev.time]

@[simp] theorem Dev.deferred_time (d : Dev) (cls late : Nat) :
    (d.deferred cls late).time = d.time := by
  unfold Dev.deferred
  split <;> simp

@[simp] theorem landOwn_time (core : Nat) (l : List RowData) (g : Nat) (s : State) : (landOwn core l g s).2.dev.time = s.dev.time := by
  induction l generalizing g s with
  | nil => rfl
  | cons r t ih =>
    unfold landOwn
    dsimp only
    split <;> simp [ih]

@[simp] theorem landReply_time (p : Packet) (meetsRead : Bool) (s : State) :
    (landReply p meetsRead s).dev.time = s.dev.time := by
  simp [landReply, apply_ite State.dev, apply_ite Dev.time]

@[simp] theorem sumLand_time (p : Packet) (s : State) :
    (sumLand p s).dev.time = s.dev.time := by
  unfold sumLand
  dsimp only
  repeat' split
  all_goals simp

@[simp] theorem Dev.takeHop_time (d : Dev) (x : TreeHop) :
    (d.takeHop x).time = d.time := by
  unfold Dev.takeHop
  split <;> simp

@[simp] theorem Dev.treeOut_time (d : Dev) (cl port : Nat) :
    (d.treeOut cl port).2.time = d.time := by
  unfold Dev.treeOut
  dsimp only
  repeat' split
  all_goals simp

@[simp] theorem Dev.hop_time (d : Dev) (x : TreeHop) :
    (d.hop x).time = d.time := by simp [Dev.hop]

/-- A tree's packet goes on by an output of a router, or is answered where the output leads nowhere. -/
theorem Dev.treeOut_hop_time {d e : Dev} (cl out : Nat) (x : Nat → TreeHop) (lost : Dev → Dev) (hl : ∀ d, (lost d).time = d.time)
    (h : d.time = e.time) :
    (match d.treeOut cl out with | (some n, d) => d.hop (x n) | (none, d) => lost d).time = e.time := by
  have out := d.treeOut_time cl out
  split <;> simp_all

@[simp] theorem sumEmit_time (cl : Nat) (parts : List (Nat × Packet)) (out fmt : Nat) (s : State) :
    (sumEmit cl parts out fmt s).dev.time = s.dev.time := by
  unfold sumEmit
  split
  · rfl
  · have dropped := fun st (n : Dev → Nat) (l : List Packet) => Dev.foldl_time
      (f := fun d (p : Packet) => (d.bump (regAddr 7 0x14) 1).ackAll (n d) p.hdr st) (fun d p => by simp) l s.dev
    refine State.ite_time ((sumLand_time _ _).trans (dropped 2 _ _)) ?_
    exact Dev.treeOut_hop_time cl out _ _ (fun d => d.ackAll_time _ _ _) (dropped 2 _ _)

@[simp] theorem Dev.hopped_time (d : Dev) (h : LongHdr) (x : Trip) :
    (d.hopped h x).time = d.time := by simp [Dev.hopped]

@[simp] theorem sumArrive_time (x : TreeHop) (trip : Trip) (s : State) :
    (sumArrive x trip s).dev.time = s.dev.time := by
  unfold sumArrive
  dsimp only
  repeat' split
  all_goals simp

@[simp] theorem Dev.mcastDone_time (d : Dev) (f : Flit) (add st : Nat) :
    (d.mcastDone f add st).time = d.time := by
  simp [Dev.mcastDone, apply_ite Dev.time]

@[simp] theorem leafRows_time (core ring : Nat) (l : List RowData) (s : State) : (leafRows core ring l s).dev.time = s.dev.time := by
  induction l generalizing s with
  | nil => rfl
  | cons r t ih =>
    unfold leafRows
    dsimp only
    split <;> simp [ih]

@[simp] theorem leafLand_time (core ring : Nat) (p : Packet) (s : State) :
    (leafLand core ring p s).2.dev.time = s.dev.time := by
  unfold leafLand
  dsimp only
  repeat' split
  all_goals simp

@[simp] theorem Dev.holdCopy_time (d : Dev) (br l : Nat × Nat) (p : Packet) :
    (d.holdCopy br l p).time = d.time := by simp [Dev.holdCopy]

@[simp] theorem mcastArrive_time (x : TreeHop) (trip : Trip) (s : State) : (mcastArrive x trip s).dev.time = s.dev.time := by
  unfold mcastArrive
  refine State.ite_time (by simp) (State.ite_time rfl ?_)
  split
  · simp
  · refine State.ite_time ?_ ?_
    · dsimp only [State.onDev]
      split <;> simp
    · have landed := fun (l : List (Nat × Nat)) s => State.foldl_time (f := fun s (l : Nat × Nat) =>
        (leafLand l.1 l.2 x.pkt s).2.onDev (fun d => d.mcastDone x.pkt.hdr 0 (leafLand l.1 l.2 x.pkt s).1)) (fun s l => by simp) l s
      refine (landed _ _).trans ((State.foldl_time (fun s l => by simp) _ _).trans ((State.onDev_time fun d => ?_).trans ?_))
      · exact Dev.foldl_time (fun d k => Dev.treeOut_hop_time x.cl k _ _ (fun d => d.mcastDone_time _ _ _) rfl) _ _
      · simp [apply_ite Dev.time]

@[simp] theorem shortArrive_time (sop : Nat) (f : Flit) (s : State) (act : ShortPkt → State → State)
    (hact : ∀ x0 s', (act x0 s').dev.time = s'.dev.time) :
    (shortArrive sop f s act).dev.time = s.dev.time := by
  simp [shortArrive, apply_ite State.dev, apply_ite Dev.time, hact]

theorem State.inOrder_time {s t : State} (f : Flit) (h : t.dev.time = s.dev.time) : (s.inOrder f t).dev.time = s.dev.time := by
  unfold State.inOrder
  split
  · exact h
  · rfl

@[simp] theorem shortDeliver_time (k : ShortPkt) (s : State) (act : State → State) (hact : ∀ s', (act s').dev.time = s'.dev.time) :
    (shortDeliver k s act).dev.time = s.dev.time := by
  simp [shortDeliver, apply_ite State.dev, apply_ite Dev.time, hact]

@[simp] theorem ackCore_time (k : ShortPkt) (s : State) :
    (ackCore k s).dev.time = s.dev.time := by
  unfold ackCore
  dsimp only
  repeat' split
  all_goals simp

@[simp] theorem semArrive_time (k : ShortPkt) (s : State) :
    (semArrive k s).dev.time = s.dev.time := by
  simp [semArrive, apply_ite State.dev, apply_ite Dev.time]

@[simp] theorem Dev.setStopUse_time (d : Dev) (stop slice net n : Nat) :
    (d.setStopUse stop slice net n).time = d.time := by simp [Dev.setStopUse]

@[simp] theorem Dev.enterMesh_time (d : Dev) (stop : Nat) (p : Packet) :
    (d.enterMesh stop p).time = d.time := by
  unfold Dev.enterMesh
  split <;> simp

@[simp] theorem Dev.nextAdd_time (d : Dev) (stop : Nat) :
    (d.nextAdd stop).time = d.time := by
  unfold Dev.nextAdd
  split <;> simp

@[simp] theorem Dev.fromRing_time (d : Dev) (p : Packet) :
    (d.fromRing p).time = d.time := by
  simp [Dev.fromRing, apply_ite Dev.time]

@[simp] theorem Dev.drainStop_time (d : Dev) (stop slice net : Nat) :
    (d.drainStop stop slice net).time = d.time := by simp [Dev.drainStop]

@[simp] theorem atomicAdd_time (p : Packet) (s : State) :
    (atomicAdd p s).dev.time = s.dev.time := by
  simp [atomicAdd, apply_ite State.dev, apply_ite Dev.time]

end Sys2Proof.Machine
end

section
/-! SUPPORT. The operations of Machine/Ledger leave the record of time. -/

namespace Sys2Proof.Machine

@[simp] theorem Dev.auditRaw_time (d : Dev) (kind role result : Nat) (actor : BitVec 128) (detail : BitVec 384) :
    (d.auditRaw kind role result actor detail).time = d.time :=
  Dev.keeps_auditRaw (l := [.sessions, .ledger]) d kind role result actor detail (by decide) (by decide) .time (by decide)

@[simp] theorem Dev.auditSelf_time (d : Dev) (kind : Nat) (args : List Nat) :
    (d.auditSelf kind args).time = d.time := by simp [Dev.auditSelf]

end Sys2Proof.Machine
end

section
/-! SUPPORT. The operations of Machine/Fabric leave the record of time. -/

namespace Sys2Proof.Machine

@[simp] theorem Dev.noRoute_time (d : Dev) (p : Packet) :
    (d.noRoute p).time = d.time := by
  simp [Dev.noRoute, apply_ite Dev.time]

@[simp] theorem Dev.place_time (d : Dev) (p : Nat) (own : Bool) (h : LeadHdr) (body : List Flit) (eligible : Nat) :
    (d.place p own h body eligible).time = d.time := by
  unfold Dev.place
  dsimp only
  generalize slotAfter _ _ 0 = first
  generalize slotAfter _ _ (body.length + 1) = last
  cases first <;> cases last
  case some.some => exact Dev.ite_time (d.bump_time _ _) (d.updPort_time _ _)
  all_goals rfl

/-- A device that may come of an operation, if any, has the time of before. -/
def TimeKept (t : TimeSt) (o : Option Dev) : Prop := ∀ e, o = some e → e.time = t

theorem TimeKept.none (t : TimeSt) : TimeKept t none := fun _ h => absurd h (by simp)

theorem TimeKept.some {t : TimeSt} {e : Dev} (h : e.time = t) : TimeKept t (some e) := fun _ he => Option.some.inj he ▸ h

theorem TimeKept.ite {c : Prop} [Decidable c] {t : TimeSt} {a b : Option Dev} (ha : TimeKept t a) (hb : TimeKept t b) :
    TimeKept t (if c then a else b) := by
  split <;> assumption

/-- A frame that an output takes, or drops, leaves the time. -/
theorem Dev.offer_timeKept {d : Dev} {t : TimeSt} (ht : d.time = t) (p inPort eligible : Nat) (h : LeadHdr) (body : List Flit) :
    TimeKept t (d.offer p inPort eligible h body) := by
  subst ht
  unfold Dev.offer
  extract_lets x drop flits es set
  have dropped : ∀ d, (drop d).time = d.time := fun d => Dev.foldl_time (fun d k => Dev.ite_time (d.ackEdge_time _ _) rfl) _ d
  clear_value drop
  split
  · exact .ite (.some ((dropped _).trans (d.bump_time _ _))) (.ite (.some ((dropped _).trans (d.bump_time _ _))) (.ite (.none _)
      (.some (d.place_time _ _ _ _ _))))
  · exact .ite (.none _) (.some ((Dev.place_time _ _ _ _ _ _).trans (d.updPort_time _ _)))
  · exact .ite (.none _) (.some (d.place_time _ _ _ _ _))

@[simp] theorem Dev.owe_time (d : Dev) (inPort : Nat) (h : LeadHdr) (flits : Nat) :
    (d.owe inPort h flits).time = d.time := by
  unfold Dev.owe
  split <;> simp

theorem Dev.withFab_time (d : Dev) (f : FabSt) : ({ d with fab := f } : Dev).time = d.time := rfl

theorem Dev.tryItem_timeKept (d : Dev) (port : Nat) (x : OutItem) : TimeKept d.time (d.tryItem port x) := by
  cases x with
  | transit w =>
    rw [Dev.tryItem]
    exact .ite (.some ((Dev.bump_time _ _ _).trans ((Dev.owe_time _ _ _ _).trans (d.withFab_time _))))
      (.ite (.some ((Dev.foldl_time (fun d k => d.noRoute_time k) _ _).trans ((Dev.owe_time _ _ _ _).trans (d.withFab_time _))))
        (Dev.offer_timeKept ((Dev.owe_time _ _ _ _).trans (d.withFab_time _)) _ _ _ _ _))
  | own eligible p =>
    rw [Dev.tryItem]
    exact .ite (.some ((Dev.noRoute_time _ p).trans (d.withFab_time _))) (Dev.offer_timeKept (d.withFab_time _) _ _ _ _ _)

@[simp] theorem Dev.sendFirst_time (d : Dev) (port : Nat) (l : List OutItem) (blocked : List SlotUse) :
    (d.sendFirst port l blocked).time = d.time := by
  induction l generalizing blocked with
  | nil => rfl
  | cons x t ih =>
    unfold Dev.sendFirst
    dsimp only
    split
    · exact ih _
    · split
      · exact Dev.tryItem_timeKept _ _ _ _ ‹_›
      · exact ih _

@[simp] theorem Dev.eligible_time (d : Dev) (port : Nat) :
    (d.eligible port).time = d.time := by simp [Dev.eligible]

@[simp] theorem Dev.transit_time (d : Dev) (inPort outPort : Nat) :
    (d.transit inPort outPort).time = d.time := by
  unfold Dev.transit
  dsimp only
  repeat' split
  all_goals simp

@[simp] theorem Dev.transits_time (inPort outPort n : Nat) (d : Dev) : (Dev.transits inPort outPort n d).time = d.time := by
  induction n generalizing d with
  | zero => rfl
  | succ n ih => exact (ih _).trans (d.transit_time _ _)

@[simp] theorem Dev.ctrl_time (d : Dev) (p : Nat) (w : CtrlWord) :
    (d.ctrl p w).time = d.time := by simp [Dev.ctrl]

@[simp] theorem Dev.nak_time (d : Dev) (port : Nat) (h : LeadHdr) (lseq : Nat) :
    (d.nak port h lseq).time = d.time := by
  unfold Dev.nak
  dsimp only
  repeat' split
  all_goals simp

@[simp] theorem Dev.learnK_time (d : Dev) (sid k : Nat) :
    (d.learnK sid k).time = d.time := by
  unfold Dev.learnK
  split <;> simp

@[simp] theorem Dev.frameIn_time (d : Dev) (port : Nat) (f : Frame) :
    (d.frameIn port f).time = d.time := by
  simp [Dev.frameIn, apply_ite Dev.time]

@[simp] theorem Dev.letIn_time (d : Dev) (port : Nat) (h : LeadHdr) (flits : Nat) (p : Packet) :
    (d.letIn port h flits p).time = d.time := by
  unfold Dev.letIn
  split <;> simp

/-- The packets of an open frame for this device, let in one by one or as the frame's own. -/
theorem Dev.lettingIn_time {d : Dev} {l : List Packet} {one : Packet → Dev} {all : Dev} (h1 : ∀ k, (one k).time = d.time)
    (h2 : all.time = d.time) : (match l with | [k] => one k | ks => ks.foldl Dev.fromRing all).time = d.time := by
  split
  · exact h1 _
  · exact (Dev.foldl_time (fun d k => d.fromRing_time k) _ _).trans h2

@[simp] theorem Dev.present_time (d : Dev) (port : Nat) : (d.present port).time = d.time := by
  unfold Dev.present
  split
  · extract_lets h d1 hit held late d2 d3 waits d4 here rest enters d5 d6 at_
    have h1 : d1.time = d.time := Dev.updPort_time _ _ _
    have hl : late.time = d.time := by simp -implicitDefEqProofs [late, h1]
    have h2 : d2.time = d.time := Dev.ite_time (Dev.ite_time hl (by simp -implicitDefEqProofs [hl])) h1
    have h3 : d3.time = d.time := (Dev.updPort_time _ _ _).trans h2
    have h4 : d4.time = d.time := Dev.ite_time (by simp -implicitDefEqProofs [h3]) h3
    have h5 : d5.time = d.time := (Dev.foldl_time (fun d k => d.noRoute_time k) _ _).trans h4
    have h6 : d6.time = d.time := by
      rw [← h5]
      exact Dev.lettingIn_time (fun k => Dev.ite_time (by simp) (by simp)) (Dev.ite_time (by simp) rfl)
    exact Dev.ite_time (by simp -implicitDefEqProofs [h1]) (Dev.ite_time h6 ((Dev.foldl_time (fun d b => by rfl) _ _).trans h6))
  · rfl

@[simp] theorem Dev.dropSent_time (d : Dev) (port : Nat) (hit : SentFrame → Bool) (count : Dev → SentFrame → Dev)
    (hcount : ∀ d' x1, (count d' x1).time = d'.time) :
    (d.dropSent port hit count).time = d.time := by simp [Dev.dropSent, hcount]

@[simp] theorem Dev.frameLost_time (d : Dev) (f : SentFrame) :
    (d.frameLost f).time = d.time := by simp [Dev.frameLost]

@[simp] theorem Dev.replace_time (d : Dev) (port : Nat) (hit : SentFrame → Bool) :
    (d.replace port hit).time = d.time := by
  unfold Dev.replace
  split <;> simp

@[simp] theorem Dev.replan_time (old d : Dev) (port : Nat) :
    (old.replan d port).time = d.time := by
  simp [Dev.replan, apply_ite Dev.time]

@[simp] theorem Dev.resend_time (d : Dev) (port key lseq : Nat) : (d.resend port key lseq).time = d.time := by
  unfold Dev.resend
  extract_lets later old d1 barred d2
  have h1 : d1.time = d.time := Dev.dropSent_time _ _ _ _ (fun d _ => d.bump_time _ _)
  have h2 : d2.time = d.time := (Dev.dropSent_time _ _ _ _ Dev.frameLost_time).trans h1
  exact Dev.ite_time (by simp [h2]) h2

@[simp] theorem Dev.ackIn_time (d : Dev) (port : Nat) (w : CtrlWord) :
    (d.ackIn port w).time = d.time := by
  simp [Dev.ackIn, apply_ite Dev.time]

@[simp] theorem Dev.heard_time (d : Dev) (port : Nat) :
    (d.heard port).time = d.time := by simp [Dev.heard]

@[simp] theorem State.word_time (s : State) (port : Nat) (w : CtrlWord) (type : Nat) (live : Bool) (f : Dev → Dev)
    (hf : ∀ d, (f d).time = d.time) :
    (s.word port w type live f).dev.time = s.dev.time := by
  simp [State.word, apply_ite State.dev, apply_ite Dev.time, hf]

end Sys2Proof.Machine
end

section
/-! SUPPORT. The operations of Machine/Ports leave the record of time. -/

namespace Sys2Proof.Machine

@[simp] theorem Dev.enter_time (d : Dev) (p st : Nat) :
    (d.enter p st).time = d.time := by simp [Dev.enter]

@[simp] theorem Dev.degradeCheck_time (d : Dev) :
    (d.degradeCheck).time = d.time := by
  simp [Dev.degradeCheck, apply_ite Dev.time]

@[simp] theorem Dev.fence_time (d : Dev) (p why : Nat) :
    (d.fence p why).time = d.time := by simp [Dev.fence]

@[simp] theorem Dev.parentCheck_time (d : Dev) (commit : Bool) :
    (d.parentCheck commit).time = d.time := by
  simp [Dev.parentCheck, apply_ite Dev.time]

@[simp] theorem Dev.linkRaise_time (d : Dev) (p : Nat) :
    (d.linkRaise p).time = d.time := by simp [Dev.linkRaise]

@[simp] theorem Dev.linkClear_time (d : Dev) (sid : Nat) :
    (d.linkClear sid).time = d.time := by
  unfold Dev.linkClear
  split <;> simp

@[simp] theorem Dev.schedCheck_time (d : Dev) (p : Nat) :
    (d.schedCheck p).time = d.time := by
  simp [Dev.schedCheck, apply_ite Dev.time]

@[simp] theorem Dev.portLoss_time (d : Dev) (p st : Nat) :
    (d.portLoss p st).time = d.time := by simp [Dev.portLoss]

@[simp] theorem Dev.trainFail_time (d : Dev) (p : Nat) :
    (d.trainFail p).time = d.time := by simp [Dev.trainFail]

@[simp] theorem Dev.laneFail_time (d : Dev) (p : Nat) :
    (d.laneFail p).time = d.time := by
  unfold Dev.laneFail
  split <;> simp

@[simp] theorem Dev.timeWord_time (d : Dev) (p : Nat) (w : CtrlWord) (t2 t3 : Nat) :
    (d.timeWord p w t2 t3).time = d.time := by
  simp [Dev.timeWord, apply_ite Dev.time]

@[simp] theorem Dev.discover_time (d : Dev) (p : Nat) (w0 w1 w2 : CtrlWord) : (d.discover p w0 w1 w2).time = d.time := by
  unfold Dev.discover
  extract_lets n1 serial d1 same ever up d2 d3 d4 d5
  have h1 : d1.time = d.time := by simp -implicitDefEqProofs [d1]
  refine Dev.ite_time (by simp -implicitDefEqProofs [apply_ite Dev.time, h1]) ?_
  split
  · simp -implicitDefEqProofs [apply_ite Dev.time, h1]
  · have h2 : d2.time = d.time := (Dev.updPort_time _ _ _).trans h1
    have h3 : d3.time = d.time := by simp -implicitDefEqProofs [d3, apply_ite Dev.time, h2]
    have h4 : d4.time = d.time := Dev.ite_time h3 (by simp -implicitDefEqProofs [h3])
    have h5 : d5.time = d.time := Dev.ite_time ((Dev.foldl_time (fun d sid => d.event_time _ _ _) _ _).trans h4) h4
    simp -implicitDefEqProofs [h5]

@[simp] theorem Dev.sendDiscovery_time (d : Dev) (p : Nat) :
    (d.sendDiscovery p).time = d.time := by simp [Dev.sendDiscovery]

@[simp] theorem Dev.giveGen_time (d : Dev) (cl g : Nat) :
    (d.giveGen cl g).time = d.time := by simp [Dev.giveGen]

@[simp] theorem Dev.bumpGen_time (d : Dev) (cl : Nat) :
    (d.bumpGen cl).time = d.time := by
  simp [Dev.bumpGen, apply_ite Dev.time]

@[simp] theorem Dev.unifyGen_time (d : Dev) (cls : List Nat) :
    (d.unifyGen cls).time = d.time := by
  simp [Dev.unifyGen, apply_ite Dev.time]

end Sys2Proof.Machine
end

section
/-! SUPPORT. The operations of Machine/Messages leave the record of time. -/

namespace Sys2Proof.Machine

@[simp] theorem Dev.updSession_time (d : Dev) (id : Nat) (f : Session → Session) :
    (d.updSession id f).time = d.time := by simp [Dev.updSession]

@[simp] theorem Dev.enqueue_time (d : Dev) (id : Nat) (b : OutBody) :
    (d.enqueue id b).time = d.time := by simp [Dev.enqueue]

@[simp] theorem Dev.updStream_time (d : Dev) (id : Nat) (f : Stream → Stream) :
    (d.updStream id f).time = d.time := by simp [Dev.updStream]

@[simp] theorem Dev.closeStream_time (d : Dev) (id : Nat) :
    (d.closeStream id).time = d.time := by
  unfold Dev.closeStream
  dsimp only
  repeat' split
  all_goals simp

@[simp] theorem Dev.closeStreams_time (d : Dev) (p : Stream → Bool) :
    (d.closeStreams p).time = d.time := by simp [Dev.closeStreams]

@[simp] theorem Dev.dropSession_time (d : Dev) (id : Nat) (last : Option OutBody) :
    (d.dropSession id last).time = d.time := by
  unfold Dev.dropSession
  dsimp only
  repeat' split
  all_goals simp

@[simp] theorem Dev.closeSession_time (d : Dev) (id code : Nat) :
    (d.closeSession id code).time = d.time := by simp [Dev.closeSession]

@[simp] theorem Dev.seqEnd_time (d : Dev) (id : Nat) :
    (d.seqEnd id).time = d.time := by
  unfold Dev.seqEnd
  repeat' split
  all_goals simp

@[simp] theorem Dev.post_time (d : Dev) (id : Nat) (b : OutBody) :
    (d.post id b).time = d.time := by simp [Dev.post]

@[simp] theorem Dev.answer_time (d : Dev) (h : MsgHdr) (code item : Nat) (data : List Byte) :
    (d.answer h code item data).time = d.time := by simp [Dev.answer]

@[simp] theorem Dev.reply_time (d : Dev) (h : MsgHdr) (code : Nat) :
    (d.reply h code).time = d.time := by simp [Dev.reply]

@[simp] theorem Dev.sendError_time (d : Dev) (id refSeq code item : Nat) :
    (d.sendError id refSeq code item).time = d.time := by
  unfold Dev.sendError
  dsimp only
  repeat' split
  all_goals simp

@[simp] theorem Dev.updHport_time (d : Dev) (hp : Nat) (f : HostSt → HostSt) :
    (d.updHport hp f).time = d.time := by simp [Dev.updHport]

@[simp] theorem Dev.unauth_time (d : Dev) (hp : Nat) :
    (d.unauth hp).time = d.time := by
  simp [Dev.unauth, apply_ite Dev.time]

@[simp] theorem Dev.violation_time (d : Dev) (id refSeq code item : Nat) :
    (d.violation id refSeq code item).time = d.time := by
  unfold Dev.violation
  dsimp only
  repeat' split
  all_goals simp

@[simp] theorem Dev.arrive_time (d : Dev) (h : MsgHdr) (counts : Bool) :
    (d.arrive h counts).2.time = d.time := by
  unfold Dev.arrive
  dsimp only
  repeat' split
  all_goals simp

@[simp] theorem Dev.request_time (d : Dev) (h : MsgHdr) (audited : Bool) (act : Session → Dev → Dev)
    (hact : ∀ x0 d', (act x0 d').time = d'.time) :
    (d.request h audited act).time = d.time := by
  unfold Dev.request
  repeat' split
  all_goals simp [hact]

@[simp] theorem Dev.auditReq_time (d : Dev) (x : Session) (kind result : Nat) (args : List Nat) :
    (d.auditReq x kind result args).time = d.time := by simp [Dev.auditReq]

@[simp] theorem State.request_time (s : State) (h : MsgHdr) (audited : Bool) (act : Session → Dev → Dev)
    (hact : ∀ x0 d, (act x0 d).time = d.time) :
    (s.request h audited act).dev.time = s.dev.time := by simp [State.request, hact]

end Sys2Proof.Machine
end

section
/-! SUPPORT. The operations of Machine/Library leave the record of time. -/

namespace Sys2Proof.Machine

@[simp] theorem Dev.updEntry_time (d : Dev) (key : Nat) (f : Entry → Entry) :
    (d.updEntry key f).time = d.time := by simp [Dev.updEntry]

@[simp] theorem Dev.dropEntry_time (d : Dev) (key : Nat) :
    (d.dropEntry key).time = d.time := by simp [Dev.dropEntry]

@[simp] theorem Dev.vaultEvict_time (d : Dev) (e : Entry) :
    (d.vaultEvict e).time = d.time := by simp [Dev.vaultEvict]

@[simp] theorem Dev.depositMsg_time (d : Dev) (h : MsgHdr) (audited : Bool) (act : Option Session → Dev → Dev)
    (hact : ∀ x0 d', (act x0 d').time = d'.time) :
    (d.depositMsg h audited act).time = d.time := by
  simp [Dev.depositMsg, apply_ite Dev.time, hact]

@[simp] theorem Dev.depositAnswer_time (d : Dev) (h : MsgHdr) (key code item : Nat) (data : List Byte) :
    (d.depositAnswer h key code item data).time = d.time := by
  unfold Dev.depositAnswer
  split <;> simp

@[simp] theorem Dev.depositAudit_time (d : Dev) (x : Option Session) (code : Nat) (args : List Nat) :
    (d.depositAudit x code args).time = d.time := by
  unfold Dev.depositAudit
  split <;> simp

@[simp] theorem Dev.depositViolation_time (d : Dev) (h : MsgHdr) (x : Option Session) :
    (d.depositViolation h x).time = d.time := by
  unfold Dev.depositViolation
  split <;> simp

@[simp] theorem Dev.pipeSend_time (d : Dev) (m : Nat × PipeMsg) :
    (d.pipeSend m).time = d.time := by simp [Dev.pipeSend]

@[simp] theorem Dev.putBegin_time (d : Dev) (h : MsgHdr) (x : Option Session) (b : PutBegin) : (d.putBegin h x b).time = d.time := by
  apply Dev.time_of_clock
  unfold Dev.putBegin
  refine Dev.ite_clock (Dev.clock_of_time (Dev.depositViolation_time _ _ _)) ?_
  extract_lets +onlyGivenNames key old stack d0 rows plan code d1
  have h1 : d1.time = d.time := Dev.depositAudit_time _ _ _ _
  clear_value plan code d0 d1
  refine Dev.ite_clock ?_ ?_
  · exact Dev.clock_of_time ((Dev.depositAnswer_time _ _ _ _ _ _).trans (Dev.ite_time ((Dev.event_time _ _ _ _).trans h1) h1))
  split
  extract_lets +onlyGivenNames d2 e d3 d4
  have h3 : d3.time = d.time := (Dev.dropEntry_time _ _).trans ((Dev.foldl_time Dev.vaultEvict_time _ _).trans h1)
  clear_value d3
  exact Dev.ite_clock (Dev.clock_of_time h3) (Dev.clock_of_time ((Dev.reply_time _ _ _).trans h3))

@[simp] theorem msgFolioPutBegin_time (h : MsgHdr) (b : PutBegin) (s : State) :
    (msgFolioPutBegin h b s).dev.time = s.dev.time := by simp [msgFolioPutBegin]

@[simp] theorem Dev.pipeOpen_time (d : Dev) (e : Entry) :
    (d.pipeOpen e).time = d.time := by
  unfold Dev.pipeOpen
  split <;> simp

@[simp] theorem Dev.putPipe_time (d : Dev) (h : MsgHdr) (x : Option Session) (key first : Nat) (recs : List PipeRec) :
    (d.putPipe h x key first recs).time = d.time := by
  unfold Dev.putPipe
  split
  case h_2 => exact Dev.depositAnswer_time _ _ _ _ _ _
  case h_1 e _ =>
    extract_lets l d1 next d2
    have h1 : d1.time = d.time := Dev.updEntry_time _ _ _
    have hn : ∀ d, (next d).time = d.time := by
      intro d
      have opened : ∀ d' : Dev, (match d.entry? key with | some f => if f.piped && !e.piped then d.pipeOpen f else d | none => d) = d' →
          d'.time = d.time := by
        rintro _ rfl
        split
        · exact Dev.ite_time (Dev.pipeOpen_time _ _) rfl
        · rfl
      exact Dev.ite_time (opened _ rfl) ((Dev.reply_time _ _ _).trans (opened _ rfl))
    clear_value next d1
    refine Dev.ite_time (Dev.depositAnswer_time _ _ _ _ _ _) (Dev.ite_time (Dev.depositViolation_time _ _ _) ?_)
    split
    · have h2 : d2.time = d.time := (Dev.updEntry_time _ _ _).trans h1
      clear_value d2
      split
      · exact (hn _).trans ((Dev.updEntry_time _ _ _).trans ((Dev.foldl_time Dev.vaultEvict_time _ _).trans h2))
      · exact (Dev.depositAnswer_time _ _ _ _ _ _).trans ((Dev.event_time _ _ _ _).trans ((Dev.dropEntry_time _ _).trans h2))
    · exact (hn _).trans h1

@[simp] theorem msgFolioPutPipe_time (h : MsgHdr) (key : BitVec 64) (first : BitVec 8) (recs : List PipeRec) (s : State) :
    (msgFolioPutPipe h key first recs s).dev.time = s.dev.time := by simp [msgFolioPutPipe]

@[simp] theorem Dev.putData_time (d : Dev) (h : MsgHdr) (key offset crc : Nat) (data : List Byte) :
    (d.putData h key offset crc data).time = d.time := by
  unfold Dev.putData
  dsimp only
  repeat' split
  all_goals simp

@[simp] theorem msgFolioPutData_time (h : MsgHdr) (key offset : BitVec 64) (crc : BitVec 32) (data : List Byte) (s : State) :
    (msgFolioPutData h key offset crc data s).dev.time = s.dev.time := by
  simp [msgFolioPutData, apply_ite Dev.time]

@[simp] theorem msgLibraryDelete_time (h : MsgHdr) (key : BitVec 64) (s : State) :
    (msgLibraryDelete h key s).dev.time = s.dev.time := by
  simp [msgLibraryDelete, apply_ite Dev.time]

@[simp] theorem msgLibraryPin_time (h : MsgHdr) (key : BitVec 64) (s : State) :
    (msgLibraryPin h key s).dev.time = s.dev.time := by
  simp [msgLibraryPin, apply_ite Dev.time]

@[simp] theorem msgLibraryUnpin_time (h : MsgHdr) (key : BitVec 64) (s : State) :
    (msgLibraryUnpin h key s).dev.time = s.dev.time := by
  simp [msgLibraryUnpin, apply_ite Dev.time]

@[simp] theorem msgLibraryList_time (h : MsgHdr) (first : BitVec 64) (s : State) :
    (msgLibraryList h first s).dev.time = s.dev.time := by
  unfold msgLibraryList
  split <;> simp

@[simp] theorem Dev.symbols_time (d : Dev) (stack pc n : Nat) :
    (d.symbols stack pc n).time = d.time := by
  unfold Dev.symbols
  split <;> simp

@[simp] theorem Dev.symbolsAt_time (d : Dev) (parts : List Part) (r n : Nat) :
    (d.symbolsAt parts r n).time = d.time := by simp [Dev.symbolsAt]

@[simp] theorem Dev.symbolsIn_time (d : Dev) (e : Entry) (fixed : List FixedRow) (lo hi : Nat) :
    (d.symbolsIn e fixed lo hi).time = d.time := by simp [Dev.symbolsIn]

@[simp] theorem Dev.suspect_time (d : Dev) (key : Nat) (args : List Nat) :
    (d.suspect key args).time = d.time := by
  unfold Dev.suspect
  repeat' split
  all_goals simp

@[simp] theorem Dev.suspectStored_time (d : Dev) (key : Nat) :
    (d.suspectStored key).time = d.time := by
  unfold Dev.suspectStored
  repeat' split
  all_goals simp

@[simp] theorem Dev.noteBad_time (d : Dev) (key b : Nat) :
    (d.noteBad key b).time = d.time := by simp [Dev.noteBad]

@[simp] theorem Dev.copyBad_time (stack pc : Nat) (d : Dev) (b : BadBlock) :
    (d.copyBad stack pc b).time = d.time := by
  unfold Dev.copyBad
  repeat' split
  all_goals simp

@[simp] theorem Dev.retirePc_time (d : Dev) (stack pc : Nat) (copy : List BadBlock) :
    (d.retirePc stack pc copy).time = d.time := by
  simp [Dev.retirePc, apply_ite Dev.time]

@[simp] theorem Dev.loseBlock_time (d : Dev) (parts : List Part) (b : Nat) (copy : List BadBlock) :
    (d.loseBlock parts b copy).time = d.time := by simp [Dev.loseBlock]

@[simp] theorem Dev.loseBlocks_time (d : Dev) (parts : List Part) (bs : List Nat) (copy : List BadBlock) :
    (d.loseBlocks parts bs copy).time = d.time := by simp [Dev.loseBlocks]

end Sys2Proof.Machine
end

section
/-! SUPPORT. The operations of Machine/Scalar leave the record of time. -/

namespace Sys2Proof.Machine

@[simp] theorem sxAlu_time (core : CoreId) (f : SxFields) (v : CoreSt → DWord) (s : State) :
    (sxAlu core f v s).dev.time = s.dev.time := by simp -implicitDefEqProofs [sxAlu]

@[simp] theorem sxLdp_time (core : CoreId) (f : SxFields) (lost : Nat) (s : State) :
    (sxLdp core f lost s).dev.time = s.dev.time := by
  unfold sxLdp
  dsimp only
  repeat' split
  all_goals simp

@[simp] theorem sxVget_time (core : CoreId) (f : SxFields) (s : State) :
    (sxVget core f s).dev.time = s.dev.time := by
  unfold sxVget
  exact State.ite_time ((State.onCore_time ..).trans (State.onDev_time fun _ => Dev.cellRead_time ..)) (State.onCore_time ..)

end Sys2Proof.Machine
end

section
/-! SUPPORT. The operations of Machine/Vector leave the record of time. -/

namespace Sys2Proof.Machine

@[simp] theorem vxReadOpd_time (s : State) (core : Nat) (r : VxRun) (which loc row : Nat) :
    (vxReadOpd s core r which loc row).2.dev.time = s.dev.time := by
  unfold vxReadOpd
  dsimp only
  repeat' split
  all_goals simp

@[simp] theorem vxLanes_time (s : State) (core : Nat) (r : VxRun) (which ct ec : Nat) (o : VxOpd) (i1 i2 i3 k : Nat) :
    (vxLanes s core r which ct ec o i1 i2 i3 k).2.dev.time = s.dev.time := by
  unfold vxLanes
  split <;> simp

@[simp] theorem Dev.digestRow_time (d : Dev) (core : Nat) (row : RowData) :
    (d.digestRow core row).time = d.time := by
  simp [Dev.digestRow, apply_ite Dev.time]

@[simp] theorem vxFlush_time (s : State) (core seq : Nat) (r : VxRun) :
    (vxFlush s core seq r).1.dev.time = s.dev.time := by
  unfold vxFlush
  dsimp only
  repeat' split
  all_goals simp

@[simp] theorem vxWrite_time (s : State) (core seq : Nat) (dst : VxOpd) (w : Nat) (r : VxRun) (loc : WLoc) (row : Nat) (rowOk : Bool)
    (l0 : Nat) (codes : List (Option Nat)) :
    (vxWrite s core seq dst w r loc row rowOk l0 codes).1.dev.time = s.dev.time := by
  unfold vxWrite
  dsimp only
  repeat' split
  all_goals simp

@[simp] theorem vxStepOut_time (s : State) (core : Nat) (x : VxCtx) (r : VxRun) (m i1 i2 i3 k : Nat) (vals : List LRes) :
    (vxStepOut s core x r m i1 i2 i3 k vals).1.dev.time = s.dev.time := by
  unfold vxStepOut
  dsimp only
  repeat' split
  all_goals simp

@[simp] theorem vxOperand_time (s : State) (core : Nat) (x : VxCtx) (r : VxRun) (which : Nat) (use : Bool) (o : VxOpd)
    (m i1 i2 i3 k : Nat) :
    (vxOperand s core x r which use o m i1 i2 i3 k).2.dev.time = s.dev.time := by
  unfold vxOperand
  split <;> simp

@[simp] theorem vxBlockScales_time (s : State) (core : Nat) (x : VxCtx) (r : VxRun) (i1 i2 i3 k : Nat) :
    (vxBlockScales s core x r i1 i2 i3 k).2.dev.time = s.dev.time := by
  unfold vxBlockScales
  split <;> simp

@[simp] theorem vxElemStep_time (core : Nat) (x : VxCtx) (i1 i2 i3 k : Nat) (sr : State × VxRun) :
    (vxElemStep core x i1 i2 i3 k sr).1.dev.time = sr.1.dev.time := by
  unfold vxElemStep
  dsimp only
  repeat' split
  all_goals simp

@[simp] theorem vxElemLoop_time (core : Nat) (x : VxCtx) (n i : Nat) (sr : State × VxRun) :
    (vxElemLoop core x n i sr).1.dev.time = sr.1.dev.time := by
  induction n generalizing i sr with
  | zero => rfl
  | succ n ih =>
    unfold vxElemLoop
    exact (ih _ _).trans (vxElemStep_time _ _ _ _ _ _ _)

@[simp] theorem vxPutElem_time (s : State) (core : Nat) (x : VxCtx) (r : VxRun) (ty q : Nat) (code : Option Nat) :
    (vxPutElem s core x r ty q code).1.dev.time = s.dev.time := by
  unfold vxPutElem
  split <;> simp

@[simp] theorem vxPutResult_time (s : State) (core : Nat) (x : VxCtx) (r : VxRun) (q v : Nat) :
    (vxPutResult s core x r q v).1.dev.time = s.dev.time := by
  simp [vxPutResult, apply_ite State.dev, apply_ite Dev.time]

@[simp] theorem redStep_time (core : Nat) (x : VxCtx) (i1 i2 i3 k : Nat) (s : State) (r : VxRun) :
    (redStep core x i1 i2 i3 k s r).2.dev.time = s.dev.time := by
  simp [redStep, apply_ite State.dev, apply_ite Dev.time]

@[simp] theorem redRow_time (core : Nat) (x : VxCtx) (i1 i2 i3 n k : Nat) (acc : Option Nat) (sr : State × VxRun) :
    (redRow core x i1 i2 i3 n k acc sr).2.1.dev.time = sr.1.dev.time := by
  induction n generalizing k acc sr with
  | zero => rfl
  | succ n ih =>
    unfold redRow
    refine (ih _ _ _).trans ?_
    exact State.ite_time (redStep_time _ _ _ _ _ _ _ _) (redStep_time _ _ _ _ _ _ _ _)

@[simp] theorem redLoop_time (core : Nat) (x : VxCtx) (n q : Nat) (sr : State × VxRun) :
    (redLoop core x n q sr).1.dev.time = sr.1.dev.time := by
  induction n generalizing q sr with
  | zero => rfl
  | succ n ih =>
    unfold redLoop
    exact (ih _ _).trans ((vxPutResult_time _ _ _ _ _ _).trans (redRow_time _ _ _ _ _ _ _ _ _))

@[simp] theorem vxPutCode_time (s : State) (core : Nat) (x : VxCtx) (r : VxRun) (q code clip : Nat) :
    (vxPutCode s core x r q code clip).1.dev.time = s.dev.time := by
  simp [vxPutCode, apply_ite State.dev, apply_ite Dev.time]

/-- A fold over a state and a run of the vector slot that leaves the time leaves it. -/
theorem foldl_run_time {α : Type} {f : State × VxRun → α → State × VxRun} (h : ∀ sr x, (f sr x).1.dev.time = sr.1.dev.time)
    (l : List α) (sr : State × VxRun) : (l.foldl f sr).1.dev.time = sr.1.dev.time := by
  induction l generalizing sr with
  | nil => rfl
  | cons x l ih => rw [List.foldl_cons, ih, h]

@[simp] theorem bscaleStep_time (core : Nat) (x : VxCtx) (i1 i2 i3 k q0 : Nat) (sr : State × VxRun) :
    (bscaleStep core x i1 i2 i3 k q0 sr).1.dev.time = sr.1.dev.time := by
  unfold bscaleStep
  exact (foldl_run_time (fun _ _ => vxPutCode_time _ _ _ _ _ _ _) _ _).trans (vxOperand_time _ _ _ _ _ _ _ _ _ _ _ _)

@[simp] theorem bscaleLoop_time (core : Nat) (x : VxCtx) (n i : Nat) (sr : State × VxRun) :
    (bscaleLoop core x n i sr).1.dev.time = sr.1.dev.time := by
  induction n generalizing i sr with
  | zero => rfl
  | succ n ih =>
    unfold bscaleLoop
    exact (ih _ _).trans (bscaleStep_time _ _ _ _ _ _ _ _)

@[simp] theorem vxTailClear_time (s : State) (core : Nat) (x : VxCtx) (n : Nat) (sr : VxRun) :
    (vxTailClear s core x n sr).1.dev.time = s.dev.time := by
  unfold vxTailClear
  dsimp only
  repeat' split
  all_goals simp

@[simp] theorem vxExec_time (s : State) (core : Nat) (q : VxOp) :
    (vxExec s core q).dev.time = s.dev.time := by
  unfold vxExec
  dsimp only
  repeat' split
  all_goals simp

@[simp] theorem vxOp_time (core : CoreId) (op : Nat) (f : VxFields) (lost : Nat) (s : State) :
    (vxOp core op f lost s).dev.time = s.dev.time := by
  simp -implicitDefEqProofs [vxOp, apply_ite State.dev, apply_ite Dev.time]

@[simp] theorem landWrite_time (s : State) (core : Nat) (w : PendW) :
    (landWrite s core w).dev.time = s.dev.time := by
  unfold landWrite
  dsimp only
  repeat' split
  all_goals simp

end Sys2Proof.Machine
end

section
/-! SUPPORT. The operations of Machine/Folio leave the record of time. -/

namespace Sys2Proof.Machine

@[simp] theorem Dev.loadRefused_time (d : Dev) (f : Fail) :
    (d.loadRefused f).time = d.time := by simp [Dev.loadRefused]

@[simp] theorem Dev.depositFail_time (d : Dev) (key : Nat) :
    (d.depositFail key).time = d.time := by simp [Dev.depositFail]

@[simp] theorem Dev.commitReads_time (d : Dev) (e : Entry) (read : CommitRead) :
    (d.commitReads e read).time = d.time := by simp [Dev.commitReads]

@[simp] theorem Dev.refuseDeposit_time (d : Dev) (h : MsgHdr) (x : Option Session) (e : Entry) (code item : Nat) (data : List Byte) :
    (d.refuseDeposit h x e code item data).time = d.time := by
  unfold Dev.refuseDeposit
  split <;> simp

@[simp] theorem Dev.folioCommit_time (d : Dev) (h : MsgHdr) (x : Option Session) (key : Nat) (codes : PipeCodes) (read : CommitRead) :
    (d.folioCommit h x key codes read).time = d.time := by
  apply Dev.time_of_clock
  unfold Dev.folioCommit
  extract_lets none' d1
  have hnone : none'.time = d.time := by simp [none']
  have h1 : d1.time = d.time := by
    show ((d.entry? key).elim d _).time = d.time
    cases d.entry? key with
    | none => rfl
    | some e => exact d.commitReads_time e read
  clear_value none' d1
  split
  · split
    next e _ =>
      refine Dev.ite_clock (Dev.clock_of_time (by simp [h1])) (Dev.ite_clock (Dev.clock_of_time (by simp [h1]))
        (Dev.ite_clock (Dev.clock_of_time (by simp [h1])) ?_))
      extract_lets fo d2
      generalize (if e.folio = true then loadFail d1 e.row e.rows fo [] none else none) = refused
      split
      · exact Dev.clock_of_time (by simp [h1])
      · have h2 : d2.time = d.time := by
          refine Eq.trans ?_ h1
          dsimp only [d2]
          split
          · exact Dev.pipeSend_time _ _
          · rfl
        clear_value d2
        exact Dev.ite_clock (Dev.clock_of_time (by simp [h2])) (Dev.clock_of_time (by simp [h2]))
    next => exact Dev.clock_of_time h1
  · exact Dev.clock_of_time hnone

@[simp] theorem msgFolioCommit_time (h : MsgHdr) (key : BitVec 64) (codes : PipeCodes) (read : CommitRead) (s : State) :
    (msgFolioCommit h key codes read s).dev.time = s.dev.time := by simp [msgFolioCommit]

end Sys2Proof.Machine
end

section
/-! SUPPORT. The operations of Machine/Clusters leave the record of time. -/

namespace Sys2Proof.Machine

@[simp] theorem Dev.counterRead_time (d : Dev) (g : Nat) :
    (d.counterRead g).time = d.time := by
  simp [Dev.counterRead, apply_ite Dev.time]

@[simp] theorem Dev.windowRead_time (d : Dev) (g : Nat) :
    (d.windowRead g).time = d.time := by
  simp [Dev.windowRead, apply_ite Dev.time]

@[simp] theorem Dev.haltCluster_time (d : Dev) (cl : Nat) :
    (d.haltCluster cl).time = d.time := rfl

@[simp] theorem Dev.refuseDeferred_time (d : Dev) (cl : Nat) : (d.refuseDeferred cl).time = d.time :=
  (d.leaves_refuseDeferred cl).keeps .time (by decide)

@[simp] theorem Dev.beginScrub_time (d : Dev) (cl : Nat) :
    (d.beginScrub cl).time = d.time := by simp [Dev.beginScrub]

@[simp] theorem Dev.releaseClusters_time (d : Dev) (sid : Nat) :
    (d.releaseClusters sid).time = d.time := by simp [Dev.releaseClusters]

@[simp] theorem Dev.killEvent_time (d : Dev) (sl : Slice) :
    (d.killEvent sl).time = d.time := by simp [Dev.killEvent]

@[simp] theorem Dev.dropLoad_time (d : Dev) (sid : Nat) :
    (d.dropLoad sid).time = d.time := by simp [Dev.dropLoad]

@[simp] theorem Dev.dropRepair_time (d : Dev) (sid : Nat) :
    (d.dropRepair sid).time = d.time := by simp [Dev.dropRepair]

@[simp] theorem Dev.endSlice_time (d : Dev) (sid : Nat) :
    (d.endSlice sid).time = d.time := by
  unfold Dev.endSlice
  repeat' split
  all_goals simp

@[simp] theorem Dev.endAnswers_time (d : Dev) (sl : Slice) :
    (d.endAnswers sl).time = d.time := by simp [Dev.endAnswers]

@[simp] theorem Dev.killSlice_time (d : Dev) (sl : Slice) :
    (d.killSlice sl).time = d.time := by
  unfold Dev.killSlice
  split <;> simp

@[simp] theorem Dev.ramp_time (d : Dev) :
    (d.ramp).time = d.time := by simp [Dev.ramp]

@[simp] theorem Dev.cleanRows_time (d : Dev) (cls : List Nat) :
    (d.cleanRows cls).time = d.time := by simp [Dev.cleanRows]

@[simp] theorem Dev.scrubbed_time (d : Dev) (keep : Bool) (cl : Nat) :
    (d.scrubbed keep cl).time = d.time := by
  unfold Dev.scrubbed
  split <;> simp -implicitDefEqProofs

@[simp] theorem Dev.afterScrub_time (d : Dev) :
    (d.afterScrub).time = d.time := by
  simp [Dev.afterScrub, apply_ite Dev.time]

end Sys2Proof.Machine
end

section
/-! SUPPORT. The operations of Machine/Streams leave the record of time. -/

namespace Sys2Proof.Machine

@[simp] theorem msgStreamOpen_time (h : MsgHdr) (slice : SliceId) (index : BitVec 16) (dir : BitVec 8) (shardBytes lead : BitVec 32)
    (s : State) :
    (msgStreamOpen h slice index dir shardBytes lead s).dev.time = s.dev.time := by
  simp [msgStreamOpen, apply_ite Dev.time]

@[simp] theorem msgStreamClose_time (h : MsgHdr) (stream : BitVec 16) (s : State) : (msgStreamClose h stream s).dev.time = s.dev.time := by
  refine State.request_time _ _ _ _ (fun x d => ?_)
  split
  · exact Dev.ite_time ((Dev.reply_time _ _ _).trans (d.closeStream_time _)) (d.violation_time _ _ _ _)
  · exact d.violation_time _ _ _ _

@[simp] theorem Dev.dropDecided_time (d : Dev) (sid index : Nat) :
    (d.dropDecided sid index).time = d.time := by
  unfold Dev.dropDecided
  split <;> simp

@[simp] theorem Dev.decideZero_time (d : Dev) (sl : Slice) (p : PullRun) (corrupt : Bool) (i n : Nat) :
    (d.decideZero sl p corrupt i n).time = d.time := by simp [Dev.decideZero]

@[simp] theorem Dev.shardHold_time (d : Dev) (sl : Slice) (p : PullRun) (i n : Nat) :
    (d.shardHold sl p i n).time = d.time := by simp [Dev.shardHold]

@[simp] theorem Dev.decideNow_time (d : Dev) (sl : Slice) (p : PullRun) (i : Nat) :
    (d.decideNow sl p i).time = d.time := by
  simp [Dev.decideNow, apply_ite Dev.time]

@[simp] theorem Dev.shardClear_time (d : Dev) (sid : Nat) :
    (d.shardClear sid).time = d.time := by
  unfold Dev.shardClear
  repeat' split
  all_goals simp

@[simp] theorem State.pullFlush_time (s : State) (sid : Nat) (p0 : PullRun) :
    (s.pullFlush sid p0).dev.time = s.dev.time := by
  unfold State.pullFlush
  dsimp only
  repeat' split
  all_goals simp

@[simp] theorem State.zeroSlot_time (s : State) (p : PullRun) (n : Nat) :
    (s.zeroSlot p n).dev.time = s.dev.time := by simp -implicitDefEqProofs [State.zeroSlot]

@[simp] theorem State.shardRows_time (sid : Nat) (p : PullRun) (n : Nat) (l : List Byte) (fuel k : Nat) (s : State) :
    (s.shardRows sid p n l fuel k).2.dev.time = s.dev.time := by
  induction fuel generalizing k s with
  | zero => rfl
  | succ fuel ih =>
    unfold State.shardRows
    extract_lets stop m used r s1
    split
    · have h1 : s1.dev.time = s.dev.time := State.foldl_time (by intros; rfl) _ _
      clear_value s1
      split
      · rfl
      · split
        · exact Dev.bumpWrap_time _ _ _
        · exact (ih _ _).trans ((Dev.setStopUse_time _ _ _ _ _).trans h1)
    · rfl

@[simp] theorem State.shardInto_time (sid : Nat) (s : State) (p : PullRun) : (s.shardInto sid p).dev.time = s.dev.time := by
  unfold State.shardInto
  split
  · extract_lets +onlyGivenNames begun next
    clear_value next
    split
    next x k =>
      extract_lets +onlyGivenNames s1
      have h1 : s1.dev.time = s.dev.time := State.ite_time (s.zeroSlot_time _ _) rfl
      clear_value s1
      split
      next k2 s2 hs2 =>
        have h2 : s2.dev.time = s.dev.time := by
          rw [← show (State.shardRows _ _ _ _ _ _ s1).2 = s2 from congrArg Prod.snd hs2]
          exact (State.shardRows_time _ _ _ _ _ _ _).trans h1
        extract_lets +onlyGivenNames held s3 s4 s5
        have h3 : s3.dev.time = s.dev.time := h2
        have h4 : s4.dev.time = s.dev.time := (s3.pullFlush_time sid p).trans h3
        have h5 : s5.dev.time = s.dev.time := by
          refine (State.onDev_time (s := s4) (fun d => ?_)).trans h4
          split
          · exact Dev.ite_time (d.updStream_time _ _) rfl
          · rfl
        clear_value s3 s4 s5
        exact State.ite_time h2 (State.ite_time ((Dev.shardClear_time _ _).trans h5) h5)
    · rfl
  · rfl

@[simp] theorem State.zeroInto_time (sid : Nat) (s : State) (p : PullRun) :
    (s.zeroInto sid p).dev.time = s.dev.time := by
  unfold State.zeroInto
  dsimp only
  repeat' split
  all_goals simp

theorem Dev.withTel_time (d : Dev) (t : TellerSt) : ({ d with tel := t } : Dev).time = d.time := rfl

@[simp] theorem Dev.record_time (d : Dev) (sid : Nat) (m : RecMsg) : (d.record sid m).time = d.time := by
  unfold Dev.record
  refine Dev.foldl_time (fun d r => Dev.time_of_clock ?_) _ _
  extract_lets used
  exact Dev.ite_clock (Dev.clock_of_time ((Dev.event_time _ _ _ _).trans (d.withTel_time _))) (Dev.clock_of_time (d.withTel_time _))

@[simp] theorem Dev.recordIngress_time (d : Dev) (st : Stream) (b : IngressMsg) :
    (d.recordIngress st b).time = d.time := by simp [Dev.recordIngress]

@[simp] theorem Dev.egress_time (d : Dev) (st : Stream) (b : OutBody) :
    (d.egress st b).time = d.time := by
  unfold Dev.egress
  split <;> simp

@[simp] theorem Dev.egressFlush_time (d : Dev) (sid : Nat) :
    (d.egressFlush sid).time = d.time := by simp [Dev.egressFlush]

@[simp] theorem State.pushFetch_time (sid core : Nat) (rows : List Nat) (fuel k : Nat) (s : State) :
    (s.pushFetch sid core rows fuel k).2.dev.time = s.dev.time := by
  induction fuel generalizing k s with
  | zero => rfl
  | succ fuel ih =>
    unfold State.pushFetch
    extract_lets stop got used s1
    split
    · have h1 : s1.dev.time = s.dev.time := (Dev.foldl_time (fun d g => d.eccRead_time core g) _ _).trans (Dev.setStopUse_time _ _ _ _ _)
      clear_value s1
      split
      · rfl
      · split
        · exact Dev.bumpWrap_time _ _ _
        · exact (ih _ _).trans ((s1.onCore_time _ _).trans h1)
    · rfl

@[simp] theorem Dev.sendResult_time (d : Dev) (sl : Slice) (seq index frame : Nat) (data : List Byte) :
    (d.sendResult sl seq index frame data).time = d.time := by
  unfold Dev.sendResult
  dsimp only
  repeat' split
  all_goals simp

@[simp] theorem State.pushRead_time (s : State) (sl : Slice) (seq index core ring : Nat) :
    (s.pushRead sl seq index core ring).dev.time = s.dev.time := by
  simp [State.pushRead, apply_ite State.dev, apply_ite Dev.time]

end Sys2Proof.Machine
end

section
/-! SUPPORT. The operations of Machine/Gates leave the record of time. -/

namespace Sys2Proof.Machine

@[simp] theorem Dev.emitWord_time (d : Dev) (sl : Slice) (n q span late flags : Nat) :
    (d.emitWord sl n q span late flags).time = d.time := by
  unfold Dev.emitWord
  split <;> simp

@[simp] theorem Dev.emitFrame_time (d : Dev) (sl : Slice) (n span late : Nat) (flags : List Nat) :
    (d.emitFrame sl n span late flags).time = d.time := by simp [Dev.emitFrame]

@[simp] theorem State.skipFrames_time (s : State) (sl : Slice) (n k : Nat) : (s.skipFrames sl n k).dev.time = s.dev.time := by
  unfold State.skipFrames
  extract_lets +onlyGivenNames ns drop s1
  have h1 : s1.dev.time = s.dev.time := by
    refine State.onDev_time (fun d => ?_)
    extract_lets d1 d2 d3
    have hd1 : d1.time = d.time := Dev.foldl_time (fun d m => d.emitFrame_time _ _ _ _ _) _ _
    have hd2 : d2.time = d.time := (d1.updSlice_time _ _).trans hd1
    have hd3 : d3.time = d.time := by
      refine (Dev.foldl_time (fun d p => ?_) _ _).trans hd2
      split
      · exact d.updStream_time _ _
      · rfl
    exact ((Dev.updEntry_time _ _ _).trans (d3.bumpWrap_time _ _)).trans hd3
  exact (State.foldl_time (fun s p => s.pullFlush_time _ p) _ _).trans h1

@[simp] theorem Dev.beginFrame_time (d : Dev) (sl : Slice) (n g : Nat) :
    (d.beginFrame sl n g).time = d.time := by simp -implicitDefEqProofs [Dev.beginFrame]

@[simp] theorem Dev.redecide_time (i : Nat) (d : Dev) (sid : Nat) (p : PullRun) :
    (d.redecide i sid p).time = d.time := by
  unfold Dev.redecide
  repeat' split
  all_goals simp

@[simp] theorem State.frameGate_time (s : State) (sid g e : Nat) : (s.frameGate sid g e).dev.time = s.dev.time := by
  unfold State.frameGate
  split
  · extract_lets i n lag k s1 s2
    have h1 : s1.dev.time = s.dev.time := State.ite_time rfl (s.skipFrames_time _ _ _)
    have h2 : s2.dev.time = s.dev.time := by
      refine (State.onDev_time (s := s1) (fun d => ?_)).trans h1
      split
      · exact d.beginFrame_time _ _ _
      · rfl
    clear_value s2
    exact State.ite_time h2 (((Dev.shardClear_time _ _).trans (Dev.foldl_time (fun d p => Dev.redecide_time _ d _ p) _ _)).trans h2)
  · rfl

@[simp] theorem Dev.heldPass_time (d : Dev) (sl : Slice) (shift : Nat) :
    (d.heldPass sl shift).time = d.time := by
  unfold Dev.heldPass
  dsimp only
  repeat' split
  all_goals simp -implicitDefEqProofs

@[simp] theorem Dev.tallyGate_time (d : Dev) (sl : Slice) :
    (d.tallyGate sl).time = d.time := by simp -implicitDefEqProofs [Dev.tallyGate]

@[simp] theorem Dev.lastGate_time (d : Dev) (sid e : Nat) (fr : FrameFl) :
    (d.lastGate sid e fr).time = d.time := by
  unfold Dev.lastGate
  dsimp only
  repeat' split
  all_goals simp -implicitDefEqProofs

@[simp] theorem Dev.traceGate_time (d : Dev) (sl : Slice) (g : Nat) :
    (d.traceGate sl g).time = d.time := by
  simp [Dev.traceGate, apply_ite Dev.time]

@[simp] theorem Dev.nextGate_time (d : Dev) (sl : Slice) (e : Nat) :
    (d.nextGate sl e).time = d.time := by simp -implicitDefEqProofs [Dev.nextGate]

@[simp] theorem State.passGate_time (s : State) (sl : Slice) (e : Nat) :
    (s.passGate sl e).dev.time = s.dev.time := by
  simp [State.passGate, apply_ite State.dev, apply_ite Dev.time]

@[simp] theorem State.tryPass_time (s : State) (sid : Nat) :
    (s.tryPass sid).dev.time = s.dev.time := by
  unfold State.tryPass
  repeat' split
  all_goals simp

@[simp] theorem Dev.endFrames_time (d : Dev) (sid : Nat) :
    (d.endFrames sid).time = d.time := by
  unfold Dev.endFrames
  split <;> simp -implicitDefEqProofs

@[simp] theorem Dev.repairGate_time (d : Dev) (sid : Nat) :
    (d.repairGate sid).time = d.time := by
  unfold Dev.repairGate
  dsimp only
  repeat' split
  all_goals simp

@[simp] theorem Dev.heldEvent_time (d : Dev) (sid : Nat) :
    (d.heldEvent sid).time = d.time := by
  unfold Dev.heldEvent
  dsimp only
  repeat' split
  all_goals simp

@[simp] theorem Dev.gateDue_time (d : Dev) (sid : Nat) :
    (d.gateDue sid).time = d.time := by
  unfold Dev.gateDue
  dsimp only
  repeat' split
  all_goals simp

@[simp] theorem Dev.barrierDone_time (d : Dev) (sid : Nat) :
    (d.barrierDone sid).time = d.time := by
  unfold Dev.barrierDone
  dsimp only
  repeat' split
  all_goals simp

end Sys2Proof.Machine
end

section
/-! SUPPORT. The operations of Machine/Vault leave the record of time. -/

namespace Sys2Proof.Machine

@[simp] theorem Dev.armLaunch_time (d : Dev) (sid e : Nat) :
    (d.armLaunch sid e).time = d.time := by simp [Dev.armLaunch]

@[simp] theorem Dev.updLoad_time (d : Dev) (sid : Nat) (f : Load → Load) :
    (d.updLoad sid f).time = d.time := by simp [Dev.updLoad]

@[simp] theorem Dev.scrubHeld_time (d : Dev) (sid : Nat) :
    (d.scrubHeld sid).time = d.time := by simp -implicitDefEqProofs [Dev.scrubHeld]

@[simp] theorem Dev.noFolio_time (d : Dev) (sid : Nat) :
    (d.noFolio sid).time = d.time := by simp [Dev.noFolio]

@[simp] theorem Dev.loadFails_time (d : Dev) (own : Bool) (sid cause key row : Nat) :
    (d.loadFails own sid cause key row).time = d.time := by
  unfold Dev.loadFails
  dsimp only
  repeat' split
  all_goals simp

@[simp] theorem Dev.moverSend_time (d : Dev) (l : Load) (m : Nat) (x : MoverDesc) (i : Nat) :
    (d.moverSend l m x i).time = d.time := by
  unfold Dev.moverSend
  split <;> simp

@[simp] theorem Dev.moverRun_time (sid m opc : Nat) (read : MoverRead) (n : Nat) (d : Dev) :
    (Dev.moverRun sid m opc read n d).time = d.time := by
  induction n generalizing d with
  | zero => rfl
  | succ n ih =>
    apply Dev.time_of_clock
    unfold Dev.moverRun
    split
    · refine Dev.ite_clock rfl ?_
      split
      · refine Dev.ite_clock rfl ?_
        extract_lets key lo hi d1 own hit
        have h1 : d1.time = d.time := by
          unfold d1; split
          · exact Dev.symbolsIn_time ..
          · rfl
        clear_value d1
        clear_value hit
        apply Dev.clock_of_time
        rcases hit with _ | b
        · exact (ih _).trans ((Dev.moverSend_time ..).trans h1)
        · have h2 {e : Dev} (k b k' c : Nat) (he : e.time = d.time) :
              (((e.bump (regAddr 9 0x20) 1).noteBad k b).loadFails true sid 1 k' c).time = d.time :=
            (Dev.loadFails_time ..).trans ((Dev.noteBad_time ..).trans ((Dev.bump_time ..).trans he))
          dsimp only
          split
          · exact (Dev.loseBlock_time ..).trans (h2 _ _ _ _ h1)
          · exact h2 _ _ _ _ h1
      · rfl
    · rfl

@[simp] theorem Dev.moverTurn_time (d : Dev) (sid m opc n : Nat) (read : MoverRead) :
    (d.moverTurn sid m opc n read).time = d.time := by
  simp [Dev.moverTurn, apply_ite Dev.time]

@[simp] theorem Dev.ackMover_time (d : Dev) (k : ShortPkt) :
    (d.ackMover k).time = d.time := by
  unfold Dev.ackMover
  dsimp only
  repeat' split
  all_goals simp

@[simp] theorem Dev.loadBegin_time (d : Dev) (sid : Nat) :
    (d.loadBegin sid).time = d.time := by
  unfold Dev.loadBegin
  dsimp only
  repeat' split
  all_goals simp -implicitDefEqProofs

@[simp] theorem Dev.repairDone_time (d : Dev) (sid resume : Nat) :
    (d.repairDone sid resume).time = d.time := by
  unfold Dev.repairDone
  split <;> simp

@[simp] theorem Dev.relaunchAt_time (d : Dev) (sid e : Nat) :
    (d.relaunchAt sid e).time = d.time := by simp [Dev.relaunchAt]

@[simp] theorem Dev.loadFinish_time (d : Dev) (l : Load) (e : Nat) :
    (d.loadFinish l e).time = d.time := by
  simp [Dev.loadFinish, apply_ite Dev.time]

@[simp] theorem Dev.loadReady_time (d : Dev) (sid : Nat) (peers : List Nat) :
    (d.loadReady sid peers).time = d.time := by
  unfold Dev.loadReady
  dsimp only
  repeat' split
  all_goals simp

@[simp] theorem Dev.loadResume_time (d : Dev) (sid e : Nat) :
    (d.loadResume sid e).time = d.time := by
  unfold Dev.loadResume
  repeat' split
  all_goals simp

@[simp] theorem Dev.loadFailed_time (d : Dev) (sid cause key row : Nat) :
    (d.loadFailed sid cause key row).time = d.time := by
  unfold Dev.loadFailed
  dsimp only
  repeat' split
  all_goals simp

theorem Dev.withPwr_time (d : Dev) (p : PwrSt) : ({ d with pwr := p } : Dev).time = d.time := rfl

@[simp] theorem Dev.deviceFail_time (d : Dev) :
    (d.deviceFail).time = d.time := by
  apply Dev.time_of_clock
  unfold Dev.deviceFail
  refine Dev.ite_clock rfl (Dev.clock_of_time ?_)
  extract_lets d1 d2 d3 d4 p d5
  have h1 : d1.time = d.time := by
    unfold d1; exact (Dev.event_time ..).trans (Dev.put_time ..)
  have h2 : d2.time = d.time :=
    (Dev.foldl_time (fun d sid => (Dev.loadFails_time ..).trans (Dev.updLoad_time ..)) _ _).trans h1
  have h3 : d3.time = d.time := by
    refine (Dev.foldl_time (fun d sid => ?_) _ _).trans h2
    split
    · exact Dev.ite_time ((Dev.killSlice_time ..).trans (Dev.updSlice_time ..))
        ((Dev.endSlice_time ..).trans ((Dev.releaseClusters_time ..).trans (Dev.updSlice_time ..)))
    · rfl
  have h4 : d4.time = d.time := Dev.ite_time ((Dev.put_time ..).trans h3) h3
  have h5 : d5.time = d.time := (Dev.withPwr_time ..).trans h4
  exact (Dev.ramp_time ..).trans ((Dev.setReg_time ..).trans ((Dev.put_time ..).trans h5))

end Sys2Proof.Machine
end

section
/-! SUPPORT. The operations of Machine/Start leave the record of time. -/

namespace Sys2Proof.Machine

@[simp] theorem Dev.evict_time (d : Dev) (sl : Slice) :
    (d.evict sl).time = d.time := by
  simp [Dev.evict, apply_ite Dev.time]

@[simp] theorem Dev.startLoad_time (d : Dev) (sid : Nat) (v : Variant) (resumeEc : Nat) :
    (d.startLoad sid v resumeEc).time = d.time := by
  unfold Dev.startLoad
  dsimp only
  repeat' split
  all_goals simp

@[simp] theorem Dev.startRelaunch_time (d : Dev) (sl : Slice) (e : Nat) :
    (d.startRelaunch sl e).time = d.time := by
  simp [Dev.startRelaunch, apply_ite Dev.time]

theorem Dev.withSlices_time (d : Dev) (l : List Slice) : ({ d with slices := l } : Dev).time = d.time := rfl

@[simp] theorem Dev.sliceStart_time (d : Dev) (h : MsgHdr) (x : Session) (b : StartReq) :
    (d.sliceStart h x b).time = d.time := by
  apply Dev.time_of_clock
  unfold Dev.sliceStart
  extract_lets sid held load vs mine peers own d1 d2 d3 d4
  have h1 : d1.time = d.time := Dev.auditReq_time ..
  have h2 : d2.time = d.time := Dev.ite_time h1 ((Dev.withSlices_time ..).trans h1)
  have h3 : d3.time = d.time := (Dev.updSlice_time ..).trans h2
  have h4 : d4.time = d.time := Dev.ite_time ((Dev.dropLoad_time ..).trans h3) h3
  clear_value d1 d2 d3 d4 held
  apply Dev.clock_of_time
  split
  · extract_lets e
    have he : e.time = d.time := by
      unfold e
      split
      · exact (Dev.loadRefused_time ..).trans h1
      · exact h1
    exact (Dev.answer_time ..).trans he
  · split
    · exact (Dev.answer_time ..).trans h1
    · extract_lets d5
      have h5 : d5.time = d.time := by
        unfold d5
        split
        · exact (Dev.startRelaunch_time ..).trans h4
        · exact (Dev.startLoad_time ..).trans h4
      exact (Dev.answer_time ..).trans h5

@[simp] theorem Dev.loadAfterKill_time (d : Dev) (b : StartReq) :
    (d.loadAfterKill b).time = d.time := by
  unfold Dev.loadAfterKill
  dsimp only
  split <;> simp

@[simp] theorem msgSliceStart_time (h : MsgHdr) (b : StartReq) (s : State) :
    (msgSliceStart h b s).dev.time = s.dev.time := by
  simp -implicitDefEqProofs [msgSliceStart, apply_ite Dev.time]

@[simp] theorem Dev.stopped_time (d : Dev) (sid : Nat) :
    (d.stopped sid).time = d.time := by
  unfold Dev.stopped
  split <;> simp

@[simp] theorem Dev.sliceStop_time (d : Dev) (h : MsgHdr) (sl : Slice) :
    (d.sliceStop h sl).time = d.time := by
  simp [Dev.sliceStop, apply_ite Dev.time]

@[simp] theorem msgSliceStop_time (h : MsgHdr) (slice : SliceId) (s : State) :
    (msgSliceStop h slice s).dev.time = s.dev.time := by
  unfold msgSliceStop
  refine State.request_time _ _ _ _ (fun x d => ?_)
  split
  · exact Dev.ite_time ((Dev.sliceStop_time ..).trans (Dev.auditReq_time ..)) ((Dev.reply_time ..).trans (Dev.auditReq_time ..))
  · exact (Dev.reply_time ..).trans (Dev.auditReq_time ..)

@[simp] theorem msgSliceKill_time (h : MsgHdr) (slice : SliceId) (s : State) :
    (msgSliceKill h slice s).dev.time = s.dev.time := by
  unfold msgSliceKill
  refine State.request_time _ _ _ _ (fun x d => ?_)
  split
  · exact Dev.ite_time ((Dev.updSlice_time ..).trans (Dev.auditReq_time ..)) ((Dev.reply_time ..).trans (Dev.auditReq_time ..))
  · exact (Dev.reply_time ..).trans (Dev.auditReq_time ..)

@[simp] theorem Dev.stopDone_time (d : Dev) (sl : Slice) :
    (d.stopDone sl).time = d.time := by
  unfold Dev.stopDone
  dsimp only
  repeat' split
  all_goals simp -implicitDefEqProofs

@[simp] theorem launchMem_time (s : State) (sl : Slice) :
    (launchMem s sl).dev.time = s.dev.time := by simp -implicitDefEqProofs [launchMem]

@[simp] theorem Dev.beginReplay_time (d : Dev) (sid : Nat) :
    (d.beginReplay sid).time = d.time := by
  unfold Dev.beginReplay
  split <;> simp

@[simp] theorem Dev.raiseEarly_time (d : Dev) (sid : Nat) :
    (d.raiseEarly sid).time = d.time := by simp [Dev.raiseEarly]

end Sys2Proof.Machine
end

section
/-! SUPPORT. The operations of Machine/Epoch leave the record of time. -/

namespace Sys2Proof.Machine

@[simp] theorem Dev.stepRegs_time (d : Dev) :
    (d.stepRegs).time = d.time := by simp [Dev.stepRegs]

end Sys2Proof.Machine
end

section
/-! SUPPORT. The operations of Machine/Sessions leave the record of time. -/

namespace Sys2Proof.Machine

@[simp] theorem Dev.refuseOpen_time (d : Dev) (hp code : Nat) :
    (d.refuseOpen hp code).time = d.time := by simp [Dev.refuseOpen]

@[simp] theorem Dev.auditOpen_time (d : Dev) (o : OpenReq) (code : Nat) :
    (d.auditOpen o code).time = d.time := by simp [Dev.auditOpen]

@[simp] theorem Dev.accept_time (d : Dev) (hp : Nat) (o : OpenReq) :
    (d.accept hp o).time = d.time := by simp [Dev.accept]

@[simp] theorem Dev.sessionOpen_time (d : Dev) (hp : Nat) (o : OpenReq) :
    (d.sessionOpen hp o).time = d.time := by
  unfold Dev.sessionOpen
  dsimp only
  repeat' split
  all_goals simp

@[simp] theorem msgSessionClose_time (h : MsgHdr) (s : State) :
    (msgSessionClose h s).dev.time = s.dev.time := by simp [msgSessionClose]

@[simp] theorem Dev.tellerAck_time (d : Dev) (h : MsgHdr) (cum bitmap : Nat) :
    (d.tellerAck h cum bitmap).time = d.time := by
  have ha := Dev.arrive_time d h false
  unfold Dev.tellerAck
  generalize d.arrive h false = o at ha ⊢
  obtain ⟨x | x, e⟩ := o
  · exact ha
  · exact (Dev.seqEnd_time ..).trans ((Dev.updSession_time ..).trans ha)

@[simp] theorem Dev.tagFail_time (d : Dev) (id : Nat) :
    (d.tagFail id).time = d.time := by
  unfold Dev.tagFail
  dsimp only
  repeat' split
  all_goals simp

@[simp] theorem msgProtocolViolation_time (h : MsgHdr) (k : Violation) (s : State) :
    (msgProtocolViolation h k s).dev.time = s.dev.time := by
  unfold msgProtocolViolation
  refine State.request_time _ _ _ _ (fun x d => ?_)
  extract_lets code
  clear_value code
  rcases code with _ | c
  · rfl
  · exact Dev.violation_time ..

@[simp] theorem Dev.notTeller_time (d : Dev) (hp : Nat) :
    (d.notTeller hp).time = d.time := by simp [Dev.notTeller]

@[simp] theorem Dev.replayControl_time (d : Dev) (h : MsgHdr) (rid : Nat) (act : Dev → Dev) (hact : ∀ d', (act d').time = d'.time) :
    (d.replayControl h rid act).time = d.time := by
  unfold Dev.replayControl
  split <;> simp [hact]

@[simp] theorem Dev.recordStart_time (d : Dev) (h : MsgHdr) (rid sid : Nat) :
    (d.recordStart h rid sid).time = d.time := by
  unfold Dev.recordStart
  exact Dev.ite_time (Dev.reply_time ..) (Dev.ite_time (Dev.reply_time ..) (Dev.ite_time (Dev.reply_time ..)
    ((Dev.reply_time ..).trans (Dev.withTel_time ..))))

@[simp] theorem msgRecordStart_time (h : MsgHdr) (recId : BitVec 8) (slice : SliceId) (s : State) :
    (msgRecordStart h recId slice s).dev.time = s.dev.time := by simp [msgRecordStart]

@[simp] theorem msgRecordStop_time (h : MsgHdr) (recId : BitVec 8) (s : State) :
    (msgRecordStop h recId s).dev.time = s.dev.time := by simp [msgRecordStop]

@[simp] theorem msgArm_time (h : MsgHdr) (recId : BitVec 8) (slice : SliceId) (s : State) :
    (msgArm h recId slice s).dev.time = s.dev.time := by
  simp [msgArm, apply_ite Dev.time]

@[simp] theorem msgDisarm_time (h : MsgHdr) (recId : BitVec 8) (slice : SliceId) (s : State) :
    (msgDisarm h recId slice s).dev.time = s.dev.time := by simp [msgDisarm]

@[simp] theorem msgRecordingDelete_time (h : MsgHdr) (recId : BitVec 8) (s : State) :
    (msgRecordingDelete h recId s).dev.time = s.dev.time := by simp [msgRecordingDelete]

@[simp] theorem msgRecordingList_time (h : MsgHdr) (s : State) :
    (msgRecordingList h s).dev.time = s.dev.time := by simp [msgRecordingList]

theorem Dev.stage_time {d e : Dev} {st : Stream} {sl : Slice} {frame bytes off crc : Nat} {data : List Byte} {err : Dev → Nat → Dev}
    (herr : ∀ d c, (err d c).time = d.time) (h : d.stage st sl frame bytes off crc data err = some e) : e.time = d.time := by
  unfold Dev.stage at h
  extract_lets next mine old x put bad y at h
  have hput (d : Dev) (l : List Shard) : (put d l).time = d.time := Dev.updStream_time ..
  have hbad (d : Dev) (x : Shard) (c : Nat) : (bad d x c).time = d.time :=
    (herr _ _).trans ((Dev.bump_time ..).trans (hput _ _))
  clear_value put bad y
  split at h
  · obtain rfl := Option.some.inj h
    exact (herr _ _).trans (Dev.bump_time ..)
  · split at h
    · obtain rfl := Option.some.inj h
      exact (herr _ _).trans (Dev.bump_time ..)
    · split at h
      · exact Option.some.inj h ▸ hbad ..
      · split at h
        · cases h
        · split at h
          · exact Option.some.inj h ▸ hput ..
          · split at h
            · exact Option.some.inj h ▸ hbad ..
            · split at h
              · exact Option.some.inj h ▸ hput ..
              · exact Option.some.inj h ▸ hput ..

@[simp] theorem Dev.replayFeed_time (d : Dev) (sid : Nat) :
    (d.replayFeed sid).time = d.time := by
  apply Dev.time_of_clock
  unfold Dev.replayFeed
  split
  · extract_lets next
    have hnext (d : Dev) (l : List (Nat × Nat × Nat)) : (next d l).time = d.time := Dev.withTel_time ..
    clear_value next
    split
    · exact hnext ..
    · split
      · exact hnext ..
      · refine Dev.ite_clock rfl ?_
        extract_lets d1
        have h1 : d1.time = d.time := hnext ..
        clear_value d1
        apply Dev.clock_of_time
        split
        · rename_i st _
          generalize hs : d1.stage _ _ _ _ _ _ _ _ = o
          rcases o with _ | e
          · exact h1
          · exact (Dev.stage_time (fun _ _ => rfl) hs).trans h1
        · exact h1
  · rfl

end Sys2Proof.Machine
end

section
/-! SUPPORT. The operations of Machine/Teller leave the record of time. -/

namespace Sys2Proof.Machine

@[simp] theorem Dev.addrEval_time (d : Dev) :
    (d.addrEval).time = d.time := by simp [Dev.addrEval]

@[simp] theorem Dev.addrMsg_time (d : Dev) (hp : Nat) (m : AddrMsg) :
    (d.addrMsg hp m).time = d.time := by
  unfold Dev.addrMsg
  dsimp only
  repeat' split
  all_goals simp

end Sys2Proof.Machine
end

section
/-! SUPPORT. The operations of Machine/Power leave the record of time. -/

namespace Sys2Proof.Machine

@[simp] theorem Dev.setSteps_time (d : Dev) (l : List StepRec) :
    (d.setSteps l).time = d.time := by simp [Dev.setSteps]

@[simp] theorem Dev.setRising_time (d : Dev) (x : Option (Nat × Nat × Nat × Nat)) :
    (d.setRising x).time = d.time := by simp [Dev.setRising]

@[simp] theorem Dev.markSample_time (d : Dev) :
    (d.markSample).time = d.time := by
  unfold Dev.markSample
  split <;> simp

@[simp] theorem Dev.reopen_time (d : Dev) :
    (d.reopen).2.time = d.time := by
  unfold Dev.reopen
  dsimp only
  repeat' split
  all_goals simp

@[simp] theorem Dev.decideFor_time (d : Dev) (target park causes : Nat) :
    (d.decideFor target park causes).time = d.time := by
  unfold Dev.decideFor
  dsimp only
  repeat' split
  all_goals simp

@[simp] theorem Dev.decideMode_time (d : Dev) (causes : Nat) :
    (d.decideMode causes).time = d.time := by simp [Dev.decideMode]

@[simp] theorem Dev.railsUp_time (d : Dev) :
    (d.railsUp).time = d.time := by
  unfold Dev.railsUp
  dsimp only
  repeat' split
  all_goals simp

@[simp] theorem Dev.staleCluster_time (d : Dev) (cl : Nat) :
    (d.staleCluster cl).time = d.time := by
  unfold Dev.staleCluster
  split <;> simp

@[simp] theorem Dev.parkTo_time (d : Dev) (p : Nat) :
    (d.parkTo p).time = d.time := by
  simp [Dev.parkTo, apply_ite Dev.time]

@[simp] theorem Dev.wake_time (d : Dev) :
    (d.wake).time = d.time := by simp [Dev.wake]

@[simp] theorem Dev.takeStep_time (d : Dev) (st : StepRec) :
    (d.takeStep st).time = d.time := by
  simp [Dev.takeStep, apply_ite Dev.time]

@[simp] theorem Dev.lowerCeiling_time (d : Dev) :
    (d.lowerCeiling).time = d.time := by simp [Dev.lowerCeiling]

@[simp] theorem Dev.stretchRead_time (d : Dev) :
    (d.stretchRead).time = d.time := by simp [Dev.stretchRead]

@[simp] theorem Dev.stretchLoop_time (d : Dev) :
    (d.stretchLoop).2.time = d.time := by simp [Dev.stretchLoop]

@[simp] theorem Dev.powerRead_time (d : Dev) (wA wB mvA mvB : Nat) :
    (d.powerRead wA wB mvA mvB).time = d.time := by simp [Dev.powerRead]

@[simp] theorem Dev.powerLoops_time (d : Dev) :
    (d.powerLoops).time = d.time := by
  apply Dev.time_of_clock
  unfold Dev.powerLoops
  extract_lets t above again fires p d1
  have h1 : d1.time = d.time := Dev.withPwr_time ..
  clear_value d1
  have hs := Dev.stretchLoop_time d1
  generalize d1.stretchLoop = o at hs ⊢
  obtain ⟨hot, d2⟩ := o
  dsimp -zeta only
  extract_lets d3 d4 c
  have h3 : d3.time = d.time := Dev.ite_time ((Dev.event_time ..).trans (hs.trans h1)) (hs.trans h1)
  have h4 : d4.time = d.time := (Dev.foldl_time (fun _ _ => Dev.event_time ..) _ _).trans h3
  clear_value d4
  exact Dev.ite_clock ((Dev.decideMode_time ..).trans ((Dev.lowerCeiling_time ..).trans h4))
    (Dev.ite_clock ((Dev.decideMode_time ..).trans ((Dev.put_time ..).trans ((Dev.markSample_time ..).trans h4))) h4)

@[simp] theorem Dev.takeDeferred_time (d : Dev) :
    (d.takeDeferred).time = d.time := by
  simp [Dev.takeDeferred, apply_ite Dev.time]

@[simp] theorem Dev.decideOrDefer_time (d : Dev) (causes : Nat) :
    (d.decideOrDefer causes).time = d.time := by
  simp [Dev.decideOrDefer, apply_ite Dev.time]

@[simp] theorem Dev.alertEval_time (d : Dev) :
    (d.alertEval).time = d.time := by simp [Dev.alertEval]

@[simp] theorem Dev.thermalRead_time (d : Dev) (j st : List Nat) :
    (d.thermalRead j st).time = d.time := by
  apply Dev.time_of_clock
  unfold Dev.thermalRead
  exact (Dev.withPwr_time ..).trans ((Dev.foldl_time (fun _ _ => Dev.put_time ..) _ _).trans
    ((Dev.setReg_time ..).trans (Dev.foldl_time (fun _ _ => Dev.setReg_time ..) _ _)))

@[simp] theorem Dev.thermalLoops_time (d : Dev) :
    (d.thermalLoops).time = d.time := by
  simp [Dev.thermalLoops, apply_ite Dev.time]

@[simp] theorem Dev.setBlade_time (d : Dev) (bl : Blade) (v : Bool) :
    (d.setBlade bl v).time = d.time := by
  unfold Dev.setBlade
  split <;> simp

@[simp] theorem Dev.inputBit_time (d : Dev) (bl : Blade) (v : BitVec 8) :
    (d.inputBit bl v).time = d.time := by
  unfold Dev.inputBit
  split <;> simp

@[simp] theorem Dev.bladeStep_time (d : Dev) :
    (d.bladeStep).time = d.time := by
  simp [Dev.bladeStep, apply_ite Dev.time]

@[simp] theorem Dev.bladeLost_time (d : Dev) (bl : Blade) :
    (d.bladeLost bl).time = d.time := by
  simp [Dev.bladeLost, apply_ite Dev.time]

end Sys2Proof.Machine
end

section
/-! SUPPORT. The operations of Machine/Health leave the record of time. -/

namespace Sys2Proof.Machine

@[simp] theorem Dev.unloadSlice_time (d : Dev) (sl : Slice) :
    (d.unloadSlice sl).time = d.time := by
  unfold Dev.unloadSlice
  split <;> simp

@[simp] theorem Dev.loadLoses_time (cl : Nat) (d : Dev) (l : Load) :
    (d.loadLoses cl l).time = d.time := by
  unfold Dev.loadLoses
  split <;> simp

@[simp] theorem Dev.withdraw_time (d : Dev) (cl site : Nat) :
    (d.withdraw cl site).time = d.time := by
  unfold Dev.withdraw
  dsimp only
  repeat' split
  all_goals simp

@[simp] theorem Dev.moveRows_time (d : Dev) (cl site : Nat) :
    (d.moveRows cl site).time = d.time := by simp [Dev.moveRows]

@[simp] theorem Dev.retireSite_time (d : Dev) (cl site : Nat) :
    (d.retireSite cl site).time = d.time := by
  simp [Dev.retireSite, apply_ite Dev.time]

@[simp] theorem Dev.unpendRow_time (d : Dev) (g : Nat) :
    (d.unpendRow g).time = d.time := by simp [Dev.unpendRow]

@[simp] theorem Dev.unpendSite_time (d : Dev) (cl site : Nat) :
    (d.unpendSite cl site).time = d.time := by simp [Dev.unpendSite]

@[simp] theorem Dev.retireRow_time (d : Dev) (g : Nat) :
    (d.retireRow g).time = d.time := by simp [Dev.retireRow]

@[simp] theorem Dev.pendSite_time (d : Dev) (cl site : Nat) :
    (d.pendSite cl site).time = d.time := by
  unfold Dev.pendSite
  split <;> simp

@[simp] theorem Dev.routeAround_time (d : Dev) :
    (d.routeAround).time = d.time := by simp [Dev.routeAround]

@[simp] theorem Dev.routerFail_time (d : Dev) (cl : Nat) :
    (d.routerFail cl).time = d.time := by
  simp [Dev.routerFail, apply_ite Dev.time]

@[simp] theorem Dev.ageing_time (d : Dev) (cl : Nat) (sites : List Nat) (router : Nat) :
    (d.ageing cl sites router).time = d.time := by
  simp [Dev.ageing, apply_ite Dev.time]

@[simp] theorem Dev.joinRepair_time (d : Dev) (sid : Nat) (rows : List Nat) (sites : List (Nat × Nat)) (relaunch : Bool) :
    (d.joinRepair sid rows sites relaunch).time = d.time := by
  unfold Dev.joinRepair
  dsimp only
  repeat' split
  all_goals simp

@[simp] theorem Dev.clockForScrub_time (d : Dev) :
    (d.clockForScrub).time = d.time := by
  unfold Dev.clockForScrub
  split <;> simp

@[simp] theorem Dev.loadAgain_time (d : Dev) (sid : Nat) :
    (d.loadAgain sid).time = d.time := by
  unfold Dev.loadAgain
  dsimp only
  repeat' split
  all_goals simp

@[simp] theorem Dev.takeOut_time (d : Dev) (cl site : Nat) :
    (d.takeOut cl site).time = d.time := by
  unfold Dev.takeOut
  split <;> simp

@[simp] theorem Dev.repairSite_time (d : Dev) (cl site : Nat) :
    (d.repairSite cl site).time = d.time := by
  unfold Dev.repairSite
  dsimp only
  repeat' split
  all_goals simp

@[simp] theorem Dev.spareFails_time (d : Dev) (g : Nat) :
    (d.spareFails g).time = d.time := by
  unfold Dev.spareFails
  split <;> simp

@[simp] theorem Dev.repairRow_time (d : Dev) (g : Nat) :
    (d.repairRow g).time = d.time := by
  unfold Dev.repairRow
  dsimp only
  repeat' split
  all_goals simp

@[simp] theorem Dev.ringFault_time (d : Dev) (core : Nat) :
    (d.ringFault core).time = d.time := by
  unfold Dev.ringFault
  dsimp only
  repeat' split
  all_goals simp

@[simp] theorem Dev.updRepair_time (d : Dev) (sid : Nat) (f : Repair → Repair) :
    (d.updRepair sid f).time = d.time := by simp [Dev.updRepair]

@[simp] theorem Dev.retireRows_time (d : Dev) (sid : Nat) :
    (d.retireRows sid).time = d.time := by
  unfold Dev.retireRows
  split <;> simp

@[simp] theorem Dev.marginDone_time (d : Dev) (r : Repair) (sl : Slice) (passes : Bool) :
    (d.marginDone r sl passes).time = d.time := by
  simp [Dev.marginDone, apply_ite Dev.time]

@[simp] theorem Dev.relaunchHere_time (d : Dev) (sl : Slice) (e : Nat) :
    (d.relaunchHere sl e).time = d.time := by
  apply Dev.time_of_clock
  unfold Dev.relaunchHere
  refine Dev.ite_clock (Dev.clock_of_time (Dev.stopDone_time ..)) (Dev.clock_of_time ?_)
  exact (Dev.armLaunch_time ..).trans (Dev.ite_time (Dev.foldl_time (fun _ _ => Dev.updCore_time ..) _ _) rfl)

@[simp] theorem Dev.copyLost_time (d : Dev) (sl : Slice) (e : Entry) (b : Nat) (copy : List BadBlock) :
    (d.copyLost sl e b copy).time = d.time := by simp [Dev.copyLost]

end Sys2Proof.Machine
end

section
/-! SUPPORT. The operations of Machine/Access leave the record of time. -/

namespace Sys2Proof.Machine

@[simp] theorem Dev.arm_time (d : Dev) (a : Actor) (b target : Nat) :
    (d.arm a b target).time = d.time := by
  simp [Dev.arm, apply_ite Dev.time]

@[simp] theorem Dev.armRefused_time (d : Dev) (a : Actor) (b target code : Nat) :
    (d.armRefused a b target code).time = d.time := by simp [Dev.armRefused]

end Sys2Proof.Machine
end

section
/-! SUPPORT. The operations of Machine/Security leave the record of time. -/

namespace Sys2Proof.Machine

@[simp] theorem Dev.auditStage_time (d : Dev) (kind result : Nat) (args : List Nat) :
    (d.auditStage kind result args).time = d.time := by simp [Dev.auditStage]

@[simp] theorem Dev.stageWrite_time (d : Dev) (o : Nat) (vals : List Nat) :
    (d.stageWrite o vals).time = d.time := by
  unfold Dev.stageWrite
  split <;> simp

@[simp] theorem Dev.mgmtCheck_time (d : Dev) (h : MsgHdr) (b : Nat) (ws : List (Nat × Nat)) (act : Session → Dev → Dev)
    (hact : ∀ x0 d', (act x0 d').time = d'.time) :
    (d.mgmtCheck h b ws act).time = d.time := by
  simp [Dev.mgmtCheck, apply_ite Dev.time, hact]

@[simp] theorem msgStageWinWrite_time (h : MsgHdr) (offset : BitVec 32) (vals : List Word) (s : State) :
    (msgStageWinWrite h offset vals s).dev.time = s.dev.time := by
  simp [msgStageWinWrite, apply_ite Dev.time]

@[simp] theorem Dev.setInactive_time (d : Dev) (target : Nat) (fw : Option FwImage) (cfg : Option CfgImage) :
    (d.setInactive target fw cfg).time = d.time := by
  simp [Dev.setInactive, apply_ite Dev.time]

@[simp] theorem Dev.stageVerify_time (d : Dev) (t : Nat) (keys : StageKeys) :
    (d.stageVerify t keys).time = d.time := by
  simp [Dev.stageVerify, apply_ite Dev.time]

@[simp] theorem Dev.burnOwner_time (d : Dev) (anchor : BitVec 384) :
    (d.burnOwner anchor).time = d.time := by simp [Dev.burnOwner]

@[simp] theorem Dev.claim_time (d : Dev) (anchor : BitVec 384) :
    (d.claim anchor).time = d.time := by simp [Dev.claim]

@[simp] theorem Dev.activateCfg_time (d : Dev) (c : CfgImage) :
    (d.activateCfg c).time = d.time := by
  unfold Dev.activateCfg
  split <;> simp

@[simp] theorem Dev.armHandover_time (d : Dev) (h : Nat) :
    (d.armHandover h).time = d.time := by
  unfold Dev.armHandover
  dsimp only
  repeat' split
  all_goals simp

@[simp] theorem Dev.beginTakeover_time (d : Dev) :
    (d.beginTakeover).time = d.time := by
  unfold Dev.beginTakeover
  split <;> simp

@[simp] theorem Dev.dropHandover_time (d : Dev) :
    (d.dropHandover).time = d.time := by
  unfold Dev.dropHandover
  dsimp only
  split <;> simp

@[simp] theorem Dev.auditHand_time (d : Dev) (x : Handover) (code : Nat) :
    (d.auditHand x code).time = d.time := by simp [Dev.auditHand]

@[simp] theorem Dev.abortHandover_time (d : Dev) :
    (d.abortHandover).time = d.time := by
  unfold Dev.abortHandover
  dsimp only
  repeat' split
  all_goals simp

@[simp] theorem Dev.confirmHandover_time (d : Dev) :
    (d.confirmHandover).time = d.time := by
  unfold Dev.confirmHandover
  split <;> simp

@[simp] theorem Dev.handoverResume_time (d : Dev) :
    (d.handoverResume).time = d.time := by
  unfold Dev.handoverResume
  dsimp only
  repeat' split
  all_goals simp

@[simp] theorem Dev.revertHandover_time (d : Dev) (x : Handover) :
    (d.revertHandover x).time = d.time := by simp [Dev.revertHandover]

@[simp] theorem Dev.mcFault_time (d : Dev) (k : Nat) :
    (d.mcFault k).time = d.time := by
  unfold Dev.mcFault
  dsimp only
  repeat' split
  all_goals simp

@[simp] theorem Dev.scrubAll_time (d : Dev) :
    (d.scrubAll).time = d.time := by simp [Dev.scrubAll]

@[simp] theorem Dev.lockDebug_time (d : Dev) :
    (d.lockDebug).time = d.time := by
  simp [Dev.lockDebug, apply_ite Dev.time]

@[simp] theorem Dev.newChallenge_time (d : Dev) :
    (d.newChallenge).time = d.time := by simp [Dev.newChallenge]

@[simp] theorem Dev.debugResponse_time (d : Dev) (scope reserved expiry : Nat) (g : DebugSig) (actor : BitVec 128) :
    (d.debugResponse scope reserved expiry g actor).2.time = d.time := by
  simp [Dev.debugResponse, apply_ite Dev.time]

@[simp] theorem msgDebugResponse_time (via : DebugVia) (scope : BitVec 8) (reserved : BitVec 56) (expiry : BitVec 64) (sig : DebugSig)
    (s : State) :
    (msgDebugResponse via scope reserved expiry sig s).dev.time = s.dev.time := by
  unfold msgDebugResponse
  dsimp only
  split <;> simp [apply_ite Dev.time]

@[simp] theorem Dev.nonceWrite_time (d : Dev) (ws : List (Nat × Nat)) :
    (d.nonceWrite ws).time = d.time := by
  unfold Dev.nonceWrite
  split <;> simp

@[simp] theorem msgAttNonceWrite_time (h : MsgHdr) (first : Fin 12) (vals : List Word) (s : State) :
    (msgAttNonceWrite h first vals s).dev.time = s.dev.time := by simp [msgAttNonceWrite]

@[simp] theorem Dev.orderLane_time (d : Dev) (p lane : Nat) :
    (d.orderLane p lane).time = d.time := by
  simp [Dev.orderLane, apply_ite Dev.time]

@[simp] theorem Dev.orderRepair_time (d : Dev) (v : Nat) (copy : List BadBlock) :
    (d.orderRepair v copy).time = d.time := by
  unfold Dev.orderRepair
  dsimp only
  repeat' split
  all_goals simp

@[simp] theorem msgRepairReq_time (h : MsgHdr) (v : RepairOrder) (s : State) :
    (msgRepairReq h v s).dev.time = s.dev.time := by
  simp [msgRepairReq, apply_ite Dev.time]

end Sys2Proof.Machine
end

section
/-! SUPPORT. The operations of Machine/Commit leave the record of time. -/

namespace Sys2Proof.Machine

@[simp] theorem Dev.overlay_time (d : Dev) (b : Nat) (sh : List (Nat × Word)) :
    (d.overlay b sh).time = d.time :=
  Dev.foldl_time (fun _ _ => Dev.setReg_time ..) _ _

@[simp] theorem Dev.disable_time (d : Dev) (p : Nat) :
    (d.disable p).time = d.time := by
  simp [Dev.disable, apply_ite Dev.time]

@[simp] theorem Dev.afterFab_time (old d : Dev) (sh : List (Nat × Word)) :
    (old.afterFab d sh).time = d.time := by
  simp [Dev.afterFab, apply_ite Dev.time]

@[simp] theorem Dev.mirrorTables_time (d : Dev) (sh : List (Nat × Word)) :
    (d.mirrorTables sh).time = d.time := by simp [Dev.mirrorTables]

@[simp] theorem Dev.afterPwr_time (d : Dev) (sh : List (Nat × Word)) :
    (d.afterPwr sh).time = d.time := by
  simp [Dev.afterPwr, apply_ite Dev.time]

@[simp] theorem Dev.afterHealth_time (d : Dev) (sh : List (Nat × Word)) :
    (d.afterHealth sh).time = d.time := by
  simp [Dev.afterHealth, apply_ite Dev.time]

@[simp] theorem Dev.afterSec_time (d : Dev) (c : Armed) :
    (d.afterSec c).time = d.time := by simp [Dev.afterSec]

@[simp] theorem Dev.tryCommit_time (d : Dev) (c : Armed) (boot : Bool) :
    (d.tryCommit c boot).2.time = d.time := by
  simp [Dev.tryCommit, apply_ite Dev.time]

@[simp] theorem Dev.commitDone_time (d : Dev) (c : Armed) (code : Nat) :
    (d.commitDone c code).time = d.time := by simp [Dev.commitDone]

@[simp] theorem Dev.refusedHand_time (d : Dev) (c : Armed) (code : Nat) :
    (d.refusedHand c code).time = d.time := by
  unfold Dev.refusedHand
  repeat' split
  all_goals simp

end Sys2Proof.Machine
end

section
/-! SUPPORT. The operations of Machine/Boot leave the record of time. -/

namespace Sys2Proof.Machine

@[simp] theorem Dev.portsAlign_time (d : Dev) :
    (d.portsAlign).time = d.time := by
  simp [Dev.portsAlign, apply_ite Dev.time]

/-- A fabric, its cores, its slices' stores and its security may be replaced at once. -/
theorem Dev.withWarm_time (d : Dev) (c : List (Nat × CoreSt)) (n : NetSt) (f : FabSt) (v : VaultSt) (p : PwrSt) (x : SecSt) :
    ({ d with cores := c, net := n, fab := f, vault := v, pwr := p, sec := x } : Dev).time = d.time := rfl

@[simp] theorem Dev.beginWarm_time (d : Dev) :
    (d.beginWarm).time = d.time := by
  apply Dev.time_of_clock
  unfold Dev.beginWarm
  extract_lets scrubbing d1 d2 d3 d4 d5 d6 f v p x d7 d8 d9
  have h1 : d1.time = d.time := Dev.auditSelf_time ..
  have h2 : d2.time = d.time := by
    unfold d2
    split
    · exact Dev.ite_time ((Dev.abortHandover_time ..).trans h1) (Dev.ite_time ((Dev.confirmHandover_time ..).trans h1) h1)
    · exact h1
  have h3 : d3.time = d.time := by
    refine (Dev.foldl_time (fun d sid => ?_) _ _).trans h2
    split
    · exact Dev.ite_time ((Dev.killSlice_time ..).trans (Dev.updSlice_time ..))
        ((Dev.endSlice_time ..).trans ((Dev.releaseClusters_time ..).trans ((Dev.dropLoad_time ..).trans (Dev.updSlice_time ..))))
    · rfl
  have h4 : d4.time = d.time := (Dev.newChallenge_time ..).trans ((Dev.lockDebug_time ..).trans h3)
  have h5 : d5.time = d.time := (Dev.foldl_time (fun _ _ => Dev.bumpGen_time ..) _ _).trans
    ((Dev.foldl_time (fun _ _ => Dev.staleCluster_time ..) _ _).trans h4)
  have h6 : d6.time = d.time := (Dev.portsAlign_time ..).trans h5
  have h7 : d7.time = d.time := (Dev.withWarm_time ..).trans h6
  have h8 : d8.time = d.time := (Dev.setReg_time ..).trans ((Dev.put_time ..).trans ((Dev.put_time ..).trans
    ((Dev.stepRegs_time ..).trans h7)))
  have h9 : d9.time = d.time := Dev.ite_time h8 ((Dev.put_time ..).trans ((Dev.put_time ..).trans h8))
  exact (Dev.ramp_time ..).trans ((Dev.put_time ..).trans ((Dev.put_time ..).trans h9))

@[simp] theorem Dev.bootOpen_time (d : Dev) :
    (d.bootOpen).time = d.time := by
  unfold Dev.bootOpen
  dsimp only
  repeat' split
  all_goals simp

@[simp] theorem Dev.allRails_time (d : Dev) (mv goal : Nat) :
    (d.allRails mv goal).time = d.time := by simp [Dev.allRails]

end Sys2Proof.Machine
end

section
/-! SUPPORT. The operations of Machine/Mgmt leave the record of time. -/

namespace Sys2Proof.Machine

@[simp] theorem msgMgmtRead_time (h : MsgHdr) (block : BitVec 8) (count : BitVec 16) (offset : BitVec 32) (s : State) :
    (msgMgmtRead h block count offset s).dev.time = s.dev.time := by
  simp [msgMgmtRead, apply_ite Dev.time]

@[simp] theorem Dev.clearEvents_time (d : Dev) (b off v : Nat) :
    (d.clearEvents b off v).time = d.time := by
  unfold Dev.clearEvents
  split <;> simp

@[simp] theorem Dev.writeOnly_time (d : Dev) (off v : Nat) :
    (d.writeOnly off v).time = d.time := by
  simp [Dev.writeOnly, apply_ite Dev.time]

@[simp] theorem Dev.writeReg_time (d : Dev) (a : Actor) (b : Nat) (w : Nat × Nat) :
    (d.writeReg a b w).time = d.time := by
  unfold Dev.writeReg
  dsimp only
  repeat' split
  all_goals simp

@[simp] theorem Dev.armFor_time (d : Dev) (a : Actor) (b t : Nat) :
    (d.armFor a b t).time = d.time := by simp [Dev.armFor]

@[simp] theorem Dev.writeAll_time (d : Dev) (a : Actor) (b lo : Nat) (ws : List (Nat × Nat)) :
    (d.writeAll a b lo ws).time = d.time := by
  unfold Dev.writeAll
  dsimp only
  split <;> simp [apply_ite Dev.time]

@[simp] theorem Dev.noteRefusal_time (d : Dev) (a : Actor) (b code : Nat) (t : Option Nat) :
    (d.noteRefusal a b code t).time = d.time := by
  unfold Dev.noteRefusal
  split <;> simp

@[simp] theorem msgMgmtWrite_time (h : MsgHdr) (block : BitVec 8) (offset : BitVec 32) (vals : List Word) (s : State) :
    (msgMgmtWrite h block offset vals s).dev.time = s.dev.time := by
  simp [msgMgmtWrite, apply_ite Dev.time]

@[simp] theorem msgMgmtCommit_time (h : MsgHdr) (block : BitVec 8) (target : BitVec 64) (s : State) :
    (msgMgmtCommit h block target s).dev.time = s.dev.time := by
  simp [msgMgmtCommit, apply_ite Dev.time]

end Sys2Proof.Machine
end

section
/-! SUPPORT. The operations of Machine/Inbox leave the record of time. -/

namespace Sys2Proof.Machine

@[simp] theorem State.act_time (i : Instr) (s : State) :
    (s.act i).dev.time = s.dev.time := by
  unfold State.act
  split <;> simp

@[simp] theorem State.turn_time (s : State) (id seq : Nat) (m : Held) :
    (s.turn id seq m).dev.time = s.dev.time := by
  unfold State.turn
  dsimp only
  repeat' split
  all_goals simp

@[simp] theorem State.drain_time (id n : Nat) (s : State) :
    (s.drain id n).dev.time = s.dev.time := by
  induction n generalizing s with
  | zero => rfl
  | succ n ih =>
    unfold State.drain
    split
    · exact (ih _).trans ((State.turn_time ..).trans (State.onDev_time fun _ => Dev.updSession_time ..))
    · rfl

@[simp] theorem State.turns_time (s : State) (id : Nat) :
    (s.turns id).dev.time = s.dev.time := by
  unfold State.turns
  split <;> simp

@[simp] theorem State.inOrderMsg_time (s : State) (i : Held) (h : MsgHdr) :
    (s.inOrderMsg i h).dev.time = s.dev.time := by
  have ha := Dev.arrive_time s.dev h true
  unfold State.inOrderMsg
  generalize s.dev.arrive h true = o at ha ⊢
  obtain ⟨x | x, e⟩ := o
  · exact ha
  · exact (State.turns_time ..).trans ((Dev.updSession_time ..).trans ha)

@[simp] theorem State.atOnceMsg_time (s : State) (i : Held) (h : MsgHdr) :
    (s.atOnceMsg i h).dev.time = s.dev.time := by
  have ha := Dev.arrive_time s.dev h true
  unfold State.atOnceMsg
  generalize s.dev.arrive h true = o at ha ⊢
  obtain ⟨x | x, e⟩ := o
  · exact ha
  · exact (State.turns_time ..).trans ((State.turn_time ..).trans ha)

@[simp] theorem State.depositMsg_time (s : State) (i : Instr) (h : MsgHdr) :
    (s.depositMsg i h).dev.time = s.dev.time := by
  unfold State.depositMsg
  split <;> simp

@[simp] theorem State.drainAll_time (s : State) :
    (s.drainAll).dev.time = s.dev.time := by simp [State.drainAll]

end Sys2Proof.Machine
end

section
/-! SUPPORT. The operations of Machine/Jtag leave the record of time. -/

namespace Sys2Proof.Machine

@[simp] theorem State.onTap_time (s : State) (f : State → State) (hf : ∀ s', (f s').dev.time = s'.dev.time) :
    (s.onTap f).dev.time = s.dev.time := by
  unfold State.onTap
  split <;> simp [hf]

@[simp] theorem Dev.select_time (d : Dev) (ir : Nat) (tdo : List Byte) :
    (d.select ir tdo).time = d.time := by simp [Dev.select]

@[simp] theorem Dev.bypass_time (d : Dev) :
    (d.bypass).time = d.time := by simp [Dev.bypass]

@[simp] theorem Dev.boundaryScan_time (d : Dev) (ir : Nat) :
    (d.boundaryScan ir).time = d.time := by
  unfold Dev.boundaryScan
  split <;> simp

@[simp] theorem State.jtagResult_time (s : State) (code v : Nat) :
    (s.jtagResult code v).dev.time = s.dev.time := by simp [State.jtagResult]

@[simp] theorem State.jtagRead_time (s : State) (b off : Nat) :
    (s.jtagRead b off).dev.time = s.dev.time := by
  simp [State.jtagRead, apply_ite State.dev, apply_ite Dev.time]

@[simp] theorem State.rowStore_time (s : State) :
    (s.rowStore).dev.time = s.dev.time := by simp [State.rowStore]

@[simp] theorem State.jtagWrite_time (s : State) (b off v : Nat) :
    (s.jtagWrite b off v).dev.time = s.dev.time := by
  simp [State.jtagWrite, apply_ite State.dev, apply_ite Dev.time]

@[simp] theorem State.jtagCommit_time (s : State) (b t : Nat) :
    (s.jtagCommit b t).dev.time = s.dev.time := by
  simp [State.jtagCommit, apply_ite State.dev, apply_ite Dev.time]

end Sys2Proof.Machine
end

section
/-! SUPPORT. The operations of Machine/Pmbus leave the record of time. -/

namespace Sys2Proof.Machine

@[simp] theorem Dev.pmAnswer_time (d : Dev) (l : List Byte) :
    (d.pmAnswer l).time = d.time := by simp [Dev.pmAnswer]

@[simp] theorem Dev.pmIgnore_time (d : Dev) :
    (d.pmIgnore).time = d.time := by simp [Dev.pmIgnore]

@[simp] theorem State.pm_time (s : State) (pages : List Nat) (f : Dev → Dev) (hf : ∀ d, (f d).time = d.time) :
    (s.pm pages f).dev.time = s.dev.time := by
  simp [State.pm, apply_ite Dev.time, hf]

@[simp] theorem Dev.clearFaults_time (d : Dev) :
    (d.clearFaults).time = d.time := by simp [Dev.clearFaults]

@[simp] theorem Dev.reading_time (d : Dev) (n m : Nat) :
    (d.reading n m).time = d.time := by simp [Dev.reading]

end Sys2Proof.Machine
end

section
/-! SUPPORT. Commands that keep the record of time. -/

namespace Sys2Proof.Machine

/-- What an outcome's state keeps of the time: all of it. -/
def KeepsTime (s : State) (r : Res) : Prop := ∀ t, r = .next t → t.dev.time = s.dev.time
@[simp] theorem keepsTime_ok {s t : State} : KeepsTime s (ok t) ↔ t.dev.time = s.dev.time :=
  ⟨fun h => h t rfl, fun h _ e => Host.Outcome.next.inj e ▸ h⟩
@[simp] theorem keepsTime_refused {s : State} {r : Refusal} : KeepsTime s (.refused r) := fun _ e => nomatch e
theorem keepsTime_onDev {s : State} {f : Dev → Dev} (h : ∀ d, (f d).time = d.time) : KeepsTime s (ok (s.onDev f)) :=
  keepsTime_ok.mpr (State.onDev_time h)

end Sys2Proof.Machine
end

section
/-! SUPPORT. The commands of Machine/Sync leave the record of time. -/

namespace Sys2Proof.Machine

theorem execGxNop_keepsTime (core : CoreId) (s : State) :
    KeepsTime s (execGxNop core s) := by simp [execGxNop]

theorem execGxGate_keepsTime (core : CoreId) (s : State) :
    KeepsTime s (execGxGate core s) := by
  refine keepsTime_ok.mpr (State.gxSlot_time _ _ _ fun s => ?_)
  split
  · exact (State.onDev_time fun _ => Dev.updSlice_time ..).trans (State.onCore_time ..)
  · rfl

theorem execGxKbegin_keepsTime (core : CoreId) (s : State) :
    KeepsTime s (execGxKbegin core s) := by simp -implicitDefEqProofs [execGxKbegin]

theorem execGxKend_keepsTime (core : CoreId) (s : State) :
    KeepsTime s (execGxKend core s) := by simp -implicitDefEqProofs [execGxKend]

theorem execGxSettle_keepsTime (core : CoreId) (eng : BitVec 4) (s : State) :
    KeepsTime s (execGxSettle core eng s) := by simp -implicitDefEqProofs [execGxSettle]

theorem execGxPublish_keepsTime (core : CoreId) (ring : RingId) (s : State) :
    KeepsTime s (execGxPublish core ring s) := by simp [execGxPublish]

theorem execGxRelease_keepsTime (core : CoreId) (sreg : BitVec 5) (soff : BitVec 12) (s : State) :
    KeepsTime s (execGxRelease core sreg soff s) := by simp [execGxRelease]

theorem execGxAcquire_keepsTime (core : CoreId) (sreg : BitVec 5) (soff : BitVec 12) (s : State) :
    KeepsTime s (execGxAcquire core sreg soff s) := by simp [execGxAcquire]

theorem execSettleDone_keepsTime (core : CoreId) (s : State) :
    KeepsTime s (execSettleDone core s) := by simp [execSettleDone]

theorem execKendDone_keepsTime (core : CoreId) (s : State) :
    KeepsTime s (execKendDone core s) := by simp [execKendDone]

theorem execReleaseQueueRetire_keepsTime (core : CoreId) (s : State) :
    KeepsTime s (execReleaseQueueRetire core s) := by
  unfold execReleaseQueueRetire
  dsimp only
  repeat' split
  all_goals simp

theorem execAcquireSatisfied_keepsTime (core : CoreId) (waited : BitVec 64) (s : State) :
    KeepsTime s (execAcquireSatisfied core waited s) := by
  unfold execAcquireSatisfied
  split <;> simp

theorem execAcquireTimeout_keepsTime (core : CoreId) (s : State) :
    KeepsTime s (execAcquireTimeout core s) := by
  unfold execAcquireTimeout
  split <;> simp

end Sys2Proof.Machine
end

section
/-! SUPPORT. The commands of Machine/Dma leave the record of time. -/

namespace Sys2Proof.Machine

theorem execDmaCopy_keepsTime (core : CoreId) (q : Fin 4) (n : Nat) (meetsRead : WithLost Bool) (s : State) :
    KeepsTime s (execDmaCopy core q n meetsRead s) := by
  unfold execDmaCopy
  split <;> simp

theorem execDmaFill_keepsTime (core : CoreId) (q : Fin 4) (n : Nat) (meetsRead : WithLost Bool) (s : State) :
    KeepsTime s (execDmaFill core q n meetsRead s) := by
  unfold execDmaFill
  split <;> simp

theorem execDmaWrite_keepsTime (core : CoreId) (q : Fin 4) (n : SendTurn) (s : State) :
    KeepsTime s (execDmaWrite core q n s) := by simp [execDmaWrite]

theorem execDmaSumwrite_keepsTime (core : CoreId) (q : Fin 4) (n : SendTurn) (s : State) :
    KeepsTime s (execDmaSumwrite core q n s) := by simp [execDmaSumwrite]

theorem execDmaMcast_keepsTime (core : CoreId) (q : Fin 4) (n : SendTurn) (s : State) :
    KeepsTime s (execDmaMcast core q n s) := by simp [execDmaMcast]

theorem execDmaRead_keepsTime (core : CoreId) (q : Fin 4) (n : RequestTurn) (s : State) :
    KeepsTime s (execDmaRead core q n s) := by
  unfold execDmaRead
  split <;> simp

theorem execDxNop_keepsTime (core : CoreId) (s : State) :
    KeepsTime s (execDxNop core s) := by simp [execDxNop]

theorem execDxRun_keepsTime (core : CoreId) (f : DxFields) (s : State) :
    KeepsTime s (execDxRun core f s) := by simp -implicitDefEqProofs [execDxRun]

theorem execDmaDescriptorDone_keepsTime (core : CoreId) (q : Fin 4) (s : State) :
    KeepsTime s (execDmaDescriptorDone core q s) := by simp [execDmaDescriptorDone]

theorem execRingOverflow_keepsTime (core : CoreId) (q : Fin 4) (s : State) :
    KeepsTime s (execRingOverflow core q s) := by
  unfold execRingOverflow
  split <;> simp

end Sys2Proof.Machine
end

section
/-! SUPPORT. The commands of Machine/Matrix leave the record of time. -/

namespace Sys2Proof.Machine

theorem execMxNop_keepsTime (core : CoreId) (s : State) :
    KeepsTime s (execMxNop core s) := by simp [execMxNop]

theorem execMxLoad_keepsTime (core : CoreId) (f : MxLoadFields) (s : State) :
    KeepsTime s (execMxLoad core f s) := by
  unfold execMxLoad
  split <;> simp

theorem execMxFeed_keepsTime (core : CoreId) (f : MxFeedFields) (s : State) :
    KeepsTime s (execMxFeed core f s) := by
  unfold execMxFeed
  split
  · exact keepsTime_refused
  · split
    · exact keepsTime_ok.mpr (State.slot_time _ _ _ fun _ => rfl)
    · exact keepsTime_ok.mpr (mxEnqueue_time ..)

theorem execMxLoadStart_keepsTime (core : CoreId) (s : State) :
    KeepsTime s (execMxLoadStart core s) := by
  unfold execMxLoadStart
  split <;> simp

theorem execMxFeedStart_keepsTime (core : CoreId) (s : State) :
    KeepsTime s (execMxFeedStart core s) := by
  unfold execMxFeedStart
  split <;> simp

theorem execMxLoadComplete_keepsTime (core : CoreId) (heldCycles : Nat) (s : State) :
    KeepsTime s (execMxLoadComplete core heldCycles s) := by
  unfold execMxLoadComplete
  dsimp only
  repeat' split
  all_goals simp

end Sys2Proof.Machine
end

section
/-! SUPPORT. The commands of Machine/RingWaits leave the record of time. -/

namespace Sys2Proof.Machine

theorem execRingWaitResolved_keepsTime (core : CoreId) (w : WaitedRing) (s : State) :
    KeepsTime s (execRingWaitResolved core w s) := by
  simp [execRingWaitResolved, apply_ite State.dev, apply_ite Dev.time]

theorem execRingUnderflow_keepsTime (core : CoreId) (ring : RingId) (s : State) :
    KeepsTime s (execRingUnderflow core ring s) := by simp [execRingUnderflow]

theorem execDeferredWrite_keepsTime (core : CoreId) (s : State) :
    KeepsTime s (execDeferredWrite core s) := by
  unfold execDeferredWrite
  dsimp only
  repeat' split
  all_goals simp

end Sys2Proof.Machine
end

section
/-! SUPPORT. The commands of Machine/Holds leave the record of time. -/

namespace Sys2Proof.Machine

theorem execResumeSend_keepsTime (slice : SliceId) (s : State) :
    KeepsTime s (execResumeSend slice s) := by
  unfold execResumeSend
  refine keepsTime_onDev fun d => ?_
  dsimp only
  repeat' split
  all_goals simp

theorem execHoldWord_keepsTime (port : Port) (w : CtrlWord) (s : State) :
    KeepsTime s (execHoldWord port w s) := by
  simp [execHoldWord, apply_ite State.dev, apply_ite Dev.time]

theorem execStretch_keepsTime (region : Fin 24) (s : State) :
    KeepsTime s (execStretch region s) := by
  simp [execStretch, apply_ite Dev.time]

end Sys2Proof.Machine
end

section
/-! SUPPORT. The commands of Machine/Network leave the record of time. -/

namespace Sys2Proof.Machine

theorem execPacketInvalidForm_keepsTime (p : Packet) (s : State) :
    KeepsTime s (execPacketInvalidForm p s) := by
  unfold execPacketInvalidForm
  split <;> simp

theorem execPacketWrite_keepsTime (p : Packet) (meetsRead : Bool) (trip : Trip) (s : State) :
    KeepsTime s (execPacketWrite p meetsRead trip s) := by
  simp [execPacketWrite, apply_ite State.dev, apply_ite Dev.time]

theorem execPacketReadRequest_keepsTime (x : Request) (s : State) :
    KeepsTime s (execPacketReadRequest x s) := by
  unfold execPacketReadRequest
  dsimp only
  repeat' split
  all_goals simp

theorem execPacketReadReply_keepsTime (x : OnMesh) (meetsRead : Bool) (s : State) :
    KeepsTime s (execPacketReadReply x meetsRead s) := by
  simp [execPacketReadReply, apply_ite State.dev, apply_ite Dev.time]

theorem execPacketSumWrite_keepsTime (cl : Cl) (inPort : Fin 12) (p : OnMesh) (s : State) :
    KeepsTime s (execPacketSumWrite cl inPort p s) := by
  unfold execPacketSumWrite
  simp only [keepsTime_ok]
  repeat' split
  all_goals simp

theorem execSumTimeout_keepsTime (cl : Cl) (slice : SliceId) (rtag : BitVec 12) (s : State) :
    KeepsTime s (execSumTimeout cl slice rtag s) := by
  unfold execSumTimeout
  dsimp only
  repeat' split
  all_goals simp

theorem execPacketMulticastWrite_keepsTime (cl : Cl) (p : OnMesh) (s : State) :
    KeepsTime s (execPacketMulticastWrite cl p s) := by
  unfold execPacketMulticastWrite
  simp only [keepsTime_ok]
  repeat' split
  all_goals simp

theorem execHoldoverHoldCheck_keepsTime (slice : SliceId) (s : State) :
    KeepsTime s (execHoldoverHoldCheck slice s) := by
  unfold execHoldoverHoldCheck
  refine keepsTime_onDev fun d => ?_
  repeat' split
  all_goals simp

theorem execSemaphoreIncrement_keepsTime (x : OnMeshShort) (s : State) :
    KeepsTime s (execSemaphoreIncrement x s) := by
  refine keepsTime_ok.mpr (State.inOrder_time _ ?_)
  refine (shortArrive_time _ _ _ _ fun k s => shortDeliver_time _ _ _ fun s => semArrive_time ..).trans ?_
  exact State.onDev_time fun _ => Dev.measured_time ..

theorem execRingCredit_keepsTime (f : Flit) (s : State) :
    KeepsTime s (execRingCredit f s) := by
  refine keepsTime_ok.mpr (State.inOrder_time _ ?_)
  exact shortArrive_time _ _ _ _ fun k s => shortDeliver_time _ _ _ fun s => setRing_time ..

theorem execN4ShortWrite_keepsTime (f : Flit) (s : State) :
    KeepsTime s (execN4ShortWrite f s) := by simp [execN4ShortWrite]

theorem execHoldoverRelease_keepsTime (f : Flit) (s : State) :
    KeepsTime s (execHoldoverRelease f s) := by
  refine keepsTime_ok.mpr (State.inOrder_time _ (shortArrive_time _ _ _ _ fun k s => ?_))
  split
  · rename_i h _
    refine State.ite_time rfl ?_
    extract_lets s1
    have h1 : s1.dev.time = s.dev.time := State.onDev_time fun _ => rfl
    clear_value s1
    have hl := leafLand_time h.core h.ring h.pkt s1
    generalize leafLand h.core h.ring h.pkt s1 = o at hl ⊢
    obtain ⟨st, s2⟩ := o
    refine (State.onDev_time fun d => ?_).trans ((State.onDev_time fun _ => Dev.mcastDone_time ..).trans (hl.trans h1))
    split
    · exact Dev.ite_time rfl (Dev.clearCause_time ..)
    · rfl
  · rfl

theorem execQuotaWindow_keepsTime (src : QuotaSrc) (net : Net) (s : State) :
    KeepsTime s (execQuotaWindow src net s) := by
  unfold execQuotaWindow
  dsimp only
  repeat' split
  all_goals simp

theorem execSliceChannelCredit_keepsTime (slice : SliceId) (net : Net) (channel : BitVec 16) (s : State) :
    KeepsTime s (execSliceChannelCredit slice net channel s) := by simp [execSliceChannelCredit]

theorem execAtomicAdd_keepsTime (p : Packet) (s : State) :
    KeepsTime s (execAtomicAdd p s) := by
  unfold execAtomicAdd
  extract_lets stop
  refine keepsTime_ok.mpr (State.ite_time ?_ rfl)
  refine (State.onDev_time fun _ => Dev.nextAdd_time ..).trans ((atomicAdd_time ..).trans (State.onDev_time fun d => ?_))
  extract_lets d1
  have h1 : d1.time = d.time := Dev.take_time ..
  split
  · exact (Dev.setStopUse_time ..).trans h1
  · exact h1

end Sys2Proof.Machine
end

section
/-! SUPPORT. The commands of Machine/Ledger leave the record of time. -/

namespace Sys2Proof.Machine

theorem execLedgerFlush_keepsTime (s : State) :
    KeepsTime s (execLedgerFlush s) := by
  unfold execLedgerFlush
  split <;> simp

end Sys2Proof.Machine
end

section
/-! SUPPORT. The commands of Machine/Fabric leave the record of time. -/

namespace Sys2Proof.Machine

theorem execFrameEligible_keepsTime (port : Port) (s : State) :
    KeepsTime s (execFrameEligible port s) := by simp [execFrameEligible]

theorem execTransitForward_keepsTime (inPort outPort : Port) (n : Nat) (s : State) :
    KeepsTime s (execTransitForward inPort outPort n s) := by simp [execTransitForward]

theorem execFrameReceive_keepsTime (port : Port) (x : FrameIn) (s : State) :
    KeepsTime s (execFrameReceive port x s) := by
  simp [execFrameReceive, apply_ite State.dev, apply_ite Dev.time]

theorem execFramePresent_keepsTime (port : Port) (s : State) :
    KeepsTime s (execFramePresent port s) := by simp [execFramePresent]

theorem execAckWord_keepsTime (port : Port) (w : CtrlWord) (s : State) :
    KeepsTime s (execAckWord port w s) := by simp [execAckWord]

theorem execReplayTimeout_keepsTime (port : Port) (owner : SliceId) (lclass : BitVec 2) (net : Net) (s : State) :
    KeepsTime s (execReplayTimeout port owner lclass net s) := by
  unfold execReplayTimeout
  refine keepsTime_onDev fun d => ?_
  repeat' split
  all_goals simp

theorem execCreditWord_keepsTime (port : Port) (w : CtrlWord) (s : State) :
    KeepsTime s (execCreditWord port w s) := by simp [execCreditWord]

theorem execControlFlitBad_keepsTime (x : PortFlit) (s : State) :
    KeepsTime s (execControlFlitBad x s) := by
  simp [execControlFlitBad, apply_ite State.dev, apply_ite Dev.time]

end Sys2Proof.Machine
end

section
/-! SUPPORT. The commands of Machine/Ports leave the record of time. -/

namespace Sys2Proof.Machine

theorem execParentTimeout_keepsTime (s : State) :
    KeepsTime s (execParentTimeout s) := by
  simp [execParentTimeout, apply_ite Dev.time]

theorem execPortSignalDetect_keepsTime (port : Port) (s : State) :
    KeepsTime s (execPortSignalDetect port s) := by
  simp [execPortSignalDetect, apply_ite Dev.time]

theorem execTrainingComplete_keepsTime (port : Port) (sense : LaneSense) (s : State) :
    KeepsTime s (execTrainingComplete port sense s) := by
  unfold execTrainingComplete
  split <;> simp

theorem execTrainingTimeout_keepsTime (port : Port) (s : State) :
    KeepsTime s (execTrainingTimeout port s) := by
  unfold execTrainingTimeout
  split <;> simp

theorem execAlignComplete_keepsTime (port : Port) (skewNs : Nat) (s : State) :
    KeepsTime s (execAlignComplete port skewNs s) := by
  unfold execAlignComplete
  simp only [keepsTime_ok]
  repeat' split
  all_goals simp

theorem execAlignTimeout_keepsTime (port : Port) (s : State) :
    KeepsTime s (execAlignTimeout port s) := by
  unfold execAlignTimeout
  split <;> simp

theorem execDiscoverTimeout_keepsTime (port : Port) (s : State) :
    KeepsTime s (execDiscoverTimeout port s) := by
  unfold execDiscoverTimeout
  split <;> simp

theorem execPortRetry_keepsTime (port : Port) (s : State) :
    KeepsTime s (execPortRetry port s) := by
  simp [execPortRetry, apply_ite Dev.time]

theorem execLatencyFenceExpiry_keepsTime (port : Port) (s : State) :
    KeepsTime s (execLatencyFenceExpiry port s) := by
  simp [execLatencyFenceExpiry, apply_ite Dev.time]

theorem execPortMissing_keepsTime (port : Port) (s : State) :
    KeepsTime s (execPortMissing port s) := by
  simp [execPortMissing, apply_ite Dev.time]

theorem execControlFlitTimeout_keepsTime (port : Port) (s : State) :
    KeepsTime s (execControlFlitTimeout port s) := by
  unfold execControlFlitTimeout
  split <;> simp

theorem execLaneLossOfLock_keepsTime (port : Port) (lane : Fin 9) (s : State) :
    KeepsTime s (execLaneLossOfLock port lane s) := by
  simp [execLaneLossOfLock, apply_ite Dev.time]

theorem execLaneErrorCheck_keepsTime (port : Port) (lane : Fin 9) (corrected : Nat) (second : LaneSecond) (s : State) :
    KeepsTime s (execLaneErrorCheck port lane corrected second s) := by
  simp [execLaneErrorCheck, apply_ite Dev.time]

theorem execLaneControlWord_keepsTime (port : Port) (w : CtrlWord) (s : State) :
    KeepsTime s (execLaneControlWord port w s) := by
  simp [execLaneControlWord, apply_ite Dev.time]

theorem execLaneSwitch_keepsTime (port : Port) (s : State) :
    KeepsTime s (execLaneSwitch port s) := by
  unfold execLaneSwitch
  refine keepsTime_onDev fun d => ?_
  repeat' split
  all_goals simp

theorem execTimeWord_keepsTime (port : Port) (w : CtrlWord) (t2 t3 : BitVec 64) (s : State) :
    KeepsTime s (execTimeWord port w t2 t3 s) := by simp [execTimeWord]

theorem execDiscoveryWord_keepsTime (port : Port) (w0 w1 w2 : CtrlWord) (s : State) :
    KeepsTime s (execDiscoveryWord port w0 w1 w2 s) := by
  simp [execDiscoveryWord, apply_ite State.dev, apply_ite Dev.time]

theorem execGenerationBumpDeferred_keepsTime (cl : Cl) (s : State) :
    KeepsTime s (execGenerationBumpDeferred cl s) := by
  unfold execGenerationBumpDeferred
  split <;> simp

end Sys2Proof.Machine
end

section
/-! SUPPORT. The commands of Machine/Library leave the record of time. -/

namespace Sys2Proof.Machine

theorem execUseUpdate_keepsTime (s : State) :
    KeepsTime s (execUseUpdate s) := by
  simp [execUseUpdate, apply_ite Dev.time]

end Sys2Proof.Machine
end

section
/-! SUPPORT. The commands of Machine/Scalar leave the record of time. -/

namespace Sys2Proof.Machine

theorem execSxNop_keepsTime (core : CoreId) (s : State) :
    KeepsTime s (execSxNop core s) := by simp -implicitDefEqProofs [execSxNop]

theorem execSxAdd_keepsTime (core : CoreId) (f : SxFields) (s : State) :
    KeepsTime s (execSxAdd core f s) := by simp [execSxAdd]

theorem execSxSub_keepsTime (core : CoreId) (f : SxFields) (s : State) :
    KeepsTime s (execSxSub core f s) := by simp [execSxSub]

theorem execSxAddi_keepsTime (core : CoreId) (f : SxFields) (s : State) :
    KeepsTime s (execSxAddi core f s) := by simp [execSxAddi]

theorem execSxMul_keepsTime (core : CoreId) (f : SxFields) (s : State) :
    KeepsTime s (execSxMul core f s) := by simp [execSxMul]

theorem execSxAnd_keepsTime (core : CoreId) (f : SxFields) (s : State) :
    KeepsTime s (execSxAnd core f s) := by simp [execSxAnd]

theorem execSxOr_keepsTime (core : CoreId) (f : SxFields) (s : State) :
    KeepsTime s (execSxOr core f s) := by simp [execSxOr]

theorem execSxXor_keepsTime (core : CoreId) (f : SxFields) (s : State) :
    KeepsTime s (execSxXor core f s) := by simp [execSxXor]

theorem execSxShli_keepsTime (core : CoreId) (f : SxFields) (s : State) :
    KeepsTime s (execSxShli core f s) := by simp [execSxShli]

theorem execSxShri_keepsTime (core : CoreId) (f : SxFields) (s : State) :
    KeepsTime s (execSxShri core f s) := by simp [execSxShri]

theorem execSxSari_keepsTime (core : CoreId) (f : SxFields) (s : State) :
    KeepsTime s (execSxSari core f s) := by simp [execSxSari]

theorem execSxMin_keepsTime (core : CoreId) (f : SxFields) (s : State) :
    KeepsTime s (execSxMin core f s) := by simp [execSxMin]

theorem execSxMax_keepsTime (core : CoreId) (f : SxFields) (s : State) :
    KeepsTime s (execSxMax core f s) := by simp [execSxMax]

theorem execSxMovi_keepsTime (core : CoreId) (f : SxFields) (s : State) :
    KeepsTime s (execSxMovi core f s) := by simp [execSxMovi]

theorem execSxMovhi_keepsTime (core : CoreId) (f : SxFields) (s : State) :
    KeepsTime s (execSxMovhi core f s) := by simp [execSxMovhi]

theorem sxCompare_keepsTime (core : CoreId) (f : SxFields) (rhs : CoreSt → DWord) (s : State) : KeepsTime s (sxCompare core f rhs s) := by
  unfold sxCompare
  split
  · exact keepsTime_refused
  · exact keepsTime_ok.mpr (State.slot_time _ _ _ fun _ => State.onCore_time ..)

theorem execSxCmp_keepsTime (core : CoreId) (f : SxFields) (s : State) :
    KeepsTime s (execSxCmp core f s) := sxCompare_keepsTime _ _ _ _

theorem execSxCmpi_keepsTime (core : CoreId) (f : SxFields) (s : State) :
    KeepsTime s (execSxCmpi core f s) := sxCompare_keepsTime _ _ _ _

theorem execSxMovlc_keepsTime (core : CoreId) (f : SxFields) (s : State) :
    KeepsTime s (execSxMovlc core f s) := by
  unfold execSxMovlc
  split <;> simp

theorem execSxLdp_keepsTime (core : CoreId) (f : WithLost SxFields) (s : State) :
    KeepsTime s (execSxLdp core f s) := by simp [execSxLdp]

theorem execSxVget_keepsTime (core : CoreId) (f : SxFields) (s : State) :
    KeepsTime s (execSxVget core f s) := by
  unfold execSxVget
  split <;> simp -implicitDefEqProofs

theorem execSxLoop_keepsTime (core : CoreId) (lc : BitVec 4) (last : BitVec 13) (count : BitVec 16) (s : State) :
    KeepsTime s (execSxLoop core lc last count s) := by
  unfold execSxLoop
  dsimp only
  repeat' split
  all_goals simp -implicitDefEqProofs

theorem execSxResultLand_keepsTime (core : CoreId) (s : State) :
    KeepsTime s (execSxResultLand core s) := by simp [execSxResultLand]

end Sys2Proof.Machine
end

section
/-! SUPPORT. The commands of Machine/Vector leave the record of time. -/

namespace Sys2Proof.Machine

theorem execVxNop_keepsTime (core : CoreId) (s : State) :
    KeepsTime s (execVxNop core s) := by simp [execVxNop]

theorem vxMeaning_keepsTime (core : CoreId) (op : Nat) (f : WithLost VxFields) (s : State) : KeepsTime s (vxMeaning core op f s) := by
  unfold vxMeaning
  split
  · exact keepsTime_ok.mpr (vxOp_time ..)
  · exact keepsTime_refused

theorem execVxAdd_keepsTime (core : CoreId) (f : WithLost VxFields) (s : State) :
    KeepsTime s (execVxAdd core f s) := vxMeaning_keepsTime _ _ _ _

theorem execVxSub_keepsTime (core : CoreId) (f : WithLost VxFields) (s : State) :
    KeepsTime s (execVxSub core f s) := vxMeaning_keepsTime _ _ _ _

theorem execVxMul_keepsTime (core : CoreId) (f : WithLost VxFields) (s : State) :
    KeepsTime s (execVxMul core f s) := vxMeaning_keepsTime _ _ _ _

theorem execVxFma_keepsTime (core : CoreId) (f : WithLost VxFields) (s : State) :
    KeepsTime s (execVxFma core f s) := vxMeaning_keepsTime _ _ _ _

theorem execVxMin_keepsTime (core : CoreId) (f : WithLost VxFields) (s : State) :
    KeepsTime s (execVxMin core f s) := vxMeaning_keepsTime _ _ _ _

theorem execVxMax_keepsTime (core : CoreId) (f : WithLost VxFields) (s : State) :
    KeepsTime s (execVxMax core f s) := vxMeaning_keepsTime _ _ _ _

theorem execVxAbs_keepsTime (core : CoreId) (f : WithLost VxFields) (s : State) :
    KeepsTime s (execVxAbs core f s) := vxMeaning_keepsTime _ _ _ _

theorem execVxDiv_keepsTime (core : CoreId) (f : WithLost VxFields) (s : State) :
    KeepsTime s (execVxDiv core f s) := vxMeaning_keepsTime _ _ _ _

theorem execVxCvt_keepsTime (core : CoreId) (f : WithLost VxFields) (s : State) :
    KeepsTime s (execVxCvt core f s) := vxMeaning_keepsTime _ _ _ _

theorem execVxFunc_keepsTime (core : CoreId) (f : WithLost VxFields) (s : State) :
    KeepsTime s (execVxFunc core f s) := vxMeaning_keepsTime _ _ _ _

theorem execVxCmp_keepsTime (core : CoreId) (f : WithLost VxFields) (s : State) :
    KeepsTime s (execVxCmp core f s) := vxMeaning_keepsTime _ _ _ _

theorem execVxSel_keepsTime (core : CoreId) (f : WithLost VxFields) (s : State) :
    KeepsTime s (execVxSel core f s) := vxMeaning_keepsTime _ _ _ _

theorem execVxSplat_keepsTime (core : CoreId) (f : WithLost VxFields) (s : State) :
    KeepsTime s (execVxSplat core f s) := vxMeaning_keepsTime _ _ _ _

theorem execVxRed_keepsTime (core : CoreId) (f : WithLost VxFields) (s : State) :
    KeepsTime s (execVxRed core f s) := vxMeaning_keepsTime _ _ _ _

theorem execVxBscale_keepsTime (core : CoreId) (f : WithLost VxFields) (s : State) :
    KeepsTime s (execVxBscale core f s) := vxMeaning_keepsTime _ _ _ _

theorem execVxDrain_keepsTime (core : CoreId) (f : WithLost VxFields) (s : State) :
    KeepsTime s (execVxDrain core f s) := vxMeaning_keepsTime _ _ _ _

theorem execVxStart_keepsTime (core : WithLost CoreId) (s : State) :
    KeepsTime s (execVxStart core s) := by
  unfold execVxStart
  dsimp only
  repeat' split
  all_goals simp

theorem execVxWriteLand_keepsTime (core : CoreId) (s : State) :
    KeepsTime s (execVxWriteLand core s) := by
  unfold execVxWriteLand
  split <;> simp

end Sys2Proof.Machine
end

section
/-! SUPPORT. The commands of Machine/Clusters leave the record of time. -/

namespace Sys2Proof.Machine

theorem execScrubComplete_keepsTime (slice : SliceId) (failing : List (BitVec 32)) (s : State) :
    KeepsTime s (execScrubComplete slice failing s) := by
  unfold execScrubComplete
  dsimp only
  repeat' split
  all_goals simp

end Sys2Proof.Machine
end

section
/-! SUPPORT. The commands of Machine/Streams leave the record of time. -/

namespace Sys2Proof.Machine

theorem execShardDecision_keepsTime (slice : SliceId) (stream : BitVec 16) (s : State) :
    KeepsTime s (execShardDecision slice stream s) := by
  refine keepsTime_onDev fun d => ?_
  split
  · refine Dev.ite_time rfl (Dev.foldl_time (fun d p => ?_) _ _)
    split
    · exact Dev.ite_time (Dev.decideNow_time ..) rfl
    · rfl
  · rfl

theorem execShardHoldCap_keepsTime (slice : SliceId) (s : State) :
    KeepsTime s (execShardHoldCap slice s) := by
  refine keepsTime_onDev fun d => ?_
  split
  · extract_lets late
    refine Dev.ite_time rfl ((Dev.shardClear_time ..).trans (Dev.foldl_time (fun d p => ?_) _ _))
    split
    · exact Dev.decideZero_time ..
    · rfl
  · rfl

theorem execShardWrite_keepsTime (slice : SliceId) (stream : BitVec 16) (s : State) :
    KeepsTime s (execShardWrite slice stream s) := by
  unfold execShardWrite
  simp only [keepsTime_ok]
  repeat' split
  all_goals simp

theorem execZeroSlotPublish_keepsTime (slice : SliceId) (stream : BitVec 16) (s : State) :
    KeepsTime s (execZeroSlotPublish slice stream s) := by
  unfold execZeroSlotPublish
  simp only [keepsTime_ok]
  repeat' split
  all_goals simp

theorem execPushSlotRead_keepsTime (slice : SliceId) (stream : BitVec 16) (s : State) :
    KeepsTime s (execPushSlotRead slice stream s) := by
  unfold execPushSlotRead
  simp only [keepsTime_ok]
  repeat' split
  all_goals simp

end Sys2Proof.Machine
end

section
/-! SUPPORT. The commands of Machine/Gates leave the record of time. -/

namespace Sys2Proof.Machine

theorem execGateDue_keepsTime (slice : SliceId) (s : State) :
    KeepsTime s (execGateDue slice s) := by simp [execGateDue]

theorem execBarrierComplete_keepsTime (slice : SliceId) (s : State) :
    KeepsTime s (execBarrierComplete slice s) := by
  unfold execBarrierComplete
  simp only [keepsTime_ok]
  repeat' split
  all_goals simp

end Sys2Proof.Machine
end

section
/-! SUPPORT. The commands of Machine/Vault leave the record of time. -/

namespace Sys2Proof.Machine

theorem execPcCorrectionCheck_keepsTime (stack : Fin 12) (pc : Fin 62) (corrected : Nat) (unreadable : List BadBlock) (s : State) :
    KeepsTime s (execPcCorrectionCheck stack pc corrected unreadable s) := by
  simp [execPcCorrectionCheck, apply_ite Dev.time]

theorem execMoverLoad_keepsTime (slice : SliceId) (mover : Fin 24) (n : Nat) (read : MoverRead) (s : State) :
    KeepsTime s (execMoverLoad slice mover n read s) := by simp [execMoverLoad]

theorem execMoverChain_keepsTime (slice : SliceId) (mover : Fin 24) (n : Nat) (read : MoverRead) (s : State) :
    KeepsTime s (execMoverChain slice mover n read s) := by simp [execMoverChain]

theorem execChainForward_keepsTime (slice : SliceId) (hop : Fin 16) (p : Packet) (s : State) :
    KeepsTime s (execChainForward slice hop p s) := by
  unfold execChainForward
  refine keepsTime_onDev fun d => ?_
  repeat' split
  all_goals simp

theorem execPacketAcknowledgement_keepsTime (f : Flit) (s : State) :
    KeepsTime s (execPacketAcknowledgement f s) := by
  simp [execPacketAcknowledgement, apply_ite State.dev, apply_ite Dev.time]

theorem execLoadBegin_keepsTime (slice : SliceId) (s : State) :
    KeepsTime s (execLoadBegin slice s) := by simp [execLoadBegin]

theorem execLoadReady_keepsTime (slice : SliceId) (news : LoadNews) (s : State) :
    KeepsTime s (execLoadReady slice news s) := by
  unfold execLoadReady
  split <;> simp

end Sys2Proof.Machine
end

section
/-! SUPPORT. The commands of Machine/Start leave the record of time. -/

namespace Sys2Proof.Machine

theorem execKillEffective_keepsTime (slice : SliceId) (s : State) :
    KeepsTime s (execKillEffective slice s) := by
  unfold execKillEffective
  refine keepsTime_onDev fun d => ?_
  repeat' split
  all_goals simp

theorem execStartExchangeTimeout_keepsTime (slice : SliceId) (s : State) :
    KeepsTime s (execStartExchangeTimeout slice s) := by
  unfold execStartExchangeTimeout
  refine keepsTime_onDev fun d => ?_
  dsimp only
  repeat' split
  all_goals simp

theorem execStopAtFrameBoundary_keepsTime (slice : SliceId) (s : State) :
    KeepsTime s (execStopAtFrameBoundary slice s) := by
  unfold execStopAtFrameBoundary
  refine keepsTime_onDev fun d => ?_
  repeat' split
  all_goals simp

theorem execSliceLaunch_keepsTime (slice : SliceId) (s : State) :
    KeepsTime s (execSliceLaunch slice s) := by
  unfold execSliceLaunch
  dsimp only
  repeat' split
  all_goals simp -implicitDefEqProofs

theorem execNotReadyCheck_keepsTime (slice : SliceId) (s : State) :
    KeepsTime s (execNotReadyCheck slice s) := by
  unfold execNotReadyCheck
  refine keepsTime_onDev fun d => ?_
  repeat' split
  all_goals simp

end Sys2Proof.Machine
end

section
/-! SUPPORT. The commands of Machine/Epoch leave the record of time. -/

namespace Sys2Proof.Machine

theorem execReferenceInvalid_keepsTime (r : RefInput) (s : State) :
    KeepsTime s (execReferenceInvalid r s) := by
  unfold execReferenceInvalid
  split <;> simp

theorem execReferenceReturnTimer_keepsTime (s : State) :
    KeepsTime s (execReferenceReturnTimer s) := by
  simp [execReferenceReturnTimer, apply_ite Dev.time]

theorem execEcBroadcast_keepsTime (faultA faultB : Bool) (s : State) :
    KeepsTime s (execEcBroadcast faultA faultB s) := by
  simp [execEcBroadcast, apply_ite Dev.time]

theorem execSyncTimeout_keepsTime (s : State) :
    KeepsTime s (execSyncTimeout s) := by
  unfold execSyncTimeout
  split <;> simp

theorem execPpsOutRise_keepsTime (s : State) :
    KeepsTime s (execPpsOutRise s) := by
  simp [execPpsOutRise, apply_ite Dev.time]

theorem execPpsOutFall_keepsTime (s : State) :
    KeepsTime s (execPpsOutFall s) := by
  simp [execPpsOutFall, apply_ite Dev.time]

end Sys2Proof.Machine
end

section
/-! SUPPORT. The commands of Machine/Sessions leave the record of time. -/

namespace Sys2Proof.Machine

theorem execSessionOpen_keepsTime (hp : HostPort) (o : OpenReq) (s : State) :
    KeepsTime s (execSessionOpen hp o s) := by
  unfold execSessionOpen
  split <;> simp

theorem execRetransmitTimeout_keepsTime (session : Word) (s : State) :
    KeepsTime s (execRetransmitTimeout session s) := by
  unfold execRetransmitTimeout
  refine keepsTime_onDev fun d => ?_
  repeat' split
  all_goals simp

theorem execAckTimer_keepsTime (session : Word) (s : State) :
    KeepsTime s (execAckTimer session s) := by
  unfold execAckTimer
  refine keepsTime_onDev fun d => ?_
  repeat' split
  all_goals simp

theorem execSessionIdleTimeout_keepsTime (session : Word) (s : State) :
    KeepsTime s (execSessionIdleTimeout session s) := by
  unfold execSessionIdleTimeout
  refine keepsTime_onDev fun d => ?_
  repeat' split
  all_goals simp

theorem execOpeningTimeout_keepsTime (session : Word) (s : State) :
    KeepsTime s (execOpeningTimeout session s) := by
  unfold execOpeningTimeout
  refine keepsTime_onDev fun d => ?_
  repeat' split
  all_goals simp

theorem execEventsLost_keepsTime (session : Word) (s : State) :
    KeepsTime s (execEventsLost session s) := by
  unfold execEventsLost
  refine keepsTime_onDev fun d => ?_
  repeat' split
  all_goals simp

theorem execReplayFeed_keepsTime (slice : SliceId) (s : State) :
    KeepsTime s (execReplayFeed slice s) := by simp [execReplayFeed]

end Sys2Proof.Machine
end

section
/-! SUPPORT. The commands of Machine/Teller leave the record of time. -/

namespace Sys2Proof.Machine

theorem execNonTellerPacket_keepsTime (hp : HostPort) (s : State) :
    KeepsTime s (execNonTellerPacket hp s) := by simp [execNonTellerPacket]

theorem execEchoRequest_keepsTime (hp : HostPort) (s : State) :
    KeepsTime s (execEchoRequest hp s) := by
  simp [execEchoRequest, apply_ite Dev.time]

theorem execQuarantineExpiry_keepsTime (hp : HostPort) (s : State) :
    KeepsTime s (execQuarantineExpiry hp s) := by
  simp [execQuarantineExpiry, apply_ite Dev.time]

theorem execMediaTimeout_keepsTime (hp : HostPort) (s : State) :
    KeepsTime s (execMediaTimeout hp s) := by
  simp [execMediaTimeout, apply_ite Dev.time]

theorem execHostLinkDown_keepsTime (hp : HostPort) (s : State) :
    KeepsTime s (execHostLinkDown hp s) := by
  simp [execHostLinkDown, apply_ite Dev.time]

theorem execDhcpNdpArpMessage_keepsTime (hp : HostPort) (m : AddrMsg) (s : State) :
    KeepsTime s (execDhcpNdpArpMessage hp m s) := by simp [execDhcpNdpArpMessage]

theorem execPriorityFlowControlFrame_keepsTime (hp : HostPort) (priorities : BitVec 8) (quanta : BitVec 16) (s : State) :
    KeepsTime s (execPriorityFlowControlFrame hp priorities quanta s) := by
  simp [execPriorityFlowControlFrame, apply_ite Dev.time]

end Sys2Proof.Machine
end

section
/-! SUPPORT. The commands of Machine/Power leave the record of time. -/

namespace Sys2Proof.Machine

theorem execVcoreSettled_keepsTime (s : State) :
    KeepsTime s (execVcoreSettled s) := by
  simp [execVcoreSettled, apply_ite Dev.time]

theorem execStepEcReached_keepsTime (s : State) :
    KeepsTime s (execStepEcReached s) := by
  unfold execStepEcReached
  refine keepsTime_onDev fun d => ?_
  repeat' split
  all_goals simp

theorem execSelfRefreshExit_keepsTime (s : State) :
    KeepsTime s (execSelfRefreshExit s) := by
  unfold execSelfRefreshExit
  refine keepsTime_onDev fun d => ?_
  dsimp only
  split <;> simp

theorem execPowerSample_keepsTime (wattsA wattsB millivoltsA millivoltsB : BitVec 16) (s : State) :
    KeepsTime s (execPowerSample wattsA wattsB millivoltsA millivoltsB s) := by
  simp [execPowerSample, apply_ite Dev.time]

theorem execThermalSample_keepsTime (junction stackTemps : List (BitVec 8)) (s : State) :
    KeepsTime s (execThermalSample junction stackTemps s) := by
  simp [execThermalSample, apply_ite Dev.time]

theorem execThermalTrip_keepsTime (_region : Fin 24) (s : State) :
    KeepsTime s (execThermalTrip _region s) := by
  simp [execThermalTrip, apply_ite Dev.time]

theorem execBladeLoss_keepsTime (bl : Blade) (s : State) :
    KeepsTime s (execBladeLoss bl s) := by
  simp [execBladeLoss, apply_ite Dev.time]

theorem execBladeOvervoltage_keepsTime (bl : Blade) (s : State) :
    KeepsTime s (execBladeOvervoltage bl s) := by
  unfold execBladeOvervoltage
  split <;> simp

theorem execBladeReconnect_keepsTime (bl : Blade) (s : State) :
    KeepsTime s (execBladeReconnect bl s) := by
  unfold execBladeReconnect
  refine keepsTime_onDev fun d => ?_
  dsimp only
  repeat' split
  all_goals simp

theorem execPhaseFault_keepsTime (rail : Rail) (s : State) :
    KeepsTime s (execPhaseFault rail s) := by
  simp [execPhaseFault, apply_ite Dev.time]

theorem execGeneratorUnlock_keepsTime (g : Generator) (s : State) :
    KeepsTime s (execGeneratorUnlock g s) := by
  simp [execGeneratorUnlock, apply_ite Dev.time]

theorem execGeneratorRelock_keepsTime (g : Generator) (s : State) :
    KeepsTime s (execGeneratorRelock g s) := by
  simp [execGeneratorRelock, apply_ite Dev.time]

end Sys2Proof.Machine
end

section
/-! SUPPORT. The commands of Machine/Health leave the record of time. -/

namespace Sys2Proof.Machine

theorem execRouterFail_keepsTime (cl : Cl) (s : State) :
    KeepsTime s (execRouterFail cl s) := by simp [execRouterFail]

theorem execAgeingCheck_keepsTime (cl : Cl) (sites : List (BitVec 16)) (router : BitVec 16) (s : State) :
    KeepsTime s (execAgeingCheck cl sites router s) := by simp [execAgeingCheck]

theorem execSpareTest_keepsTime (cl : Cl) (siteFails : Bool) (failingRows : List (BitVec 32)) (s : State) :
    KeepsTime s (execSpareTest cl siteFails failingRows s) := by
  simp -implicitDefEqProofs [execSpareTest, apply_ite Dev.time]

theorem execRepairWindow_keepsTime (s : State) :
    KeepsTime s (execRepairWindow s) := by
  unfold execRepairWindow
  refine keepsTime_onDev fun d => ?_
  repeat' split
  all_goals simp

theorem execRepairStopConfirmed_keepsTime (stop : RepairStop) (s : State) :
    KeepsTime s (execRepairStopConfirmed stop s) := by
  unfold execRepairStopConfirmed
  refine keepsTime_onDev fun d => ?_
  repeat' split
  all_goals simp

theorem execRowCopyComplete_keepsTime (slice : SliceId) (s : State) :
    KeepsTime s (execRowCopyComplete slice s) := by
  unfold execRowCopyComplete
  refine keepsTime_onDev fun d => ?_
  dsimp only
  repeat' split
  all_goals simp

theorem execSpareMarginTestDone_keepsTime (slice : SliceId) (passes : Bool) (s : State) :
    KeepsTime s (execSpareMarginTestDone slice passes s) := by
  unfold execSpareMarginTestDone
  refine keepsTime_onDev fun d => ?_
  repeat' split
  all_goals simp

theorem execRelaunchEcReceived_keepsTime (slice : SliceId) (relaunch : RelaunchEc) (s : State) :
    KeepsTime s (execRelaunchEcReceived slice relaunch s) := by
  unfold execRelaunchEcReceived
  refine keepsTime_onDev fun d => ?_
  dsimp only
  repeat' split
  all_goals simp

theorem execRowRewriteComplete_keepsTime (core : CoreId) (row : RewrittenRow) (s : State) :
    KeepsTime s (execRowRewriteComplete core row s) := by
  unfold execRowRewriteComplete
  dsimp only
  repeat' split
  all_goals simp

end Sys2Proof.Machine
end

section
/-! SUPPORT. The commands of Machine/Security leave the record of time. -/

namespace Sys2Proof.Machine

theorem execStageErase_keepsTime (s : State) :
    KeepsTime s (execStageErase s) := by
  unfold execStageErase
  refine keepsTime_onDev fun d => ?_
  repeat' split
  all_goals simp

theorem execStageVerify_keepsTime (keys : StageKeys) (s : State) :
    KeepsTime s (execStageVerify keys s) := by
  unfold execStageVerify
  refine keepsTime_onDev fun d => ?_
  repeat' split
  all_goals simp

theorem execStageActivate_keepsTime (s : State) :
    KeepsTime s (execStageActivate s) := by
  unfold execStageActivate
  refine keepsTime_onDev fun d => ?_
  repeat' split
  all_goals simp

theorem execHandoverReadyCheck_keepsTime (ready : Bool) (s : State) :
    KeepsTime s (execHandoverReadyCheck ready s) := by
  unfold execHandoverReadyCheck
  refine keepsTime_onDev fun d => ?_
  repeat' split
  all_goals simp

theorem execHandoverEc_keepsTime (s : State) :
    KeepsTime s (execHandoverEc s) := by
  unfold execHandoverEc
  refine keepsTime_onDev fun d => ?_
  repeat' split
  all_goals simp

theorem execHandoverRevert_keepsTime (s : State) :
    KeepsTime s (execHandoverRevert s) := by
  unfold execHandoverRevert
  refine keepsTime_onDev fun d => ?_
  repeat' split
  all_goals simp

theorem execHandoverConfirm_keepsTime (s : State) :
    KeepsTime s (execHandoverConfirm s) := by
  unfold execHandoverConfirm
  refine keepsTime_onDev fun d => ?_
  repeat' split
  all_goals simp

theorem execMcTakeoverComplete_keepsTime (s : State) :
    KeepsTime s (execMcTakeoverComplete s) := by
  simp [execMcTakeoverComplete, apply_ite Dev.time]

theorem execDebugExpiry_keepsTime (s : State) :
    KeepsTime s (execDebugExpiry s) := by
  simp [execDebugExpiry, apply_ite Dev.time]

theorem execAttestationReady_keepsTime (s : State) :
    KeepsTime s (execAttestationReady s) := by
  unfold execAttestationReady
  refine keepsTime_onDev fun d => ?_
  dsimp only
  split <;> simp

end Sys2Proof.Machine
end

section
/-! SUPPORT. The commands of Machine/Boot leave the record of time. -/

namespace Sys2Proof.Machine

theorem execWarmReset_keepsTime (s : State) :
    KeepsTime s (execWarmReset s) := by
  simp [execWarmReset, apply_ite Dev.time]

theorem execCtrlWarmReset_keepsTime (s : State) :
    KeepsTime s (execCtrlWarmReset s) := by
  simp [execCtrlWarmReset, apply_ite Dev.time]

theorem execWarmResetEnd_keepsTime (s : State) :
    KeepsTime s (execWarmResetEnd s) := by
  unfold execWarmResetEnd
  refine keepsTime_onDev fun d => ?_
  repeat' split
  all_goals simp

theorem execTimeLockTimeout_keepsTime (s : State) :
    KeepsTime s (execTimeLockTimeout s) := by
  simp [execTimeLockTimeout, apply_ite Dev.time]

theorem execStandbyPowerValid_keepsTime (s : State) :
    KeepsTime s (execStandbyPowerValid s) := by
  simp [execStandbyPowerValid, apply_ite Dev.time]

theorem execBoardSlotSample_keepsTime (slot : BitVec 3) (s : State) :
    KeepsTime s (execBoardSlotSample slot s) := by
  simp [execBoardSlotSample, apply_ite Dev.time]

theorem execConverterStart_keepsTime (s : State) :
    KeepsTime s (execConverterStart s) := by
  simp [execConverterStart, apply_ite Dev.time]

theorem execRailsSettled_keepsTime (s : State) :
    KeepsTime s (execRailsSettled s) := by
  simp [execRailsSettled, apply_ite Dev.time]

theorem execStandbyUndervoltage_keepsTime (s : State) :
    KeepsTime s (execStandbyUndervoltage s) := by simp [execStandbyUndervoltage]

theorem execPowerDown_keepsTime (s : State) :
    KeepsTime s (execPowerDown s) := by
  simp -implicitDefEqProofs [execPowerDown, apply_ite Dev.time]

theorem execVnvm1v8CurrentLimit_keepsTime (s : State) :
    KeepsTime s (execVnvm1v8CurrentLimit s) := by
  simp [execVnvm1v8CurrentLimit, apply_ite Dev.time]

end Sys2Proof.Machine
end

section
/-! SUPPORT. The commands of Machine/Inbox leave the record of time. -/

namespace Sys2Proof.Machine

theorem execFolioPutBegin_keepsTime (h : MsgHdr) (b : PutBegin) (s : State) :
    KeepsTime s (execFolioPutBegin h b s) := by simp [execFolioPutBegin]

theorem execFolioPutPipe_keepsTime (h : MsgHdr) (key : BitVec 64) (first : BitVec 8) (recs : List PipeRec) (s : State) :
    KeepsTime s (execFolioPutPipe h key first recs s) := by simp [execFolioPutPipe]

theorem execFolioPutData_keepsTime (h : MsgHdr) (key offset : BitVec 64) (crc : BitVec 32) (data : List Byte) (s : State) :
    KeepsTime s (execFolioPutData h key offset crc data s) := by
  unfold execFolioPutData
  split <;> simp

theorem execFolioCommit_keepsTime (h : MsgHdr) (key : BitVec 64) (codes : PipeCodes) (read : CommitRead) (s : State) :
    KeepsTime s (execFolioCommit h key codes read s) := by simp [execFolioCommit]

theorem execLibraryDelete_keepsTime (h : MsgHdr) (key : BitVec 64) (s : State) :
    KeepsTime s (execLibraryDelete h key s) := by simp [execLibraryDelete]

theorem execLibraryPin_keepsTime (h : MsgHdr) (key : BitVec 64) (s : State) :
    KeepsTime s (execLibraryPin h key s) := by simp [execLibraryPin]

theorem execLibraryUnpin_keepsTime (h : MsgHdr) (key : BitVec 64) (s : State) :
    KeepsTime s (execLibraryUnpin h key s) := by simp [execLibraryUnpin]

theorem execLibraryList_keepsTime (h : MsgHdr) (first : BitVec 64) (s : State) :
    KeepsTime s (execLibraryList h first s) := by simp [execLibraryList]

theorem execSessionClose_keepsTime (h : MsgHdr) (s : State) :
    KeepsTime s (execSessionClose h s) := by simp [execSessionClose]

theorem execSliceStart_keepsTime (h : MsgHdr) (b : StartReq) (s : State) :
    KeepsTime s (execSliceStart h b s) := by simp [execSliceStart]

theorem execSliceStop_keepsTime (h : MsgHdr) (slice : SliceId) (s : State) :
    KeepsTime s (execSliceStop h slice s) := by simp [execSliceStop]

theorem execSliceKill_keepsTime (h : MsgHdr) (slice : SliceId) (s : State) :
    KeepsTime s (execSliceKill h slice s) := by simp [execSliceKill]

theorem execStreamOpen_keepsTime (h : MsgHdr) (slice : SliceId) (index : BitVec 16) (dir : BitVec 8) (shardBytes lead : BitVec 32)
    (s : State) :
    KeepsTime s (execStreamOpen h slice index dir shardBytes lead s) := by simp [execStreamOpen]

theorem execStreamClose_keepsTime (h : MsgHdr) (stream : BitVec 16) (s : State) :
    KeepsTime s (execStreamClose h stream s) := by simp [execStreamClose]

theorem execMgmtRead_keepsTime (h : MsgHdr) (block : BitVec 8) (count : BitVec 16) (offset : BitVec 32) (s : State) :
    KeepsTime s (execMgmtRead h block count offset s) := by simp [execMgmtRead]

theorem execMgmtWrite_keepsTime (h : MsgHdr) (block : BitVec 8) (offset : BitVec 32) (vals : List Word) (s : State) :
    KeepsTime s (execMgmtWrite h block offset vals s) := by simp [execMgmtWrite]

theorem execMgmtCommit_keepsTime (h : MsgHdr) (block : BitVec 8) (target : BitVec 64) (s : State) :
    KeepsTime s (execMgmtCommit h block target s) := by simp [execMgmtCommit]

theorem execRecordStart_keepsTime (h : MsgHdr) (recId : BitVec 8) (slice : SliceId) (s : State) :
    KeepsTime s (execRecordStart h recId slice s) := by simp [execRecordStart]

theorem execRecordStop_keepsTime (h : MsgHdr) (recId : BitVec 8) (s : State) :
    KeepsTime s (execRecordStop h recId s) := by simp [execRecordStop]

theorem execArm_keepsTime (h : MsgHdr) (recId : BitVec 8) (slice : SliceId) (s : State) :
    KeepsTime s (execArm h recId slice s) := by simp [execArm]

theorem execDisarm_keepsTime (h : MsgHdr) (recId : BitVec 8) (slice : SliceId) (s : State) :
    KeepsTime s (execDisarm h recId slice s) := by simp [execDisarm]

theorem execRecordingDelete_keepsTime (h : MsgHdr) (recId : BitVec 8) (s : State) :
    KeepsTime s (execRecordingDelete h recId s) := by simp [execRecordingDelete]

theorem execRecordingList_keepsTime (h : MsgHdr) (s : State) :
    KeepsTime s (execRecordingList h s) := by simp [execRecordingList]

theorem execRepairReq_keepsTime (h : MsgHdr) (v : RepairOrder) (s : State) :
    KeepsTime s (execRepairReq h v s) := by simp [execRepairReq]

theorem execStageWinWrite_keepsTime (h : MsgHdr) (offset : BitVec 32) (vals : List Word) (s : State) :
    KeepsTime s (execStageWinWrite h offset vals s) := by
  simp [execStageWinWrite, apply_ite State.dev, apply_ite Dev.time]

theorem execAttNonceWrite_keepsTime (h : MsgHdr) (first : Fin 12) (vals : List Word) (s : State) :
    KeepsTime s (execAttNonceWrite h first vals s) := by
  unfold execAttNonceWrite
  split <;> simp

theorem execDebugResponse_keepsTime (via : DebugVia) (scope : BitVec 8) (reserved : BitVec 56) (expiry : BitVec 64) (sig : DebugSig)
    (s : State) :
    KeepsTime s (execDebugResponse via scope reserved expiry sig s) := by
  unfold execDebugResponse
  split <;> simp

theorem Dev.ingress_time {d e : Dev} {x : Session} {h : MsgHdr} {b : IngressMsg} (hi : d.ingress x h b = some e) : e.time = d.time := by
  unfold Dev.ingress at hi
  split at hi
  · exact Option.some.inj hi ▸ Dev.violation_time ..
  · split at hi
    · exact Option.some.inj hi ▸ Dev.violation_time ..
    · extract_lets d1 at hi
      have h1 : d1.time = d.time := Dev.recordIngress_time ..
      clear_value d1
      split at hi
      · exact Option.some.inj hi ▸ ((Dev.sendError_time ..).trans ((Dev.bump_time ..).trans h1))
      · split at hi
        · exact Option.some.inj hi ▸ h1
        · exact (Dev.stage_time (fun _ _ => Dev.sendError_time ..) hi).trans h1

theorem execIngressData_keepsTime (h : MsgHdr) (b : IngressMsg) (s : State) :
    KeepsTime s (execIngressData h b s) := by
  refine keepsTime_ok.mpr ((State.turns_time ..).trans (State.onDev_time fun d => ?_))
  have ha := Dev.arrive_time d h true
  generalize d.arrive h true = o at ha ⊢
  obtain ⟨x | x, e⟩ := o
  · exact ha
  · dsimp -zeta only
    extract_lets code
    refine Dev.ite_time ((Dev.violation_time ..).trans ha) ?_
    split
    · rename_i hi
      exact (Dev.ingress_time hi).trans ha
    · exact Dev.recordIngress_time ..
    · rfl

theorem execTellerAck_keepsTime (h : MsgHdr) (cum : BitVec 64) (bitmap : BitVec 256) (s : State) :
    KeepsTime s (execTellerAck h cum bitmap s) := by simp [execTellerAck]

theorem execProtocolViolation_keepsTime (h : MsgHdr) (k : Violation) (s : State) :
    KeepsTime s (execProtocolViolation h k s) := by
  unfold execProtocolViolation
  dsimp only
  repeat' split
  all_goals simp

theorem execHandoverResume_keepsTime (s : State) :
    KeepsTime s (execHandoverResume s) := by simp [execHandoverResume]

theorem execMcCoreFault_keepsTime (mc : Fin 3) (s : State) :
    KeepsTime s (execMcCoreFault mc s) := by simp [execMcCoreFault]

end Sys2Proof.Machine
end

section
/-! SUPPORT. The commands of Machine/Jtag leave the record of time. -/

namespace Sys2Proof.Machine

theorem execJtagExtest_keepsTime (s : State) :
    KeepsTime s (execJtagExtest s) := by simp [execJtagExtest]

theorem execJtagSamplePreload_keepsTime (s : State) :
    KeepsTime s (execJtagSamplePreload s) := by simp [execJtagSamplePreload]

theorem execJtagIdcode_keepsTime (s : State) :
    KeepsTime s (execJtagIdcode s) := by simp [execJtagIdcode]

theorem execJtagDbgChal_keepsTime (s : State) :
    KeepsTime s (execJtagDbgChal s) := by simp [execJtagDbgChal]

theorem execJtagBypass_keepsTime (s : State) :
    KeepsTime s (execJtagBypass s) := by simp [execJtagBypass]

theorem execTapReset_keepsTime (s : State) :
    KeepsTime s (execTapReset s) := by simp [execTapReset]

theorem execJtagMgmtAcc_keepsTime (dr : BitVec 96) (s : State) :
    KeepsTime s (execJtagMgmtAcc dr s) := by
  simp [execJtagMgmtAcc, apply_ite State.dev, apply_ite Dev.time]

theorem execRowWindowWrite_keepsTime (v : Word) (s : State) :
    KeepsTime s (execRowWindowWrite v s) := by simp [execRowWindowWrite]

end Sys2Proof.Machine
end

section
/-! SUPPORT. The commands of Machine/Pmbus leave the record of time. -/

namespace Sys2Proof.Machine

theorem execPmStatusWord_keepsTime (s : State) :
    KeepsTime s (execPmStatusWord s) := by simp [execPmStatusWord]

theorem execPmStatusInput_keepsTime (s : State) :
    KeepsTime s (execPmStatusInput s) := by simp [execPmStatusInput]

theorem execPmStatusTemperature_keepsTime (s : State) :
    KeepsTime s (execPmStatusTemperature s) := by simp [execPmStatusTemperature]

theorem execPmClearFaults_keepsTime (s : State) :
    KeepsTime s (execPmClearFaults s) := by simp [execPmClearFaults]

theorem execPmPage_keepsTime (a : PmAccess) (s : State) :
    KeepsTime s (execPmPage a s) := by
  unfold execPmPage
  refine keepsTime_onDev fun d => ?_
  repeat' split
  all_goals simp

theorem execPmInvalidMessage_keepsTime (s : State) :
    KeepsTime s (execPmInvalidMessage s) := by
  simp [execPmInvalidMessage, apply_ite Dev.time]

theorem execPmReadVin_keepsTime (s : State) :
    KeepsTime s (execPmReadVin s) := by simp [execPmReadVin]

theorem execPmReadIin_keepsTime (s : State) :
    KeepsTime s (execPmReadIin s) := by
  simp [execPmReadIin, apply_ite Dev.time]

theorem execPmReadTemperature1_keepsTime (s : State) :
    KeepsTime s (execPmReadTemperature1 s) := by simp [execPmReadTemperature1]

theorem execPmReadTemperature2_keepsTime (s : State) :
    KeepsTime s (execPmReadTemperature2 s) := by simp [execPmReadTemperature2]

theorem execPmReadPin_keepsTime (s : State) :
    KeepsTime s (execPmReadPin s) := by simp [execPmReadPin]

theorem execPmRevision_keepsTime (s : State) :
    KeepsTime s (execPmRevision s) := by simp [execPmRevision]

theorem execPmMfrId_keepsTime (s : State) :
    KeepsTime s (execPmMfrId s) := by simp [execPmMfrId]

theorem execPmMfrModel_keepsTime (s : State) :
    KeepsTime s (execPmMfrModel s) := by simp [execPmMfrModel]

theorem execPmMfrRevision_keepsTime (s : State) :
    KeepsTime s (execPmMfrRevision s) := by simp [execPmMfrRevision]

theorem execPmMfrSerial_keepsTime (s : State) :
    KeepsTime s (execPmMfrSerial s) := by simp [execPmMfrSerial]

end Sys2Proof.Machine
end

section
/-! SUPPORT. Commands that change the record of time and leave EC. -/

namespace Sys2Proof.Machine

/-- Whatever the outcome, EC stands as before. -/
def KeepsEc (s : State) (r : Res) : Prop := ∀ t, r = .next t → t.dev.time.ec = s.dev.time.ec

theorem keepsEc_ok {s t : State} (h : t.dev.time.ec = s.dev.time.ec) : KeepsEc s (ok t) := fun _ e => Host.Outcome.next.inj e ▸ h

theorem keepsEc_onDev {s : State} {f : Dev → Dev} (h : (f s.dev).time.ec = s.dev.time.ec) : KeepsEc s (ok (s.onDev f)) := keepsEc_ok h

theorem Dev.ite_ec {c : Prop} [Decidable c] {a b : Dev} {e : BitVec 64} (ha : a.time.ec = e) (hb : b.time.ec = e) :
    (if c then a else b).time.ec = e := by split <;> assumption

theorem Dev.ec_of_time {d e : Dev} (h : d.time = e.time) : d.time.ec = e.time.ec := congrArg TimeSt.ec h

/-- The time's record, replaced by one with the same EC. -/
theorem Dev.withTime_ec (d : Dev) {t : TimeSt} (h : t.ec = d.time.ec) : ({ d with time := t } : Dev).time.ec = d.time.ec := h

theorem Dev.put_ec (d : Dev) (f : Fld) (v : Nat) : (d.put f v).time.ec = d.time.ec := rfl

theorem execReferenceValid_keepsEc (r : RefInput) (s : State) : KeepsEc s (execReferenceValid r s) := by
  unfold execReferenceValid
  split
  · refine keepsEc_onDev ((Dev.ec_of_time (Dev.refEval_time ..)).trans ?_)
    cases r <;> rfl
  · exact keepsEc_ok rfl

theorem Dev.delayReq_ec (d : Dev) (x : PtpRun) : (d.delayReq x).time.ec = d.time.ec := Dev.ite_ec rfl rfl

theorem Dev.ptpStep_ec (d : Dev) (m : PtpMsg) : (d.ptpStep m).time.ec = d.time.ec := by
  cases m with
  | sync q two t1 t2 => exact Dev.delayReq_ec ..
  | followUp q t1 => exact Dev.ite_ec (Dev.delayReq_ec ..) rfl
  | delayResp q t3 t4 =>
    unfold Dev.ptpStep
    dsimp only
    split
    · exact Dev.ite_ec rfl rfl
    · rfl

theorem execPtpMessage_keepsEc (hp : HostPort) (domain : BitVec 8) (m : PtpRx) (s : State) : KeepsEc s (execPtpMessage hp domain m s) :=
  keepsEc_onDev (Dev.ite_ec (Dev.ptpStep_ec ..) rfl)

theorem execPpsInEdge_keepsEc (s : State) : KeepsEc s (execPpsInEdge s) := keepsEc_onDev (Dev.ite_ec rfl rfl)

theorem execPpsMissing_keepsEc (s : State) : KeepsEc s (execPpsMissing s) := keepsEc_onDev (Dev.ite_ec rfl rfl)

theorem Dev.linkUp_ec (d : Dev) (hp rate : Nat) : (d.linkUp hp rate).time.ec = d.time.ec :=
  Dev.ite_ec (Dev.ite_ec rfl rfl) rfl

theorem execHostLinkUp_keepsEc (hp : HostPort) (rate : BitVec 3) (s : State) : KeepsEc s (execHostLinkUp hp rate s) :=
  keepsEc_onDev (Dev.ite_ec (Dev.linkUp_ec ..) rfl)

theorem Dev.failover_ec (d : Dev) (hp : Nat) : (d.failover hp).time.ec = d.time.ec :=
  (Dev.ec_of_time (Dev.event_time ..)).trans (Dev.ite_ec rfl rfl)

theorem execFailover_keepsEc (hp : HostPort) (s : State) : KeepsEc s (execFailover hp s) :=
  keepsEc_onDev (Dev.ite_ec (Dev.failover_ec ..) rfl)

end Sys2Proof.Machine
end

section
/-! SUPPORT. Measurements: EC stands unless the first step is due (01 R27, R28). -/

namespace Sys2Proof.Machine

theorem Dev.noteOffset_ec (d : Dev) (off : Int) : (d.noteOffset off).time.ec = d.time.ec := rfl

theorem Dev.steer_ec {d : Dev} (off : Int) (h : d.time.stepDone = true ∨ d.anyLaunched = true) : (d.steer off).time.ec = d.time.ec := by
  rw [Dev.steer_time]
  rcases h with h | h
  · rw [if_pos h]
  · rw [if_pos h]
    split <;> rfl

theorem Dev.timeMeasured_ec {d : Dev} (off : Int) (h : d.time.stepDone = true ∨ d.anyLaunched = true) :
    (d.timeMeasured off).time.ec = d.time.ec :=
  (congrArg TimeSt.ec (Dev.timeMeasured_time d off)).trans ((Dev.steer_ec (d := d.noteOffset off) off h).trans (Dev.noteOffset_ec d off))

theorem Dev.takeMeasurement_ec {d : Dev} (h : d.time.stepDone = true ∨ d.anyLaunched = true) : d.takeMeasurement.time.ec = d.time.ec := by
  unfold Dev.takeMeasurement
  split
  · exact Dev.timeMeasured_ec (d := { d with time := { d.time with ppsOffset := none, ptpOffset := none } }) _ h
  · rfl

theorem execTimeMeasurement_keepsEc {s : State} (h : s.dev.time.stepDone = true ∨ s.dev.anyLaunched = true) :
    KeepsEc s (execTimeMeasurement s) :=
  keepsEc_onDev (Dev.ite_ec ((Dev.ec_of_time (Dev.bootOpen_time _)).trans (Dev.takeMeasurement_ec h)) (Dev.takeMeasurement_ec h))

theorem execFirstLockStep_keepsEc {s : State} (h : s.dev.time.stepWaits = false ∨ s.dev.anyLaunched = true) :
    KeepsEc s (execFirstLockStep s) := by
  refine keepsEc_onDev ?_
  split
  · rename_i hw _
    rw [hw] at h
    rw [if_pos (h.resolve_left Bool.noConfusion)]
  · rfl

theorem execResetNRise_keepsEc {s : State} (h : s.dev.sec.holdBoot = none) : KeepsEc s (execResetNRise s) :=
  keepsEc_onDev (by simp only [h])

end Sys2Proof.Machine
end

section
/-! SUPPORT. Commits: EC stands unless the commit is a set (01 R29, R30; 16 R482). -/

namespace Sys2Proof.Machine

theorem firstRule_eq_zero {l : List (Bool × Nat)} (hl : ∀ x ∈ l, x.2 ≠ 0) (h : firstRule l = 0) : ∀ x ∈ l, x.1 = false := by
  induction l with
  | nil => exact fun _ hx => nomatch hx
  | cons y l ih =>
    obtain ⟨b, k⟩ := y
    obtain ⟨hy, ht⟩ := List.forall_mem_cons.mp hl
    cases b with
    | true => exact absurd h hy
    | false => exact List.forall_mem_cons.mpr ⟨rfl, ih ht h⟩

/-- A one-bit field is 0 exactly when its bit is clear. -/
theorem Dev.fld_bit_eq_zero {d : Dev} {a k : Nat} : d.fld ⟨a, k, k⟩ = 0 ↔ bitAt (d.reg a) k = false := by
  unfold Dev.fld bits bitAt
  rw [Nat.testBit_eq_decide_div_mod_eq, Nat.shiftRight_eq_div_pow, Nat.add_sub_cancel_left]
  grind

/-- The register that orders a set, and its bit (01 Table 1.3). -/
def fSetReq : Fld := ⟨regAddr 1 8, 3, 3⟩

/-- The rules refuse a set while a slice is launched (01 R29). -/
theorem fSetReq_of_epochRules {d n : Dev} {sh : List (Nat × Word)} (h : epochRules d n sh = 0) (hl : d.anyLaunched = true) :
    n.fld fSetReq = 0 := by
  unfold epochRules at h
  have := firstRule_eq_zero (by simp) h (bitAt (n.reg (regAddr 1 8)) 3 && d.anyLaunched, 0x0127) (by simp)
  rw [hl, Bool.and_true] at this
  exact Dev.fld_bit_eq_zero.mpr this

/-- The choice of a parent sets registers of the time status and of events only. -/
theorem Dev.keepsRegs_parentCheck (d : Dev) (commit : Bool) : KeepsRegs switchRegs d (d.parentCheck commit) := by
  have hp (v : Nat) : KeepsRegs switchRegs d (d.put fCur v) := Dev.keepsRegs_put _ _ List.mem_cons_self
  have he (v bit : Nat) (args : List Nat) : KeepsRegs switchRegs d ((d.put fCur v).event 1 bit args) :=
    (hp v).trans (Dev.keepsRegs_event _ _ _ (by simp +contextual [switchRegs]))
  exact KeepsRegs.ite (hp _) (KeepsRegs.ite (he _ _ _) (KeepsRegs.ite (he _ _ _) (hp _)))

theorem Dev.fSetReq_of_keepsRegs {d e : Dev} {l : List Nat} (h : KeepsRegs l d e) (hl : regAddr 1 8 ∉ l) : e.fld fSetReq = d.fld fSetReq := by
  unfold Dev.fld
  rw [show e.reg fSetReq.addr = d.reg fSetReq.addr from h _ hl]

theorem Dev.keepsRegs_sendEvent {l : List Nat} (d : Dev) (code : Nat) (args : List Nat) (h : regAddr 12 0x74 ∈ l) :
    KeepsRegs l d (d.sendEvent code args) :=
  (d.keepsRegs_bump _ h).trans (KeepsRegs.of_regs_eq _ rfl)

/-- The registers that the end of a block's commit may set. -/
def commitDoneRegs (b : Nat) : List Nat := regAddr b 0xF08 :: regAddr b 0xF0C :: regAddr 12 0x74 :: auditRegs

theorem Dev.keepsRegs_commitDone (d : Dev) (c : Armed) (code : Nat) : KeepsRegs (commitDoneRegs c.block) d (d.commitDone c code) := by
  have h8 : regAddr c.block 0xF08 ∈ commitDoneRegs c.block := by simp [commitDoneRegs]
  unfold Dev.commitDone
  extract_lets st ran d1 more d2 d3 dig d4
  have h1 : KeepsRegs (commitDoneRegs c.block) d d1 := Dev.keepsRegs_put _ _ h8
  have h2 : KeepsRegs (commitDoneRegs c.block) d d2 :=
    ((h1.trans (Dev.keepsRegs_put _ _ h8)).trans (Dev.keepsRegs_put _ _ h8)).trans (Dev.keepsRegs_put _ _ h8)
  have h3 : KeepsRegs (commitDoneRegs c.block) d d3 := h2.trans (Dev.keepsRegs_setReg _ _ (by simp [commitDoneRegs]))
  have h4 : KeepsRegs (commitDoneRegs c.block) d d4 := h3.trans (Dev.keepsRegs_sendEvent _ _ _ (by simp [commitDoneRegs]))
  exact h4.trans (Dev.keepsRegs_auditRaw _ _ _ _ _ _ (by simp +contextual [commitDoneRegs]))

theorem Dev.fSetReq_commitDone (d : Dev) (c : Armed) (code : Nat) (hc : c.block = 1) : (d.commitDone c code).fld fSetReq = d.fld fSetReq :=
  Dev.fSetReq_of_keepsRegs (d.keepsRegs_commitDone c code) (by rw [hc]; decide)

theorem Dev.afterEpoch_ec (old : Dev) {d : Dev} (c : Armed) (h : d.fld fSetReq = 0) : (old.afterEpoch d c).time.ec = d.time.ec := by
  unfold Dev.afterEpoch
  extract_lets _ d1 d2 _ d3 d4 _ _ d5 d6
  have hk1 : KeepsRegs [regAddr 1 0x24] d d1 := KeepsRegs.of_regs_eq _ rfl
  have hk2 : KeepsRegs [regAddr 1 0x24] d d2 :=
    KeepsRegs.ite (KeepsRegs.refl _ _) (KeepsRegs.ite (hk1.trans (Dev.keepsRegs_setReg _ _ List.mem_cons_self)) hk1)
  have hk3 : KeepsRegs [regAddr 1 0x24] d d3 := KeepsRegs.ite (hk2.trans (KeepsRegs.of_regs_eq _ rfl)) hk2
  have hk4 : KeepsRegs switchRegs d3 d4 := (Dev.keepsRegs_refEval _ _).trans (Dev.keepsRegs_parentCheck _ _)
  have hs : d4.fld fSetReq = 0 :=
    (Dev.fSetReq_of_keepsRegs hk4 (by decide)).trans ((Dev.fSetReq_of_keepsRegs hk3 (by decide)).trans h)
  have h2 : d2.time.ec = d.time.ec := Dev.ite_ec rfl (Dev.ite_ec rfl rfl)
  have h3 : d3.time.ec = d.time.ec := Dev.ite_ec h2 h2
  have h4 : d4.time.ec = d.time.ec :=
    (Dev.ec_of_time ((Dev.parentCheck_time ..).trans (Dev.refEval_time ..))).trans h3
  have h6 : d6 = d4 := if_pos hs
  exact (Dev.ec_of_time (Dev.syncEval_time _)).trans (h6 ▸ h4)

theorem Dev.afterTeller_ec (old d : Dev) (boot : Bool) : (old.afterTeller d boot).time.ec = d.time.ec := by
  unfold Dev.afterTeller
  extract_lets moved d1 _ d2 d3 prim _ d4 d5 _ d6
  have h1 : d1.time = d.time := Dev.ite_time (Dev.foldl_time (fun _ _ => Dev.closeSession_time ..) _ _) rfl
  have h2 : d2.time = d.time := Dev.ite_time h1 ((Dev.withTel_time ..).trans h1)
  have h3 : d3.time = d.time := (Dev.foldl_time (fun _ _ => Dev.updHport_time ..) _ _).trans h2
  have h4 : d4.time.ec = d.time.ec := (Dev.put_ec ..).trans ((Dev.withTime_ec d3 rfl).trans (Dev.ec_of_time h3))
  have h5 : d5.time.ec = d.time.ec := (Dev.ec_of_time (Dev.foldl_time (fun _ _ => Dev.updHport_time ..) _ _)).trans h4
  have h6 : d6.time.ec = d.time.ec :=
    Dev.ite_ec ((Dev.put_ec ..).trans (Dev.ec_of_time h3)) (Dev.ite_ec (Dev.ite_ec h4 h5) (Dev.ec_of_time h3))
  exact (Dev.ec_of_time (Dev.addrEval_time _)).trans h6

/-- What an applied commit leaves of EC: all of it, unless it is a set. -/
theorem Dev.applied_ec (old : Dev) {d : Dev} (c : Armed) (boot : Bool) (h : c.block = 1 → d.fld fSetReq = 0) :
    (old.applied d c boot).time.ec = d.time.ec := by
  unfold Dev.applied
  split
  · rename_i hb
    exact Dev.afterEpoch_ec old c (h hb)
  · refine Dev.ite_ec ?_ (Dev.ec_of_time ((Dev.afterFab_time ..).trans (Dev.mirrorTables_time ..)))
    exact Dev.ec_of_time ((Dev.foldl_time (fun _ _ => Dev.ite_time rfl (Dev.disable_time ..)) _ _).trans (Dev.mirrorTables_time ..))
  · exact Dev.afterTeller_ec ..
  · exact Dev.ite_ec rfl (Dev.ec_of_time (Dev.afterPwr_time ..))
  · exact Dev.ec_of_time (Dev.afterHealth_time ..)
  · exact Dev.ec_of_time (Dev.afterSec_time ..)
  · rfl

theorem fSetReq_tryCommit {d : Dev} {c : Armed} {boot : Bool} (hb : c.block = 1) (hl : d.anyLaunched = true)
    (h : (d.tryCommit c boot).1 = 0) : (d.tryCommit c boot).2.fld fSetReq = 0 := by
  unfold Dev.tryCommit at h ⊢
  dsimp only at h ⊢
  rw [if_pos h]
  unfold blockRules at h
  rw [hb] at h ⊢
  exact fSetReq_of_epochRules h hl

theorem Dev.runCommit_ec {d : Dev} {c : Armed} (h : c.block = 1 → d.anyLaunched = true) : (d.runCommit c).time.ec = d.time.ec := by
  unfold Dev.runCommit
  extract_lets _ d1 waits d2
  have hl2 : d2.slices = d.slices := by
    unfold d2
    split <;> rfl
  have h2 : d2.time.ec = d.time.ec := Dev.ite_ec rfl rfl
  have hl : c.block = 1 → d2.anyLaunched = true := fun hb => by
    unfold Dev.anyLaunched at h ⊢
    rw [hl2]
    exact h hb
  clear_value d2
  have ht := Dev.tryCommit_time d2 c false
  have hs := fun hb => fSetReq_tryCommit (boot := false) hb (hl hb)
  generalize d2.tryCommit c false = o at ht hs ⊢
  obtain ⟨code, n⟩ := o
  dsimp -zeta only
  extract_lets n1 n2
  have hn : n1.time.ec = d.time.ec := (Dev.ec_of_time ((Dev.commitDone_time ..).trans ht)).trans h2
  split
  · rename_i h0
    exact (Dev.applied_ec d2 c false fun hb => (Dev.fSetReq_commitDone n c code hb).trans (hs hb h0)).trans hn
  · exact (Dev.ec_of_time (Dev.refusedHand_time ..)).trans (Dev.ite_ec ((Dev.ec_of_time (Dev.bump_time ..)).trans hn) hn)

theorem execCommitRun_keepsEc {s : State} {block : BitVec 8} (h : block = 1#8 → s.dev.anyLaunched = true) : KeepsEc s (execCommitRun block s) := by
  refine keepsEc_onDev ?_
  split
  · split
    · rename_i hc
      exact Dev.runCommit_ec fun hb => h (BitVec.eq_of_toNat_eq (hc.1.symm.trans hb))
    · rfl
  · rfl

end Sys2Proof.Machine
end

section
/-! O4. -/

namespace Sys2Proof.Machine

/-- The commands that may change the record of time. -/
inductive MarksTime : Instr → Prop
  | ecTick : MarksTime (.ecTick)
  | coldReset (e : BootEnv) : MarksTime (.coldReset e)
  | commitRun (block : BitVec 8) : MarksTime (.commitRun block)
  | timeMeasurement : MarksTime (.timeMeasurement)
  | firstLockStep : MarksTime (.firstLockStep)
  | resetNRise : MarksTime (.resetNRise)
  | referenceValid (r : RefInput) : MarksTime (.referenceValid r)
  | ptpMessage (hp : HostPort) (domain : BitVec 8) (m : PtpRx) : MarksTime (.ptpMessage hp domain m)
  | ppsInEdge : MarksTime (.ppsInEdge)
  | ppsMissing : MarksTime (.ppsMissing)
  | hostLinkUp (hp : HostPort) (rate : BitVec 3) : MarksTime (.hostLinkUp hp rate)
  | failover (hp : HostPort) : MarksTime (.failover hp)

/-- Every other command leaves the record of time as it was. -/
theorem marksTime_or_keepsTime (c : Instr) (s : State) : MarksTime c ∨ KeepsTime s (exec c s) := by
  cases c with
  | ecTick => exact .inl (.ecTick)
  | referenceInvalid r => exact .inr (execReferenceInvalid_keepsTime r s)
  | referenceValid r => exact .inl (.referenceValid r)
  | referenceReturnTimer => exact .inr (execReferenceReturnTimer_keepsTime s)
  | ecBroadcast faultA faultB => exact .inr (execEcBroadcast_keepsTime faultA faultB s)
  | timeMeasurement => exact .inl (.timeMeasurement)
  | syncTimeout => exact .inr (execSyncTimeout_keepsTime s)
  | ptpMessage hp domain m => exact .inl (.ptpMessage hp domain m)
  | parentTimeout => exact .inr (execParentTimeout_keepsTime s)
  | firstLockStep => exact .inl (.firstLockStep)
  | ppsInEdge => exact .inl (.ppsInEdge)
  | ppsMissing => exact .inl (.ppsMissing)
  | ppsOutRise => exact .inr (execPpsOutRise_keepsTime s)
  | ppsOutFall => exact .inr (execPpsOutFall_keepsTime s)
  | sliceLaunch slice => exact .inr (execSliceLaunch_keepsTime slice s)
  | notReadyCheck slice => exact .inr (execNotReadyCheck_keepsTime slice s)
  | mxNop core => exact .inr (execMxNop_keepsTime core s)
  | mxLoad core f => exact .inr (execMxLoad_keepsTime core f s)
  | mxFeed core f => exact .inr (execMxFeed_keepsTime core f s)
  | mxLoadStart core => exact .inr (execMxLoadStart_keepsTime core s)
  | mxFeedStart core => exact .inr (execMxFeedStart_keepsTime core s)
  | mxLoadComplete core heldCycles => exact .inr (execMxLoadComplete_keepsTime core heldCycles s)
  | sxNop core => exact .inr (execSxNop_keepsTime core s)
  | sxAdd core f => exact .inr (execSxAdd_keepsTime core f s)
  | sxSub core f => exact .inr (execSxSub_keepsTime core f s)
  | sxAddi core f => exact .inr (execSxAddi_keepsTime core f s)
  | sxMul core f => exact .inr (execSxMul_keepsTime core f s)
  | sxAnd core f => exact .inr (execSxAnd_keepsTime core f s)
  | sxOr core f => exact .inr (execSxOr_keepsTime core f s)
  | sxXor core f => exact .inr (execSxXor_keepsTime core f s)
  | sxShli core f => exact .inr (execSxShli_keepsTime core f s)
  | sxShri core f => exact .inr (execSxShri_keepsTime core f s)
  | sxSari core f => exact .inr (execSxSari_keepsTime core f s)
  | sxMin core f => exact .inr (execSxMin_keepsTime core f s)
  | sxMax core f => exact .inr (execSxMax_keepsTime core f s)
  | sxMovi core f => exact .inr (execSxMovi_keepsTime core f s)
  | sxMovhi core f => exact .inr (execSxMovhi_keepsTime core f s)
  | sxCmp core f => exact .inr (execSxCmp_keepsTime core f s)
  | sxCmpi core f => exact .inr (execSxCmpi_keepsTime core f s)
  | sxMovlc core f => exact .inr (execSxMovlc_keepsTime core f s)
  | sxLdp core f => exact .inr (execSxLdp_keepsTime core f s)
  | sxVget core f => exact .inr (execSxVget_keepsTime core f s)
  | sxLoop core lc last count => exact .inr (execSxLoop_keepsTime core lc last count s)
  | sxResultLand core => exact .inr (execSxResultLand_keepsTime core s)
  | vxNop core => exact .inr (execVxNop_keepsTime core s)
  | vxAdd core f => exact .inr (execVxAdd_keepsTime core f s)
  | vxSub core f => exact .inr (execVxSub_keepsTime core f s)
  | vxMul core f => exact .inr (execVxMul_keepsTime core f s)
  | vxFma core f => exact .inr (execVxFma_keepsTime core f s)
  | vxMin core f => exact .inr (execVxMin_keepsTime core f s)
  | vxMax core f => exact .inr (execVxMax_keepsTime core f s)
  | vxAbs core f => exact .inr (execVxAbs_keepsTime core f s)
  | vxDiv core f => exact .inr (execVxDiv_keepsTime core f s)
  | vxCvt core f => exact .inr (execVxCvt_keepsTime core f s)
  | vxFunc core f => exact .inr (execVxFunc_keepsTime core f s)
  | vxCmp core f => exact .inr (execVxCmp_keepsTime core f s)
  | vxSel core f => exact .inr (execVxSel_keepsTime core f s)
  | vxSplat core f => exact .inr (execVxSplat_keepsTime core f s)
  | vxRed core f => exact .inr (execVxRed_keepsTime core f s)
  | vxBscale core f => exact .inr (execVxBscale_keepsTime core f s)
  | vxDrain core f => exact .inr (execVxDrain_keepsTime core f s)
  | vxStart core => exact .inr (execVxStart_keepsTime core s)
  | vxWriteLand core => exact .inr (execVxWriteLand_keepsTime core s)
  | gxNop core => exact .inr (execGxNop_keepsTime core s)
  | gxGate core => exact .inr (execGxGate_keepsTime core s)
  | gxKbegin core => exact .inr (execGxKbegin_keepsTime core s)
  | gxKend core => exact .inr (execGxKend_keepsTime core s)
  | gxSettle core eng => exact .inr (execGxSettle_keepsTime core eng s)
  | gxPublish core ring => exact .inr (execGxPublish_keepsTime core ring s)
  | gxRelease core sreg soff => exact .inr (execGxRelease_keepsTime core sreg soff s)
  | gxAcquire core sreg soff => exact .inr (execGxAcquire_keepsTime core sreg soff s)
  | settleDone core => exact .inr (execSettleDone_keepsTime core s)
  | kendDone core => exact .inr (execKendDone_keepsTime core s)
  | releaseQueueRetire core => exact .inr (execReleaseQueueRetire_keepsTime core s)
  | acquireSatisfied core waited => exact .inr (execAcquireSatisfied_keepsTime core waited s)
  | acquireTimeout core => exact .inr (execAcquireTimeout_keepsTime core s)
  | dxNop core => exact .inr (execDxNop_keepsTime core s)
  | dxRun core f => exact .inr (execDxRun_keepsTime core f s)
  | dmaCopy core q n meetsRead => exact .inr (execDmaCopy_keepsTime core q n meetsRead s)
  | dmaFill core q n meetsRead => exact .inr (execDmaFill_keepsTime core q n meetsRead s)
  | dmaWrite core q n => exact .inr (execDmaWrite_keepsTime core q n s)
  | dmaRead core q n => exact .inr (execDmaRead_keepsTime core q n s)
  | dmaSumwrite core q n => exact .inr (execDmaSumwrite_keepsTime core q n s)
  | dmaMcast core q n => exact .inr (execDmaMcast_keepsTime core q n s)
  | deferredWrite core => exact .inr (execDeferredWrite_keepsTime core s)
  | ringWaitResolved core ring => exact .inr (execRingWaitResolved_keepsTime core ring s)
  | ringUnderflow core ring => exact .inr (execRingUnderflow_keepsTime core ring s)
  | ringOverflow core q => exact .inr (execRingOverflow_keepsTime core q s)
  | quotaWindow src net => exact .inr (execQuotaWindow_keepsTime src net s)
  | packetInvalidForm p => exact .inr (execPacketInvalidForm_keepsTime p s)
  | packetWrite p meetsRead trip => exact .inr (execPacketWrite_keepsTime p meetsRead trip s)
  | packetReadRequest p => exact .inr (execPacketReadRequest_keepsTime p s)
  | packetReadReply p meetsRead => exact .inr (execPacketReadReply_keepsTime p meetsRead s)
  | packetSumWrite cl inPort p => exact .inr (execPacketSumWrite_keepsTime cl inPort p s)
  | sumTimeout cl slice rtag => exact .inr (execSumTimeout_keepsTime cl slice rtag s)
  | packetMulticastWrite cl p => exact .inr (execPacketMulticastWrite_keepsTime cl p s)
  | packetAcknowledgement f => exact .inr (execPacketAcknowledgement_keepsTime f s)
  | semaphoreIncrement f => exact .inr (execSemaphoreIncrement_keepsTime f s)
  | ringCredit f => exact .inr (execRingCredit_keepsTime f s)
  | n4ShortWrite f => exact .inr (execN4ShortWrite_keepsTime f s)
  | holdoverRelease f => exact .inr (execHoldoverRelease_keepsTime f s)
  | holdoverHoldCheck slice => exact .inr (execHoldoverHoldCheck_keepsTime slice s)
  | routerFail cl => exact .inr (execRouterFail_keepsTime cl s)
  | atomicAdd p => exact .inr (execAtomicAdd_keepsTime p s)
  | transitForward inPort outPort n => exact .inr (execTransitForward_keepsTime inPort outPort n s)
  | chainForward slice hop p => exact .inr (execChainForward_keepsTime slice hop p s)
  | portSignalDetect port => exact .inr (execPortSignalDetect_keepsTime port s)
  | trainingComplete port sense => exact .inr (execTrainingComplete_keepsTime port sense s)
  | trainingTimeout port => exact .inr (execTrainingTimeout_keepsTime port s)
  | alignComplete port skewNs => exact .inr (execAlignComplete_keepsTime port skewNs s)
  | alignTimeout port => exact .inr (execAlignTimeout_keepsTime port s)
  | discoverTimeout port => exact .inr (execDiscoverTimeout_keepsTime port s)
  | portRetry port => exact .inr (execPortRetry_keepsTime port s)
  | latencyFenceExpiry port => exact .inr (execLatencyFenceExpiry_keepsTime port s)
  | portMissing port => exact .inr (execPortMissing_keepsTime port s)
  | controlFlitTimeout port => exact .inr (execControlFlitTimeout_keepsTime port s)
  | laneLossOfLock port lane => exact .inr (execLaneLossOfLock_keepsTime port lane s)
  | laneErrorCheck port lane corrected second => exact .inr (execLaneErrorCheck_keepsTime port lane corrected second s)
  | laneSwitch port => exact .inr (execLaneSwitch_keepsTime port s)
  | controlFlitBad f => exact .inr (execControlFlitBad_keepsTime f s)
  | timeWord port w t2 t3 => exact .inr (execTimeWord_keepsTime port w t2 t3 s)
  | holdWord port w => exact .inr (execHoldWord_keepsTime port w s)
  | ackWord port w => exact .inr (execAckWord_keepsTime port w s)
  | laneControlWord port w => exact .inr (execLaneControlWord_keepsTime port w s)
  | creditWord port w => exact .inr (execCreditWord_keepsTime port w s)
  | discoveryWord port w0 w1 w2 => exact .inr (execDiscoveryWord_keepsTime port w0 w1 w2 s)
  | frameReceive port f => exact .inr (execFrameReceive_keepsTime port f s)
  | replayTimeout port owner lclass net => exact .inr (execReplayTimeout_keepsTime port owner lclass net s)
  | framePresent port => exact .inr (execFramePresent_keepsTime port s)
  | frameEligible port => exact .inr (execFrameEligible_keepsTime port s)
  | generationBumpDeferred cl => exact .inr (execGenerationBumpDeferred_keepsTime cl s)
  | folioPutBegin h b => exact .inr (execFolioPutBegin_keepsTime h b s)
  | folioPutPipe h key first recs => exact .inr (execFolioPutPipe_keepsTime h key first recs s)
  | folioPutData h key offset crc data => exact .inr (execFolioPutData_keepsTime h key offset crc data s)
  | folioCommit h key sigOk read => exact .inr (execFolioCommit_keepsTime h key sigOk read s)
  | libraryDelete h key => exact .inr (execLibraryDelete_keepsTime h key s)
  | libraryPin h key => exact .inr (execLibraryPin_keepsTime h key s)
  | libraryUnpin h key => exact .inr (execLibraryUnpin_keepsTime h key s)
  | libraryList h first => exact .inr (execLibraryList_keepsTime h first s)
  | loadBegin slice => exact .inr (execLoadBegin_keepsTime slice s)
  | moverLoad slice mover n read => exact .inr (execMoverLoad_keepsTime slice mover n read s)
  | moverChain slice mover n read => exact .inr (execMoverChain_keepsTime slice mover n read s)
  | loadReady slice peers => exact .inr (execLoadReady_keepsTime slice peers s)
  | useUpdate => exact .inr (execUseUpdate_keepsTime s)
  | pcCorrectionCheck stack pc corrected unreadable => exact .inr (execPcCorrectionCheck_keepsTime stack pc corrected unreadable s)
  | startExchangeTimeout slice => exact .inr (execStartExchangeTimeout_keepsTime slice s)
  | barrierComplete slice => exact .inr (execBarrierComplete_keepsTime slice s)
  | gateDue slice => exact .inr (execGateDue_keepsTime slice s)
  | resumeSend slice => exact .inr (execResumeSend_keepsTime slice s)
  | stretch region => exact .inr (execStretch_keepsTime region s)
  | stepEcReached => exact .inr (execStepEcReached_keepsTime s)
  | vcoreSettled => exact .inr (execVcoreSettled_keepsTime s)
  | shardDecision slice stream => exact .inr (execShardDecision_keepsTime slice stream s)
  | zeroSlotPublish slice stream => exact .inr (execZeroSlotPublish_keepsTime slice stream s)
  | shardHoldCap slice => exact .inr (execShardHoldCap_keepsTime slice s)
  | shardWrite slice stream => exact .inr (execShardWrite_keepsTime slice stream s)
  | pushSlotRead slice stream => exact .inr (execPushSlotRead_keepsTime slice stream s)
  | sessionOpen hp o => exact .inr (execSessionOpen_keepsTime hp o s)
  | sessionClose h => exact .inr (execSessionClose_keepsTime h s)
  | tellerAck h cum bitmap => exact .inr (execTellerAck_keepsTime h cum bitmap s)
  | sliceStart h b => exact .inr (execSliceStart_keepsTime h b s)
  | sliceStop h slice => exact .inr (execSliceStop_keepsTime h slice s)
  | stopAtFrameBoundary slice => exact .inr (execStopAtFrameBoundary_keepsTime slice s)
  | sliceKill h slice => exact .inr (execSliceKill_keepsTime h slice s)
  | killEffective slice => exact .inr (execKillEffective_keepsTime slice s)
  | scrubComplete slice failing => exact .inr (execScrubComplete_keepsTime slice failing s)
  | streamOpen h slice index dir shardBytes lead => exact .inr (execStreamOpen_keepsTime h slice index dir shardBytes lead s)
  | streamClose h stream => exact .inr (execStreamClose_keepsTime h stream s)
  | ingressData h b => exact .inr (execIngressData_keepsTime h b s)
  | mgmtRead h block count offset => exact .inr (execMgmtRead_keepsTime h block count offset s)
  | mgmtWrite h block offset vals => exact .inr (execMgmtWrite_keepsTime h block offset vals s)
  | mgmtCommit h block target => exact .inr (execMgmtCommit_keepsTime h block target s)
  | commitRun block => exact .inl (.commitRun block)
  | recordStart h recId slice => exact .inr (execRecordStart_keepsTime h recId slice s)
  | recordStop h recId => exact .inr (execRecordStop_keepsTime h recId s)
  | arm h recId slice => exact .inr (execArm_keepsTime h recId slice s)
  | disarm h recId slice => exact .inr (execDisarm_keepsTime h recId slice s)
  | recordingDelete h recId => exact .inr (execRecordingDelete_keepsTime h recId s)
  | recordingList h => exact .inr (execRecordingList_keepsTime h s)
  | replayFeed slice => exact .inr (execReplayFeed_keepsTime slice s)
  | retransmitTimeout session => exact .inr (execRetransmitTimeout_keepsTime session s)
  | ackTimer session => exact .inr (execAckTimer_keepsTime session s)
  | sessionIdleTimeout session => exact .inr (execSessionIdleTimeout_keepsTime session s)
  | openingTimeout session => exact .inr (execOpeningTimeout_keepsTime session s)
  | quarantineExpiry hp => exact .inr (execQuarantineExpiry_keepsTime hp s)
  | nonTellerPacket hp => exact .inr (execNonTellerPacket_keepsTime hp s)
  | echoRequest hp => exact .inr (execEchoRequest_keepsTime hp s)
  | hostLinkUp hp rate => exact .inl (.hostLinkUp hp rate)
  | mediaTimeout hp => exact .inr (execMediaTimeout_keepsTime hp s)
  | hostLinkDown hp => exact .inr (execHostLinkDown_keepsTime hp s)
  | failover hp => exact .inl (.failover hp)
  | eventsLost session => exact .inr (execEventsLost_keepsTime session s)
  | powerSample wattsA wattsB millivoltsA millivoltsB => exact .inr (execPowerSample_keepsTime wattsA wattsB millivoltsA millivoltsB s)
  | thermalSample junction stackTemps => exact .inr (execThermalSample_keepsTime junction stackTemps s)
  | bladeLoss bl => exact .inr (execBladeLoss_keepsTime bl s)
  | bladeOvervoltage bl => exact .inr (execBladeOvervoltage_keepsTime bl s)
  | bladeReconnect bl => exact .inr (execBladeReconnect_keepsTime bl s)
  | phaseFault rail => exact .inr (execPhaseFault_keepsTime rail s)
  | thermalTrip region => exact .inr (execThermalTrip_keepsTime region s)
  | selfRefreshExit => exact .inr (execSelfRefreshExit_keepsTime s)
  | generatorUnlock g => exact .inr (execGeneratorUnlock_keepsTime g s)
  | generatorRelock g => exact .inr (execGeneratorRelock_keepsTime g s)
  | ageingCheck cl sites router => exact .inr (execAgeingCheck_keepsTime cl sites router s)
  | spareTest cl siteFails failingRows => exact .inr (execSpareTest_keepsTime cl siteFails failingRows s)
  | repairWindow => exact .inr (execRepairWindow_keepsTime s)
  | repairStopConfirmed slice => exact .inr (execRepairStopConfirmed_keepsTime slice s)
  | rowCopyComplete slice => exact .inr (execRowCopyComplete_keepsTime slice s)
  | spareMarginTestDone slice passes => exact .inr (execSpareMarginTestDone_keepsTime slice passes s)
  | relaunchEcReceived slice relaunch => exact .inr (execRelaunchEcReceived_keepsTime slice relaunch s)
  | rowRewriteComplete core gra => exact .inr (execRowRewriteComplete_keepsTime core gra s)
  | mcCoreFault mc => exact .inr (execMcCoreFault_keepsTime mc s)
  | mcTakeoverComplete => exact .inr (execMcTakeoverComplete_keepsTime s)
  | standbyPowerValid => exact .inr (execStandbyPowerValid_keepsTime s)
  | boardSlotSample slot => exact .inr (execBoardSlotSample_keepsTime slot s)
  | converterStart => exact .inr (execConverterStart_keepsTime s)
  | railsSettled => exact .inr (execRailsSettled_keepsTime s)
  | coldReset b => exact .inl (.coldReset b)
  | timeLockTimeout => exact .inr (execTimeLockTimeout_keepsTime s)
  | warmReset => exact .inr (execWarmReset_keepsTime s)
  | ctrlWarmReset => exact .inr (execCtrlWarmReset_keepsTime s)
  | resetNRise => exact .inl (.resetNRise)
  | warmResetEnd => exact .inr (execWarmResetEnd_keepsTime s)
  | standbyUndervoltage => exact .inr (execStandbyUndervoltage_keepsTime s)
  | powerDown => exact .inr (execPowerDown_keepsTime s)
  | stageWinWrite h offset vals => exact .inr (execStageWinWrite_keepsTime h offset vals s)
  | stageErase => exact .inr (execStageErase_keepsTime s)
  | stageVerify sigOk => exact .inr (execStageVerify_keepsTime sigOk s)
  | stageActivate => exact .inr (execStageActivate_keepsTime s)
  | repairReq h v => exact .inr (execRepairReq_keepsTime h v s)
  | attNonceWrite h first vals => exact .inr (execAttNonceWrite_keepsTime h first vals s)
  | attestationReady => exact .inr (execAttestationReady_keepsTime s)
  | debugResponse via scope reserved expiry sigOk => exact .inr (execDebugResponse_keepsTime via scope reserved expiry sigOk s)
  | debugExpiry => exact .inr (execDebugExpiry_keepsTime s)
  | handoverReadyCheck ready => exact .inr (execHandoverReadyCheck_keepsTime ready s)
  | handoverEc => exact .inr (execHandoverEc_keepsTime s)
  | handoverResume => exact .inr (execHandoverResume_keepsTime s)
  | handoverRevert => exact .inr (execHandoverRevert_keepsTime s)
  | handoverConfirm => exact .inr (execHandoverConfirm_keepsTime s)
  | ledgerFlush => exact .inr (execLedgerFlush_keepsTime s)
  | rowWindowWrite v => exact .inr (execRowWindowWrite_keepsTime v s)
  | jtagMgmtAcc dr => exact .inr (execJtagMgmtAcc_keepsTime dr s)
  | jtagExtest => exact .inr (execJtagExtest_keepsTime s)
  | jtagIdcode => exact .inr (execJtagIdcode_keepsTime s)
  | jtagSamplePreload => exact .inr (execJtagSamplePreload_keepsTime s)
  | jtagDbgChal => exact .inr (execJtagDbgChal_keepsTime s)
  | jtagBypass => exact .inr (execJtagBypass_keepsTime s)
  | tapReset => exact .inr (execTapReset_keepsTime s)
  | pmPage a => exact .inr (execPmPage_keepsTime a s)
  | pmClearFaults => exact .inr (execPmClearFaults_keepsTime s)
  | pmStatusWord => exact .inr (execPmStatusWord_keepsTime s)
  | pmStatusInput => exact .inr (execPmStatusInput_keepsTime s)
  | pmStatusTemperature => exact .inr (execPmStatusTemperature_keepsTime s)
  | pmReadVin => exact .inr (execPmReadVin_keepsTime s)
  | pmReadIin => exact .inr (execPmReadIin_keepsTime s)
  | pmReadTemperature1 => exact .inr (execPmReadTemperature1_keepsTime s)
  | pmReadTemperature2 => exact .inr (execPmReadTemperature2_keepsTime s)
  | pmReadPin => exact .inr (execPmReadPin_keepsTime s)
  | pmRevision => exact .inr (execPmRevision_keepsTime s)
  | pmMfrId => exact .inr (execPmMfrId_keepsTime s)
  | pmMfrModel => exact .inr (execPmMfrModel_keepsTime s)
  | pmMfrRevision => exact .inr (execPmMfrRevision_keepsTime s)
  | pmMfrSerial => exact .inr (execPmMfrSerial_keepsTime s)
  | pmInvalidMessage => exact .inr (execPmInvalidMessage_keepsTime s)
  | dmaDescriptorDone core q => exact .inr (execDmaDescriptorDone_keepsTime core q s)
  | sliceChannelCredit slice net channel => exact .inr (execSliceChannelCredit_keepsTime slice net channel s)
  | dhcpNdpArpMessage hp m => exact .inr (execDhcpNdpArpMessage_keepsTime hp m s)
  | priorityFlowControlFrame hp priorities quanta => exact .inr (execPriorityFlowControlFrame_keepsTime hp priorities quanta s)
  | protocolViolation h k => exact .inr (execProtocolViolation_keepsTime h k s)
  | vnvm1v8CurrentLimit => exact .inr (execVnvm1v8CurrentLimit_keepsTime s)
/-- Settles O4: of the commands that may change the record of time, each other than those named keeps EC (R14, R18, R27, R28). -/
theorem ecIsNeverStepped : Obligations.EcIsNeverStepped := by
  intro c s t h hne
  rcases marksTime_or_keepsTime c s with hm | hk
  · cases hm with
    | ecTick =>
      obtain ⟨f, he, _⟩ := exec_ecTick s
      refine .inl ⟨rfl, ?_⟩
      rw [he] at h
      obtain rfl := Host.Outcome.next.inj h
      exact congrArg (fun d => d.time.ec) s.dev.ticked_eq
    | coldReset e => exact .inr (.inl ⟨e, rfl⟩)
    | commitRun block =>
      by_cases hc : block = 1#8 → s.dev.anyLaunched = true
      · exact absurd (execCommitRun_keepsEc hc t h) hne
      · obtain ⟨rfl, hl⟩ := Classical.not_imp.mp hc
        exact .inr (.inr (.inl ⟨rfl, Bool.eq_false_of_not_eq_true hl⟩))
    | timeMeasurement =>
      by_cases hc : s.dev.time.stepDone = true ∨ s.dev.anyLaunched = true
      · exact absurd (execTimeMeasurement_keepsEc hc t h) hne
      · rw [not_or, Bool.not_eq_true, Bool.not_eq_true] at hc
        exact .inr (.inr (.inr (.inl ⟨rfl, hc⟩)))
    | firstLockStep =>
      by_cases hc : s.dev.time.stepWaits = false ∨ s.dev.anyLaunched = true
      · exact absurd (execFirstLockStep_keepsEc hc t h) hne
      · rw [not_or, Bool.not_eq_false, Bool.not_eq_true] at hc
        exact .inr (.inr (.inr (.inr (.inl ⟨rfl, hc⟩))))
    | resetNRise =>
      by_cases hc : s.dev.sec.holdBoot = none
      · exact absurd (execResetNRise_keepsEc hc t h) hne
      · exact .inr (.inr (.inr (.inr (.inr ⟨rfl, hc⟩))))
    | referenceValid r => exact absurd (execReferenceValid_keepsEc r s t h) hne
    | ptpMessage hp domain m => exact absurd (execPtpMessage_keepsEc hp domain m s t h) hne
    | ppsInEdge => exact absurd (execPpsInEdge_keepsEc s t h) hne
    | ppsMissing => exact absurd (execPpsMissing_keepsEc s t h) hne
    | hostLinkUp hp rate => exact absurd (execHostLinkUp_keepsEc hp rate s t h) hne
    | failover hp => exact absurd (execFailover_keepsEc hp s t h) hne
  · exact absurd (congrArg TimeSt.ec (hk t h)) hne

end Sys2Proof.Machine
end

section
/-! SUPPORT. The queue of commands through folds and branches. -/

namespace Sys2Proof.Machine

@[simp] theorem State.foldl_pending {α : Type} {f : State → α → State} (h : ∀ s x, (f s x).pending = s.pending) (l : List α) (s : State) :
    (l.foldl f s).pending = s.pending := by
  induction l generalizing s with
  | nil => rfl
  | cons x l ih => rw [List.foldl_cons, ih, h]

theorem State.ite_pending {c : Prop} [Decidable c] {a b : State} {t : List Instr} (ha : a.pending = t) (hb : b.pending = t) :
    (if c then a else b).pending = t := by split <;> assumption

end Sys2Proof.Machine
end

section
/-! SUPPORT. The operations of Machine/Ops leave the queue of commands. -/

namespace Sys2Proof.Machine

@[simp] theorem State.engRead_pending (s : State) (core g : Nat) :
    (s.engRead core g).2.pending = s.pending := rfl

@[simp] theorem State.rewriteWait_pending (s : State) (core g : Nat) :
    (s.rewriteWait core g).pending = s.pending := rfl

@[simp] theorem State.readCells_pending (s : State) (core : Nat) :
    (s.readCells core).pending = s.pending := by
  unfold State.readCells
  split <;> simp

@[simp] theorem State.slotOr_pending (s : State) (core : CoreId) (gxSlot : Bool) (fits : CoreSt → Bool) (f g : State → State)
    (hf : ∀ s', (f s').pending = s'.pending) (hg : ∀ s', (g s').pending = s'.pending) :
    (s.slotOr core gxSlot fits f g).pending = s.pending := by
  unfold State.slotOr
  dsimp only
  repeat' split
  all_goals simp [hf, hg]

@[simp] theorem State.slot_pending (s : State) (core : CoreId) (f : State → State) (hf : ∀ s', (f s').pending = s'.pending) :
    (s.slot core f).pending = s.pending := by simp [State.slot, hf]

@[simp] theorem State.gxSlot_pending (s : State) (core : CoreId) (f : State → State) (hf : ∀ s', (f s').pending = s'.pending) :
    (s.gxSlot core f).pending = s.pending := by simp [State.gxSlot, hf]

end Sys2Proof.Machine
end

section
/-! SUPPORT. The operations of Machine/Packets leave the queue of commands. -/

namespace Sys2Proof.Machine

@[simp] theorem setRing_pending (s : State) (core k v : Nat) :
    (setRing s core k v).pending = s.pending := rfl

@[simp] theorem ringPublish_pending (s : State) (core k n : Nat) :
    (ringPublish s core k n).pending = s.pending := rfl

@[simp] theorem ringZero_pending (s : State) (r first n : Nat) : (ringZero s r first n).pending = s.pending :=
  State.foldl_pending (fun s j => State.foldl_pending (f := fun s i => s.putRow (ringRow r (first + j) i) 0) (fun _ _ => rfl) _ s) _ s

@[simp] theorem ringRelease_pending (s : State) (core k n : Nat) :
    (ringRelease s core k n).pending = s.pending := by
  simp [ringRelease, apply_ite State.pending]

end Sys2Proof.Machine
end

section
/-! SUPPORT. The operations of Machine/Sync leave the queue of commands. -/

namespace Sys2Proof.Machine

@[simp] theorem acquireDone_pending (s : State) (core gra waited : Nat) (timeout : Bool) :
    (acquireDone s core gra waited timeout).pending = s.pending := rfl

@[simp] theorem semMeet_pending (cl g count : Nat) (s : State) :
    (semMeet cl g count s).pending = s.pending :=
  State.foldl_pending (fun _ _ => State.onCore_pending ..) _ _

@[simp] theorem State.release_pending (s : State) (core : CoreId) (e : CoreSt → RelEntry) :
    (s.release core e).pending = s.pending :=
  State.slotOr_pending _ _ _ _ _ _ (fun _ => rfl) (fun _ => rfl)

@[simp] theorem acquire_pending (core : Nat) (sreg : BitVec 5) (soff : BitVec 12) (s : State) :
    (acquire core sreg soff s).pending = s.pending := by
  simp [acquire, apply_ite State.pending]

@[simp] theorem retirePublish_pending (s : State) (core ring : Nat) :
    (retirePublish s core ring).pending = s.pending := by
  simp [retirePublish, apply_ite State.pending]

@[simp] theorem retireRelease_pending (s : State) (core gra chip : Nat) :
    (retireRelease s core gra chip).pending = s.pending := by
  simp [retireRelease, apply_ite State.pending]

end Sys2Proof.Machine
end

section
/-! SUPPORT. The operations of Machine/Dma leave the queue of commands. -/

namespace Sys2Proof.Machine

@[simp] theorem State.onRun_pending (s : State) (core q : Nat) (f : DmaRun → DmaRun) :
    (s.onRun core q f).pending = s.pending := rfl

@[simp] theorem dmaRead_pending (s : State) (core g : Nat) :
    (dmaRead s core g).2.pending = s.pending := by
  unfold dmaRead
  split <;> simp

@[simp] theorem dmaPut_pending (s : State) (core g : Nat) (r : RowData) :
    (dmaPut s core g r).pending = s.pending := by
  unfold dmaPut
  split <;> simp

@[simp] theorem skewFill_pending (core q src key n : Nat) (s : State) : (skewFill core q src key n s).pending = s.pending := by
  induction n with
  | zero => rfl
  | succ n ih =>
    unfold skewFill
    dsimp only
    split <;> simp [ih]

@[simp] theorem skewRow_pending (s : State) (core q : Nat) (e : DmaEntry) (r : Nat) :
    (skewRow s core q e r).2.pending = s.pending := by
  unfold skewRow
  dsimp only
  repeat' split
  all_goals simp

@[simp] theorem dmaLose_pending (core q lost : Nat) (s : State) :
    (dmaLose core q lost s).pending = s.pending := by
  unfold dmaLose
  split <;> simp

@[simp] theorem dmaWait_pending (s : State) (core q why : Nat) :
    (dmaWait s core q why).pending = s.pending := rfl

@[simp] theorem srcRow_pending (s : State) (core q : Nat) (e : DmaEntry) :
    (srcRow s core q e).2.pending = s.pending := by
  unfold srcRow
  dsimp only
  repeat' split
  all_goals simp

@[simp] theorem localRow_pending (s : State) (core q : Nat) (e : DmaEntry) (meets : Bool) :
    (localRow s core q e meets).pending = s.pending := by
  unfold localRow
  dsimp only
  repeat' split
  all_goals simp

@[simp] theorem localLoop_pending (core q : Nat) (e : DmaEntry) (meets : Bool) (n : Nat) (s : State) :
    (localLoop core q e meets n s).pending = s.pending := by
  induction n generalizing s with
  | zero => rfl
  | succ n ih =>
    unfold localLoop
    dsimp only
    repeat' split
    all_goals simp [ih]

@[simp] theorem gatherRows_pending (core q : Nat) (e : DmaEntry) (n : Nat) (s : State) :
    (gatherRows core q e n s).2.pending = s.pending := by
  induction n generalizing s with
  | zero => rfl
  | succ n ih =>
    unfold gatherRows
    split
    · simp
    · have rest := ih ((srcRow s core q e).2.onRun core q (fun x => { x with done := x.done + 1, forcedSrc := false, forcedDst := false }))
      dsimp only
      split <;> simp_all

@[simp] theorem injectUse_pending (s : State) (core : Nat) (sl : Slice) (e : DmaEntry) (dst rows flits : Nat) :
    (injectUse s core sl e dst rows flits).pending = s.pending := by
  unfold injectUse
  repeat' split
  all_goals simp

@[simp] theorem injectHeld_pending (s : State) (core q flits : Nat) (why : Inject) :
    (injectHeld s core q flits why).pending = s.pending := by
  unfold injectHeld
  repeat' split
  all_goals simp

@[simp] theorem sendPkt_pending (s : State) (core q : Nat) (e : DmaEntry) : (sendPkt s core q e).pending = s.pending := by
  unfold sendPkt
  dsimp only
  have gathered := gatherRows_pending core q e (readyRows s core q e (pktRows s core q e)) s
  repeat' split
  all_goals simp_all -implicitDefEqProofs

@[simp] theorem sendLoop_pending (core q : Nat) (e : DmaEntry) (n : Nat) (s : State) :
    (sendLoop core q e n s).pending = s.pending := by
  induction n generalizing s with
  | zero => rfl
  | succ n ih =>
    unfold sendLoop
    dsimp only
    repeat' split
    all_goals simp [ih]

@[simp] theorem chanLate_pending (core q late : Nat) (e : DmaEntry) (s s' : State) :
    (chanLate core q late e s s').pending = s'.pending := by
  unfold chanLate
  split <;> simp

@[simp] theorem dmaSend_pending (core : CoreId) (q : Fin 4) (opc : Nat) (x : SendTurn) (s : State) :
    (dmaSend core q opc x s).pending = s.pending := by
  unfold dmaSend
  split <;> simp

@[simp] theorem sendRead_pending (s : State) (core q : Nat) (e : DmaEntry) :
    (sendRead s core q e).pending = s.pending := by
  unfold sendRead
  dsimp only
  repeat' split
  all_goals simp -implicitDefEqProofs

@[simp] theorem readLoop_pending (core q : Nat) (e : DmaEntry) (n : Nat) (s : State) :
    (readLoop core q e n s).pending = s.pending := by
  induction n generalizing s with
  | zero => rfl
  | succ n ih =>
    unfold readLoop
    dsimp only
    repeat' split
    all_goals simp [ih]

@[simp] theorem dxRun_pending (core : Nat) (f : DxFields) (s : State) :
    (dxRun core f s).pending = s.pending := rfl

@[simp] theorem clearRingWait_pending (core k : Nat) (s : State) (q : Nat) :
    (clearRingWait core k s q).pending = s.pending := by
  unfold clearRingWait
  repeat' split
  all_goals simp

end Sys2Proof.Machine
end

section
/-! SUPPORT. The operations of Machine/Matrix leave the queue of commands. -/

namespace Sys2Proof.Machine

@[simp] theorem accWrite_pending (s : State) (core acc : Nat) (half : Bool) (entry : Nat) (vals : List (Nat × Bool)) :
    (accWrite s core acc half entry vals).pending = s.pending := by
  unfold accWrite
  dsimp only
  repeat' split
  all_goals simp

@[simp] theorem completePos_pending (s : State) (core : Nat) (vecs : List StreamVec) :
    (completePos s core vecs).pending = s.pending := by
  unfold completePos
  dsimp only
  repeat' split
  all_goals simp

@[simp] theorem pushVec_pending (s : State) (core : Nat) (v : StreamVec) :
    (pushVec s core v).pending = s.pending := by
  simp [pushVec, apply_ite State.pending]

@[simp] theorem feedRow_pending (s : State) (core g : Nat) :
    (feedRow s core g).2.pending = s.pending := by
  unfold feedRow
  split <;> simp

@[simp] theorem feedStaged_pending (s : State) (core g : Nat) :
    (feedStaged s core g).2.pending = s.pending := by
  unfold feedStaged
  dsimp only
  repeat' split
  all_goals simp

@[simp] theorem feedAheadOf_pending (s : State) (core g : Nat) :
    (feedAheadOf s core g).pending = s.pending := by
  unfold feedAheadOf
  split <;> simp

@[simp] theorem ringVec_pending (s : State) (core k cls : Nat) :
    (ringVec s core k cls).2.pending = s.pending := by
  unfold ringVec
  dsimp only
  repeat' split
  all_goals simp

@[simp] theorem feedPush_pending (s : State) (core : Nat) (f : MxFeedFields) (seq i : Nat) (raw : BitVec 2048) (side : DWord) :
    (feedPush s core f seq i raw side).pending = s.pending := by
  simp [feedPush, apply_ite State.pending]

@[simp] theorem feedSide_pending (s : State) (core g : Nat) (held : Option Staged) :
    (feedSide s core g held).2.pending = s.pending := by
  unfold feedSide
  dsimp only
  repeat' split
  all_goals simp

@[simp] theorem feedLoop_pending (core : Nat) (f : MxFeedFields) (base seq : Nat) (side : Option Staged) (n i : Nat) (s : State) :
    (feedLoop core f base seq side n i s).pending = s.pending := by
  induction n generalizing side i s with
  | zero => rfl
  | succ k ih =>
    unfold feedLoop
    dsimp only
    repeat' split
    all_goals simp [ih]

@[simp] theorem feedStart_pending (s : State) (core : Nat) (f : MxFeedFields) (base seq : Nat) :
    (feedStart s core f base seq).pending = s.pending := by
  simp [feedStart, apply_ite State.pending]

@[simp] theorem feedTryStart_pending (s : State) (core : Nat) :
    (feedTryStart s core).pending = s.pending := by
  unfold feedTryStart
  dsimp only
  repeat' split
  all_goals simp

@[simp] theorem loadRow_pending (s : State) (core g : Nat) :
    (loadRow s core g).2.pending = s.pending := by
  unfold loadRow
  split <;> simp

@[simp] theorem loadImage_pending (core : Nat) (l : List Nat) (s : State) : (loadImage core l s).2.pending = s.pending := by
  induction l generalizing s with
  | nil => rfl
  | cons g t ih => simp [loadImage, ih]

@[simp] theorem loadPlane_pending (s : State) (core : Nat) (f : MxLoadFields) (img : List RowData) (store : Bool) :
    (loadPlane s core f img store).pending = s.pending := rfl

@[simp] theorem loadProceed_pending (s : State) (core : Nat) (force : Bool) :
    (loadProceed s core force).pending = s.pending := by
  unfold loadProceed
  dsimp only
  repeat' split
  all_goals simp

@[simp] theorem loadTryStart_pending (s : State) (core : Nat) :
    (loadTryStart s core).pending = s.pending := by
  unfold loadTryStart
  dsimp only
  repeat' split
  all_goals simp

@[simp] theorem mxEnqueue_pending (core : CoreId) (op : CoreSt → MxOp) (s : State) : (mxEnqueue core op s).pending = s.pending :=
  State.slotOr_pending _ _ _ _ _ _ (fun _ => rfl) (fun _ => rfl)

end Sys2Proof.Machine
end

section
/-! SUPPORT. The operations of Machine/RingWaits leave the queue of commands. -/

namespace Sys2Proof.Machine

@[simp] theorem feedResume_pending (s : State) (core : Nat) :
    (feedResume s core).pending = s.pending := by
  unfold feedResume
  split <;> simp

@[simp] theorem ringUnderflow_pending (s : State) (core k : Nat) :
    (ringUnderflow s core k).pending = s.pending := by
  unfold ringUnderflow
  dsimp only
  repeat' split
  all_goals simp

@[simp] theorem inboundPublish_pending (s : State) (core schip score gra n : Nat) :
    (inboundPublish s core schip score gra n).pending = s.pending := by
  unfold inboundPublish
  split <;> simp

@[simp] theorem requestDone_pending (s : State) (core : Nat) (o : OutPkt) (landed : Bool) :
    (requestDone s core o landed).pending = s.pending := by
  unfold requestDone
  dsimp only
  repeat' split
  all_goals simp

@[simp] theorem replyDone_pending (s : State) (core queue seq : Nat) (landed : Bool) :
    (replyDone s core queue seq landed).pending = s.pending := by
  unfold replyDone
  split <;> simp

@[simp] theorem replyLost_pending (s : State) (core queue seq : Nat) :
    (replyLost s core queue seq).pending = s.pending := by
  unfold replyLost
  dsimp only
  repeat' split
  all_goals simp

end Sys2Proof.Machine
end

section
/-! SUPPORT. The operations of Machine/Network leave the queue of commands. -/

namespace Sys2Proof.Machine

@[simp] theorem landRows_pending (mover : Bool) (cl core : Nat) (l : List RowData) (g : Nat) (s : State) :
    (landRows mover cl core l g s).2.pending = s.pending := by
  induction l generalizing g s with
  | nil => rfl
  | cons r t ih =>
    unfold landRows
    dsimp only
    split <;> simp [ih]

/-- The last row of a write packet, taken apart where its write meets a read of its core. -/
theorem State.lastRow_pending {meetsRead : Bool} {last : Option RowData} {a : RowData → State} {b : State} {t : List Instr}
    (ha : ∀ r, (a r).pending = t) (hb : b.pending = t) :
    (match meetsRead, last with | true, some r => a r | _, _ => b).pending = t := by
  cases meetsRead <;> cases last
  case true.some r => exact ha r
  all_goals exact hb

@[simp] theorem landWritePkt_pending (p : Packet) (meetsRead : Bool) (s : State) :
    (landWritePkt p meetsRead s).pending = s.pending := by
  unfold landWritePkt
  dsimp only
  refine State.ite_pending ?_ (State.ite_pending ?_ (State.lastRow_pending (fun r => State.ite_pending ?_ ?_) ?_))
  all_goals simp -implicitDefEqProofs

@[simp] theorem readRows_pending (core : Nat) (l : List Nat) (s : State) : (readRows core l s).2.pending = s.pending := by
  induction l generalizing s with
  | nil => rfl
  | cons g t ih => simp [readRows, ih]

@[simp] theorem replyUse_pending (s : State) (h : LongHdr) (rows : Nat) :
    (replyUse s h rows).pending = s.pending := by
  simp [replyUse, apply_ite State.pending]

@[simp] theorem serveRead_pending (p : Packet) (s : State) :
    (serveRead p s).pending = s.pending := by
  unfold serveRead
  dsimp only
  repeat' split
  all_goals simp -implicitDefEqProofs

@[simp] theorem landOwn_pending (core : Nat) (l : List RowData) (g : Nat) (s : State) : (landOwn core l g s).2.pending = s.pending := by
  induction l generalizing g s with
  | nil => rfl
  | cons r t ih =>
    unfold landOwn
    dsimp only
    split <;> simp [ih]

@[simp] theorem landReply_pending (p : Packet) (meetsRead : Bool) (s : State) :
    (landReply p meetsRead s).pending = s.pending := by
  simp [landReply, apply_ite State.pending]

@[simp] theorem sumLand_pending (p : Packet) (s : State) :
    (sumLand p s).pending = s.pending := by
  unfold sumLand
  dsimp only
  repeat' split
  all_goals simp

@[simp] theorem sumEmit_pending (cl : Nat) (parts : List (Nat × Packet)) (out fmt : Nat) (s : State) :
    (sumEmit cl parts out fmt s).pending = s.pending := by
  unfold sumEmit
  split
  · rfl
  · exact State.ite_pending (sumLand_pending ..) rfl

@[simp] theorem sumArrive_pending (x : TreeHop) (trip : Trip) (s : State) :
    (sumArrive x trip s).pending = s.pending := by
  unfold sumArrive
  dsimp only
  repeat' split
  all_goals simp

@[simp] theorem leafRows_pending (core ring : Nat) (l : List RowData) (s : State) : (leafRows core ring l s).pending = s.pending := by
  induction l generalizing s with
  | nil => rfl
  | cons r t ih =>
    unfold leafRows
    dsimp only
    split <;> simp [ih]

@[simp] theorem leafLand_pending (core ring : Nat) (p : Packet) (s : State) :
    (leafLand core ring p s).2.pending = s.pending := by
  unfold leafLand
  dsimp only
  repeat' split
  all_goals simp

@[simp] theorem mcastArrive_pending (x : TreeHop) (trip : Trip) (s : State) : (mcastArrive x trip s).pending = s.pending := by
  unfold mcastArrive
  refine State.ite_pending rfl (State.ite_pending rfl ?_)
  split
  · rfl
  · refine State.ite_pending rfl ?_
    extract_lets +onlyGivenNames s1 s2 s3 s4 s5
    have h4 : s4.pending = s.pending := rfl
    have h5 : s5.pending = s.pending := (State.foldl_pending (by intros; rfl) _ _).trans h4
    clear_value s5
    exact (State.foldl_pending (by intros; exact leafLand_pending ..) _ _).trans h5

@[simp] theorem shortArrive_pending (sop : Nat) (f : Flit) (s : State) (act : ShortPkt → State → State)
    (hact : ∀ x0 s', (act x0 s').pending = s'.pending) :
    (shortArrive sop f s act).pending = s.pending := by
  simp [shortArrive, apply_ite State.pending, hact]

theorem State.inOrder_pending {s t : State} (f : Flit) (h : t.pending = s.pending) : (s.inOrder f t).pending = s.pending := by
  unfold State.inOrder
  split
  · exact h
  · rfl

@[simp] theorem shortDeliver_pending (k : ShortPkt) (s : State) (act : State → State) (hact : ∀ s', (act s').pending = s'.pending) :
    (shortDeliver k s act).pending = s.pending := by
  simp [shortDeliver, apply_ite State.pending, hact]

@[simp] theorem ackCore_pending (k : ShortPkt) (s : State) :
    (ackCore k s).pending = s.pending := by
  unfold ackCore
  dsimp only
  repeat' split
  all_goals simp

@[simp] theorem semArrive_pending (k : ShortPkt) (s : State) :
    (semArrive k s).pending = s.pending := by
  simp [semArrive, apply_ite State.pending]

@[simp] theorem atomicAdd_pending (p : Packet) (s : State) :
    (atomicAdd p s).pending = s.pending := by
  simp [atomicAdd, apply_ite State.pending]

end Sys2Proof.Machine
end

section
/-! SUPPORT. The operations of Machine/Fabric leave the queue of commands. -/

namespace Sys2Proof.Machine

@[simp] theorem State.word_pending (s : State) (port : Nat) (w : CtrlWord) (type : Nat) (live : Bool) (f : Dev → Dev) :
    (s.word port w type live f).pending = s.pending := by
  unfold State.word
  split <;> rfl

end Sys2Proof.Machine
end

section
/-! SUPPORT. The operations of Machine/Scalar leave the queue of commands. -/

namespace Sys2Proof.Machine

@[simp] theorem sxAlu_pending (core : CoreId) (f : SxFields) (v : CoreSt → DWord) (s : State) :
    (sxAlu core f v s).pending = s.pending := by simp -implicitDefEqProofs [sxAlu]

@[simp] theorem sxLdp_pending (core : CoreId) (f : SxFields) (lost : Nat) (s : State) :
    (sxLdp core f lost s).pending = s.pending := by
  unfold sxLdp
  dsimp only
  repeat' split
  all_goals simp

@[simp] theorem sxVget_pending (core : CoreId) (f : SxFields) (s : State) :
    (sxVget core f s).pending = s.pending := by
  unfold sxVget
  dsimp only
  repeat' split
  all_goals simp

end Sys2Proof.Machine
end

section
/-! SUPPORT. The operations of Machine/Vector leave the queue of commands. -/

namespace Sys2Proof.Machine

@[simp] theorem vxReadOpd_pending (s : State) (core : Nat) (r : VxRun) (which loc row : Nat) :
    (vxReadOpd s core r which loc row).2.pending = s.pending := by
  unfold vxReadOpd
  dsimp only
  repeat' split
  all_goals simp

@[simp] theorem vxLanes_pending (s : State) (core : Nat) (r : VxRun) (which ct ec : Nat) (o : VxOpd) (i1 i2 i3 k : Nat) :
    (vxLanes s core r which ct ec o i1 i2 i3 k).2.pending = s.pending := by
  unfold vxLanes
  split <;> simp

@[simp] theorem vxFlush_pending (s : State) (core seq : Nat) (r : VxRun) :
    (vxFlush s core seq r).1.pending = s.pending := by
  unfold vxFlush
  dsimp only
  repeat' split
  all_goals simp

@[simp] theorem vxWrite_pending (s : State) (core seq : Nat) (dst : VxOpd) (w : Nat) (r : VxRun) (loc : WLoc) (row : Nat) (rowOk : Bool)
    (l0 : Nat) (codes : List (Option Nat)) :
    (vxWrite s core seq dst w r loc row rowOk l0 codes).1.pending = s.pending := by
  unfold vxWrite
  dsimp only
  repeat' split
  all_goals simp

@[simp] theorem vxStepOut_pending (s : State) (core : Nat) (x : VxCtx) (r : VxRun) (m i1 i2 i3 k : Nat) (vals : List LRes) :
    (vxStepOut s core x r m i1 i2 i3 k vals).1.pending = s.pending := by
  unfold vxStepOut
  dsimp only
  repeat' split
  all_goals simp

@[simp] theorem vxOperand_pending (s : State) (core : Nat) (x : VxCtx) (r : VxRun) (which : Nat) (use : Bool) (o : VxOpd)
    (m i1 i2 i3 k : Nat) :
    (vxOperand s core x r which use o m i1 i2 i3 k).2.pending = s.pending := by
  unfold vxOperand
  split <;> simp

@[simp] theorem vxBlockScales_pending (s : State) (core : Nat) (x : VxCtx) (r : VxRun) (i1 i2 i3 k : Nat) :
    (vxBlockScales s core x r i1 i2 i3 k).2.pending = s.pending := by
  unfold vxBlockScales
  split <;> simp

@[simp] theorem vxElemStep_pending (core : Nat) (x : VxCtx) (i1 i2 i3 k : Nat) (sr : State × VxRun) :
    (vxElemStep core x i1 i2 i3 k sr).1.pending = sr.1.pending := by
  unfold vxElemStep
  dsimp only
  repeat' split
  all_goals simp

@[simp] theorem vxElemLoop_pending (core : Nat) (x : VxCtx) (n i : Nat) (sr : State × VxRun) :
    (vxElemLoop core x n i sr).1.pending = sr.1.pending := by
  induction n generalizing i sr with
  | zero => rfl
  | succ n ih =>
    unfold vxElemLoop
    exact (ih _ _).trans (vxElemStep_pending _ _ _ _ _ _ _)

@[simp] theorem vxPutElem_pending (s : State) (core : Nat) (x : VxCtx) (r : VxRun) (ty q : Nat) (code : Option Nat) :
    (vxPutElem s core x r ty q code).1.pending = s.pending := by
  unfold vxPutElem
  split <;> simp

@[simp] theorem vxPutResult_pending (s : State) (core : Nat) (x : VxCtx) (r : VxRun) (q v : Nat) :
    (vxPutResult s core x r q v).1.pending = s.pending := by
  simp [vxPutResult, apply_ite State.pending]

@[simp] theorem redStep_pending (core : Nat) (x : VxCtx) (i1 i2 i3 k : Nat) (s : State) (r : VxRun) :
    (redStep core x i1 i2 i3 k s r).2.pending = s.pending := by
  simp [redStep, apply_ite State.pending]

@[simp] theorem redRow_pending (core : Nat) (x : VxCtx) (i1 i2 i3 n k : Nat) (acc : Option Nat) (sr : State × VxRun) :
    (redRow core x i1 i2 i3 n k acc sr).2.1.pending = sr.1.pending := by
  induction n generalizing k acc sr with
  | zero => rfl
  | succ n ih =>
    unfold redRow
    refine (ih _ _ _).trans ?_
    exact State.ite_pending (redStep_pending _ _ _ _ _ _ _ _) (redStep_pending _ _ _ _ _ _ _ _)

@[simp] theorem redLoop_pending (core : Nat) (x : VxCtx) (n q : Nat) (sr : State × VxRun) :
    (redLoop core x n q sr).1.pending = sr.1.pending := by
  induction n generalizing q sr with
  | zero => rfl
  | succ n ih =>
    unfold redLoop
    exact (ih _ _).trans ((vxPutResult_pending _ _ _ _ _ _).trans (redRow_pending _ _ _ _ _ _ _ _ _))

@[simp] theorem vxPutCode_pending (s : State) (core : Nat) (x : VxCtx) (r : VxRun) (q code clip : Nat) :
    (vxPutCode s core x r q code clip).1.pending = s.pending := by
  simp [vxPutCode, apply_ite State.pending]

/-- A fold over a state and a run of the vector slot that leaves the queue leaves it. -/
theorem foldl_run_pending {α : Type} {f : State × VxRun → α → State × VxRun} (h : ∀ sr x, (f sr x).1.pending = sr.1.pending)
    (l : List α) (sr : State × VxRun) : (l.foldl f sr).1.pending = sr.1.pending := by
  induction l generalizing sr with
  | nil => rfl
  | cons x l ih => rw [List.foldl_cons, ih, h]

@[simp] theorem bscaleStep_pending (core : Nat) (x : VxCtx) (i1 i2 i3 k q0 : Nat) (sr : State × VxRun) :
    (bscaleStep core x i1 i2 i3 k q0 sr).1.pending = sr.1.pending := by
  unfold bscaleStep
  exact (foldl_run_pending (fun _ _ => vxPutCode_pending _ _ _ _ _ _ _) _ _).trans (vxOperand_pending _ _ _ _ _ _ _ _ _ _ _ _)

@[simp] theorem bscaleLoop_pending (core : Nat) (x : VxCtx) (n i : Nat) (sr : State × VxRun) :
    (bscaleLoop core x n i sr).1.pending = sr.1.pending := by
  induction n generalizing i sr with
  | zero => rfl
  | succ n ih =>
    unfold bscaleLoop
    exact (ih _ _).trans (bscaleStep_pending _ _ _ _ _ _ _ _)

@[simp] theorem vxTailClear_pending (s : State) (core : Nat) (x : VxCtx) (n : Nat) (sr : VxRun) :
    (vxTailClear s core x n sr).1.pending = s.pending := by
  unfold vxTailClear
  dsimp only
  repeat' split
  all_goals simp

@[simp] theorem vxExec_pending (s : State) (core : Nat) (q : VxOp) :
    (vxExec s core q).pending = s.pending := by
  unfold vxExec
  dsimp only
  repeat' split
  all_goals simp

@[simp] theorem vxOp_pending (core : CoreId) (op : Nat) (f : VxFields) (lost : Nat) (s : State) :
    (vxOp core op f lost s).pending = s.pending := by
  simp -implicitDefEqProofs [vxOp, apply_ite State.pending]

@[simp] theorem landWrite_pending (s : State) (core : Nat) (w : PendW) :
    (landWrite s core w).pending = s.pending := by
  unfold landWrite
  dsimp only
  repeat' split
  all_goals simp

end Sys2Proof.Machine
end

section
/-! SUPPORT. The operations of Machine/Streams leave the queue of commands. -/

namespace Sys2Proof.Machine

@[simp] theorem State.pullFlush_pending (s : State) (sid : Nat) (p0 : PullRun) :
    (s.pullFlush sid p0).pending = s.pending := by
  unfold State.pullFlush
  dsimp only
  repeat' split
  all_goals simp

@[simp] theorem State.zeroSlot_pending (s : State) (p : PullRun) (n : Nat) :
    (s.zeroSlot p n).pending = s.pending := by simp -implicitDefEqProofs [State.zeroSlot]

@[simp] theorem State.shardRows_pending (sid : Nat) (p : PullRun) (n : Nat) (l : List Byte) (fuel k : Nat) (s : State) :
    (s.shardRows sid p n l fuel k).2.pending = s.pending := by
  induction fuel generalizing k s with
  | zero => rfl
  | succ fuel ih =>
    unfold State.shardRows
    dsimp only
    repeat' split
    case isFalse.isFalse =>
      exact (ih _ _).trans (State.foldl_pending (by intros; rfl) _ s)
    all_goals rfl

@[simp] theorem State.shardInto_pending (sid : Nat) (s : State) (p : PullRun) : (s.shardInto sid p).pending = s.pending := by
  unfold State.shardInto
  dsimp only
  repeat' split
  all_goals simp

@[simp] theorem State.zeroInto_pending (sid : Nat) (s : State) (p : PullRun) :
    (s.zeroInto sid p).pending = s.pending := by
  unfold State.zeroInto
  dsimp only
  repeat' split
  all_goals simp

@[simp] theorem State.pushFetch_pending (sid core : Nat) (rows : List Nat) (fuel k : Nat) (s : State) :
    (s.pushFetch sid core rows fuel k).2.pending = s.pending := by
  induction fuel generalizing k s with
  | zero => rfl
  | succ fuel ih =>
    unfold State.pushFetch
    dsimp only
    repeat' split
    case isFalse.isFalse => exact ih _ _
    all_goals rfl

@[simp] theorem State.pushRead_pending (s : State) (sl : Slice) (seq index core ring : Nat) :
    (s.pushRead sl seq index core ring).pending = s.pending := by
  simp [State.pushRead, apply_ite State.pending]

end Sys2Proof.Machine
end

section
/-! SUPPORT. The operations of Machine/Gates leave the queue of commands. -/

namespace Sys2Proof.Machine

@[simp] theorem State.skipFrames_pending (s : State) (sl : Slice) (n k : Nat) : (s.skipFrames sl n k).pending = s.pending :=
  State.foldl_pending (fun s p => s.pullFlush_pending _ p) _ _

@[simp] theorem State.frameGate_pending (s : State) (sid g e : Nat) : (s.frameGate sid g e).pending = s.pending := by
  unfold State.frameGate
  split
  · exact State.ite_pending (State.ite_pending rfl (State.skipFrames_pending ..)) (State.ite_pending rfl (State.skipFrames_pending ..))
  · rfl

@[simp] theorem State.passGate_pending (s : State) (sl : Slice) (e : Nat) :
    (s.passGate sl e).pending = s.pending := by
  simp [State.passGate, apply_ite State.pending]

@[simp] theorem State.tryPass_pending (s : State) (sid : Nat) :
    (s.tryPass sid).pending = s.pending := by
  unfold State.tryPass
  repeat' split
  all_goals simp

end Sys2Proof.Machine
end

section
/-! SUPPORT. The operations of Machine/Start leave the queue of commands. -/

namespace Sys2Proof.Machine

@[simp] theorem launchMem_pending (s : State) (sl : Slice) :
    (launchMem s sl).pending = s.pending := by simp -implicitDefEqProofs [launchMem]

end Sys2Proof.Machine
end

section
/-! SUPPORT. The operations of Machine/Inbox leave the queue of commands. -/

namespace Sys2Proof.Machine

@[simp] theorem State.act_pending (i : Instr) (s : State) :
    (s.act i).pending = s.pending := by
  unfold State.act
  split <;> rfl

@[simp] theorem State.turn_pending (s : State) (id seq : Nat) (m : Held) :
    (s.turn id seq m).pending = s.pending := by
  unfold State.turn
  split
  · exact State.ite_pending (State.act_pending ..) rfl
  · rfl
  · rfl

@[simp] theorem State.drain_pending (id n : Nat) (s : State) :
    (s.drain id n).pending = s.pending := by
  induction n generalizing s with
  | zero => rfl
  | succ n ih =>
    unfold State.drain
    split
    · exact (ih _).trans (State.turn_pending ..)
    · rfl

@[simp] theorem State.turns_pending (s : State) (id : Nat) :
    (s.turns id).pending = s.pending := by
  unfold State.turns
  split <;> simp

@[simp] theorem State.inOrderMsg_pending (s : State) (i : Held) (h : MsgHdr) :
    (s.inOrderMsg i h).pending = s.pending := by
  unfold State.inOrderMsg
  split
  · exact State.turns_pending ..
  · rfl

@[simp] theorem State.atOnceMsg_pending (s : State) (i : Held) (h : MsgHdr) :
    (s.atOnceMsg i h).pending = s.pending := by
  unfold State.atOnceMsg
  split
  · exact (State.turns_pending ..).trans (State.turn_pending ..)
  · rfl

@[simp] theorem State.depositMsg_pending (s : State) (i : Instr) (h : MsgHdr) :
    (s.depositMsg i h).pending = s.pending := by
  unfold State.depositMsg
  split <;> simp

@[simp] theorem State.drainAll_pending (s : State) :
    (s.drainAll).pending = s.pending := by simp [State.drainAll]

end Sys2Proof.Machine
end

section
/-! SUPPORT. The operations of Machine/Jtag leave the queue of commands. -/

namespace Sys2Proof.Machine

@[simp] theorem State.onTap_pending (s : State) (f : State → State) (hf : ∀ s', (f s').pending = s'.pending) :
    (s.onTap f).pending = s.pending := by
  unfold State.onTap
  split <;> simp [hf]

@[simp] theorem State.jtagResult_pending (s : State) (code v : Nat) :
    (s.jtagResult code v).pending = s.pending := rfl

@[simp] theorem State.jtagRead_pending (s : State) (b off : Nat) :
    (s.jtagRead b off).pending = s.pending := by
  simp [State.jtagRead, apply_ite State.pending]

@[simp] theorem State.rowStore_pending (s : State) :
    (s.rowStore).pending = s.pending := rfl

@[simp] theorem State.jtagWrite_pending (s : State) (b off v : Nat) :
    (s.jtagWrite b off v).pending = s.pending := by
  simp [State.jtagWrite, apply_ite State.pending]

@[simp] theorem State.jtagCommit_pending (s : State) (b t : Nat) :
    (s.jtagCommit b t).pending = s.pending := by
  simp [State.jtagCommit, apply_ite State.pending]

end Sys2Proof.Machine
end

section
/-! SUPPORT. How commands end: refused, or complete with the queue as it was. -/

namespace Sys2Proof.Machine

/-- How a command ends: in a form that a load refuses it is refused with 0x0A20, and otherwise it completes and leaves the queue
(03 R122; 04 R137, R163; log entries 2, 32, 66). -/
def SettlesAs (s : State) (refused : Bool) (r : Res) : Prop :=
  match refused with
  | true => r = .refused (.invalidBundle 0x0A20)
  | false => ∃ t, r = .next t ∧ t.pending = s.pending

theorem settlesAs_ok {s t : State} (h : t.pending = s.pending) : SettlesAs s false (ok t) := ⟨t, rfl, h⟩

theorem settlesAs_guard {p : Prop} [Decidable p] {s : State} {b : Bool} {r : Res} (hb : b = true ↔ p) (h : SettlesAs s false r) :
    SettlesAs s b (if p then .refused (.invalidBundle 0x0A20) else r) := by
  by_cases hp : p
  · rw [if_pos hp, hb.mpr hp]
    rfl
  · rw [if_neg hp, Bool.eq_false_iff.mpr (mt hb.mp hp)]
    exact h

/-- Only a form that a load refuses is refused. -/
theorem SettlesAs.refused_iff {s : State} {b : Bool} {r : Res} (h : SettlesAs s b r) : r = .refused (.invalidBundle 0x0A20) ↔ b = true := by
  cases b with
  | true => exact ⟨fun _ => rfl, fun _ => h⟩
  | false =>
    obtain ⟨t, rfl, -⟩ := h
    simp

end Sys2Proof.Machine
end

section
/-! SUPPORT. The slot operations that may stand in a form that a load refuses (03 R122; 04 R130, R137, R163). -/

namespace Sys2Proof.Machine

theorem execMxLoad_settlesAs (core : CoreId) (f : MxLoadFields) (s : State) :
    SettlesAs s (refusedForm s (.mxLoad core f)) (execMxLoad core f s) :=
  settlesAs_guard Iff.rfl (settlesAs_ok (mxEnqueue_pending ..))

theorem execMxFeed_settlesAs (core : CoreId) (f : MxFeedFields) (s : State) :
    SettlesAs s (refusedForm s (.mxFeed core f)) (execMxFeed core f s) := by
  refine settlesAs_guard (by simp [refusedForm, or_assoc]) ?_
  split
  · exact settlesAs_ok (State.slot_pending _ _ _ fun _ => rfl)
  · exact settlesAs_ok (mxEnqueue_pending ..)

theorem sxCompare_settlesAs (core : CoreId) (f : SxFields) (rhs : CoreSt → DWord) (s : State) :
    SettlesAs s (refusedForm s (.sxCmp core f)) (sxCompare core f rhs s) :=
  settlesAs_guard (by simp [refusedForm, or_assoc]) (settlesAs_ok (State.slot_pending _ _ _ fun _ => rfl))

theorem execSxMovlc_settlesAs (core : CoreId) (f : SxFields) (s : State) :
    SettlesAs s (refusedForm s (.sxMovlc core f)) (execSxMovlc core f s) :=
  settlesAs_guard decide_eq_true_iff (settlesAs_ok (sxAlu_pending ..))

theorem execSxVget_settlesAs (core : CoreId) (f : SxFields) (s : State) :
    SettlesAs s (refusedForm s (.sxVget core f)) (execSxVget core f s) :=
  settlesAs_guard decide_eq_true_iff (settlesAs_ok (State.slotOr_pending _ _ _ _ _ _ (fun _ => sxVget_pending ..) fun _ => rfl))

theorem execSxLoop_settlesAs (core : CoreId) (lc : BitVec 4) (last : BitVec 13) (count : BitVec 16) (s : State) :
    SettlesAs s (refusedForm s (.sxLoop core lc last count)) (execSxLoop core lc last count s) :=
  settlesAs_guard (by simp [refusedForm, or_assoc]) (settlesAs_ok (State.slot_pending _ _ _ fun _ => rfl))

theorem vxMeaning_settlesAs (core : CoreId) (op : Nat) (f : WithLost VxFields) (s : State) :
    SettlesAs s (!vxFormOk op f.op) (vxMeaning core op f s) := by
  unfold vxMeaning
  cases vxFormOk op f.op with
  | true => exact settlesAs_ok (vxOp_pending ..)
  | false => rfl

end Sys2Proof.Machine
end

section
/-! SUPPORT. Commands that act on what they find, and leave the queue. -/

namespace Sys2Proof.Machine

theorem execSliceLaunch_settles (slice : SliceId) (s : State) : SettlesAs s false (execSliceLaunch slice s) := by
  refine settlesAs_ok ?_
  split
  · exact State.ite_pending (launchMem_pending ..) rfl
  · rfl

theorem execMxLoadComplete_settles (core : CoreId) (heldCycles : Nat) (s : State) :
    SettlesAs s false (execMxLoadComplete core heldCycles s) := by
  refine settlesAs_ok (State.ite_pending ?_ rfl)
  dsimp only
  split
  · exact State.ite_pending (feedTryStart_pending ..) rfl
  · rfl

theorem execVxStart_settles (core : WithLost CoreId) (s : State) : SettlesAs s false (execVxStart core s) := by
  refine settlesAs_ok (State.ite_pending ?_ rfl)
  split
  · exact vxExec_pending ..
  · rfl

theorem execVxWriteLand_settles (core : CoreId) (s : State) : SettlesAs s false (execVxWriteLand core s) := by
  refine settlesAs_ok ?_
  split
  · exact landWrite_pending ..
  · rfl

theorem execGxGate_settles (core : CoreId) (s : State) : SettlesAs s false (execGxGate core s) := by
  refine settlesAs_ok (State.gxSlot_pending _ _ _ fun s => ?_)
  split <;> rfl

theorem execReleaseQueueRetire_settles (core : CoreId) (s : State) : SettlesAs s false (execReleaseQueueRetire core s) := by
  refine settlesAs_ok ?_
  split
  · exact State.ite_pending (retirePublish_pending ..) rfl
  · exact State.ite_pending rfl (State.ite_pending rfl (retireRelease_pending ..))
  · rfl

theorem execAcquireSatisfied_settles (core : CoreId) (waited : BitVec 64) (s : State) :
    SettlesAs s false (execAcquireSatisfied core waited s) := by
  refine settlesAs_ok ?_
  split <;> rfl

theorem execAcquireTimeout_settles (core : CoreId) (s : State) : SettlesAs s false (execAcquireTimeout core s) := by
  refine settlesAs_ok ?_
  split <;> rfl

/-- A descriptor at the head of a queue moves on by row after row within the core's reach; with none there nothing happens. -/
theorem localLoop_orNone_pending (core : CoreId) (q : Fin 4) (n : Nat) (meets : WithLost Bool) (e : Option DmaEntry) (s : State) :
    (match e with
      | some e => localLoop core q e meets.op (if meets.op then 1 else n) (dmaLose core q meets.lost s)
      | none => s).pending = s.pending := by
  cases e with
  | some e => exact (localLoop_pending ..).trans (dmaLose_pending ..)
  | none => rfl

theorem execDmaRead_settles (core : CoreId) (q : Fin 4) (n : RequestTurn) (s : State) : SettlesAs s false (execDmaRead core q n s) := by
  refine settlesAs_ok ?_
  split
  · exact (chanLate_pending ..).trans (readLoop_pending ..)
  · rfl

theorem execDeferredWrite_settles (core : CoreId) (s : State) : SettlesAs s false (execDeferredWrite core s) := by
  refine settlesAs_ok ?_
  dsimp only
  repeat' split
  all_goals simp -implicitDefEqProofs

theorem execRingWaitResolved_settles (core : CoreId) (w : WaitedRing) (s : State) : SettlesAs s false (execRingWaitResolved core w s) := by
  refine settlesAs_ok ?_
  extract_lets s1 s2
  have h1 : s1.pending = s.pending := State.foldl_pending (fun s q => clearRingWait_pending _ _ s q) _ _
  have h2 : s2.pending = s.pending := State.ite_pending ((feedResume_pending ..).trans h1) h1
  exact State.ite_pending ((loadProceed_pending ..).trans h2) h2

theorem execRingOverflow_settles (core : CoreId) (q : Fin 4) (s : State) : SettlesAs s false (execRingOverflow core q s) := by
  refine settlesAs_ok ?_
  split <;> rfl

theorem execQuotaWindow_settles (src : QuotaSrc) (net : Net) (s : State) : SettlesAs s false (execQuotaWindow src net s) := by
  refine settlesAs_ok ?_
  repeat' split
  all_goals rfl

theorem execPacketReadRequest_settles (x : Request) (s : State) : SettlesAs s false (execPacketReadRequest x s) := by
  refine settlesAs_ok (State.ite_pending ?_ rfl)
  split
  · exact serveRead_pending ..
  · rfl
  · exact State.ite_pending rfl rfl

theorem execPacketSumWrite_settles (cl : Cl) (inPort : Fin 12) (p : OnMesh) (s : State) :
    SettlesAs s false (execPacketSumWrite cl inPort p s) := by
  refine settlesAs_ok (State.ite_pending ?_ rfl)
  split
  · exact sumArrive_pending ..
  · rfl

theorem execSumTimeout_settles (cl : Cl) (slice : SliceId) (rtag : BitVec 12) (s : State) :
    SettlesAs s false (execSumTimeout cl slice rtag s) := by
  refine settlesAs_ok ?_
  split
  · exact sumEmit_pending ..
  · rfl

theorem execPacketMulticastWrite_settles (cl : Cl) (p : OnMesh) (s : State) : SettlesAs s false (execPacketMulticastWrite cl p s) := by
  refine settlesAs_ok (State.ite_pending ?_ rfl)
  split
  · exact mcastArrive_pending ..
  · rfl

theorem execPacketAcknowledgement_settles (f : Flit) (s : State) : SettlesAs s false (execPacketAcknowledgement f s) :=
  settlesAs_ok (shortArrive_pending _ _ _ _ fun _ _ => State.ite_pending (shortDeliver_pending _ _ _ fun _ => ackCore_pending ..) rfl)

theorem execSemaphoreIncrement_settles (x : OnMeshShort) (s : State) : SettlesAs s false (execSemaphoreIncrement x s) :=
  settlesAs_ok (State.inOrder_pending _ (shortArrive_pending _ _ _ _ fun _ _ => shortDeliver_pending _ _ _ fun _ => semArrive_pending ..))

theorem execRingCredit_settles (f : Flit) (s : State) : SettlesAs s false (execRingCredit f s) :=
  settlesAs_ok (State.inOrder_pending _ (shortArrive_pending _ _ _ _ fun _ _ => shortDeliver_pending _ _ _ fun _ => rfl))

theorem execHoldoverRelease_settles (f : Flit) (s : State) : SettlesAs s false (execHoldoverRelease f s) := by
  refine settlesAs_ok (State.inOrder_pending _ (shortArrive_pending _ _ _ _ fun k s => ?_))
  split
  · exact State.ite_pending rfl (leafLand_pending ..)
  · rfl

theorem execAlignComplete_settles (port : Port) (skewNs : Nat) (s : State) : SettlesAs s false (execAlignComplete port skewNs s) := by
  refine settlesAs_ok ?_
  split <;> rfl

theorem execBarrierComplete_settles (slice : SliceId) (s : State) : SettlesAs s false (execBarrierComplete slice s) := by
  refine settlesAs_ok ?_
  split
  · exact State.ite_pending (State.tryPass_pending ..) rfl
  · rfl

theorem execZeroSlotPublish_settles (slice : SliceId) (stream : BitVec 16) (s : State) :
    SettlesAs s false (execZeroSlotPublish slice stream s) := by
  refine settlesAs_ok ?_
  split
  · exact State.ite_pending (State.foldl_pending (fun s p => State.zeroInto_pending _ s p) _ _) rfl
  · rfl

theorem execShardWrite_settles (slice : SliceId) (stream : BitVec 16) (s : State) : SettlesAs s false (execShardWrite slice stream s) := by
  refine settlesAs_ok ?_
  split
  · exact State.ite_pending (State.foldl_pending (fun s p => State.shardInto_pending _ s p) _ _) rfl
  · rfl

theorem execPushSlotRead_settles (slice : SliceId) (stream : BitVec 16) (s : State) :
    SettlesAs s false (execPushSlotRead slice stream s) := by
  refine settlesAs_ok ?_
  split
  · split
    · exact State.ite_pending (State.pushRead_pending ..) rfl
    · rfl
  · rfl

theorem execScrubComplete_settles (slice : SliceId) (failing : List (BitVec 32)) (s : State) :
    SettlesAs s false (execScrubComplete slice failing s) := by
  unfold execScrubComplete
  extract_lets
  split <;> exact settlesAs_ok rfl

theorem execRowRewriteComplete_settles (core : CoreId) (row : RewrittenRow) (s : State) :
    SettlesAs s false (execRowRewriteComplete core row s) := by
  refine settlesAs_ok (State.ite_pending ?_ rfl)
  dsimp only
  repeat' split
  all_goals rfl

theorem execDebugResponse_settles (via : DebugVia) (scope : BitVec 8) (reserved : BitVec 56) (expiry : BitVec 64) (sig : DebugSig)
    (s : State) : SettlesAs s false (execDebugResponse via scope reserved expiry sig s) := by
  cases via with
  | jtag => exact settlesAs_ok (State.act_pending ..)
  | session h => exact settlesAs_ok (State.inOrderMsg_pending ..)

theorem execJtagMgmtAcc_settles (dr : BitVec 96) (s : State) : SettlesAs s false (execJtagMgmtAcc dr s) :=
  settlesAs_ok (State.onTap_pending _ _ fun _ => State.ite_pending (State.jtagCommit_pending ..)
    (State.ite_pending (State.jtagWrite_pending ..) (State.jtagRead_pending ..)))

theorem execProtocolViolation_settles (h : MsgHdr) (k : Violation) (s : State) : SettlesAs s false (execProtocolViolation h k s) := by
  refine settlesAs_ok ?_
  dsimp only
  repeat' split
  all_goals simp -implicitDefEqProofs

end Sys2Proof.Machine
end

section
/-! O2, O15. -/

namespace Sys2Proof.Machine

/-- Every command ends as its form says. A command without an arm of its own here only changes the device. -/
theorem exec_settlesAs (c : Instr) (s : State) : SettlesAs s (refusedForm s c) (exec c s) := by
  cases c with
  | mxLoad core f => exact execMxLoad_settlesAs core f s
  | mxFeed core f => exact execMxFeed_settlesAs core f s
  | sxCmp core f => exact sxCompare_settlesAs core f _ s
  | sxCmpi core f => exact sxCompare_settlesAs core f _ s
  | sxMovlc core f => exact execSxMovlc_settlesAs core f s
  | sxVget core f => exact execSxVget_settlesAs core f s
  | sxLoop core lc last count => exact execSxLoop_settlesAs core lc last count s
  | vxAdd core f | vxSub core f | vxMul core f | vxFma core f | vxMin core f | vxMax core f | vxAbs core f | vxDiv core f
  | vxCvt core f | vxFunc core f | vxCmp core f | vxSel core f | vxSplat core f | vxRed core f | vxBscale core f | vxDrain core f =>
    exact vxMeaning_settlesAs core _ f s
  | mxNop core | sxNop core | vxNop core | dxNop core => exact settlesAs_ok (State.slot_pending _ _ _ fun _ => rfl)
  | sxAdd core f | sxSub core f | sxAddi core f | sxMul core f | sxAnd core f | sxOr core f | sxXor core f | sxShli core f
  | sxShri core f | sxSari core f | sxMin core f | sxMax core f | sxMovi core f | sxMovhi core f => exact settlesAs_ok (sxAlu_pending ..)
  | sxLdp core f => exact settlesAs_ok (State.slot_pending _ _ _ fun _ => sxLdp_pending ..)
  | gxNop core | gxKbegin core | gxKend core | gxSettle core eng => exact settlesAs_ok (State.gxSlot_pending _ _ _ fun _ => rfl)
  | gxGate core => exact execGxGate_settles core s
  | gxPublish core ring => exact settlesAs_ok (State.release_pending ..)
  | gxRelease core sreg soff => exact settlesAs_ok (State.release_pending ..)
  | gxAcquire core sreg soff => exact settlesAs_ok (State.gxSlot_pending _ _ _ fun _ => acquire_pending ..)
  | dxRun core f => exact settlesAs_ok (State.slotOr_pending _ _ _ _ _ _ (fun _ => dxRun_pending ..) fun _ => rfl)
  | mxLoadStart core => exact settlesAs_ok (State.ite_pending (loadTryStart_pending ..) rfl)
  | mxFeedStart core => exact settlesAs_ok (State.ite_pending (feedTryStart_pending ..) rfl)
  | mxLoadComplete core heldCycles => exact execMxLoadComplete_settles core heldCycles s
  | vxStart core => exact execVxStart_settles core s
  | vxWriteLand core => exact execVxWriteLand_settles core s
  | releaseQueueRetire core => exact execReleaseQueueRetire_settles core s
  | acquireSatisfied core waited => exact execAcquireSatisfied_settles core waited s
  | acquireTimeout core => exact execAcquireTimeout_settles core s
  | dmaCopy core q n meetsRead => exact settlesAs_ok (localLoop_orNone_pending core q n meetsRead _ s)
  | dmaFill core q n meetsRead => exact settlesAs_ok (localLoop_orNone_pending core q n meetsRead _ s)
  | dmaWrite core q n | dmaSumwrite core q n | dmaMcast core q n => exact settlesAs_ok (dmaSend_pending ..)
  | dmaRead core q n => exact execDmaRead_settles core q n s
  | deferredWrite core => exact execDeferredWrite_settles core s
  | ringWaitResolved core ring => exact execRingWaitResolved_settles core ring s
  | ringUnderflow core ring => exact settlesAs_ok (ringUnderflow_pending ..)
  | ringOverflow core q => exact execRingOverflow_settles core q s
  | quotaWindow src net => exact execQuotaWindow_settles src net s
  | packetWrite p meetsRead trip => exact settlesAs_ok (State.ite_pending (landWritePkt_pending ..) rfl)
  | packetReadRequest p => exact execPacketReadRequest_settles p s
  | packetReadReply p meetsRead => exact settlesAs_ok (State.ite_pending (landReply_pending ..) rfl)
  | packetSumWrite cl inPort p => exact execPacketSumWrite_settles cl inPort p s
  | sumTimeout cl slice rtag => exact execSumTimeout_settles cl slice rtag s
  | packetMulticastWrite cl p => exact execPacketMulticastWrite_settles cl p s
  | packetAcknowledgement f => exact execPacketAcknowledgement_settles f s
  | semaphoreIncrement f => exact execSemaphoreIncrement_settles f s
  | ringCredit f => exact execRingCredit_settles f s
  | n4ShortWrite f => exact settlesAs_ok (shortArrive_pending _ _ _ _ fun _ s => s.onDev_pending _)
  | holdoverRelease f => exact execHoldoverRelease_settles f s
  | atomicAdd p => exact settlesAs_ok (State.ite_pending (atomicAdd_pending ..) rfl)
  | sliceLaunch slice => exact execSliceLaunch_settles slice s
  | alignComplete port skewNs => exact execAlignComplete_settles port skewNs s
  | barrierComplete slice => exact execBarrierComplete_settles slice s
  | gateDue slice => exact settlesAs_ok (State.tryPass_pending ..)
  | zeroSlotPublish slice stream => exact execZeroSlotPublish_settles slice stream s
  | shardWrite slice stream => exact execShardWrite_settles slice stream s
  | pushSlotRead slice stream => exact execPushSlotRead_settles slice stream s
  | scrubComplete slice failing => exact execScrubComplete_settles slice failing s
  | rowRewriteComplete core gra => exact execRowRewriteComplete_settles core gra s
  | timeWord port w t2 t3 => exact settlesAs_ok (State.word_pending ..)
  | ackWord port w | laneControlWord port w | creditWord port w => exact settlesAs_ok (State.word_pending ..)
  | folioPutBegin h b => exact settlesAs_ok (State.depositMsg_pending ..)
  | folioPutPipe h key first recs => exact settlesAs_ok (State.depositMsg_pending ..)
  | folioCommit h key codes read => exact settlesAs_ok (State.depositMsg_pending ..)
  | folioPutData h key offset crc data => exact settlesAs_ok (State.ite_pending (State.act_pending ..) (State.atOnceMsg_pending ..))
  | libraryDelete h _ | libraryPin h _ | libraryUnpin h _ | libraryList h _ | sessionClose h | sliceStart h _ | sliceStop h _
  | sliceKill h _ | streamOpen h _ _ _ _ _ | streamClose h _ | mgmtRead h _ _ _ | mgmtWrite h _ _ _ | mgmtCommit h _ _
  | recordStart h _ _ | recordStop h _ | arm h _ _ | disarm h _ _ | recordingDelete h _ | recordingList h | repairReq h _ =>
    exact settlesAs_ok (State.inOrderMsg_pending ..)
  | stageWinWrite h offset vals => exact settlesAs_ok (State.ite_pending rfl (State.inOrderMsg_pending ..))
  | attNonceWrite h first vals => exact settlesAs_ok (State.ite_pending rfl (State.inOrderMsg_pending ..))
  | debugResponse via scope reserved expiry sig => exact execDebugResponse_settles via scope reserved expiry sig s
  | tellerAck h cum bitmap => exact settlesAs_ok (State.turns_pending ..)
  | ingressData h b => exact settlesAs_ok (State.turns_pending ..)
  | protocolViolation h k => exact execProtocolViolation_settles h k s
  | mcCoreFault mc => exact settlesAs_ok (State.drainAll_pending _)
  | handoverResume => exact settlesAs_ok (State.drainAll_pending _)
  | jtagMgmtAcc dr => exact execJtagMgmtAcc_settles dr s
  | rowWindowWrite v => exact settlesAs_ok (State.onTap_pending _ _ fun _ => State.jtagWrite_pending ..)
  | jtagExtest | jtagIdcode | jtagSamplePreload | jtagDbgChal | jtagBypass | tapReset =>
    exact settlesAs_ok (State.onTap_pending _ _ fun _ => rfl)
  | referenceInvalid | referenceValid | syncTimeout | packetInvalidForm | trainingComplete | trainingTimeout | alignTimeout
  | discoverTimeout | controlFlitTimeout | controlFlitBad | holdWord | discoveryWord | frameReceive | generationBumpDeferred
  | sessionOpen | coldReset | ledgerFlush => exact settlesAs_ok (State.ite_pending rfl rfl)
  | useUpdate => exact settlesAs_ok (s.onDev_pending _)
  | _ => exact settlesAs_ok rfl

/-- The slot operations that have forms that a load refuses. -/
theorem refusedForm_ops {s : State} {c : Instr} (h : refusedForm s c = true) : ∃ core : CoreId,
    (∃ f, c = .mxLoad core f) ∨ (∃ f, c = .mxFeed core f) ∨ (∃ f, c = .sxCmp core f ∨ c = .sxCmpi core f ∨ c = .sxMovlc core f ∨
      c = .sxVget core f) ∨ (∃ f, c ∈ (vxSlotOps core f).map Prod.snd) ∨ (∃ lc last n, c = .sxLoop core lc last n) := by
  cases c with
  | mxLoad core f => exact ⟨core, .inl ⟨f, rfl⟩⟩
  | mxFeed core f => exact ⟨core, .inr (.inl ⟨f, rfl⟩)⟩
  | sxCmp core f | sxCmpi core f | sxMovlc core f | sxVget core f => exact ⟨core, .inr (.inr (.inl ⟨f, by simp⟩))⟩
  | vxAdd core f | vxSub core f | vxMul core f | vxFma core f | vxMin core f | vxMax core f | vxAbs core f | vxDiv core f
  | vxCvt core f | vxFunc core f | vxCmp core f | vxSel core f | vxSplat core f | vxRed core f | vxBscale core f | vxDrain core f =>
    exact ⟨core, .inr (.inr (.inr (.inl ⟨f, by simp [vxSlotOps]⟩)))⟩
  | sxLoop core lc last count => exact ⟨core, .inr (.inr (.inr (.inr ⟨lc, last, count, rfl⟩)))⟩
  | _ => exact absurd h Bool.false_ne_true

/-- Settles O2: the forms that a load refuses are refused, and each other command keeps the queue through every operation it is made of. -/
theorem onlyInvalidBundlesStop : Obligations.OnlyInvalidBundlesStop := by
  have completes (c : Instr) (s : State) (h : refusedForm s c = false) : ∃ t, exec c s = .next t ∧ t.pending = s.pending := by
    simpa only [h, SettlesAs] using exec_settlesAs c s
  have refuses (c : Instr) (s : State) (h : refusedForm s c = true) : exec c s = .refused (.invalidBundle 0x0A20) :=
    (exec_settlesAs c s).refused_iff.mpr h
  refine ⟨completes, refuses, fun c s => ?_⟩
  cases h : refusedForm s c with
  | false => exact .inl (completes c s h)
  | true => exact .inr ⟨refuses c s h, refusedForm_ops h⟩

end Sys2Proof.Machine
end

section
/-! O15. -/

namespace Sys2Proof.Machine

/-- A command is refused exactly in a form that a load refuses. -/
theorem exec_refused_iff (c : Instr) (s : State) : exec c s = .refused (.invalidBundle 0x0A20) ↔ refusedForm s c = true :=
  (exec_settlesAs c s).refused_iff

theorem exec_mxFeed_refused_iff (core : CoreId) (f : MxFeedFields) (s : State) :
    exec (.mxFeed core f) s = .refused (.invalidBundle 0x0A20) ↔ f.acc = 3 ∨ 4096 < f.count.toNat ∨ (f.srcsel = true ∧ f.voff ≠ 0) := by
  have hacc : f.acc.toNat = 3 ↔ f.acc = 3 := (BitVec.toNat_eq (y := 3)).symm
  have hvoff : f.voff.toNat = 0 ↔ f.voff = 0 := (BitVec.toNat_eq (y := 0)).symm
  simp [exec_refused_iff, refusedForm, hacc, hvoff, or_assoc]

/-- The form rule that each operation of the vector slot meets (04 R163). -/
theorem refusedForm_vxSlotOps (core : CoreId) (f : WithLost VxFields) (s : State) :
    ∀ x ∈ vxSlotOps core f, refusedForm s x.2 = !vxFormOk x.1 f.op := by
  simp only [vxSlotOps, List.forall_mem_cons, List.not_mem_nil, false_imp_iff, implies_true, refusedForm, and_self]

theorem vxTyOk_three (op : Nat) : vxTyOk op 3 = false := by
  unfold vxTyOk
  split <;> rfl

theorem vxFormOk_of_not_tyOk {op : Nat} {f : VxFields} (h : vxTyOk op f.ty.toNat = false) : vxFormOk op f = false := by
  simp [vxFormOk, h]

/-- Compute type 3 is none of Table 4.7. -/
theorem exec_vxSlotOps_refused_of_ty_three (core : CoreId) {f : WithLost VxFields} (s : State) (h : f.op.ty = 3) :
    ∀ x ∈ vxSlotOps core f, exec x.2 s = .refused (.invalidBundle 0x0A20) := by
  intro x hx
  have hty : vxTyOk x.1 f.op.ty.toNat = false := by rw [h]; exact vxTyOk_three x.1
  rw [exec_refused_iff, refusedForm_vxSlotOps core f s x hx, vxFormOk_of_not_tyOk hty, Bool.not_false]

/-- DIV, FUNC, BSCALE and DRAIN compute in type 0 alone (Table 4.7). -/
theorem exec_vx_refused_of_ty_ne_zero (core : CoreId) {f : WithLost VxFields} (s : State) (h : f.op.ty ≠ 0) :
    ∀ i ∈ [Instr.vxDiv core f, .vxFunc core f, .vxBscale core f, .vxDrain core f], exec i s = .refused (.invalidBundle 0x0A20) := by
  have hty : f.op.ty.toNat ≠ 0 := fun hz => h (BitVec.eq_of_toNat_eq hz)
  simp [exec_refused_iff, refusedForm, vxFormOk, vxTyOk, hty]

/-- Settles O15: each form is one that `refusedForm` names, and such a form is refused in every state. -/
theorem invalidFormsAreRefused : Obligations.InvalidFormsAreRefused := by
  refine ⟨⟨fun s core f => ⟨?_, ?_, ?_, ?_⟩, fun s core f => (exec_mxFeed_refused_iff core f s).symm, fun s core f ht ha => ?_⟩,
    fun s core f => ⟨exec_vxSlotOps_refused_of_ty_three core s, exec_vx_refused_of_ty_ne_zero core s, fun hd => ?_, fun ha => ?_⟩⟩
  · simp [exec_refused_iff, refusedForm, or_assoc]
  · simp [exec_refused_iff, refusedForm, or_assoc]
  · simp [exec_refused_iff, refusedForm]
  · simp [exec_refused_iff, refusedForm]
  · rcases ha with ha | ha <;> simp [exec_refused_iff, refusedForm, ht, ha]
  · rcases hd with hd | hd
    · simp [exec_refused_iff, refusedForm, vxFormOk, hd]
    · simp [exec_refused_iff, refusedForm, vxFormOk, Nat.not_lt.mpr hd]
  · simp [exec_refused_iff, refusedForm, vxFormOk, Nat.not_le.mpr ha]

end Sys2Proof.Machine
end

section
/-! SUPPORT. A state with one core given: what reads of it return, and how updates of that core compose. -/

namespace Sys2Proof.Machine

theorem mapPut_mapPut {α : Type} (l : List (Nat × α)) (k : Nat) (v w : α) : mapPut (mapPut l k v) k w = mapPut l k w := by
  induction l with
  | nil => simp [mapPut]
  | cons x t ih =>
    obtain ⟨a, u⟩ := x
    by_cases hlt : k < a
    · simp [mapPut, hlt]
    · by_cases he : a = k
      · simp [mapPut, he]
      · simp [mapPut, hlt, he, ih]

/-- The state with a core's state replaced. -/
def State.withCore (s : State) (k : Nat) (c : CoreSt) : State := { s with dev := s.dev.setCore k c }

theorem State.onCore_eq_withCore (s : State) (k : Nat) (f : CoreSt → CoreSt) : s.onCore k f = s.withCore k (f (s.dev.core k)) := rfl

@[simp] theorem State.withCore_core (s : State) (k : Nat) (c : CoreSt) : (s.withCore k c).dev.core k = c :=
  (Dev.core_setCore s.dev k k c).trans (if_pos rfl)

@[simp] theorem State.withCore_onCore (s : State) (k : Nat) (c : CoreSt) (f : CoreSt → CoreSt) :
    (s.withCore k c).onCore k f = s.withCore k (f c) := by
  rw [State.onCore_eq_withCore, State.withCore_core]
  simp [State.withCore, Dev.setCore, mapPut_mapPut]

@[simp] theorem State.withCore_mem (s : State) (k : Nat) (c : CoreSt) : (s.withCore k c).mem = s.mem := rfl

@[simp] theorem State.withCore_clean (s : State) (k : Nat) (c : CoreSt) (g : Nat) : (s.withCore k c).clean g = s.clean g := rfl

/-- A command that ends in the state with its core replaced acts on that core alone. -/
theorem coreActs_of_eq {i : Instr} {core : Nat} {s : State} {t : CoreSt} {p : CoreSt → Prop} (h : exec i s = ok (s.withCore core t))
    (hp : p t) : CoreActs i core s p := ⟨t, h, hp⟩

end Sys2Proof.Machine
end

section
/-! SUPPORT. Reads of rows and of stores without error change nothing (05 R197; 14 R442). -/

namespace Sys2Proof.Machine

theorem State.engRead_of_clean {s : State} {g : Nat} (core : Nat) (h : s.clean g = true) : s.engRead core g = (readRow s.mem g, s) := by
  simp only [State.clean, Bool.and_eq_true, Bool.not_eq_true'] at h
  obtain ⟨hsoft, hbad⟩ := h
  simp only [State.engRead, State.onDev, Dev.eccRead, hsoft, hbad, Bool.false_eq_true, if_false]

theorem CellErrs.faulty_of_none {e : CellErrs} (hbad : e.bad = []) (hm : e.mDiff = []) (hp : e.pDiff = 0) (x : Cell) : e.faulty x = false := by
  cases x <;> simp [CellErrs.faulty, hbad, hm, hp]

theorem Dev.cellRead_of_sound {d : Dev} {core : Nat} (h : (d.core core).sound = true) (x : Cell) : d.cellRead core x = d := by
  simp only [CoreSt.sound, Bool.and_eq_true, List.isEmpty_iff, beq_iff_eq] at h
  obtain ⟨⟨⟨hsoft, hbad⟩, hm⟩, hp⟩ := h
  simp [Dev.cellRead, hsoft, CellErrs.faulty_of_none hbad hm hp]

theorem State.onDev_cellRead_of_sound {s : State} {core : Nat} (h : (s.dev.core core).sound = true) (x : Dev → Cell) :
    s.onDev (fun d => d.cellRead core (x d)) = s := by
  simp only [State.onDev, Dev.cellRead_of_sound h]

theorem State.readCells_of_sound {s : State} {core : Nat} (h : (s.dev.core core).sound = true) : s.readCells core = s := by
  have hf (l : List Cell) : l.foldl (fun d x => d.cellRead core x) s.dev = s.dev := by
    induction l with
    | nil => rfl
    | cons x l ih => rw [List.foldl_cons, Dev.cellRead_of_sound h, ih]
  unfold State.readCells
  split
  · rfl
  · simp [State.onDev, hf]

end Sys2Proof.Machine
end

section
/-! SUPPORT. A slot operation: taken as its bundle issues, or counted as a wait (04 R125). -/

namespace Sys2Proof.Machine

theorem State.atIssue_iff {s : State} {core : CoreId} : s.atIssue core = true ↔
    s.dev.coreRuns core = true ∧ (s.dev.core core).ready = true ∧ badRow s core = none ∧ (s.dev.core core).sound = true := by
  simp [State.atIssue, and_assoc]

/-- An operation that fits, of a bundle that issues, acts on the state with the bundle marked as issuing. -/
theorem State.slotOr_of_issues {s : State} {core : CoreId} {gxSlot : Bool} {fits : CoreSt → Bool} (f g : State → State)
    (ha : s.atIssue core = true) (hi : ((s.dev.core core).issued || bundleFits s core gxSlot) = true) (hf : fits (s.dev.core core) = true) :
    s.slotOr core gxSlot fits f g = f (s.withCore core { s.dev.core core with issued := true }) := by
  obtain ⟨hruns, hready, hrow, hsound⟩ := State.atIssue_iff.mp ha
  simp [State.slotOr, hruns, hready, hrow, hf, hi, State.readCells_of_sound hsound, State.onCore_eq_withCore]

/-- An operation that does not fit waits, and the cycle counts. -/
theorem State.slotOr_of_not_fits {s : State} {core : CoreId} {gxSlot : Bool} {fits : CoreSt → Bool} (f g : State → State)
    (ha : s.atIssue core = true) (hf : fits (s.dev.core core) = false) : s.slotOr core gxSlot fits f g = g s := by
  obtain ⟨hruns, hready, hrow, -⟩ := State.atIssue_iff.mp ha
  simp [State.slotOr, hruns, hready, hrow, hf]

end Sys2Proof.Machine
end

section
/-! SUPPORT. Operations enter the MX queue (03 R121; 04 R126). -/

namespace Sys2Proof.Machine

@[simp] theorem CoreSt.mxStallTick_mxQ (c : CoreSt) (n : Nat) : (c.mxStallTick n).mxQ = c.mxQ := rfl

theorem mxBase_eq (c : CoreSt) (sreg : BitVec 5) (roff : BitVec 20) :
    mxBase c sreg roff = ((c.sreg sreg.toNat).toNat + roff.toNat) % 2 ^ 32 := Nat.mod_add_mod _ _ _

theorem mxEnqueue_of_room {s : State} {core : CoreId} (op : CoreSt → MxOp) (hi : s.issues core = true)
    (hq : (s.dev.core core).mxQ.length < 2) : mxEnqueue core op s =
      s.withCore core { s.dev.core core with
        issued := true, mxQ := (s.dev.core core).mxQ ++ [op { s.dev.core core with issued := true }] } := by
  obtain ⟨ha, hb⟩ := (Bool.and_eq_true _ _).mp hi
  exact (State.slotOr_of_issues _ _ ha hb (decide_eq_true hq)).trans (State.withCore_onCore ..)

theorem mxEnqueue_of_full {s : State} {core : CoreId} (op : CoreSt → MxOp) (ha : s.atIssue core = true)
    (hq : 2 ≤ (s.dev.core core).mxQ.length) : mxEnqueue core op s = s.withCore core ((s.dev.core core).mxStallTick 1) :=
  State.slotOr_of_not_fits _ _ ha (decide_eq_false (Nat.not_lt.mpr hq))

theorem exec_mxLoad_of_valid (core : CoreId) {f : MxLoadFields} (s : State) (hp : mxPairOk f.wfmt.toNat f.afmt.toNat = true)
    (ht : f.trans = true → f.afmt ≠ 3 ∧ f.afmt ≠ 4) :
    exec (.mxLoad core f) s = ok (mxEnqueue core (fun c => .load f (mxBase c f.sreg f.roff) c.seq) s) := by
  have h3 : f.afmt.toNat = 3 ↔ f.afmt = 3 := (BitVec.toNat_eq (y := 3)).symm
  have h4 : f.afmt.toNat = 4 ↔ f.afmt = 4 := (BitVec.toNat_eq (y := 4)).symm
  exact if_neg (by simpa [hp, h3, h4] using ht)

theorem exec_mxFeed_of_valid (core : CoreId) {f : MxFeedFields} (s : State) (ha : f.acc ≠ 3) (h0 : 0 < f.count.toNat)
    (hc : f.count.toNat ≤ 4096) (hv : f.srcsel = true → f.voff = 0) :
    exec (.mxFeed core f) s = ok (mxEnqueue core (fun c => .feed f (mxBase c f.sreg f.roff) c.seq) s) := by
  have hacc : f.acc.toNat ≠ 3 := fun h => ha (BitVec.eq_of_toNat_eq h)
  have hcount : f.count ≠ 0 := fun h => absurd h0 (by simp [h])
  exact (if_neg (by simpa [hacc, hc] using fun h => congrArg BitVec.toNat (hv h))).trans (if_neg fun h => hcount h.1)

/-- A LOAD or FEED in a valid form is queued with its row address as read at issue, or its waiting cycle counts (R121). -/
theorem coreActs_of_mxEnqueue {i : Instr} {core : CoreId} {s : State} {op : CoreSt → MxOp} (he : exec i s = ok (mxEnqueue core op s)) :
    (s.issues core = true → (s.dev.core core).mxQ.length < 2 → CoreActs i core s fun t => t = { s.dev.core core with
      issued := true, mxQ := (s.dev.core core).mxQ ++ [op { s.dev.core core with issued := true }] }) ∧
    (s.atIssue core = true → 2 ≤ (s.dev.core core).mxQ.length → CoreActs i core s fun t =>
      t = (s.dev.core core).mxStallTick 1) :=
  ⟨fun hi hq => coreActs_of_eq (he.trans (congrArg ok (mxEnqueue_of_room op hi hq))) rfl,
    fun ha hq => coreActs_of_eq (he.trans (congrArg ok (mxEnqueue_of_full op ha hq))) rfl⟩

end Sys2Proof.Machine
end

section
/-! SUPPORT. A LOAD reads its image and writes the plane that is not active (03 R81, R96, R99; 05 R173). -/

namespace Sys2Proof.Machine

/-- A row that a core reads from its own pad without error. -/
def State.ownClean (s : State) (core g : Nat) : Prop :=
  graValid g = true ∧ graSpace g = 0 ∧ graCoreId g = core ∧ s.clean g = true

theorem loadRow_of_ownClean {s : State} {core g : Nat} (h : s.ownClean core g) : loadRow s core g = (readRow s.mem g, s) := by
  obtain ⟨hvalid, hspace, hcore, hclean⟩ := h
  exact (if_pos ⟨hvalid, .inl ⟨hspace, hcore⟩⟩).trans (State.engRead_of_clean core hclean)

/-- An image is read through the LOAD's two staging rows, and nothing else of the core moves (06 R203). -/
theorem loadImage_of_ownClean {s : State} {core : Nat} (l : List Nat) (c : CoreSt) (h : ∀ g ∈ l, s.ownClean core g) :
    ∃ a b, loadImage core l (s.withCore core c) = (l.map (readRow s.mem), s.withCore core { c with loadStageA := a, loadStageB := b }) := by
  induction l generalizing c with
  | nil => exact ⟨c.loadStageA, c.loadStageB, rfl⟩
  | cons g l ih =>
    have hg : (s.withCore core c).ownClean core g := h g (List.mem_cons_self ..)
    obtain ⟨a, b, hl⟩ := ih { c with loadStageA := some ⟨g, readRow s.mem g⟩, loadStageB := c.loadStageA }
      fun x hx => h x (List.mem_cons_of_mem g hx)
    exact ⟨a, b, by simp [loadImage, loadRow_of_ownClean hg, hl]⟩

/-- A plane's image goes to the plane that is not active, with its formats. -/
theorem loadPlane_withCore (s : State) (core : Nat) (c : CoreSt) (f : MxLoadFields) (img : List RowData) (store : Bool) :
    ∃ t : Tally, loadPlane (s.withCore core c) core f img store = s.withCore core { c with
      loadRun := none, loadStore := store, tally := t, cells := c.cells.mend (.plane (!c.activeB)),
      planeA := if c.activeB then ⟨img, f.wfmt, f.afmt, f.trans⟩ else c.planeA,
      planeB := if c.activeB then c.planeB else ⟨img, f.wfmt, f.afmt, f.trans⟩ } := by
  simp only [loadPlane, State.withCore_onCore]
  cases h : c.activeB <;> simp only [CoreSt.mend, h, Bool.false_eq_true, if_false, if_true] <;> exact ⟨_, rfl⟩

theorem inStore_mod (g : Nat) : inStore (g % 2 ^ 32) = inStore g := by
  rw [inStore, inStore, graSpace, bits_mod _ _ _ _ (by decide), graSpace]

theorem mxImageRows_pos (w : Nat) : 0 < mxImageRows w := by
  unfold mxImageRows
  split <;> decide

/-- A LOAD whose image lies in its core's pad starts at the head of the queue (R81, R96, R99, R121). -/
theorem loadTryStart_of_ownImage {s : State} {core base seq : Nat} {c : CoreSt} {f : MxLoadFields} {rest : List MxOp}
    (hc : s.dev.core core = c) (hq : c.mxQ = .load f base seq :: rest) (hl : c.loading = none) (hs : f.srcsel = false)
    (himg : ∀ i, i < mxImageRows f.wfmt.toNat → s.ownClean core ((base + i) % 2 ^ 32)) :
    ∃ (a b : Option Staged) (y : Tally), loadTryStart s core = s.withCore core
      (let p : MxPlane := ⟨(List.range (mxImageRows f.wfmt.toNat)).map fun i => readRow s.mem ((base + i) % 2 ^ 32), f.wfmt, f.afmt, f.trans⟩
      { c with
        mxQ := rest, loading := some seq, loadRun := none, loadStore := false, loadStageA := a, loadStageB := b, tally := y,
        cells := c.cells.mend (.plane (!c.activeB)), planeA := if c.activeB then p else c.planeA,
        planeB := if c.activeB then c.planeB else p }) := by
  have hstore : inStore base = false := by
    obtain ⟨-, hspace, -⟩ := himg 0 (mxImageRows_pos _)
    rw [Nat.add_zero] at hspace
    rw [← inStore_mod, inStore, hspace]
    rfl
  obtain ⟨a, b, himage⟩ := loadImage_of_ownClean ((List.range (mxImageRows f.wfmt.toNat)).map fun i => (base + i) % 2 ^ 32)
    { c with mxQ := rest, loading := some seq } (by simpa using himg)
  obtain ⟨y, hplane⟩ := loadPlane_withCore s core { c with mxQ := rest, loading := some seq, loadStageA := a, loadStageB := b } f
    (((List.range (mxImageRows f.wfmt.toNat)).map fun i => (base + i) % 2 ^ 32).map (readRow s.mem)) false
  refine ⟨a, b, y, ?_⟩
  rw [List.map_map] at hplane
  simp only [loadTryStart, hc, hq, hl, hs, State.onCore_eq_withCore, himage, hstore, List.map_map, Bool.false_eq_true, if_false]
  exact hplane

end Sys2Proof.Machine
end

section
/-! SUPPORT. A FEED puts its vectors into the stream (03 R100 to R102, R111, R120). -/

namespace Sys2Proof.Machine

theorem feedRow_of_ownClean {s : State} {core g : Nat} (h : s.ownClean core g) : feedRow s core g = (readRow s.mem g, s) := by
  obtain ⟨hvalid, hspace, hcore, hclean⟩ := h
  exact (if_pos ⟨hvalid, hspace, hcore⟩).trans (State.engRead_of_clean core hclean)

/-- The first row of a FEED, with nothing staged, is read and staged. -/
theorem feedStaged_of_empty {s : State} {core g : Nat} {c : CoreSt} (hs : c.feedStage = none) (ha : c.feedAhead = none)
    (hg : s.ownClean core g) : feedStaged (s.withCore core c) core g =
      (readRow s.mem g, s.withCore core { c with feedStage := some ⟨g, readRow s.mem g⟩ }) := by
  have hrow : feedRow (s.withCore core c) core g = (readRow s.mem g, s.withCore core c) := feedRow_of_ownClean (s := s.withCore core c) hg
  simp [feedStaged, hs, ha, hrow]

/-- The vector that step i of a FEED puts into the stream: with the active plane and the operation's accumulator fields (R101, R102, R104). -/
def CoreSt.feedVec (c : CoreSt) (f : MxFeedFields) (seq i : Nat) (raw : BitVec 2048) (side : DWord) : StreamVec :=
  let p := c.active
  let w := mxSubLanes p.wfmt.toNat
  let place := if p.trans then (f.entry.toNat + i / w, i % w) else (f.entry.toNat + w * i, 0)
  ⟨raw, side, mxClass p.afmt.toNat, p, f.acc, f.half, place.1 % 256, place.2, seq⟩

/-- The first vector of a FEED goes to the operation's entry. -/
theorem CoreSt.feedVec_zero_entry (c : CoreSt) (f : MxFeedFields) (seq : Nat) (raw : BitVec 2048) (side : DWord) :
    (c.feedVec f seq 0 raw side).entry = f.entry.toNat := by
  have hlt : f.entry.toNat < 256 := f.entry.isLt
  unfold CoreSt.feedVec
  cases c.active.trans <;> simp [Nat.mod_eq_of_lt hlt]

/-- Fewer than 128 vectors complete no position: no row of memory changes (R102). -/
theorem pushVec_of_short (s : State) {core : Nat} {c : CoreSt} (v : StreamVec) (hlen : c.stream.length < 127) :
    pushVec (s.withCore core c) core v = s.withCore core { c with stream := c.stream ++ [v] } := by
  have hshort : (c.stream ++ [v]).length < 128 := by simp; omega
  simp only [pushVec, State.withCore_core, hshort, if_true, State.withCore_onCore]

/-- The core with a vector's special codes counted: each element in the format of the plane that its array row uses (R88, R100). -/
def CoreSt.countVec (c : CoreSt) (raw : BitVec 2048) (side : DWord) : CoreSt :=
  let n := vecTally (fun k => ((c.active :: c.stream.reverse.map fun v => v.plane).getD k {}).afmt.toNat) (mxClass c.active.afmt.toNat) raw side
  c.count n.2 0 n.1

/-- With no swap due, a vector enters with the active plane, and its special codes are counted. -/
theorem feedPush_of_sound (s : State) {core : Nat} {c : CoreSt} (f : MxFeedFields) (seq i : Nat) (raw : BitVec 2048) (side : DWord)
    (hswap : c.swapNext = false) (hsound : c.sound = true) :
    feedPush (s.withCore core c) core f seq i raw side =
      pushVec (s.withCore core (c.countVec raw side)) core (c.feedVec f seq i raw side) := by
  have hread : (s.withCore core c).onDev (fun d => d.cellRead core (.plane (d.core core).activeB)) = s.withCore core c :=
    State.onDev_cellRead_of_sound (by simpa using hsound) _
  simp only [feedPush, State.withCore_core, hswap, Bool.false_eq_true, if_false, hread, State.withCore_onCore]
  rfl

theorem CoreSt.feedRun_none_eq_self {c : CoreSt} (h : c.feedRun = none) : { c with feedRun := none } = c := by rw [← h]

/-- The one vector of a pad FEED joins a stream too short for a position, and the FEED ends (R102, R105). -/
theorem feedLoop_one {s : State} {core base seq g : Nat} {c : CoreSt} {f : MxFeedFields} (hswap : c.swapNext = false)
    (hsound : c.sound = true) (hlen : c.stream.length < 127) (hrun : c.feedRun = none) (hsrc : f.srcsel = false)
    (hstage : c.feedStage = none) (hahead : c.feedAhead = none) (hcls : mxClass c.active.afmt.toNat ≠ 1)
    (hg : g = (base + vecRow (mxClass c.active.afmt.toNat) f.voff.toNat) % 2 ^ 32) (hown : s.ownClean core g) :
    ∃ y : Tally, feedLoop core f base seq none 1 0 (s.withCore core c) = s.withCore core
      { c with
        tally := y, feedStage := some ⟨g, readRow s.mem g⟩,
        stream := c.stream ++ [c.feedVec f seq 0 (vecRaw (mxClass c.active.afmt.toNat) f.voff.toNat (readRow s.mem g)) 0] } := by
  have hnext : nextClass c = mxClass c.active.afmt.toNat := by simp [nextClass, CoreSt.active, hswap]
  refine ⟨(c.countVec (vecRaw (mxClass c.active.afmt.toNat) f.voff.toNat (readRow s.mem g)) 0).tally, ?_⟩
  calc feedLoop core f base seq none 1 0 (s.withCore core c)
    _ = (feedPush (s.withCore core { c with feedStage := some ⟨g, readRow s.mem g⟩ }) core f seq 0
          (vecRaw (mxClass c.active.afmt.toNat) f.voff.toNat (readRow s.mem g)) 0).onCore core (fun c => { c with feedRun := none }) := by
        simp only [feedLoop, State.withCore_core, hnext, hsrc, Bool.false_eq_true, if_false, if_true, Nat.add_zero, hcls, ← hg,
          feedStaged_of_empty hstage hahead hown]
    _ = _ := by
        rw [feedPush_of_sound s f seq 0 _ _ (by exact hswap) (by exact hsound), pushVec_of_short s _ (by exact hlen), State.withCore_onCore]
        exact congrArg (s.withCore core) (CoreSt.feedRun_none_eq_self hrun)

/-- A FEED leaves the queue as it starts, and PAIRED counts it over a flagged low plane (R111, R121). -/
theorem feedStart_withCore {s : State} {core : Nat} {c : CoreSt} (f : MxFeedFields) (base seq : Nat) (hf : f.count ≠ 0) (hc : s.dev.core core = c) :
    ∃ y : Tally, feedStart s core f base seq = feedLoop core f base seq none f.count.toNat 0
      (s.withCore core { c with mxQ := c.mxQ.tail, swapNext := c.swapNext || f.swap, tally := y }) := by
  unfold feedStart
  rw [State.onCore_eq_withCore s, hc]
  simp only [hf, if_false, State.withCore_onCore]
  generalize (planeAnyFlag _ && _) = flagged
  cases flagged with
  | true => exact ⟨_, rfl⟩
  | false => exact ⟨_, rfl⟩

/-- The head of the queue starts as a FEED when no FEED waits at a ring and no LOAD is on its way (R121). -/
theorem feedTryStart_of_head {s : State} {core base seq : Nat} {f : MxFeedFields} {rest : List MxOp}
    (hq : (s.dev.core core).mxQ = .feed f base seq :: rest) (hrun : (s.dev.core core).feedRun = none)
    (hfree : ((f.swap || ((s.dev.core core).swapNext && f.count != 0)) && (s.dev.core core).loading.isSome) = false) :
    feedTryStart s core = feedStart s core f base seq := by
  simp only [feedTryStart, hq, hrun, List.head?_cons, hfree, Bool.false_eq_true, if_false]

/-- A FEED of no vectors with SWAP takes its place and changes no data (R100, R120). -/
theorem feedStart_of_no_vectors {s : State} {core : Nat} {f : MxFeedFields} (base seq : Nat) (hf : f.count = 0) (hswap : f.swap = true) :
    feedStart s core f base seq = s.withCore core
      { s.dev.core core with mxQ := (s.dev.core core).mxQ.tail, swapNext := true } := by
  simp only [feedStart, hf, hswap, Bool.or_true, if_true]
  rfl

end Sys2Proof.Machine
end

section
/-! O16. -/

namespace Sys2Proof.Machine

theorem exec_mxLoadStart_coreActs {s : State} {core : CoreId} {c : CoreSt} {f : MxLoadFields} {base seq : Nat} {rest : List MxOp}
    (hc : s.dev.core core = c) (hruns : s.dev.coreRuns core = true) (hq : c.mxQ = .load f base seq :: rest) (hl : c.loading = none)
    (hsrc : f.srcsel = false) (himg : ∀ i, i < mxImageRows f.wfmt.toNat → s.ownClean core ((base + i) % 2 ^ 32)) :
    CoreActs (.mxLoadStart core) core s fun t =>
      let p : MxPlane := ⟨(List.range (mxImageRows f.wfmt.toNat)).map (fun i => readRow s.mem ((base + i) % 2 ^ 32)), f.wfmt, f.afmt, f.trans⟩
      t = { c with
        mxQ := rest, loading := some seq, loadRun := none, loadStore := false, loadStageA := t.loadStageA, loadStageB := t.loadStageB,
        tally := t.tally, cells := c.cells.mend (.plane (!c.activeB)),
        planeA := if c.activeB then p else c.planeA, planeB := if c.activeB then c.planeB else p } := by
  obtain ⟨a, b, y, h⟩ := loadTryStart_of_ownImage hc hq hl hsrc himg
  exact coreActs_of_eq (congrArg ok ((if_pos hruns).trans h)) rfl

theorem exec_mxLoadComplete_coreActs {s : State} {core : CoreId} {c : CoreSt} (held : Nat) (hc : s.dev.core core = c)
    (hruns : s.dev.coreRuns core = true) (hl : c.loading.isSome = true) (hrun : c.loadRun = none) (hq : c.mxQ = []) :
    CoreActs (.mxLoadComplete core held) core s fun t =>
      t = { c with loading := none, tally := { c.tally with mxStall := c.tally.mxStall + BitVec.ofNat 64 (if c.loadStore then held else 0) } } := by
  subst hc
  refine coreActs_of_eq (congrArg ok ((if_pos ⟨hruns, hl, hrun⟩).trans ?_)) rfl
  simp only [State.onCore_eq_withCore, State.withCore_core, CoreSt.mxStallTick_mxQ, hq, List.head?_nil]
  rfl

theorem exec_mxFeedStart_swap_coreActs {s : State} {core : CoreId} {c : CoreSt} {f : MxFeedFields} {base seq : Nat} {rest : List MxOp}
    (hc : s.dev.core core = c) (hruns : s.dev.coreRuns core = true) (hq : c.mxQ = .feed f base seq :: rest) (hrun : c.feedRun = none)
    (hl : c.loading = none) (hf : f.count = 0) (hswap : f.swap = true) :
    CoreActs (.mxFeedStart core) core s fun t => t = { c with mxQ := rest, swapNext := true } := by
  subst hc
  refine coreActs_of_eq (congrArg ok ((if_pos hruns).trans ((feedTryStart_of_head hq hrun (by simp [hl])).trans
    (feedStart_of_no_vectors base seq hf hswap)))) ?_
  rw [hq, List.tail_cons]

/-- A FEED of one pad vector: its row is staged, and its vector stands at the end of the stream. -/
theorem exec_mxFeedStart_one {s : State} {core : CoreId} {c : CoreSt} {f : MxFeedFields} {base seq g : Nat} {rest : List MxOp}
    (hc : s.dev.core core = c) (hruns : s.dev.coreRuns core = true) (hsound : c.sound = true) (hq : c.mxQ = .feed f base seq :: rest)
    (hrun : c.feedRun = none) (hnext : c.swapNext = false) (hswap : f.swap = false) (hf : f.count = 1) (hsrc : f.srcsel = false)
    (hstage : c.feedStage = none) (hahead : c.feedAhead = none) (hlen : c.stream.length < 127) (hcls : mxClass c.active.afmt.toNat ≠ 1)
    (hg : g = (base + vecRow (mxClass c.active.afmt.toNat) f.voff.toNat) % 2 ^ 32) (hown : s.ownClean core g) :
    ∃ y : Tally, exec (.mxFeedStart core) s = ok (s.withCore core { c with
      mxQ := rest, tally := y, feedStage := some ⟨g, readRow s.mem g⟩,
      stream := c.stream ++ [c.feedVec f seq 0 (vecRaw (mxClass c.active.afmt.toNat) f.voff.toNat (readRow s.mem g)) 0] }) := by
  obtain ⟨y, hstart⟩ := feedStart_withCore f base seq (by simp [hf]) hc
  rw [hq, List.tail_cons, hswap, Bool.or_false, hf] at hstart
  obtain ⟨z, hloop⟩ := feedLoop_one (s := s) (core := core) (base := base) (seq := seq) (g := g) (c := { c with mxQ := rest, tally := y })
    hnext hsound hlen hrun hsrc hstage hahead hcls hg hown
  subst hc
  have htry := feedTryStart_of_head hq hrun (by simp [hswap, hnext])
  exact ⟨z, congrArg ok ((if_pos hruns).trans (htry.trans (hstart.trans hloop)))⟩

/-- Settles O16: operations queue by R121; a LOAD's image and a FEED's vector are read from rows without error, which changes nothing else. -/
theorem matrixOperationsRunInOrder : Obligations.MatrixOperationsRunInOrder := by
  refine ⟨⟨fun s core f c hc hp ht => ?_, fun s core f c hc ha h0 h4096 hv => ?_⟩,
    ⟨fun s core c f base seq rest hc hruns hq hl hsrc himg => exec_mxLoadStart_coreActs hc hruns hq hl hsrc himg,
      fun s core c held hc hruns hl hrun hq => exec_mxLoadComplete_coreActs held hc hruns hl hrun hq⟩,
    fun s core c f base seq rest hc hruns hq hrun hl hf hswap => exec_mxFeedStart_swap_coreActs hc hruns hq hrun hl hf hswap,
    fun s core c f base seq rest hc hruns hsound hq hrun hnext hswap hf hsrc hstage hahead hlen hcls g hg hvalid hspace hcore hclean => ?_⟩
  · subst hc
    simp only [← mxBase_eq]
    exact coreActs_of_mxEnqueue (exec_mxLoad_of_valid core s hp ht)
  · subst hc
    simp only [← mxBase_eq]
    exact coreActs_of_mxEnqueue (exec_mxFeed_of_valid core s ha h0 h4096 hv)
  · obtain ⟨y, h⟩ := exec_mxFeedStart_one hc hruns hsound hq hrun hnext hswap hf hsrc hstage hahead hlen hcls hg
      ⟨hvalid, hspace, hcore, hclean⟩
    exact coreActs_of_eq h ⟨_, rfl, rfl, rfl, rfl, rfl, CoreSt.feedVec_zero_entry .., rfl⟩

end Sys2Proof.Machine
end

section
/-! SUPPORT. The end of a bundle (04 R126, R128, R129, R136): what it counts, and what it leaves. -/

namespace Sys2Proof.Machine

theorem State.sound_of_issues {s : State} {core : CoreId} (h : s.issues core = true) : (s.dev.core core).sound = true :=
  (State.atIssue_iff.mp (Bool.and_eq_true _ _ ▸ h).1).2.2.2

/-- A slot operation of a bundle that issues acts on the state with the bundle marked as issuing. -/
theorem State.slot_of_issues {s : State} {core : CoreId} (f : State → State) (h : s.issues core = true) :
    s.slot core f = f (s.withCore core { s.dev.core core with issued := true }) := by
  obtain ⟨ha, hi⟩ := (Bool.and_eq_true _ _).mp h
  exact State.slotOr_of_issues _ _ ha hi rfl

/-! ### Stores without error -/

theorem CellErrs.mend_of_none {e : CellErrs} (hs : e.soft = []) (hb : e.bad = []) (hm : e.mDiff = []) (hp : e.pDiff = 0) (x : Cell) :
    e.mend x = e := by
  have hpred (i : Nat) : BitVec.ofNat 8 (setBits 0 i i 0) = 0 := by simp [setBits]
  cases e
  subst hs hb hm hp
  cases x <;> simp [CellErrs.mend, hpred]

theorem CoreSt.sound_iff {c : CoreSt} : c.sound = true ↔ c.cells.soft = [] ∧ c.cells.bad = [] ∧ c.cells.mDiff = [] ∧ c.cells.pDiff = 0 := by
  simp [CoreSt.sound, and_assoc]

theorem CoreSt.mend_of_sound {c : CoreSt} (h : c.sound = true) (x : Cell) : c.mend x = c := by
  obtain ⟨hs, hb, hm, hp⟩ := CoreSt.sound_iff.mp h
  rw [CoreSt.mend, CellErrs.mend_of_none hs hb hm hp]

theorem CoreSt.setS_of_sound {c : CoreSt} (h : c.sound = true) (i : Nat) (v : DWord) :
    c.setS i v = { c with s := if i = 0 then c.s else mapSet (fun _ => 0) c.s i v } := by
  rw [CoreSt.setS, CoreSt.mend_of_sound h]
  split <;> rfl

theorem CoreSt.sreg_setS_same (c : CoreSt) (i : Nat) (v : DWord) : (c.setS i v).sreg i = if i = 0 then 0 else v := by
  by_cases h : i = 0
  · simp [CoreSt.sreg, h]
  · simp only [CoreSt.setS, CoreSt.sreg, h, if_false]
    exact mapGet_mapSet_self ..

theorem CoreSt.sreg_setS_other (c : CoreSt) {i r : Nat} (v : DWord) (h : r ≠ i) : (c.setS i v).sreg r = c.sreg r := by
  by_cases hi : i = 0
  · simp [CoreSt.setS, hi]
  · have hget : mapGet (fun _ => 0) (mapSet (fun _ => 0) c.s i v) r = mapGet (fun _ => 0) c.s r := mapGet_mapSet_ne v h
    simp only [CoreSt.setS, CoreSt.sreg, hi, if_false, hget]

/-! ### The end of a bundle -/

/-- Of results that have not landed, or whose fourth bundle is still to come, none is due. -/
theorem filter_due_of_none {l : List SxPending} {n : Nat} (h : ∀ p ∈ l, p.landed = false ∨ n < p.seq + 4) :
    l.filter (fun p => p.landed && decide (p.seq + 4 ≤ n)) = [] ∧ l.filter (fun p => !(p.landed && decide (p.seq + 4 ≤ n))) = l := by
  have hnot (p : SxPending) (hp : p ∈ l) : (p.landed && decide (p.seq + 4 ≤ n)) = false := by
    rcases h p hp with hl | hl
    · rw [hl, Bool.false_and]
    · rw [decide_eq_false (Nat.not_le.mpr hl), Bool.and_false]
  exact ⟨List.filter_eq_nil_iff.mpr fun p hp => by rw [hnot p hp]; decide, List.filter_eq_self.mpr fun p hp => by rw [hnot p hp]; rfl⟩

/-- With no result due, none is written. -/
theorem sxApplyDue_of_none_due {c : CoreSt} (h : ∀ p ∈ c.sxPend, p.landed = false ∨ c.seq < p.seq + 4) : sxApplyDue c = c := by
  obtain ⟨hdue, hkeep⟩ := filter_due_of_none h
  simp only [sxApplyDue, hdue, hkeep, List.foldl_nil]

theorem CoreSt.quiet_iff {c : CoreSt} : c.quiet = true ↔ ∀ p ∈ c.sxPend, p.landed = false ∨ c.seq + 1 < p.seq + 4 := by
  simp only [CoreSt.quiet, List.all_eq_true, Bool.not_and, Bool.or_eq_true, Bool.not_eq_true', decide_eq_false_iff_not, Nat.not_le]

/-- The next bundle (04 R128, R129). -/
def CoreSt.nextPc (c : CoreSt) : Nat :=
  match (loopEdges c.pc c.loops c.lc).2.2 with
  | some b => b
  | none => if c.pc = c.last then c.first else c.pc + 1

/-- The end of a bundle with which no result becomes visible. -/
theorem bundleDone_of_quiet {c : CoreSt} (h : c.quiet = true) :
    bundleDone c = { c with
      loops := (loopEdges c.pc c.loops c.lc).1, lc := (loopEdges c.pc c.loops c.lc).2.1, pc := c.nextPc, seq := c.seq + 1, issued := false,
      issue := { c.issue with bundles := c.issue.bundles + 1 } } :=
  sxApplyDue_of_none_due (CoreSt.quiet_iff.mp h)

/-- Only scalar registers, predicates and results on their way differ, on a core whose bundle is issuing. -/
def CoreSt.sxOnly (c x : CoreSt) : Prop := x = { c with issued := true, s := x.s, p := x.p, sxPend := x.sxPend }

/-- The end of a bundle whose scalar operation changed only registers, predicates and results on their way. -/
theorem bundleDone_counted {c x : CoreSt} (hx : c.sxOnly x) (hq : x.quiet = true) : c.counted (bundleDone x) := by
  rw [bundleDone_of_quiet hq]
  rw [CoreSt.sxOnly] at hx
  rw [hx]
  rfl

theorem bundleDone_fields {x : CoreSt} (hq : x.quiet = true) :
    (bundleDone x).s = x.s ∧ (bundleDone x).p = x.p ∧ (bundleDone x).sxPend = x.sxPend ∧ (bundleDone x).cells = x.cells := by
  rw [bundleDone_of_quiet hq]
  exact ⟨rfl, rfl, rfl, rfl⟩

theorem CoreSt.sreg_of_s {c x : CoreSt} (h : x.s = c.s) (r : Nat) : x.sreg r = c.sreg r := by rw [CoreSt.sreg, CoreSt.sreg, h]

end Sys2Proof.Machine
end

section
/-! SUPPORT. A scalar operation of one result (04 R126, R132, R133). -/

namespace Sys2Proof.Machine

/-- A scalar operation that ends its bundle acts on its core alone. -/
theorem slot_bundleDone {s : State} {core : CoreId} {f : CoreSt → CoreSt} (hi : s.issues core = true) :
    s.slot core (fun s => s.onCore core f) = s.withCore core (f { s.dev.core core with issued := true }) := by
  rw [State.slot_of_issues _ hi, State.withCore_onCore]

/-- A bundle that ends with its registers, predicates and results as they were writes nothing. -/
theorem sxWrites_nothing {i : Instr} {core : CoreId} {s : State} (hq : (s.dev.core core).quiet = true)
    (he : exec i s = ok (s.withCore core (bundleDone { s.dev.core core with issued := true }))) : SxWrites i core s 0 0 := by
  have hq' : ({ s.dev.core core with issued := true } : CoreSt).quiet = true := hq
  obtain ⟨hs, hp, hpend, -⟩ := bundleDone_fields hq'
  exact coreActs_of_eq he ⟨bundleDone_counted rfl hq', hp, hpend, rfl, fun r _ => CoreSt.sreg_of_s hs r⟩

/-- A bundle that ends with one register written. -/
theorem sxWrites_setS {i : Instr} {core : CoreId} {s : State} {d : Nat} {v : DWord} (hi : s.issues core = true)
    (hq : (s.dev.core core).quiet = true)
    (he : exec i s = ok (s.withCore core (bundleDone (({ s.dev.core core with issued := true } : CoreSt).setS d v)))) :
    SxWrites i core s d v := by
  have hsound : ({ s.dev.core core with issued := true } : CoreSt).sound = true := State.sound_of_issues hi
  have hset := CoreSt.setS_of_sound hsound d v
  have hq' : (({ s.dev.core core with issued := true } : CoreSt).setS d v).quiet = true := by rw [hset]; exact hq
  obtain ⟨hs, hp, hpend, -⟩ := bundleDone_fields hq'
  refine coreActs_of_eq he ⟨bundleDone_counted (by rw [CoreSt.sxOnly, hset]) hq', by rw [hp, hset], by rw [hpend, hset], ?_, fun r hr => ?_⟩
  · rw [CoreSt.sreg_of_s hs, CoreSt.sreg_setS_same]
  · rw [CoreSt.sreg_of_s hs, CoreSt.sreg_setS_other _ _ hr]
    rfl

variable {i : Instr} {core : CoreId} {s : State} {f : SxFields} {v : CoreSt → DWord}

theorem sxAlu_of_issues (v : CoreSt → DWord) (f : SxFields) (hi : s.issues core = true) :
    sxAlu core f v s = s.withCore core (bundleDone
      (if ((s.dev.core core).pred f.pred.toNat != f.pneg) = true then
        ({ s.dev.core core with issued := true } : CoreSt).setS f.d.toNat (v { s.dev.core core with issued := true })
      else { s.dev.core core with issued := true })) :=
  slot_bundleDone hi

theorem sxWrites_of_alu {w : DWord} (hi : s.issues core = true) (hq : (s.dev.core core).quiet = true)
    (hp : ((s.dev.core core).pred f.pred.toNat != f.pneg) = true) (he : exec i s = ok (sxAlu core f v s))
    (hv : v { s.dev.core core with issued := true } = w) : SxWrites i core s f.d.toNat w :=
  sxWrites_setS hi hq (by rw [he, sxAlu_of_issues v f hi, if_pos hp, hv])

theorem sxWrites_of_alu_false (hi : s.issues core = true) (hq : (s.dev.core core).quiet = true)
    (hp : ((s.dev.core core).pred f.pred.toNat != f.pneg) = false) (he : exec i s = ok (sxAlu core f v s)) : SxWrites i core s 0 0 :=
  sxWrites_nothing hq (by rw [he, sxAlu_of_issues v f hi, if_neg (by simp [hp])])

end Sys2Proof.Machine
end

section
/-! O10. -/

namespace Sys2Proof.Machine

theorem sxImm_eq (f : SxFields) : sxImm f = BitVec.ofInt 64 f.imm.toInt := rfl

/-- A value is its own two's complement pattern. -/
theorem ofInt_min_toInt (a b : DWord) : (if a.slt b then a else b) = BitVec.ofInt 64 (min a.toInt b.toInt) := by
  simp only [BitVec.slt, decide_eq_true_eq]
  split
  next h => rw [min_eq_left h.le, BitVec.ofInt_toInt]
  next h => rw [min_eq_right (Int.not_lt.mp h), BitVec.ofInt_toInt]

theorem ofInt_max_toInt (a b : DWord) : (if a.slt b then b else a) = BitVec.ofInt 64 (max a.toInt b.toInt) := by
  simp only [BitVec.slt, decide_eq_true_eq]
  split
  next h => rw [max_eq_right h.le, BitVec.ofInt_toInt]
  next h => rw [max_eq_left (Int.not_lt.mp h), BitVec.ofInt_toInt]

theorem ofNat_toNat_self (a : DWord) : BitVec.ofNat 64 a.toNat = a := by rw [BitVec.ofNat_toNat, BitVec.setWidth_eq]

theorem ofInt_sub_toInt (a b : DWord) : a - b = BitVec.ofInt 64 (a.toInt - b.toInt) :=
  BitVec.eq_of_toInt_eq (by rw [BitVec.toInt_sub, BitVec.toInt_ofInt])

theorem ofInt_add_toInt_signExtend (a : DWord) {w : Nat} (b : BitVec w) : a + b.signExtend 64 = BitVec.ofInt 64 (a.toInt + b.toInt) := by
  rw [BitVec.ofInt_add, BitVec.ofInt_toInt, BitVec.signExtend]

theorem ofNat_mul_toNat (a b : DWord) : a * b = BitVec.ofNat 64 (a.toNat * b.toNat) := by
  rw [BitVec.ofNat_mul, ofNat_toNat_self, ofNat_toNat_self]

theorem ofNat_and_toNat (a b : DWord) : a &&& b = BitVec.ofNat 64 (a.toNat &&& b.toNat) := by
  rw [BitVec.ofNat_and, ofNat_toNat_self, ofNat_toNat_self]

theorem ofNat_or_toNat (a b : DWord) : a ||| b = BitVec.ofNat 64 (a.toNat ||| b.toNat) := by
  rw [BitVec.ofNat_or, ofNat_toNat_self, ofNat_toNat_self]

theorem ofNat_xor_toNat (a b : DWord) : a ^^^ b = BitVec.ofNat 64 (a.toNat ^^^ b.toNat) := by
  rw [BitVec.ofNat_xor, ofNat_toNat_self, ofNat_toNat_self]

theorem ofNat_shiftLeft (a : DWord) (n : Nat) : a <<< n = BitVec.ofNat 64 (a.toNat * 2 ^ n) :=
  BitVec.eq_of_toNat_eq (by rw [BitVec.toNat_shiftLeft, Nat.shiftLeft_eq, BitVec.toNat_ofNat])

theorem ofNat_ushiftRight (a : DWord) (n : Nat) : a >>> n = BitVec.ofNat 64 (a.toNat / 2 ^ n) := by
  apply BitVec.eq_of_toNat_eq
  rw [BitVec.toNat_ushiftRight, BitVec.toNat_ofNat, Nat.shiftRight_eq_div_pow, Nat.mod_eq_of_lt (lt_of_le_of_lt (Nat.div_le_self ..) a.isLt)]

theorem ofInt_sshiftRight (a : DWord) (n : Nat) : a.sshiftRight n = BitVec.ofInt 64 (a.toInt / 2 ^ n) := by
  rw [BitVec.sshiftRight, Int.shiftRight_eq_div_pow]
  rfl

theorem ofNat_shiftLeft_or (a : DWord) (n : Nat) {w : Nat} (b : BitVec w) :
    (a <<< n) ||| b.zeroExtend 64 = BitVec.ofNat 64 (a.toNat * 2 ^ n ||| b.toNat) := by
  rw [BitVec.ofNat_or, ofNat_shiftLeft, BitVec.ofNat_toNat]

/-- Settles O10: each operation writes what its function of the operands answers, which is its value of Table 4.3 modulo 2^64. -/
theorem scalarArithmeticWraps : Obligations.ScalarArithmeticWraps := by
  intro s core f c hc hi hq hp
  subst hc
  exact ⟨sxWrites_of_alu hi hq hp rfl (BitVec.add_def ..), sxWrites_of_alu hi hq hp rfl (ofInt_sub_toInt ..),
    sxWrites_of_alu hi hq hp rfl (ofInt_add_toInt_signExtend ..), sxWrites_of_alu hi hq hp rfl (ofNat_mul_toNat ..),
    sxWrites_of_alu hi hq hp rfl (ofNat_and_toNat ..), sxWrites_of_alu hi hq hp rfl (ofNat_or_toNat ..),
    sxWrites_of_alu hi hq hp rfl (ofNat_xor_toNat ..), sxWrites_of_alu hi hq hp rfl (ofNat_shiftLeft ..),
    sxWrites_of_alu hi hq hp rfl (ofNat_ushiftRight ..), sxWrites_of_alu hi hq hp rfl (ofInt_sshiftRight ..),
    sxWrites_of_alu hi hq hp rfl (ofInt_min_toInt ..), sxWrites_of_alu hi hq hp rfl (ofInt_max_toInt ..),
    sxWrites_of_alu hi hq hp rfl rfl, sxWrites_of_alu hi hq hp rfl (ofNat_shiftLeft_or ..),
    fun him => sxWrites_of_alu hi hq hp (if_neg (Nat.not_le.mpr him)) (BitVec.ofNat_toNat ..).symm⟩

end Sys2Proof.Machine
end
section
/-! SUPPORT. Compares, loops and late results of the scalar slot (04 R129, R133 to R136, Table 4.3). -/

namespace Sys2Proof.Machine

/-! ### Compares -/

theorem CoreSt.setP_of_sound {c : CoreSt} (h : c.sound = true) (i : Nat) (b : Bool) :
    c.setP i b = { c with p := if i = 0 then c.p else BitVec.ofNat 8 (setBits c.p.toNat i i (b2n b)) } := by
  rw [CoreSt.setP, CoreSt.mend_of_sound h]
  split <;> rfl

theorem CoreSt.pred_of_sound {c : CoreSt} (h : c.sound = true) (i : Nat) : c.pred i = (decide (i = 0) || c.p.getLsbD i) := by
  obtain ⟨-, -, -, hp⟩ := CoreSt.sound_iff.mp h
  simp [CoreSt.pred, hp]

/-- A predicate written reads back, and leaves every other. -/
theorem getLsbD_setBits (p : BitVec 8) {i : Nat} (b : Bool) (hi : i < 8) (r : Nat) :
    (BitVec.ofNat 8 (setBits p.toNat i i (b2n b))).getLsbD r = if r = i then b else p.getLsbD r := by
  have hb : (b2n b).testBit 0 = b := by cases b <;> rfl
  rw [BitVec.getLsbD_ofNat, testBit_setBits _ _ _ _ _ (le_refl i)]
  by_cases hr : r = i
  · subst hr
    simp [hi, hb]
  · have hsplit : (if r < i then p.toNat.testBit r else if r ≤ i then (b2n b).testBit (r - i) else p.toNat.testBit r) = p.getLsbD r := by
      rw [← BitVec.testBit_toNat]
      split
      · rfl
      · rw [if_neg (by omega)]
    rw [hsplit, if_neg hr]
    by_cases h8 : r < 8
    · simp [h8]
    · simp [h8, BitVec.getLsbD_of_ge p r (Nat.not_lt.mp h8)]

theorem CoreSt.pred_setP {c : CoreSt} (h : c.sound = true) {i : Nat} (b : Bool) (h0 : 0 < i) (h8 : i < 8) (r : Nat) :
    (c.setP i b).pred r = if r = i then b else c.pred r := by
  have hset : (c.setP i b).sound = true := by rw [CoreSt.setP_of_sound h]; exact h
  have hp : (c.setP i b).p = BitVec.ofNat 8 (setBits c.p.toNat i i (b2n b)) := by
    rw [CoreSt.setP_of_sound h]
    exact if_neg h0.ne'
  rw [CoreSt.pred_of_sound hset, hp, getLsbD_setBits _ _ h8, CoreSt.pred_of_sound h]
  by_cases hr : r = i
  · subst hr
    simp [h0.ne']
  · simp [hr]

theorem CoreSt.pred_of_fields {c x : CoreSt} (hp : x.p = c.p) (he : x.cells = c.cells) (r : Nat) : x.pred r = c.pred r := by
  rw [CoreSt.pred, CoreSt.pred, hp, he]

theorem sxCond_eq_condHolds (k : Nat) (a b : DWord) : sxCond k a b = condHolds k a b := by
  unfold sxCond condHolds
  split <;> simp [BitVec.slt, BitVec.sle, BitVec.ult, BitVec.ule, bne, beq_eq_decide]

/-- A two's complement pattern as an integer. -/
theorem toInt_ofNat_eq_sext {w : Nat} (hw : 0 < w) (n : Nat) : (BitVec.ofNat w n).toInt = sext w n := by
  obtain ⟨k, rfl⟩ : ∃ k, w = k + 1 := ⟨w - 1, by omega⟩
  rw [BitVec.toInt_eq_toNat_cond, BitVec.toNat_ofNat, sext]
  simp only [Nat.add_sub_cancel, Nat.pow_succ']
  by_cases h : n % (2 * 2 ^ k) < 2 ^ k
  · rw [if_pos h, if_pos (by omega)]
  · rw [if_neg h, if_neg (by omega)]

/-- The immediate of CMPI. -/
theorem sxCmpi_imm (imm : BitVec 23) : (imm.extractLsb' 3 20).signExtend 64 = BitVec.ofInt 64 (sext 20 (imm.toNat / 8)) := by
  rw [BitVec.signExtend, BitVec.extractLsb', toInt_ofNat_eq_sext (by decide), Nat.shiftRight_eq_div_pow]

section
variable {s : State} {core : CoreId} {f : SxFields}

theorem sxCompare_of_issues (rhs : CoreSt → DWord) (hi : s.issues core = true) (h0 : 0 < f.d.toNat) (h8 : f.d.toNat < 8)
    (hc : f.imm.toNat % 8 < 6) :
    sxCompare core f rhs s = ok (s.withCore core (bundleDone
      (if ((s.dev.core core).pred f.pred.toNat != f.pneg) = true then
        ({ s.dev.core core with issued := true } : CoreSt).setP f.d.toNat
          (sxCond (f.imm.toNat % 8) (sxA f { s.dev.core core with issued := true }) (rhs { s.dev.core core with issued := true }))
      else { s.dev.core core with issued := true }))) :=
  (if_neg (by omega)).trans (congrArg ok (slot_bundleDone hi))

/-- A compare whose predicate is true writes the condition of its operands to its predicate, and no other. -/
theorem coreActs_of_compare {i : Instr} {rhs : CoreSt → DWord} {b : DWord} (hi : s.issues core = true)
    (hq : (s.dev.core core).quiet = true) (hp : ((s.dev.core core).pred f.pred.toNat != f.pneg) = true) (h0 : 0 < f.d.toNat)
    (h8 : f.d.toNat < 8) (hc : f.imm.toNat % 8 < 6) (he : exec i s = sxCompare core f rhs s)
    (hb : rhs { s.dev.core core with issued := true } = b) : CoreActs i core s fun t =>
      (s.dev.core core).counted t ∧ t.s = (s.dev.core core).s ∧ t.sxPend = (s.dev.core core).sxPend ∧
      (∀ r, r ≠ f.d.toNat → t.pred r = (s.dev.core core).pred r) ∧
      t.pred f.d.toNat = condHolds (f.imm.toNat % 8) ((s.dev.core core).sreg f.a.toNat) b := by
  have hsound : ({ s.dev.core core with issued := true } : CoreSt).sound = true := State.sound_of_issues hi
  rw [sxCompare_of_issues rhs hi h0 h8 hc, if_pos hp, hb] at he
  generalize hcond : sxCond (f.imm.toNat % 8) (sxA f { s.dev.core core with issued := true }) b = cond at he
  have hset := CoreSt.setP_of_sound hsound f.d.toNat cond
  have hq' : (({ s.dev.core core with issued := true } : CoreSt).setP f.d.toNat cond).quiet = true := by rw [hset]; exact hq
  obtain ⟨hs, hp', hpend, hcells⟩ := bundleDone_fields hq'
  have hpred (r : Nat) := (CoreSt.pred_of_fields hp' hcells r).trans (CoreSt.pred_setP hsound cond h0 h8 r)
  refine coreActs_of_eq he ⟨bundleDone_counted (by rw [CoreSt.sxOnly, hset]) hq', by rw [hs, hset], by rw [hpend, hset],
    fun r hr => (hpred r).trans (if_neg hr), (hpred _).trans ((if_pos rfl).trans ?_)⟩
  rw [← hcond, sxCond_eq_condHolds]
  rfl

end

/-! ### Loops -/

/-- No open loop ends at the bundle. -/
theorem loopEdges_of_ne {pc : Nat} {loops : List OpenLoop} (lc : List (Nat × BitVec 16)) (h : ∀ l ∈ loops, l.last ≠ pc) :
    loopEdges pc loops lc = (loops, lc, none) := by
  cases loops with
  | nil => rfl
  | cons l t => exact if_neg (h l (List.mem_cons_self ..))

/-- The innermost loop goes back with its counter raised while its body has iterations to run (R129). -/
theorem loopEdges_of_back {pc : Nat} {l : OpenLoop} (rest : List OpenLoop) (lc : List (Nat × BitVec 16)) (hl : l.last = pc)
    (hv : (mapGet (fun _ => 0) lc l.lc).toNat + 1 < l.count) :
    loopEdges pc (l :: rest) lc =
      (l :: rest, mapSet (fun _ => 0) lc l.lc (BitVec.ofNat 16 ((mapGet (fun _ => 0) lc l.lc).toNat + 1)), some l.first) :=
  (if_pos hl).trans (if_pos hv)

/-- A loop whose body has run COUNT times closes, and the next one is tested (R129). -/
theorem loopEdges_of_closed {pc : Nat} {l : OpenLoop} (rest : List OpenLoop) (lc : List (Nat × BitVec 16)) (hl : l.last = pc)
    (hv : l.count ≤ (mapGet (fun _ => 0) lc l.lc).toNat + 1) : loopEdges pc (l :: rest) lc = loopEdges pc rest lc :=
  (if_pos hl).trans (if_neg (Nat.not_lt.mpr hv))

/-- A bundle with no late result due and no loop ending at it opens a loop whose body begins at the next bundle (R129). -/
theorem exec_sxLoop_of_issues {s : State} {core : CoreId} (lc : BitVec 4) {last : BitVec 13} {count : BitVec 16} (hi : s.issues core = true)
    (hcount : count ≠ 0) (hlast : (s.dev.core core).pc < last.toNat) (hopen : (s.dev.core core).loops.length < 16) :
    exec (.sxLoop core lc last count) s =
      ok (s.withCore core (sxLoop lc last.toNat count.toNat { s.dev.core core with issued := true })) :=
  (if_neg fun h => h.elim hcount fun h => h.elim (Nat.not_le.mpr hlast) (Nat.not_le.mpr hopen)).trans
    (congrArg ok (slot_bundleDone hi))

theorem sxLoop_of_quiet {c : CoreSt} (lc : BitVec 4) (last count : Nat) (hq : c.quiet = true) (hne : ∀ l ∈ c.loops, l.last ≠ c.pc) :
    sxLoop lc last count c = { c with
      lc := mapSet (fun _ => 0) c.lc lc.toNat 0, loops := ⟨lc.toNat, count, c.pc + 1, last⟩ :: c.loops, pc := c.pc + 1, seq := c.seq + 1,
      issued := false, issue := { c.issue with bundles := c.issue.bundles + 1 } } := by
  rw [sxLoop, bundleDone_of_quiet hq, loopEdges_of_ne c.lc hne]

end Sys2Proof.Machine
end

section
/-! O11. -/

namespace Sys2Proof.Machine

theorem CoreSt.bankTick_zero (c : CoreSt) : c.bankTick 0 = c := by
  have hadd : c.issue.bankStall + BitVec.ofNat 64 0 = c.issue.bankStall := BitVec.add_zero ..
  rw [CoreSt.bankTick, hadd]

section
variable {s : State} {core : CoreId} {f : SxFields}

theorem sxWrites_ldp_false (lost : Nat) (hi : s.issues core = true) (hq : (s.dev.core core).quiet = true)
    (hp : ((s.dev.core core).pred f.pred.toNat != f.pneg) = false) : SxWrites (.sxLdp core ⟨f, lost⟩) core s 0 0 := by
  have hp' : sxPredOk { s.dev.core core with issued := true } f = false := hp
  refine sxWrites_nothing hq (congrArg ok ((State.slot_of_issues _ hi).trans ?_))
  simp only [sxLdp, State.withCore_onCore, State.withCore_core, hp', Bool.false_eq_true, if_false, CoreSt.bankTick_zero]

theorem sxWrites_vget_false (hi : s.issues core = true) (hq : (s.dev.core core).quiet = true)
    (hp : ((s.dev.core core).pred f.pred.toNat != f.pneg) = false) (himm : f.imm.toNat < 128) : SxWrites (.sxVget core f) core s 0 0 := by
  have hp' (b : Bool) : sxPredOk { s.dev.core core with issued := b } f = false := hp
  obtain ⟨ha, hb⟩ := (Bool.and_eq_true _ _).mp hi
  refine sxWrites_nothing hq ((if_neg (Nat.not_le.mpr himm)).trans (congrArg ok ((State.slotOr_of_issues _ _ ha hb ?_).trans ?_)))
  · rw [show sxPredOk (s.dev.core core) f = false from hp, Bool.false_and, Bool.not_false]
  · simp only [sxVget, State.withCore_core, hp', Bool.false_eq_true, if_false, State.withCore_onCore]

theorem sxWrites_compare_false {i : Instr} {rhs : CoreSt → DWord} (hi : s.issues core = true) (hq : (s.dev.core core).quiet = true)
    (hp : ((s.dev.core core).pred f.pred.toNat != f.pneg) = false) (h0 : 0 < f.d.toNat) (h8 : f.d.toNat < 8)
    (hc : f.imm.toNat % 8 < 6) (he : exec i s = sxCompare core f rhs s) : SxWrites i core s 0 0 :=
  sxWrites_nothing hq (by rw [he, sxCompare_of_issues rhs hi h0 h8 hc, if_neg (by simp [hp])])

end

/-- Settles O11: with a false predicate each operation ends its bundle and no more; LOOP reads no predicate. -/
theorem falsePredicateWritesNothing : Obligations.FalsePredicateWritesNothing := by
  intro s core f c hc hi hq
  subst hc
  refine ⟨sxWrites_nothing hq (congrArg ok (slot_bundleDone hi)), fun hp => ?_, fun hp lost => sxWrites_ldp_false lost hi hq hp,
    fun hp h0 h8 hk => ⟨sxWrites_compare_false hi hq hp h0 h8 hk rfl, sxWrites_compare_false hi hq hp h0 h8 hk rfl⟩,
    fun hp him => sxWrites_of_alu_false hi hq hp (if_neg (Nat.not_le.mpr him)), fun hp him => sxWrites_vget_false hi hq hp him,
    fun lc last count _ hcount hlast hopen hne => ?_⟩
  · simp only [List.forall_mem_cons, List.not_mem_nil, false_imp_iff, implies_true, and_true]
    have alu {i : Instr} {v : CoreSt → DWord} (he : exec i s = ok (sxAlu core f v s)) := sxWrites_of_alu_false hi hq hp he
    exact ⟨alu rfl, alu rfl, alu rfl, alu rfl, alu rfl, alu rfl, alu rfl, alu rfl, alu rfl, alu rfl, alu rfl, alu rfl, alu rfl, alu rfl⟩
  · have hloop := sxLoop_of_quiet (c := { s.dev.core core with issued := true }) lc last.toNat count.toNat hq hne
    exact coreActs_of_eq ((exec_sxLoop_of_issues lc hi hcount hlast hopen).trans (congrArg (fun c => ok (s.withCore core c)) hloop))
      ⟨rfl, rfl, rfl, rfl⟩

end Sys2Proof.Machine
end

section
/-! O12. -/

namespace Sys2Proof.Machine

/-- Settles O12: a compare writes its predicate and ends its bundle; the NOPs of the other slots only take their place in it. -/
theorem comparesAndNopsTouchNothingElse : Obligations.ComparesAndNopsTouchNothingElse := by
  refine ⟨fun s core f c hc hi hq hp h0 h8 hk => ?_, fun s core => ⟨fun hi => ?_, fun hi => ?_⟩⟩
  · subst hc
    exact ⟨coreActs_of_compare hi hq hp h0 h8 hk rfl rfl, coreActs_of_compare hi hq hp h0 h8 hk rfl (sxCmpi_imm f.imm)⟩
  · simp only [List.forall_mem_cons, List.not_mem_nil, false_imp_iff, implies_true, and_true]
    have nop {i : Instr} (he : exec i s = ok (s.slot core (fun s => s))) : CoreActs i core s fun t => t = { s.dev.core core with issued := true } :=
      coreActs_of_eq (he.trans (congrArg ok (State.slot_of_issues _ hi))) rfl
    exact ⟨nop rfl, nop rfl, nop rfl⟩
  · obtain ⟨ha, hb⟩ := (Bool.and_eq_true _ _).mp hi
    exact coreActs_of_eq (congrArg ok (State.slotOr_of_issues _ _ ha hb rfl)) rfl

end Sys2Proof.Machine
end
section
/-! O13. -/

namespace Sys2Proof.Machine

theorem toNat_ofNat_of_lt {w n : Nat} (h : n < 2 ^ w) : (BitVec.ofNat w n).toNat = n := by
  rw [BitVec.toNat_ofNat, Nat.mod_eq_of_lt h]

/-- The end of a bundle with which an innermost loop goes back (R129). -/
theorem bundleDone_of_back {c : CoreSt} {l : OpenLoop} {rest : List OpenLoop} (hq : c.quiet = true) (hloops : c.loops = l :: rest)
    (hl : l.last = c.pc) (hv : (c.lcv l.lc).toNat + 1 < l.count) :
    (bundleDone c).pc = l.first ∧ (bundleDone c).loops = c.loops ∧
      (bundleDone c).lc = mapSet (fun _ => 0) c.lc l.lc (BitVec.ofNat 16 ((c.lcv l.lc).toNat + 1)) := by
  have hedges := loopEdges_of_back rest c.lc hl hv
  rw [← hloops] at hedges
  rw [bundleDone_of_quiet hq, CoreSt.nextPc, hedges]
  exact ⟨rfl, rfl, rfl⟩

/-- The end of a bundle with which an innermost loop closes (R128, R129). -/
theorem bundleDone_of_closed {c : CoreSt} {l : OpenLoop} {rest : List OpenLoop} (hq : c.quiet = true) (hloops : c.loops = l :: rest)
    (hl : l.last = c.pc) (hv : l.count ≤ (c.lcv l.lc).toNat + 1) (hrest : ∀ m ∈ rest, m.last ≠ c.pc) :
    (bundleDone c).loops = rest ∧ (bundleDone c).lc = c.lc ∧ (bundleDone c).pc = if c.pc = c.last then c.first else c.pc + 1 := by
  have hedges := (loopEdges_of_closed rest c.lc hl hv).trans (loopEdges_of_ne c.lc hrest)
  rw [← hloops] at hedges
  rw [bundleDone_of_quiet hq, CoreSt.nextPc, hedges]
  exact ⟨rfl, rfl, rfl⟩

/-- Settles O13: LOOP ends its bundle and opens its loop; the end of a bundle is that of its innermost loop's iteration. -/
theorem countedLoopsBranchBack : Obligations.CountedLoopsBranchBack := by
  refine ⟨fun s core lc last count c hc hi hq hcount hlast hopen hne => ?_, fun s core c l rest hc hi hq hloops hl hcount => ?_⟩
  · subst hc
    have hloop := sxLoop_of_quiet (c := { s.dev.core core with issued := true }) lc last.toNat count.toNat hq hne
    exact coreActs_of_eq ((exec_sxLoop_of_issues lc hi hcount hlast hopen).trans (congrArg (fun c => ok (s.withCore core c)) hloop))
      ⟨rfl, rfl, rfl, rfl, rfl, mapGet_mapSet_self .., fun k hk => mapGet_mapSet_ne 0 hk, rfl⟩
  · subst hc
    have hq' : ({ s.dev.core core with issued := true } : CoreSt).quiet = true := hq
    obtain ⟨hs, hp, hpend, -⟩ := bundleDone_fields hq'
    refine coreActs_of_eq (congrArg ok (slot_bundleDone hi)) ⟨bundleDone_counted rfl hq', hs, hp, hpend, fun hv => ?_, fun hv hrest => ?_⟩
    · obtain ⟨hpc, hkept, hlc⟩ := bundleDone_of_back hq' hloops hl hv
      refine ⟨hpc, hkept, ?_, fun k hk => ?_⟩
      · rw [CoreSt.lcv, hlc, mapGet_mapSet_self]
        exact toNat_ofNat_of_lt (lt_trans hv hcount)
      · rw [CoreSt.lcv, hlc]
        exact mapGet_mapSet_ne _ hk
    · exact bundleDone_of_closed hq' hloops hl hv hrest

end Sys2Proof.Machine
end

section
/-! O14. -/

namespace Sys2Proof.Machine

/-- A result put on its way is not due with its bundle (R136). -/
theorem quiet_append_pending {c : CoreSt} (hq : c.quiet = true) (d : Nat) (v : DWord) :
    ({ c with sxPend := c.sxPend ++ [⟨d, v, c.seq, false⟩] } : CoreSt).quiet = true :=
  CoreSt.quiet_iff.mpr fun p hp => (List.mem_append.mp hp).elim (CoreSt.quiet_iff.mp hq p) fun h => .inl (by rw [List.mem_singleton.mp h])

/-- A bundle that ends with a result put on its way. -/
theorem coreActs_of_pending {i : Instr} {core : CoreId} {s : State} {c x : CoreSt} {d : Nat} {v : DWord} (hx : x = { c with issued := true })
    (hq : c.quiet = true)
    (he : exec i s = ok (s.withCore core (bundleDone { x with sxPend := x.sxPend ++ [⟨d, v, x.seq, false⟩] }))) :
    CoreActs i core s fun t => c.counted t ∧ t.s = c.s ∧ t.p = c.p ∧ t.sxPend = c.sxPend ++ [⟨d, v, c.seq, false⟩] := by
  subst hx
  have hq' := quiet_append_pending (c := { c with issued := true }) hq d v
  obtain ⟨hs, hp, hpend, -⟩ := bundleDone_fields hq'
  exact coreActs_of_eq he ⟨bundleDone_counted rfl hq', hs, hp, hpend⟩

theorem rowWord_eq (r : RowData) (k : Nat) : rowWord r k = BitVec.ofNat 64 (r.toNat / 2 ^ (64 * k)) := by
  rw [rowWord, Nat.shiftRight_eq_div_pow]

section
variable {s : State} {core : CoreId} {f : SxFields}

/-- The row that LDP reads (R134). -/
theorem ldpRow_eq (c : CoreSt) (f : SxFields) : ldpRow c f = ((c.sreg f.a.toNat).toNat + f.imm.toNat / 64) % 2 ^ 64 := by
  have him : f.imm.toNat / 64 < 2 ^ 64 := lt_of_le_of_lt (Nat.div_le_self ..) (lt_trans f.imm.isLt (by decide))
  rw [ldpRow, BitVec.toNat_add, toNat_ofNat_of_lt him, sxA]

/-- LDP of a row of the core's own pad without error puts its word on its way (R134, R136). -/
theorem exec_sxLdp_of_clean {row : Nat} (lost : Nat) (hi : s.issues core = true)
    (hp : ((s.dev.core core).pred f.pred.toNat != f.pneg) = true)
    (hrow : row = (((s.dev.core core).sreg f.a.toNat).toNat + f.imm.toNat / 64) % 2 ^ 64) (hlt : row < 0x2000)
    (hclean : s.clean (mkGra 0 (core.val / 8) (core.val % 8) row) = true) :
    exec (.sxLdp core ⟨f, lost⟩) s = ok (s.withCore core (bundleDone
      (let x : CoreSt := { (s.dev.core core).bankTick lost with issued := true }
      { x with sxPend := x.sxPend ++ [⟨f.d.toNat,
        BitVec.ofNat 64 ((readRow s.mem (mkGra 0 (core.val / 8) (core.val % 8) row)).toNat / 2 ^ (64 * (f.imm.toNat % 64))), x.seq, false⟩] }))) := by
  have hp' (x : CoreSt) (h : x.pred = (s.dev.core core).pred) : sxPredOk x f = true := by rw [sxPredOk, h]; exact hp
  have hrow' (x : CoreSt) (h : x.sreg = (s.dev.core core).sreg) : ldpRow x f = row := by rw [ldpRow_eq, h, hrow]
  refine congrArg ok ((State.slot_of_issues _ hi).trans ?_)
  have hread (x : CoreSt) := State.engRead_of_clean (s := s.withCore core x) core hclean
  simp only [sxLdp, State.withCore_core, State.withCore_onCore, hp' { s.dev.core core with issued := true } rfl, if_true,
    hp' (({ s.dev.core core with issued := true } : CoreSt).bankTick lost) rfl,
    hrow' (({ s.dev.core core with issued := true } : CoreSt).bankTick lost) rfl, hlt, hread, State.withCore_mem, rowWord_eq]
  rfl

/-- VGET of a register that no operation still writes puts its element on its way (R135, R136). -/
theorem exec_sxVget_of_idle (hi : s.issues core = true) (hp : ((s.dev.core core).pred f.pred.toNat != f.pneg) = true)
    (him : f.imm.toNat < 128) (hpend : (s.dev.core core).pendW = []) (hq : (s.dev.core core).vxQ = []) :
    exec (.sxVget core f) s = ok (s.withCore core (bundleDone
      (let x : CoreSt := { s.dev.core core with issued := true }
      { x with sxPend := x.sxPend ++ [⟨f.d.toNat,
        BitVec.ofNat 64 ((mapGet (fun _ => 0) x.v f.b.toNat).toNat / 2 ^ (32 * f.imm.toNat) % 2 ^ 32), x.seq, false⟩] }))) := by
  obtain ⟨ha, hb⟩ := (Bool.and_eq_true _ _).mp hi
  have hfree : vgetBlocked s core f.b.toNat = false := by simp [vgetBlocked, hpend, hq]
  have hp' (b : Bool) : sxPredOk { s.dev.core core with issued := b } f = true := hp
  have hread : (s.withCore core { s.dev.core core with issued := true }).onDev (fun d => d.cellRead core (.vreg f.b.toNat)) =
      s.withCore core { s.dev.core core with issued := true } :=
    State.onDev_cellRead_of_sound (by rw [State.withCore_core]; exact State.sound_of_issues hi) _
  refine (if_neg (Nat.not_le.mpr him)).trans (congrArg ok ((State.slotOr_of_issues _ _ ha hb ?_).trans ?_))
  · rw [hfree, Bool.and_false, Bool.not_false]
  · simp only [sxVget, State.withCore_core, hp', if_true, hread, State.withCore_onCore, Nat.mod_eq_of_lt him, Nat.shiftRight_eq_div_pow]

/-- VGET of a register that an earlier operation still writes waits (R135). -/
theorem exec_sxVget_of_blocked (ha : s.atIssue core = true) (hp : ((s.dev.core core).pred f.pred.toNat != f.pneg) = true)
    (him : f.imm.toNat < 128) (hb : vgetBlocked s core f.b.toNat = true) :
    exec (.sxVget core f) s = ok (s.withCore core (s.dev.core core).sxWaitTick) := by
  refine (if_neg (Nat.not_le.mpr him)).trans (congrArg ok (State.slotOr_of_not_fits _ _ ha ?_))
  rw [show sxPredOk (s.dev.core core) f = true from hp, hb]
  rfl

/-- A bundle that waits for a late result counts its waiting cycle, whichever slot is given (R136). -/
theorem State.slotOr_of_late (gxSlot : Bool) (fits : CoreSt → Bool) (f g : State → State) (hruns : s.dev.coreRuns core = true)
    (hw : (s.dev.core core).waits = false) (hl : (s.dev.core core).sxLate = true) :
    s.slotOr core gxSlot fits f g = s.withCore core (s.dev.core core).sxWaitTick := by
  have hready : (s.dev.core core).ready = false := by rw [CoreSt.ready, hw, hl]; rfl
  simp only [State.slotOr, hruns, hready, hw, Bool.false_eq_true, if_false, if_true, Bool.not_false, State.onCore_eq_withCore]

end

/-! ### Landing -/

theorem span_append_cons {α : Type} {p : α → Bool} {pre post : List α} {x : α} (hpre : ∀ y ∈ pre, p y = true) (hx : p x = false) :
    (pre ++ x :: post).span p = (pre, x :: post) := by
  rw [List.span_eq_takeWhile_dropWhile, List.takeWhile_append_of_pos hpre, List.dropWhile_append_of_pos hpre,
    List.takeWhile_cons_of_neg (by simp [hx]), List.dropWhile_cons_of_neg (by simp [hx]), List.append_nil]

/-- The one result that is due is written to its register and leaves. -/
theorem sxApplyDue_of_one_due {c : CoreSt} {p : SxPending} {pre post : List SxPending} (hc : c.sxPend = pre ++ p :: post)
    (hp : (p.landed && decide (p.seq + 4 ≤ c.seq)) = true) (hpre : ∀ y ∈ pre, y.landed = false ∨ c.seq < y.seq + 4)
    (hpost : ∀ y ∈ post, y.landed = false ∨ c.seq < y.seq + 4) :
    sxApplyDue c = { c.setS p.dest p.value with sxPend := pre ++ post } := by
  obtain ⟨hpre0, hpre⟩ := filter_due_of_none hpre
  obtain ⟨hpost0, hpost⟩ := filter_due_of_none hpost
  simp only [sxApplyDue, hc, List.filter_append, List.filter_cons, hpre0, hpost0, hpre, hpost, hp, if_true, List.nil_append, List.foldl_cons,
    List.foldl_nil, Bool.not_true, Bool.false_eq_true, if_false]

theorem CoreSt.setS_eq (c : CoreSt) (i : Nat) (v : DWord) :
    c.setS i v = { c with
      s := if i = 0 then c.s else mapSet (fun _ => 0) c.s i v, cells := if i ≠ 0 then c.cells.mend (.sreg i) else c.cells } := by
  by_cases h : i = 0
  · simp only [CoreSt.setS, h, if_true, ne_eq, not_true_eq_false, if_false]
  · simp only [CoreSt.setS, h, if_false, ne_eq, not_false_eq_true, if_true]
    rfl

section
variable {c : CoreSt} {p : SxPending} {pre post : List SxPending}

/-- The first result on its way that has not landed lands. -/
theorem sxLand_of_first (hc : c.sxPend = pre ++ p :: post) (hp : p.landed = false) (hpre : ∀ y ∈ pre, y.landed = true) :
    sxLand c = sxApplyDue { c with sxPend := pre ++ { p with landed := true } :: post } := by
  rw [sxLand, hc, span_append_cons hpre hp]

/-- A result whose fourth bundle waits is written as it lands (R136). -/
theorem sxLand_of_due (hc : c.sxPend = pre ++ p :: post) (hp : p.landed = false) (hpre : ∀ y ∈ pre, y.landed = true ∧ c.seq < y.seq + 4)
    (hpost : ∀ y ∈ post, y.landed = false ∨ c.seq < y.seq + 4) (hdue : p.seq + 4 ≤ c.seq) :
    sxLand c = { c.setS p.dest p.value with sxPend := pre ++ post } := by
  have hdone := sxApplyDue_of_one_due (c := { c with sxPend := pre ++ { p with landed := true } :: post }) rfl (by simpa using hdue)
    (fun y hy => .inr (hpre y hy).2) hpost
  rw [sxLand_of_first hc hp fun y hy => (hpre y hy).1, hdone, CoreSt.setS_eq, CoreSt.setS_eq]

/-- A result that lands early waits for its fourth bundle (R136). -/
theorem sxLand_of_early (hc : c.sxPend = pre ++ p :: post) (hp : p.landed = false) (hpre : ∀ y ∈ pre, y.landed = true ∧ c.seq < y.seq + 4)
    (hpost : ∀ y ∈ post, y.landed = false ∨ c.seq < y.seq + 4) (hearly : c.seq < p.seq + 4) :
    sxLand c = { c with sxPend := pre ++ { p with landed := true } :: post } := by
  rw [sxLand_of_first hc hp fun y hy => (hpre y hy).1]
  refine sxApplyDue_of_none_due ?_
  simp only [List.forall_mem_append, List.forall_mem_cons]
  exact ⟨fun y hy => .inr (hpre y hy).2, .inr hearly, hpost⟩

end

/-- Settles O14: LDP and VGET end their bundle with a result on its way; the result that lands is written when it is due. -/
theorem lateResultsLandAtTheFourthBundle : Obligations.LateResultsLandAtTheFourthBundle := by
  refine ⟨fun s core f c row hc hi hq hp hrow hlt hclean lost => ?_, fun s core f c hc hi hq hp him hpend hvx => ?_,
    fun s core f c hc ha hp him hb => ?_, fun s core c p pre post hc hpend hland hpre hpost => ?_, fun s core c hc hruns hw hl => ?_⟩
  · subst hc
    exact coreActs_of_pending (c := (s.dev.core core).bankTick lost) rfl hq (exec_sxLdp_of_clean lost hi hp hrow hlt hclean)
  · subst hc
    exact coreActs_of_pending (c := s.dev.core core) rfl hq (exec_sxVget_of_idle hi hp him hpend hvx)
  · subst hc
    exact coreActs_of_eq (exec_sxVget_of_blocked ha hp him hb) rfl
  · subst hc
    by_cases hdue : p.seq + 4 ≤ (s.dev.core core).seq
    · refine coreActs_of_eq (congrArg (fun c => ok (s.withCore core c)) (sxLand_of_due hpend hland hpre hpost hdue)) ⟨?_,
        fun h => absurd hdue (Nat.not_le.mpr h), fun _ => ⟨rfl, CoreSt.sreg_setS_same .., fun r hr => CoreSt.sreg_setS_other _ _ hr⟩⟩
      simp only [CoreSt.setS_eq, hdue, true_and]
    · refine coreActs_of_eq (congrArg (fun c => ok (s.withCore core c)) (sxLand_of_early hpend hland hpre hpost (Nat.not_le.mp hdue)))
        ⟨?_, fun _ => ⟨rfl, rfl⟩, fun h => absurd h hdue⟩
      simp only [hdue, false_and, if_false]
  · subst hc
    simp only [List.forall_mem_cons, List.not_mem_nil, false_imp_iff, implies_true, and_true]
    have late {i : Instr} {gx : Bool} {fits : CoreSt → Bool} {f g : State → State} (he : exec i s = ok (s.slotOr core gx fits f g)) :
        CoreActs i core s fun t => t = (s.dev.core core).sxWaitTick :=
      coreActs_of_eq (he.trans (congrArg ok (State.slotOr_of_late gx fits f g hruns hw hl))) rfl
    exact ⟨late rfl, late rfl, late rfl, late rfl, late rfl⟩

end Sys2Proof.Machine
end

section
/-! SUPPORT. Memory at a launch (05 R177; 06 R215; 12 R392): rings emptied and rows zeroed stay so. -/

namespace Sys2Proof.Machine

/-- HEAD and TAIL of the sixteen ring descriptors of a row are 0. -/
def RingsEmpty (r : RowData) : Prop := ∀ i k, i < 16 → 128 ≤ k → k < 160 → r.toNat.testBit (256 * i + k) = false

theorem toNat_rowData_zero : (0 : RowData).toNat = 0 := BitVec.toNat_zero

theorem ringsEmpty_zero : RingsEmpty 0 := fun i k _ _ _ => by rw [toNat_rowData_zero, Nat.zero_testBit]

theorem testBit_fold_clear (n m i k : Nat) (hi : i < n) (h0 : 128 ≤ k) (h1 : k < 160) :
    ((List.range n).foldl (fun m j => setBits m (256 * j + 159) (256 * j + 128) 0) m).testBit (256 * i + k) = false := by
  induction n with
  | zero => exact absurd hi (Nat.not_lt_zero i)
  | succ n ih =>
    rw [List.range_succ, List.foldl_append, List.foldl_cons, List.foldl_nil, testBit_setBits _ _ _ _ _ (by omega)]
    by_cases hin : i = n
    · subst hin
      rw [if_neg (by omega), if_pos (by omega), Nat.zero_testBit]
    · have := ih (by omega)
      split
      · exact this
      · rw [if_neg (by omega)]
        exact this

theorem ringsEmpty_resetRings (r : RowData) : RingsEmpty (resetRings r) := fun i k hi h0 h1 => by
  rw [resetRings, BitVec.toNat_ofNat, Nat.testBit_mod_two_pow, testBit_fold_clear 16 _ i k hi h0 h1, Bool.and_false]

theorem resetRings_zero : resetRings 0 = 0 := by
  have hfold (l : List Nat) : l.foldl (fun m j => setBits m (256 * j + 159) (256 * j + 128) 0) 0 = 0 := by
    induction l with
    | nil => rfl
    | cons j l ih => rw [List.foldl_cons, show setBits 0 (256 * j + 159) (256 * j + 128) 0 = 0 by simp [setBits], ih]
  rw [resetRings, toNat_rowData_zero, hfold]
  rfl

theorem bits_eq_zero_of_testBit {n hi lo : Nat} (h : ∀ k, k < hi + 1 - lo → n.testBit (lo + k) = false) : bits n hi lo = 0 := by
  refine Nat.eq_of_testBit_eq fun k => ?_
  rw [testBit_bits, Nat.zero_testBit]
  by_cases hk : k < hi + 1 - lo
  · rw [h k hk, Bool.and_false]
  · rw [decide_eq_false hk, Bool.false_and]

/-- A ring of an emptied row has HEAD and TAIL 0 (R177). -/
theorem ring_of_ringsEmpty {t : State} {core ring : Nat} (h : RingsEmpty (readRow t.mem (coreStateGra core (ring / 16)))) :
    ringHead (ringDesc t core ring) = 0 ∧ ringTail (ringDesc t core ring) = 0 := by
  have hbit (k : Nat) (h0 : 128 ≤ k) (h1 : k < 160) : (ringDesc t core ring).testBit k = false := by
    rw [ringDesc, Nat.testBit_mod_two_pow, Nat.testBit_shiftRight, h (ring % 16) k (Nat.mod_lt _ (by decide)) h0 h1, Bool.and_false]
  exact ⟨bits_eq_zero_of_testBit fun k hk => hbit _ (by omega) (by omega), bits_eq_zero_of_testBit fun k hk => hbit _ (by omega) (by omega)⟩

/-- A change of memory alone that leaves each emptied row emptied and each row of zeros so. -/
def Clears (s t : State) : Prop :=
  memWf s.mem = true → memWf t.mem = true ∧ t.dev = s.dev ∧ t.pending = s.pending ∧
    ∀ g, (RingsEmpty (readRow s.mem g) → RingsEmpty (readRow t.mem g)) ∧ (readRow s.mem g = 0 → readRow t.mem g = 0)

theorem Clears.refl (s : State) : Clears s s := fun h => ⟨h, rfl, rfl, fun _ => ⟨id, id⟩⟩

theorem Clears.trans {s t u : State} (h : Clears s t) (k : Clears t u) : Clears s u := fun hs => by
  obtain ⟨ht, hdev, hpend, hrow⟩ := h hs
  obtain ⟨hu, hdev', hpend', hrow'⟩ := k ht
  exact ⟨hu, hdev'.trans hdev, hpend'.trans hpend, fun g => ⟨(hrow' g).1 ∘ (hrow g).1, (hrow' g).2 ∘ (hrow g).2⟩⟩

theorem Clears.foldl {α : Type} {f : State → α → State} (h : ∀ s x, Clears s (f s x)) (l : List α) (s : State) : Clears s (l.foldl f s) := by
  induction l generalizing s with
  | nil => exact .refl s
  | cons x l ih => exact (h s x).trans (ih (f s x))

/-- What one step of a fold makes so, of a fold of changes that leave it so. -/
theorem Clears.foldl_mem {α : Type} {f : State → α → State} {P : State → Prop} (h : ∀ s x, Clears s (f s x))
    (hP : ∀ s t, memWf s.mem = true → Clears s t → P s → P t) {x : α} {l : List α} (hx : x ∈ l)
    (hmake : ∀ s, memWf s.mem = true → P (f s x)) {s : State} (hs : memWf s.mem = true) : P (l.foldl f s) := by
  induction l generalizing s with
  | nil => exact absurd hx List.not_mem_nil
  | cons y l ih =>
    have hwf : memWf (f s y).mem = true := (h s y hs).1
    rcases List.mem_cons.mp hx with rfl | hx
    · exact hP _ _ hwf (Clears.foldl h l _) (hmake s hs)
    · exact ih hx hwf

theorem Clears.putRow (s : State) (g : Nat) {r : RowData} (hr : RingsEmpty r) (hz : readRow s.mem g = 0 → r = 0) : Clears s (s.putRow g r) := by
  intro hs
  obtain ⟨hwf, hsame, hother, hdev⟩ := State.putRow_spec g r hs
  refine ⟨hwf, hdev, rfl, fun k => ?_⟩
  by_cases hk : k = g
  · subst hk
    rw [hsame]
    exact ⟨fun _ => hr, hz⟩
  · rw [hother k hk]
    exact ⟨id, id⟩

theorem Clears.putRow_zero (s : State) (g : Nat) : Clears s (s.putRow g 0) := .putRow s g ringsEmpty_zero fun _ => rfl

theorem Clears.ringZero (s : State) (r first n : Nat) : Clears s (ringZero s r first n) :=
  .foldl (fun s _ => .foldl (fun s _ => .putRow_zero s _) _ s) _ s

/-- The rings of one row of core state emptied. -/
def emptyRings (k : Nat) (s : State) (j : Nat) : State := s.putRow (coreStateGra k j) (resetRings (readRow s.mem (coreStateGra k j)))

theorem Clears.emptyRings (k : Nat) (s : State) (j : Nat) : Clears s (emptyRings k s j) :=
  .putRow s _ (ringsEmpty_resetRings _) fun h => by rw [h, resetRings_zero]

theorem ringsEmpty_emptyRings (k : Nat) {s : State} (j : Nat) (hs : memWf s.mem = true) :
    RingsEmpty (readRow (emptyRings k s j).mem (coreStateGra k j)) := by
  obtain ⟨-, hsame, -, -⟩ := State.putRow_spec (coreStateGra k j) (resetRings (readRow s.mem (coreStateGra k j))) hs
  rw [show readRow (emptyRings k s j).mem (coreStateGra k j) = _ from hsame]
  exact ringsEmpty_resetRings _

theorem ringsEmpty_of_clears {g : Nat} (s t : State) (hs : memWf s.mem = true) (h : Clears s t) (hg : RingsEmpty (readRow s.mem g)) :
    RingsEmpty (readRow t.mem g) := ((h hs).2.2.2 g).1 hg

theorem zero_of_clears {g : Nat} (s t : State) (hs : memWf s.mem = true) (h : Clears s t) (hg : readRow s.mem g = 0) :
    readRow t.mem g = 0 := ((h hs).2.2.2 g).2 hg

/-- The rings of a launch's cores emptied. -/
def launchRings (s : State) (sl : Slice) : State := sl.coresOf.foldl (fun s k => [0, 1].foldl (emptyRings k) s) s
/-- The semaphores of a launch set to zero. -/
def launchSemas (s : State) (sl : Slice) : State := sl.fo.semas.foldl (fun s g => s.putRow g 0) s
/-- The pull slots of a launch filled with zeros. -/
def launchPulls (s : State) (sl : Slice) : State :=
  sl.fo.pullRuns.foldl (fun s p => ringZero s (ringDesc s p.core p.ring) 0 (ringSlots (ringDesc s p.core p.ring))) s

theorem launchMem_eq (s : State) (sl : Slice) : launchMem s sl = launchPulls (launchSemas (launchRings s sl) sl) sl := rfl

theorem clears_launchRings (s : State) (sl : Slice) : Clears s (launchRings s sl) :=
  .foldl (fun s k => .foldl (fun s j => .emptyRings k s j) _ s) _ s
theorem clears_launchSemas (s : State) (sl : Slice) : Clears s (launchSemas s sl) := .foldl (fun s g => .putRow_zero s g) _ s
theorem clears_launchPulls (s : State) (sl : Slice) : Clears s (launchPulls s sl) := .foldl (fun s _ => .ringZero s _ _ _) _ s

theorem clears_launchMem (s : State) (sl : Slice) : Clears s (launchMem s sl) :=
  (clears_launchRings s sl).trans ((clears_launchSemas _ sl).trans (clears_launchPulls _ sl))

/-- Every ring of a launch's cores is empty (R177). -/
theorem ringsEmpty_launchMem {s : State} {sl : Slice} {k j : Nat} (hs : memWf s.mem = true) (hk : k ∈ sl.coresOf) (hj : j < 2) :
    RingsEmpty (readRow (launchMem s sl).mem (coreStateGra k j)) := by
  have hmem : j ∈ [0, 1] := by
    rw [List.mem_pair]
    omega
  have hrings : RingsEmpty (readRow (launchRings s sl).mem (coreStateGra k j)) :=
    Clears.foldl_mem (fun s k => .foldl (fun s j => .emptyRings k s j) _ s) ringsEmpty_of_clears hk
      (fun s hs => Clears.foldl_mem (fun s j => .emptyRings k s j) ringsEmpty_of_clears hmem (fun s hs => ringsEmpty_emptyRings k j hs) hs) hs
  exact ringsEmpty_of_clears _ _ (clears_launchRings s sl hs).1 ((clears_launchSemas _ sl).trans (clears_launchPulls _ sl)) hrings

/-- Every semaphore of a launch is zero (R215). -/
theorem sema_launchMem {s : State} {sl : Slice} {g : Nat} (hs : memWf s.mem = true) (hg : g ∈ sl.fo.semas) :
    readRow (launchMem s sl).mem g = 0 := by
  have hwf := (clears_launchRings s sl hs).1
  have hsemas : readRow (launchSemas (launchRings s sl) sl).mem g = 0 :=
    Clears.foldl_mem (fun s g => .putRow_zero s g) zero_of_clears hg (fun s hs => readRow_writeRow_same g 0 hs) hwf
  exact zero_of_clears _ _ (clears_launchSemas _ sl hwf).1 (clears_launchPulls _ sl) hsemas

end Sys2Proof.Machine
end

section
/-! SUPPORT. The cores and the slice at a launch (01 R39; 04 R131; 12 R401). -/

namespace Sys2Proof.Machine

/-- The registers that a CORE record gives (R131). -/
theorem mapGet_launchRegs (l : List Nat) (n : Nat) {i v : Nat} (h : l[i]? = some v) :
    mapGet (fun _ => (0 : DWord)) (((l.zipIdx n).map (fun (v, i) => (i + 1, BitVec.ofNat 64 v))).filter (fun x => x.2 != 0)) (n + i + 1) =
      BitVec.ofNat 64 v := by
  induction l generalizing n i with
  | nil => simp at h
  | cons w l ih =>
    rw [List.zipIdx_cons, List.map_cons]
    cases i with
    | zero =>
      obtain rfl : w = v := by simpa using h
      by_cases hw : BitVec.ofNat 64 w = 0
      · rw [List.filter_cons_of_neg (by simp [hw]), mapGet_of_notMem, hw]
        intro x hx
        obtain ⟨y, hy, rfl⟩ := List.mem_map.mp (List.mem_filter.mp hx).1
        have := List.le_snd_of_mem_zipIdx hy
        dsimp only
        omega
      · rw [List.filter_cons_of_pos (by simpa using hw), mapGet, if_pos rfl]
    | succ i =>
      have hrest := ih (n + 1) (i := i) (by simpa using h)
      rw [show n + 1 + i + 1 = n + (i + 1) + 1 by omega] at hrest
      by_cases hw : BitVec.ofNat 64 w = 0
      · rw [List.filter_cons_of_neg (by simp [hw]), hrest]
      · rw [List.filter_cons_of_pos (by simpa using hw), mapGet, if_neg (by omega), hrest]

/-- The one CORE record of a core. -/
theorem find?_core_of_nodup {l : List CoreRec} (hn : (l.map (fun x => x.core)).Nodup) {r : CoreRec} (hr : r ∈ l) :
    l.find? (fun x => x.core == r.core) = some r := by
  induction l with
  | nil => exact absurd hr List.not_mem_nil
  | cons x l ih =>
    rw [List.map_cons, List.nodup_cons] at hn
    obtain ⟨hx, hn⟩ := hn
    rcases List.mem_cons.mp hr with rfl | hr
    · rw [List.find?_cons_of_pos (by simp)]
    · have hne : x.core ≠ r.core := fun h => hx (h ▸ List.mem_map_of_mem hr)
      rw [List.find?_cons_of_neg (by simpa using hne), ih hn hr]

/-- A core starts at the first bundle of its record, with its registers (R131). -/
theorem launchCore_of_record {fo : Folio} {r : CoreRec} (hr : r ∈ fo.cores) (hn : (fo.cores.map (fun x => x.core)).Nodup) :
    (launchCore fo r.core).pc = r.first ∧ ∀ i v, r.sInit[i]? = some v → (launchCore fo r.core).sreg (i + 1) = BitVec.ofNat 64 v := by
  rw [launchCore, find?_core_of_nodup hn hr]
  refine ⟨rfl, fun i v h => ?_⟩
  have hget := mapGet_launchRegs r.sInit 0 h
  rw [Nat.zero_add] at hget
  exact (if_neg (Nat.succ_ne_zero i)).trans hget

/-- The cores of a launch started. -/
def Dev.startCores (d : Dev) (fo : Folio) (ks : List Nat) : Dev := ks.foldl (fun d k => d.setCore k (launchCore fo k)) d

theorem Dev.core_startCores (fo : Folio) (ks : List Nat) (d : Dev) (j : Nat) :
    (d.startCores fo ks).core j = if j ∈ ks then launchCore fo j else d.core j := by
  induction ks generalizing d with
  | nil => rfl
  | cons k ks ih =>
    rw [Dev.startCores, List.foldl_cons, ← Dev.startCores, ih, Dev.core_setCore]
    by_cases hj : j = k
    · subst hj
      simp
    · simp [hj]

theorem Dev.leaves_startCores (fo : Folio) (ks : List Nat) (d : Dev) : Leaves [.cores] [] d (d.startCores fo ks) :=
  .foldl (fun d k => .updCore d k (fun _ => launchCore fo k) (by decide)) ks d

theorem Dev.tel_startCores (fo : Folio) (ks : List Nat) (d : Dev) : (d.startCores fo ks).tel = d.tel := by
  induction ks generalizing d with
  | nil => rfl
  | cons k ks ih => exact ih (d.setCore k (launchCore fo k))

/-- What the Teller engine holds beside its sessions changed. -/
theorem Dev.keeps_setTel {l : List Component} (d : Dev) (t : TellerSt) (ht : t.sessions = d.tel.sessions) (h : .teller ∈ l) :
    Keeps l d { d with tel := t } :=
  fun p hp => by cases p <;> first | rfl | exact absurd h hp | exact ⟨rfl, rfl, rfl⟩ | exact ht

/-- The slice with the mask of the sequences that a replay feeds. -/
def Slice.withReplay (m : Nat) (x : Slice) : Slice := { x with replayMask := m }

/-- A replay begins: the Teller engine's replays and the slice's mask, and nothing else (12 R401). -/
theorem Dev.beginReplay_spec {d : Dev} {sid : Nat} {x : Slice} (hx : d.slice? sid = some x) :
    (∃ m, (d.beginReplay sid).slice? sid = some (x.withReplay m) ∧ (d.tel.armed.all (fun a => a.2 != sid) = true → m = 0)) ∧
    (d.beginReplay sid).regs = d.regs ∧ Keeps [.slices, .teller] d (d.beginReplay sid) := by
  have hkeep (t : TellerSt) (f : Slice → Slice) (ht : t.sessions = d.tel.sessions) :
      Keeps [.slices, .teller] d (({ d with tel := t } : Dev).updSlice sid f) :=
    (d.keeps_setTel t ht (by decide)).trans (Dev.keeps_updSlice _ _ _ (by decide))
  have hslice (t : TellerSt) (f : Slice → Slice) (hf : ∀ x, (f x).id = x.id) :
      (({ d with tel := t } : Dev).updSlice sid f).slice? sid = some (f x) :=
    Dev.slice?_updSlice hf (show ({ d with tel := t } : Dev).slice? sid = some x from hx)
  unfold Dev.beginReplay
  split
  next rid k harm =>
    refine ⟨⟨_, hslice _ _ fun _ => rfl, fun hall => ?_⟩, rfl, hkeep _ _ rfl⟩
    have hne : (k != sid) = true := List.all_eq_true.mp hall _ (List.mem_of_find?_eq_some harm)
    have heq : k = sid := by simpa using List.find?_some harm
    exact absurd heq (bne_iff_ne.mp hne)
  next => exact ⟨⟨0, hslice _ _ fun _ => rfl, fun _ => rfl⟩, rfl, hkeep _ _ rfl⟩

/-- The slice of a launch runs. -/
def Slice.started (x : Slice) : Slice := { x with running := true, launchAt := none, idleSince := x.launchEc }

/-- The recordings of a launched slice that run have its launch (12 R401). -/
def Dev.recsLaunched (d : Dev) (sid : Nat) : Dev :=
  { d with tel := { d.tel with recs := mapIf (fun r => r.slice == sid && r.running) (fun r => { r with launched := true }) d.tel.recs } }

theorem Dev.keeps_recsLaunched {l : List Component} (d : Dev) (sid : Nat) (h : .teller ∈ l) : Keeps l d (d.recsLaunched sid) :=
  d.keeps_setTel _ rfl h

theorem exec_sliceLaunch_of_ready {s : State} {slice : SliceId} {sl : Slice} (hsl : s.dev.slice? slice.toNat = some sl)
    (hready : s.dev.launchReady sl = true) : exec (.sliceLaunch slice) s = ok ((launchMem s sl).onDev fun d =>
      (((d.startCores sl.fo sl.coresOf).updSlice sl.id Slice.started).recsLaunched sl.id).beginReplay sl.id) := by
  show execSliceLaunch slice s = _
  simp only [execSliceLaunch, hsl, hready, if_true]
  rfl

end Sys2Proof.Machine
end

section
/-! SUPPORT. A hold raised on a slice, or kept for its next launch (01 R37; 11 R357, R358): its count, its event, its raise. -/

namespace Sys2Proof.Machine

theorem satAdd_lt (w a b : Nat) : satAdd w a b < 2 ^ w := by
  have := Nat.two_pow_pos w
  unfold satAdd
  split <;> omega

/-- A hold of this device counted, captured and reported. -/
def Dev.reportHold (d : Dev) (v : Nat) (args : List Nat) : Dev := ((d.bump (regAddr 11 0x08) 1).setReg (regAddr 11 0x24) v).event 11 0 args

theorem Dev.reg_reportHold (d : Dev) (v : Nat) (args : List Nat) :
    (d.reportHold v args).reg (regAddr 11 0x08) = satAdd 32 (d.reg (regAddr 11 0x08)) 1 := by
  rw [Dev.reportHold, Dev.reg_event _ _ _ _ _ (by decide) (by decide), Dev.reg_setReg_other _ (by decide), Dev.bump, Dev.reg_setReg_same,
    Nat.mod_eq_of_lt (satAdd_lt 32 _ 1)]

theorem Dev.saw_reportHold (d : Dev) (v : Nat) (args : List Nat) : (d.reportHold v args).saw 11 0 = true :=
  Dev.saw_event_same _ _ _ _ (by decide) (by decide)

theorem Dev.keeps_reportHold (d : Dev) (v : Nat) (args : List Nat) : Keeps [.sessions] d (d.reportHold v args) :=
  ((Dev.keeps_bump _ _ _ _).trans (Dev.keeps_setReg _ _ _ _)).trans (Dev.keeps_event _ _ _ _ (by decide))

theorem Dev.keepsRegs_reportHold (d : Dev) (v : Nat) (args : List Nat) : KeepsRegs holdRegs d (d.reportHold v args) :=
  ((Dev.keepsRegs_bump _ _ (by decide)).trans (Dev.keepsRegs_setReg _ _ (by decide))).trans (Dev.keepsRegs_event _ _ _ (by decide))

/-- A raise of this device as it is made: at gate g, now, with the next HOLD_ID. -/
def Dev.ownRaise (d : Dev) (sid cause g : Nat) : Raise :=
  let e := (d.ownWord sid 0 cause d.now).1
  { origin := e.coord, holdId := d.fab.holdId, cause := cause, causes := [cause], raiseEc := e.now, gate := g, own := true }

theorem Dev.ownRaise_raiseEc (d : Dev) (sid cause g : Nat) : (d.ownRaise sid cause g).raiseEc = d.now :=
  (Dev.keeps_ownWord (l := [.fab]) d sid 0 cause d.now (by decide)).now (by decide)

/-- A slice with a raise, and one with a raise kept for its next launch. -/
def Slice.withRaise (r : Raise) (x : Slice) : Slice := { x with raises := x.raises ++ [r] }
def Slice.withEarly (r : Raise) (x : Slice) : Slice := { x with early := x.early ++ [r] }

/-- The device with the word of a raise sent, the slice changed by it, and the raise reported. -/
def Dev.sayHold (d : Dev) (sid cause : Nat) (f : Slice → Slice) (v : Nat) (args : List Nat) : Dev :=
  ((d.ownWord sid 0 cause d.now).1.updSlice sid f).reportHold v args

section
variable {d : Dev} {sid : Nat} {sl : Slice} (cause : Nat) (f : Slice → Slice) (v : Nat) (args : List Nat)

theorem Dev.keeps_sayHold : Keeps [.slices, .fab, .sessions] d (d.sayHold sid cause f v args) :=
  (Dev.keeps_ownWord d sid 0 cause d.now (by decide)).trans
    ((Dev.keeps_updSlice _ _ _ (by decide)).trans ((Dev.keeps_reportHold _ _ _).weaken (by decide)))

theorem Dev.keepsRegs_sayHold : KeepsRegs holdRegs d (d.sayHold sid cause f v args) :=
  (Dev.keepsRegs_ownWord _ d sid 0 cause d.now).trans ((Dev.keepsRegs_updSlice _ _ _ _).trans (Dev.keepsRegs_reportHold _ _ _))

theorem Dev.reg_sayHold : (d.sayHold sid cause f v args).reg (regAddr 11 0x08) = satAdd 32 (d.reg (regAddr 11 0x08)) 1 := by
  have hword : (d.ownWord sid 0 cause d.now).1.reg (regAddr 11 0x08) = d.reg (regAddr 11 0x08) :=
    Dev.keepsRegs_ownWord [] d sid 0 cause d.now _ List.not_mem_nil
  rw [Dev.sayHold, Dev.reg_reportHold, ← hword]
  rfl

variable {f} in
theorem Dev.slice?_sayHold (hf : ∀ x, (f x).id = x.id) (h : d.slice? sid = some sl) :
    (d.sayHold sid cause f v args).slice? sid = some (f sl) := by
  have hslices : (d.ownWord sid 0 cause d.now).1.slices = d.slices :=
    Dev.keeps_ownWord (l := [.fab]) d sid 0 cause d.now (by decide) .slices (by decide)
  have hword : (d.ownWord sid 0 cause d.now).1.slice? sid = some sl := by
    rw [Dev.slice?, hslices]
    exact h
  exact Dev.slice?_updSlice hf hword

end

/-- A first hold on a slice that runs or is to be launched (R357, R358). -/
theorem Dev.raiseHold_eq_sayHold {d : Dev} {sid : Nat} {sl : Slice} (cause : Nat) (h : d.slice? sid = some sl) (harm : sl.armed = true)
    (hfree : sl.raises.any Raise.openOwn = false) :
    ∃ g v args, d.raiseHold sid cause = d.sayHold sid cause (Slice.withRaise (d.ownRaise sid cause g)) v args := by
  unfold Dev.raiseHold
  rw [h]
  simp only [harm, hfree, Bool.not_true, Bool.false_eq_true, if_false]
  exact ⟨_, _, _, rfl⟩

theorem Dev.raiseHold_raisesHold {d : Dev} {sid : Nat} {sl : Slice} (cause : Nat) (h : d.slice? sid = some sl) (harm : sl.armed = true)
    (hfree : sl.raises.any Raise.openOwn = false) : d.raisesHold (d.raiseHold sid cause) sid cause := by
  obtain ⟨g, v, args, heq⟩ := Dev.raiseHold_eq_sayHold cause h harm hfree
  rw [heq]
  refine ⟨⟨_, d.ownRaise sid cause g, Dev.slice?_sayHold cause v args (fun _ => rfl) h, List.mem_append_right _ (List.mem_singleton_self _),
    rfl, rfl, List.mem_singleton_self _, ?_, rfl, rfl⟩, Dev.reg_sayHold cause _ v args, Dev.saw_reportHold _ _ _⟩
  rw [Dev.ownRaise_raiseEc, (Dev.keeps_sayHold cause _ v args).now (by decide)]

/-- A hold kept for the next launch (01 R37). -/
theorem Dev.raiseEarly_eq_sayHold (d : Dev) (sid : Nat) :
    ∃ v args, d.raiseEarly sid = d.sayHold sid 7 (Slice.withEarly (d.ownRaise sid 7 0)) v args := ⟨_, _, rfl⟩

end Sys2Proof.Machine
end

section
/-! O26. -/

namespace Sys2Proof.Machine

/-- What a launch does to the device (01 R39; 04 R131; 12 R401). -/
theorem ends_sliceLaunch {s : State} {slice : SliceId} {sl : Slice} (hsl : s.dev.slice? slice.toNat = some sl)
    (hready : s.dev.launchReady sl = true) (hwf : memWf s.mem = true) : Ends (.sliceLaunch slice) s fun t =>
      (∃ m, t.dev.slice? slice.toNat = some { sl with running := true, launchAt := none, idleSince := sl.launchEc, replayMask := m } ∧
        (s.dev.tel.armed.all (fun a => a.2 != slice.toNat) = true → m = 0)) ∧
      (∀ k, t.dev.core k = if k ∈ sl.coresOf then launchCore sl.fo k else s.dev.core k) ∧ t.mem = (launchMem s sl).mem ∧
      Keeps [.cores, .slices, .teller] s.dev t.dev ∧ KeepsRegs [] s.dev t.dev := by
  obtain ⟨-, hdev, hpend, -⟩ := clears_launchMem s sl hwf
  have hid : sl.id = slice.toNat := Dev.slice?_id hsl
  have hcores := s.dev.leaves_startCores sl.fo sl.coresOf
  have hslices : (s.dev.startCores sl.fo sl.coresOf).slices = s.dev.slices := hcores.keeps .slices (by decide)
  have hstart : (s.dev.startCores sl.fo sl.coresOf).slice? slice.toNat = some sl := by
    rw [Dev.slice?, hslices]
    exact hsl
  have hrun : (((s.dev.startCores sl.fo sl.coresOf).updSlice slice.toNat Slice.started).recsLaunched slice.toNat).slice? slice.toNat =
      some sl.started := Dev.slice?_updSlice (fun _ => rfl) hstart
  obtain ⟨⟨m, hm, harmed⟩, hregs, hkeeps⟩ := Dev.beginReplay_spec hrun
  have htel := Dev.tel_startCores sl.fo sl.coresOf s.dev
  have hexec := exec_sliceLaunch_of_ready hsl hready
  rw [hid] at hexec
  refine ⟨_, hexec, hpend, ?_⟩
  dsimp only
  rw [State.onDev_dev, State.onDev_mem, hdev]
  refine ⟨⟨m, hm, fun h => harmed (by rw [← htel] at h; exact h)⟩, fun k => ?_, rfl, ?_, ?_⟩
  · exact (hkeeps.core (by decide) k).trans (Dev.core_startCores sl.fo sl.coresOf s.dev k)
  · exact ((hcores.keeps.weaken (by decide)).trans (Dev.keeps_updSlice _ _ _ (by decide))).trans
      ((Dev.keeps_recsLaunched _ _ (by decide)).trans (hkeeps.weaken (by decide)))
  · exact hcores.regs.trans (.of_regs_eq [] hregs)

/-- Settles O26: a launch clears its rings and semaphores and starts its cores; the check raises its hold on the slice, or for its next launch. -/
theorem launchesStartOrHold : Obligations.LaunchesStartOrHold := by
  refine ⟨fun s slice sl hsl hready hwf => ?_, fun s slice sl e hsl hfree hat hrun hstop hdue => ?_,
    fun s slice sl e hsl hlaunched hat hrun hstop hearly hdue => ?_⟩
  · obtain ⟨t, hexec, hpend, hslice, hcore, hmem, hkeeps, hregs⟩ := ends_sliceLaunch hsl hready hwf
    refine ⟨t, hexec, hpend, hslice, fun k hk => (hcore k).trans (if_pos hk), fun k hk => (hcore k).trans (if_neg hk), fun r hr hk hn => ?_,
      fun k hk ring hring => ?_, fun g hg => ?_, hkeeps, hregs⟩
    · rw [hcore, if_pos hk]
      exact launchCore_of_record hr hn
    · refine ring_of_ringsEmpty ?_
      rw [hmem]
      exact ringsEmpty_launchMem hwf hk (by omega)
    · rw [hmem]
      exact sema_launchMem hwf hg
  · have hid := Dev.slice?_id hsl
    simp only [Dev.freeOfHolds, hsl, Bool.and_eq_true, Bool.not_eq_true'] at hfree
    obtain ⟨harm, hopen⟩ := hfree
    have hseven : ¬ ∃ r ∈ sl.raises, r.openOwn = true ∧ 7 ∈ r.causes :=
      fun ⟨r, hr, hown, _⟩ => List.any_eq_false.mp hopen r hr hown
    have hnext : s.dev.nextLaunch sl = some (e, sl.fo) := by simp only [Dev.nextLaunch, hat]
    have hl : sl.launched = true := by
      simp only [Slice.armed, Bool.and_eq_true] at harm
      exact harm.1
    refine Acts.of_onDev (fun d => d.raiseHold slice.toNat 7) ?_ ⟨Dev.raiseHold_raisesHold 7 hsl harm hopen,
      (Dev.keeps_raiseHold _ _ _).weaken (by decide), Dev.keepsRegs_raiseHold _ _ _⟩
    show execNotReadyCheck slice s = _
    simp [execNotReadyCheck, State.onDev, hsl, hnext, hat, hl, hrun, hstop, hid, hseven, Nat.not_lt.mpr hdue]
  · have hid := Dev.slice?_id hsl
    have hnext : s.dev.nextLaunch sl = some (e, sl.fo) := by simp only [Dev.nextLaunch, hat]
    obtain ⟨v, args, heq⟩ := s.dev.raiseEarly_eq_sayHold slice.toNat
    refine Acts.of_onDev (fun d => d.raiseEarly slice.toNat) ?_ ?_
    · show execNotReadyCheck slice s = _
      simp [execNotReadyCheck, State.onDev, hsl, hnext, hat, hlaunched, hrun, hstop, hid, hearly, Nat.not_lt.mpr hdue]
    · rw [heq]
      exact ⟨⟨s.dev.ownRaise slice.toNat 7 0, Dev.slice?_sayHold 7 v args (fun _ => rfl) hsl, rfl, rfl, rfl, Dev.ownRaise_raiseEc .., rfl⟩,
        Dev.reg_sayHold .., Dev.saw_reportHold .., Dev.keeps_sayHold _ _ _ _, Dev.keepsRegs_sayHold _ _ _ _⟩

end Sys2Proof.Machine
end

section
/-! O18. A row of the accumulator with a single-bit error is corrected as DRAIN reads it, and the correction counts in HEALTH's register at
0x14 (05 R197; 14 Table 14.6): the command does not act on its core alone. -/

namespace Sys2Proof.Machine

/-- DRAIN of descriptor TD0 into V3. -/
def drainFields : VxFields :=
  { pred := 0, pneg := false, mreg := 0, mz := false, sr := false, ty := 0, dst := 3, srca := 32, srcb := 0, srcc := 0, fn := 0 }

/-- Core 0 of a running slice, whose TD0 is row 0 of the accumulator as 128 F32 elements; that row holds a single-bit error. -/
def drainState : State :=
  { State.reset with
    mem := writeRow [] (coreStateGra 0 0xC) (BitVec.ofNat 4096 (2 * 2 ^ 252 + 128 * 2 ^ 197 + 2 ^ 181 + 2 ^ 165 + 2 ^ 149))
    dev := { ((State.reset.dev.setReg (regAddr 2 0xC) 0xFFFFFF).put (fClState 0) 1).put (fClSlice 0) 5 with
      slices := [{ id := 5, launched := true, running := true, fo := { clusters := [0], cores := [{ core := 0, last := 9 }], sequences := 1 } }]
      hlth := { soft := [accGra 0 0] } } }

/-- The correction of the accumulator's row is counted. -/
theorem regAfter_vxDrain_drainState : regAfter (exec (.vxDrain 0 ⟨drainFields, 0⟩) drainState) (regAddr 14 0x14) = some 1 := by
  decide +kernel

/-- Refutes O18: DRAIN of a row of the accumulator that holds a single-bit error counts the correction, in a register of block 14. -/
theorem not_vectorResultsLandInOrder : ¬ Obligations.VectorResultsLandInOrder := by
  rintro ⟨-, -, hdrain, -⟩
  obtain ⟨t, ht, -⟩ := hdrain drainState 0 drainFields 0 (drainState.dev.core 0) (tdOf (tdWord drainState 0 0)) rfl (by decide +kernel)
    (by decide +kernel) (by decide +kernel) (by decide +kernel) (by decide +kernel) (by decide +kernel) (by decide +kernel)
    (by decide +kernel) rfl (by decide +kernel) (by decide +kernel) (by decide +kernel) (by decide +kernel) (by decide +kernel)
    (by decide +kernel)
  have hcount := regAfter_vxDrain_drainState
  rw [ht] at hcount
  have hkept : drainState.dev.reg (regAddr 14 0x14) = 1 := Option.some.inj hcount
  exact absurd hkept (by decide +kernel)

end Sys2Proof.Machine
end

section
/-! SUPPORT. The lanes of a row of 32-bit elements (04 Table 4.4), and integers held to 32 bits (04 R153). -/

namespace Sys2Proof.Machine

/-- Element j of a row in its 128-element view. -/
def laneNat (r : RowData) (j : Nat) : Nat := (r.toNat >>> (32 * j)) % 2 ^ 32

theorem sext_mod (w n : Nat) : sext w (n % 2 ^ w) = sext w n := by
  rw [sext, Nat.mod_mod, sext]

theorem laneInt_eq_sext (r : RowData) (j : Nat) : laneInt r j = sext 32 (laneNat r j) := by
  rw [laneInt, BitVec.extractLsb', toInt_ofNat_eq_sext (by decide), laneNat, sext_mod]

theorem sext_toField {i : Int} (h0 : -(2 ^ 31) ≤ i) (h1 : i < 2 ^ 31) : sext 32 (toField 32 i) = i := by
  have hlt : toField 32 i < 2 ^ 32 := toField_lt 32 i
  have hmod : ((toField 32 i : Nat) : Int) = i % 2 ^ 32 := Int.toNat_of_nonneg (Int.emod_nonneg i (by decide))
  rw [sext, Nat.mod_eq_of_lt hlt]
  by_cases hi : 0 ≤ i
  · rw [Int.emod_eq_of_lt hi (by omega)] at hmod
    rw [if_pos (by omega), hmod]
  · rw [Int.emod_eq_add_self_emod, Int.emod_eq_of_lt (by omega) (by omega)] at hmod
    rw [if_neg (by omega)]
    omega

/-- An integer result saturates (R153). -/
theorem sext_vxInt (i : Int) : sext 32 (vxInt i).1 = clampInt i := by
  unfold vxInt clampInt
  split
  · rw [show sext 32 (2 ^ 31 - 1) = 2147483647 by decide]
    omega
  · split
    · rw [show sext 32 (2 ^ 31) = -2147483648 by decide]
      omega
    · rw [sext_toField (by omega) (by omega)]
      omega

/-- Values put into the lanes from n on leave the lanes before. -/
theorem bits_putLanes_before {w : Nat} (hw : 0 < w) (vals : List Nat) {n k : Nat} (a : Nat) (hk : k < n) :
    bits ((vals.zipIdx n).foldl (fun a x => setBits a (w * x.2 + w - 1) (w * x.2) x.1) a) (w * k + w - 1) (w * k) =
      bits a (w * k + w - 1) (w * k) := by
  induction vals generalizing n a with
  | nil => rfl
  | cons v vals ih =>
    have hlt : w * k + w ≤ w * n := by rw [← Nat.mul_succ]; exact Nat.mul_le_mul_left w hk
    rw [List.zipIdx_cons, List.foldl_cons, ih _ (Nat.lt_succ_of_lt hk)]
    dsimp only
    exact bits_setBits_apart _ _ _ _ _ _ (by omega) (.inl (by omega))

/-- Values put into the lanes from n on read back. -/
theorem bits_putLanes {w : Nat} (hw : 0 < w) (vals : List Nat) (n a : Nat) {i v : Nat} (hi : vals[i]? = some v) :
    bits ((vals.zipIdx n).foldl (fun a x => setBits a (w * x.2 + w - 1) (w * x.2) x.1) a) (w * (n + i) + w - 1) (w * (n + i)) = v % 2 ^ w := by
  induction vals generalizing n a i with
  | nil => simp at hi
  | cons u vals ih =>
    rw [List.zipIdx_cons, List.foldl_cons]
    cases i with
    | zero =>
      obtain rfl : u = v := by simpa using hi
      refine (bits_putLanes_before hw vals _ (Nat.lt_add_one n)).trans ?_
      dsimp only
      rw [bits_setBits_same _ _ _ _ (by omega), show w * n + w - 1 + 1 - w * n = w by omega]
    | succ i =>
      have hrest := ih (n + 1) (setBits a (w * n + w - 1) (w * n) u) (i := i) (by simpa using hi)
      rwa [show n + 1 + i = n + (i + 1) by omega] at hrest

theorem vxPutLanes_some (w old : Nat) (vals : List Nat) : vxPutLanes w 0 old (vals.map some) =
    vals.zipIdx.foldl (fun a x => setBits a (w * x.2 + w - 1) (w * x.2) x.1) old := by
  rw [vxPutLanes, List.zipIdx_map, List.foldl_map]
  simp only [Nat.zero_add]
  rfl

/-- A row of which every lane is written holds the values (R149). -/
theorem laneNat_putLanes (old : Nat) (vals : List Nat) {j v : Nat} (hj : j < 128) (hv : vals[j]? = some v) :
    laneNat (BitVec.ofNat 4096 (vxPutLanes 32 0 old (vals.map some))) j = v % 2 ^ 32 := by
  have hbits (n : Nat) : (n >>> (32 * j)) % 2 ^ 32 = bits n (32 * j + 32 - 1) (32 * j) := by
    rw [bits, show 32 * j + 32 - 1 + 1 - 32 * j = 32 by omega]
  rw [laneNat, BitVec.toNat_ofNat, hbits, bits_mod _ _ _ _ (by omega), vxPutLanes_some]
  have hput := bits_putLanes (w := 32) (by decide) vals 0 old hv
  rwa [Nat.zero_add] at hput

/-- A row of bits of which each is written holds them (R155). -/
theorem testBit_foldl_bits {g : Nat → Nat → Nat} (hother : ∀ a i j, j ≠ i → (g a i).testBit j = a.testBit j) {j : Nat} {b : Bool}
    (hsame : ∀ a, (g a j).testBit j = b) {n : Nat} (hj : j < n) (a : Nat) : ((List.range n).foldl g a).testBit j = b := by
  induction n with
  | zero => exact absurd hj (Nat.not_lt_zero j)
  | succ n ih =>
    rw [List.range_succ, List.foldl_append, List.foldl_cons, List.foldl_nil]
    by_cases hjn : j = n
    · subst hjn
      exact hsame _
    · rw [hother _ _ _ hjn, ih (by omega)]

end Sys2Proof.Machine
end

section
/-! SUPPORT. One step of an integer operation on registers (04 R145 to R149, R153). -/

namespace Sys2Proof.Machine

/-- A core with its tally as counted (03 R116). -/
def CoreSt.withTally (c : CoreSt) (y : Tally) : CoreSt := { c with tally := y }

section
variable (c : CoreSt) (y z : Tally)

@[simp] theorem CoreSt.withTally_withTally : (c.withTally y).withTally z = c.withTally z := rfl

@[simp] theorem CoreSt.withTally_v : (c.withTally y).v = c.v := rfl

end

/-- A run with the row reads of its step counted (R151). -/
def VxRun.withReads (r : VxRun) (n : Nat) : VxRun := { r with reads := n }

/-- A run that gathers the row of a register (R149). -/
def VxRun.gathered (r : VxRun) (i data : Nat) : VxRun := { r with gLoc := some (.vreg i), gOk := true, gAt := r.now, gData := data }

/-- The step's elements of an integer operation on registers (R145). -/
def directCtx (q : VxOp) : VxCtx :=
  ⟨q, 2, 128, .reg q.f.dst.toNat, .reg q.f.srca.toNat, .reg q.f.srcb.toNat, .reg q.f.srcc.toNat, 128, 1, 1, 1⟩

/-- The lanes of a register's row; none of an operand that the operation does not use. -/
def regLanes (use : Bool) (row : RowData) : List (Option Lane) :=
  if use then (List.range 128).map (fun j => some (laneNat row j, 0, 0)) else []

section
variable {s : State} {core : Nat} {c : CoreSt} {r : VxRun} {q : VxOp}

theorem vxDecode_int (code : Nat) : vxDecode 2 2 code = (code % 2 ^ 32, 0, 0) := rfl

/-- With no write on its way a register reads as it stands (R152). -/
theorem vxLook_vreg (hown : r.own = []) (hpend : c.pendW = []) (i : Nat) :
    vxLook (s.withCore core c) core r (.vreg i) = (mapGet (fun _ => (0 : RowData)) c.v i).toNat := by
  simp only [vxLook, hown, List.find?_nil, State.withCore_core, hpend, List.reverse_nil]

theorem vxLook_mreg (hown : r.own = []) (hpend : c.pendW = []) (i : Nat) :
    vxLook (s.withCore core c) core r (.mreg i) = (c.mask i).toNat := by
  simp only [vxLook, hown, List.find?_nil, State.withCore_core, hpend, List.reverse_nil]

/-- A register read as an integer operand; only the tally may count. -/
theorem vxOperand_reg (which m : Nat) (use : Bool) (i : Nat) (hown : r.own = []) (hpend : c.pendW = []) (hsound : c.sound = true) :
    ∃ y : Tally, vxOperand (s.withCore core c) core (directCtx q) r which use (.reg i) m 0 0 0 0 =
      (regLanes use (mapGet (fun _ => 0) c.v i), s.withCore core (c.withTally y)) := by
  cases use with
  | false => exact ⟨c.tally, rfl⟩
  | true =>
    have hread : (s.withCore core c).onDev (fun d => d.cellRead core (.vreg i)) = s.withCore core c :=
      State.onDev_cellRead_of_sound (by rw [State.withCore_core]; exact hsound) _
    have hlanes : vxLanes (s.withCore core c) core r which 2 128 (.reg i) 0 0 0 0 =
        (regLanes true (mapGet (fun _ => 0) c.v i), s.withCore core c) := by
      simp only [vxLanes, vxLook_vreg hown hpend, hread, if_true, regLanes]
      refine congrArg (fun l => (l, s.withCore core c)) (List.map_congr_left fun j _ => ?_)
      rw [vxDecode_int, laneNat, show vxBits 2 = 32 by rfl, Nat.mod_mod]
    refine ⟨(c.count (laneTally (directCtx q) m 0 (regLanes true (mapGet (fun _ => 0) c.v i))).2 0
      (laneTally (directCtx q) m 0 (regLanes true (mapGet (fun _ => 0) c.v i))).1).tally, ?_⟩
    have hlanes' : vxLanes (s.withCore core c) core r which (directCtx q).ct (directCtx q).ec (.reg i) 0 0 0 0 = _ := hlanes
    simp only [vxOperand, hlanes', if_true, State.withCore_onCore]
    rfl

/-- The result of a lane: the value, with what it counts (R153, R154, R155). -/
def vxIntRes (q : VxOp) (m a b j : Nat) : LRes :=
  match q.op with
  | 0x0C => (if bitAt m j then a else b, 0, 0)
  | 0x0D => (q.sval % 2 ^ 32, 0, 0)
  | op => vxLaneOp op 2 q.f.fn.toNat a b 0

/-- The results of the lanes, from the operand registers. -/
def vxIntVals (q : VxOp) (m : Nat) (c : CoreSt) : List LRes :=
  (List.range 128).map fun j =>
    vxIntRes q m (laneNat (mapGet (fun _ => 0) c.v q.f.srca.toNat) j) (laneNat (mapGet (fun _ => 0) c.v q.f.srcb.toNat) j) j

/-- The bits of CMP, from the operand registers (R155). -/
def vxCmpBits (q : VxOp) (m : Nat) (c : CoreSt) (old : Nat) : Nat :=
  (List.range 256).foldl (fun a j =>
    if decide (j < 128) && vxLive (directCtx q) m 0 j then
      setBits a j j (b2n (vxCond 2 q.f.fn.toNat (laneNat (mapGet (fun _ => 0) c.v q.f.srca.toNat) j)
        (laneNat (mapGet (fun _ => 0) c.v q.f.srcb.toNat) j)))
    else if q.f.mz then setBits a j j 0 else a) old

/-- The codes of operations on integers that give a value in each lane (Table 4.7). -/
def vxIntOps : List Nat := [0x01, 0x02, 0x03, 0x05, 0x06, 0x07, 0x0C, 0x0D]

/-- With no row being gathered, codes go to the row of a register, which is not written yet (R149). -/
theorem vxWrite_reg (seq w i : Nat) (codes : List (Option Nat)) (hown : r.own = []) (hpend : c.pendW = []) (hg : r.gLoc = none) :
    vxWrite (s.withCore core c) core seq (.reg i) w r (.vreg i) i true 0 codes =
      (s.withCore core c, r.gathered i (vxPutLanes w 0 (mapGet (fun _ => (0 : RowData)) c.v i).toNat codes)) := by
  have hnone : r.gLoc ≠ some (.vreg i) := by simp [hg]
  have hflush : vxFlush (s.withCore core c) core seq r = (s.withCore core c, r) := by simp only [vxFlush, hg]
  have hlook : vxLook (s.withCore core c) core { r with lat := 0 } (.vreg i) = (mapGet (fun _ => (0 : RowData)) c.v i).toNat :=
    vxLook_vreg (r := { r with lat := 0 }) hown hpend i
  simp only [vxWrite, if_neg hnone, hflush, hlook]
  rfl

/-- A step's results go to the destination register: its row is gathered, and only the tally may count. -/
theorem vxStepOut_reg (m : Nat) (vals : List LRes) (hown : r.own = []) (hpend : c.pendW = []) (hg : r.gLoc = none)
    (hlen : vals.length = 128) (hlive : ∀ j, j < 128 → vxLive (directCtx q) m 0 j = true) :
    ∃ y : Tally, vxStepOut (s.withCore core c) core (directCtx q) r m 0 0 0 0 vals =
      (s.withCore core (c.withTally y), r.gathered q.f.dst.toNat
        (vxPutLanes 32 0 (mapGet (fun _ => (0 : RowData)) c.v q.f.dst.toNat).toNat ((vals.map (fun v => v.1)).map some))) := by
  have henc : vals.zipIdx.map ((fun e => e.1) ∘ fun x => vxEncode 2 2 (rngBits c false x.2) x.1.1) = vals.map (fun v => v.1) := by
    rw [show ((fun e => e.1) ∘ fun x : LRes × Nat => vxEncode 2 2 (rngBits c false x.2) x.1.1) = (fun v : LRes => v.1) ∘ Prod.fst from rfl,
      ← List.map_map, List.zipIdx_map_fst]
  have hcodes (codes : List Nat) (hc : codes.length = 128) : vxCodes (directCtx q) m 0 true codes = codes.map some := by
    have hone (x : Nat × Nat) (hx : x ∈ codes.zipIdx) : (some ∘ Prod.fst) x = some x.1 := rfl
    rw [← List.zipIdx_map_fst 0 codes, List.map_map, vxCodes, List.zipIdx_map_fst]
    exact List.map_congr_left fun x hx => if_pos (hlive _ (hc ▸ List.snd_lt_of_mem_zipIdx hx))
  have hconv : vxConverts 2 2 = false := rfl
  simp only [vxStepOut, show (directCtx q).dst = .reg q.f.dst.toNat from rfl, show (directCtx q).ct = 2 from rfl, if_true, hconv,
    Bool.false_eq_true, if_false, Bool.and_false, State.withCore_core, State.withCore_onCore, List.map_map, henc,
    hcodes _ ((List.length_map _).trans hlen)]
  exact ⟨_, vxWrite_reg _ _ _ _ hown hpend hg⟩

/-- The row gathered for a register becomes the one pending write (R149, R152). -/
theorem vxFlush_gathered (hoff : r.off = false) (i data seq : Nat) : (vxFlush (s.withCore core c) core seq (r.gathered i data).endStep).1 =
    s.withCore core { c with pendW := c.pendW ++ [⟨.vreg i, BitVec.ofNat 4096 data, seq⟩] } := by
  have hstage (st : Option Staged) : st.map (fun e => if WLoc.vreg i = .mem e.gra then { e with row := BitVec.ofNat 4096 data } else e) = st := by
    cases st <;> simp
  simp only [vxFlush, VxRun.endStep, VxRun.gathered, hoff, Bool.not_true, Bool.or_self, Bool.false_eq_true, if_false, State.withCore_onCore, hstage]

/-- What SPLAT's scalar counts goes to the tally; another operation has no scalar. -/
theorem splatCount_withTally (op clip nan : Nat) (c : CoreSt) :
    ∃ y, (if op = 0x0D then s.withCore core (c.count clip 0 nan) else s.withCore core c) =
    s.withCore core (c.withTally y) := by
  split
  · exact ⟨_, rfl⟩
  · exact ⟨c.tally, rfl⟩

theorem laneVal_regLanes (row : RowData) {j : Nat} (hj : j < 128) : laneVal ((regLanes true row).getD j none) = laneNat row j := by
  simp [regLanes, hj, laneVal]

/-- An integer operation has no third operand. -/
theorem vxLaneOp_int (op fn a b c : Nat) : vxLaneOp op 2 fn a b c = vxLaneOp op 2 fn a b 0 := by
  simp only [vxLaneOp, if_true]

/-- ABS has one operand. -/
theorem vxLaneOp_abs (fn a b b' c : Nat) : vxLaneOp 0x07 2 fn a b c = vxLaneOp 0x07 2 fn a b' c := by
  simp only [vxLaneOp, if_true]

/-- One step of an operation on registers: CMP's bits become one pending write, and the values of another go out. -/
theorem vxElemStep_direct (hop : q.op = 0x0B ∨ q.op ∈ vxIntOps) (hown : r.own = []) (hpend : c.pendW = []) (hsound : c.sound = true) :
    ∃ (y : Tally) (n : Nat), vxElemStep core (directCtx q) 0 0 0 0 (s.withCore core c, r) =
      if q.op = 0x0B then
        if q.predOk then
          (s.withCore core { c.withTally y with pendW := c.pendW ++ [⟨.mreg (q.f.dst.toNat % 8),
            BitVec.ofNat 4096 (vxCmpBits q (c.mask q.f.mreg.toNat).toNat c (c.mask (q.f.dst.toNat % 8)).toNat), q.seq⟩] },
            (r.withReads n).endStep)
        else (s.withCore core (c.withTally y), (r.withReads n).endStep)
      else
        let o := vxStepOut (s.withCore core (c.withTally y)) core (directCtx q) (r.withReads n) (c.mask q.f.mreg.toNat).toNat 0 0 0 0
          (vxIntVals q (c.mask q.f.mreg.toNat).toNat c)
        (o.1, o.2.endStep) := by
  rcases huses : vxUses q.op q.f.fn.toNat with ⟨ua, ub, uc⟩
  have hcvt : ¬ (q.op = 0x09 ∧ q.f.fn.toNat = 1) := fun h => absurd hop (by rw [h.1]; decide)
  generalize hreads : vxStepReads (s.withCore core c) core (directCtx q) 0 0 0 0 = n
  have hlook (y : Tally) (i : Nat) : vxLook (s.withCore core (c.withTally y)) core (r.withReads n) (.mreg i) = (c.mask i).toNat :=
    vxLook_mreg (c := c.withTally y) (r := r.withReads n) hown hpend i
  have hlook0 : vxLook (s.withCore core c) core (r.withReads n) (.mreg q.f.mreg.toNat) = (c.mask q.f.mreg.toNat).toNat := hlook c.tally _
  generalize hm : (c.mask q.f.mreg.toNat).toNat = m at hlook0
  obtain ⟨ya, ha⟩ := vxOperand_reg (s := s) (core := core) (r := r.withReads n) (q := q) 0 m ua q.f.srca.toNat hown hpend hsound
  obtain ⟨yb, hb⟩ := vxOperand_reg (s := s) (core := core) (r := r.withReads n) (q := q) (c := c.withTally ya) 1 m ub
    q.f.srcb.toNat hown hpend hsound
  obtain ⟨yc, hc⟩ := vxOperand_reg (s := s) (core := core) (r := r.withReads n) (q := q) (c := c.withTally yb) 2 m uc
    q.f.srcc.toNat hown hpend hsound
  obtain ⟨yd, hd⟩ := splatCount_withTally (s := s) (core := core) q.op
    (laneTally (directCtx q) m 0 ((List.range 128).map fun _ => some (q.sval % 2 ^ 32, 0, 0))).2
    (laneTally (directCtx q) m 0 ((List.range 128).map fun _ => some (q.sval % 2 ^ 32, 0, 0))).1 (c.withTally yc)
  simp only [CoreSt.withTally_withTally, CoreSt.withTally_v] at hb hc hd
  refine ⟨yd, n, ?_⟩
  have hrun : ({ r with reads := n } : VxRun) = r.withReads n := rfl
  simp only [vxElemStep, hreads, hrun, show (directCtx q).q = q from rfl, hlook0, huses, show (directCtx q).a = .reg q.f.srca.toNat from rfl,
    show (directCtx q).b = .reg q.f.srcb.toNat from rfl, show (directCtx q).c = .reg q.f.srcc.toNat from rfl, ha, if_neg hcvt, hb, hc,
    State.withCore_onCore, show (directCtx q).ct = 2 from rfl, if_true, hd, hlook, show (directCtx q).ec = 128 from rfl]
  rcases hop with hop | hop
  · rw [hop] at huses
    cases huses
    have hbits : vxCmpBits q m c (c.mask (q.f.dst.toNat % 8)).toNat = _ := List.foldl_ext _ _ _ fun a j _ => by
      by_cases hj : j < 128
      · rw [← laneVal_regLanes _ hj, ← laneVal_regLanes _ hj]
      · rw [decide_eq_false hj, Bool.false_and, if_neg Bool.false_ne_true, if_neg Bool.false_ne_true]
    rw [if_pos hop, if_pos hop, hbits]
    rfl
  · have hcmp : q.op ≠ 0x0B := fun h => absurd hop (by rw [h]; decide)
    rw [if_neg hcmp, if_neg hcmp]
    refine congrArg (fun o : State × VxRun => (o.1, o.2.endStep)) (congrArg (vxStepOut _ _ _ _ _ _ _ _ _) (List.map_congr_left fun j hj => ?_))
    have hlane := fun row => laneVal_regLanes row (List.mem_range.mp hj)
    simp only [vxIntOps, List.mem_cons, List.not_mem_nil, or_false] at hop
    rcases hop with h | h | h | h | h | h | h | h <;> rw [h] at huses <;> cases huses <;> simp only [vxIntRes, h, hlane, vxLaneOp_int]
    · exact vxLaneOp_abs ..
    · rfl

/-- An operation as it runs when each operand field names a register and its predicate is true. -/
def directOp (c : CoreSt) (op : Nat) (f : VxFields) : VxOp :=
  ⟨op, f, true, 0, 0, 0, 0, (c.sreg (f.srca.toNat % 32)).toNat % 2 ^ 32, c.seq⟩

/-- The run of an operation before its first step. -/
def VxOp.run (q : VxOp) : VxRun :=
  { seq := q.seq, cyc := (vxCost q.op).1, lat := (vxCost q.op).2, off := !q.predOk, merge := !q.f.mz && (q.f.mreg != 0 || q.f.pred != 0) }

theorem opdOf_reg {o : BitVec 6} (ho : o.toNat < 32) (base : Nat) : opdOf s core o base = .reg o.toNat := if_pos ho

/-- With registers alone the iteration space is one step (R145). -/
theorem vxSpace_reg (op ec d i j k : Nat) (used : Bool × Bool × Bool) : vxSpace op ec (.reg d) (.reg i) (.reg j) (.reg k) used = (ec, 1, 1, 1) := by
  unfold vxSpace
  split_ifs <;> rfl

theorem vxAllDirect_iff {f : VxFields} :
    vxAllDirect f = true ↔ f.dst.toNat < 32 ∧ f.srca.toNat < 32 ∧ f.srcb.toNat < 32 ∧ f.srcc.toNat < 32 := by
  simp [vxAllDirect, and_assoc]

/-- An integer operation on registers is one step, and its row ends with it. -/
theorem vxExec_direct (hop : q.op = 0x0B ∨ q.op ∈ vxIntOps) (hdir : vxAllDirect q.f = true) (hty : q.f.ty = 2) :
    vxExec s core q = (vxFlush (vxElemStep core (directCtx q) 0 0 0 0 (s, q.run)).1 core q.seq
      (vxElemStep core (directCtx q) 0 0 0 0 (s, q.run)).2).1 := by
  obtain ⟨hd, ha, hb, hc⟩ := vxAllDirect_iff.mp hdir
  have hred : q.op ≠ 0x0E := fun h => absurd hop (by rw [h]; decide)
  have hscale : q.op ≠ 0x0F := fun h => absurd hop (by rw [h]; decide)
  have hloop (sr : State × VxRun) : vxElemLoop core (directCtx q) (1 * 1 * 1 * cdiv 128 128) 0 sr = vxElemStep core (directCtx q) 0 0 0 0 sr := by
    simp only [show 1 * 1 * 1 * cdiv 128 128 = 1 by decide, vxElemLoop, Nat.zero_div, Nat.zero_mod]
  simp only [vxExec, opdOf_reg hd, opdOf_reg ha, opdOf_reg hb, opdOf_reg hc, vxSpace_reg, hty, if_neg hred, if_neg hscale]
  exact congrArg (fun sr : State × VxRun => (vxFlush sr.1 core q.seq sr.2).1) (hloop (s, q.run))

end

end Sys2Proof.Machine
end

section
/-! SUPPORT. An integer operation on registers starts at once and puts one write on its way (04 R145, R152). -/

namespace Sys2Proof.Machine

section
variable {s : State} {core : CoreId} {c : CoreSt} {q : VxOp}

/-- An operation that gives a value in each lane writes the row of them (R149, R152). -/
theorem vxExec_int (hop : q.op ∈ vxIntOps) (hdir : vxAllDirect q.f = true) (hty : q.f.ty = 2) (hpred : q.predOk = true)
    (hpend : c.pendW = []) (hsound : c.sound = true)
    (hlive : ∀ j, j < 128 → vxLive (directCtx q) (c.mask q.f.mreg.toNat).toNat 0 j = true) :
    ∃ y : Tally, vxExec (s.withCore core c) core q = s.withCore core { c.withTally y with
      pendW := [⟨.vreg q.f.dst.toNat, BitVec.ofNat 4096 (vxPutLanes 32 0 (mapGet (fun _ => (0 : RowData)) c.v q.f.dst.toNat).toNat
        (((vxIntVals q (c.mask q.f.mreg.toNat).toNat c).map (fun v => v.1)).map some)), q.seq⟩] } := by
  have hcmp : q.op ≠ 0x0B := fun h => absurd hop (by rw [h]; decide)
  obtain ⟨y, n, hstep⟩ := vxElemStep_direct (s := s) (core := core) (r := q.run) (.inr hop) rfl hpend hsound
  rw [if_neg hcmp] at hstep
  obtain ⟨z, hout⟩ := vxStepOut_reg (s := s) (core := core) (c := c.withTally y) (r := q.run.withReads n)
    (c.mask q.f.mreg.toNat).toNat (vxIntVals q (c.mask q.f.mreg.toNat).toNat c) rfl hpend rfl (by rw [vxIntVals, List.length_map, List.length_range])
    hlive
  have hoff : (q.run.withReads n).off = false := (congrArg (!·) hpred).trans Bool.not_true
  rw [vxExec_direct (.inr hop) hdir hty, hstep, hout]
  refine ⟨z, (vxFlush_gathered hoff ..).trans ?_⟩
  rw [CoreSt.withTally_withTally, show (c.withTally z).pendW = [] from hpend, List.nil_append]
  rfl

/-- CMP writes its bits to a mask register (R155). -/
theorem vxExec_cmp (hop : q.op = 0x0B) (hdir : vxAllDirect q.f = true) (hty : q.f.ty = 2) (hpred : q.predOk = true)
    (hpend : c.pendW = []) (hsound : c.sound = true) :
    ∃ y : Tally, vxExec (s.withCore core c) core q = s.withCore core { c.withTally y with
      pendW := [⟨.mreg (q.f.dst.toNat % 8), BitVec.ofNat 4096 (vxCmpBits q (c.mask q.f.mreg.toNat).toNat c
        (c.mask (q.f.dst.toNat % 8)).toNat), q.seq⟩] } := by
  obtain ⟨y, n, hstep⟩ := vxElemStep_direct (s := s) (core := core) (r := q.run) (.inl hop) rfl hpend hsound
  rw [if_pos hop, if_pos hpred, hpend] at hstep
  rw [vxExec_direct (.inl hop) hdir hty, hstep]
  exact ⟨y, rfl⟩

end

section
variable {s : State} {core : CoreId} {c : CoreSt} {f : VxFields} {lost : Nat}

/-- With the engine free the operation starts, its predicate, bases and scalar as read at issue (R126, R152). -/
theorem vxOp_starts {op : Nat} (hc : s.dev.core core = c) (hi : s.issues core = true) (hpend : c.pendW = []) (hq : c.vxQ = [])
    (hdir : vxAllDirect f = true) (hpred : (c.pred f.pred.toNat != f.pneg) = true) :
    vxOp core op f lost s = vxExec (s.withCore core { c.bankTick lost with issued := true }) core (directOp c op f) := by
  subst hc
  obtain ⟨ha, hb⟩ := (Bool.and_eq_true _ _).mp hi
  obtain ⟨hd, hsa, hsb, hsc⟩ := vxAllDirect_iff.mp hdir
  have hissue : vxIssue (s.withCore core { s.dev.core core with issued := true }) core op f = directOp (s.dev.core core) op f := by
    have hbase {o : BitVec 6} (ho : o.toNat < 32) : opdBase (s.withCore core { s.dev.core core with issued := true }) core o = 0 := if_pos ho
    have hdst : (if op = 0x0B then (0 : BitVec 6) else f.dst).toNat < 32 := by split <;> simp [hd]
    simp only [vxIssue, State.withCore_core, hbase hsa, hbase hsb, hbase hsc, hbase hdst]
    exact congrArg (fun p => (⟨op, f, p, 0, 0, 0, 0, _, _⟩ : VxOp)) hpred
  refine (State.slotOr_of_issues _ _ ha hb (by simp [hq])).trans ?_
  generalize hx : ({ s.dev.core core with issued := true } : CoreSt) = x at hissue ⊢
  have hxq : x.vxQ = [] := hx ▸ hq
  have hxpend : x.pendW = [] := hx ▸ hpend
  have hpredOk : (directOp (s.dev.core core) op f).predOk = true := rfl
  simp only [hissue, State.withCore_core, hxq, hxpend, and_self, if_true, State.withCore_onCore, hpredOk, CoreSt.predTick]
  subst hx
  rfl

end

end Sys2Proof.Machine
end

section
/-! SUPPORT. The lanes of integer operations (04 R153 to R155), and O19. -/

namespace Sys2Proof.Machine

/-- A register mask without errors; M0 is all ones (R138). -/
theorem CoreSt.mask_of_sound {c : CoreSt} (hc : c.sound = true) {i : Nat} (hi : i ≠ 0) : c.mask i = mapGet (fun _ => 0) c.m i := by
  obtain ⟨-, -, hm, -⟩ := CoreSt.sound_iff.mp hc
  rw [CoreSt.mask, if_neg hi, hm]
  exact BitVec.or_zero

theorem bitAt_mask_zero (c : CoreSt) {j : Nat} (hj : j < 256) : bitAt (c.mask 0).toNat j = true := by
  rw [CoreSt.mask, if_pos rfl, bitAt, BitVec.testBit_toNat, BitVec.getLsbD_allOnes, decide_eq_true hj]

theorem vxLive_iff {q : VxOp} {m j : Nat} (hj : j < 128) (hpred : q.predOk = true) :
    vxLive (directCtx q) m 0 j = (q.op == 0x0C || bitAt m j) := by
  simp [vxLive, directCtx, hj, hpred]

theorem testBit_setBits_ne (a v : Nat) {i j : Nat} (h : j ≠ i) : (setBits a i i v).testBit j = a.testBit j := by
  rw [testBit_setBits _ _ _ _ _ le_rfl]
  split_ifs with hlt hle
  · rfl
  · exact absurd (Nat.le_antisymm hle (Nat.not_lt.mp hlt)) h
  · rfl

/-- In a live lane CMP's bit is the condition of the operands (R155). -/
theorem testBit_vxCmpBits {q : VxOp} {m j : Nat} {c : CoreSt} (hj : j < 128) (hlive : vxLive (directCtx q) m 0 j = true) (old : Nat) :
    (vxCmpBits q m c old).testBit j = vxCond 2 q.f.fn.toNat (laneNat (mapGet (fun _ => 0) c.v q.f.srca.toNat) j)
      (laneNat (mapGet (fun _ => 0) c.v q.f.srcb.toNat) j) := by
  refine testBit_foldl_bits (fun a i k hk => ?_) (fun a => ?_) (show j < 256 by omega) old
  · split_ifs
    · exact testBit_setBits_ne _ _ hk
    · exact testBit_setBits_ne _ _ hk
    · rfl
  · rw [if_pos ((Bool.and_eq_true _ _).mpr ⟨decide_eq_true hj, hlive⟩), testBit_setBits _ _ _ _ _ le_rfl, if_neg (Nat.lt_irrefl j),
      if_pos le_rfl, Nat.sub_self]
    cases vxCond _ _ _ _ <;> rfl

section
variable {s : State} {core : CoreId} {c : CoreSt} {f : VxFields} {lost : Nat}

/-- An integer operation on registers, from the value of each lane. -/
theorem coreActs_of_int {i : Instr} {op : Nat} {lane : Nat → Int} (hc : s.dev.core core = c) (hi : s.issues core = true) (hpend : c.pendW = [])
    (hq : c.vxQ = []) (hdir : vxAllDirect f = true) (hty : f.ty = 2) (hpred : (c.pred f.pred.toNat != f.pneg) = true)
    (hexec : exec i s = vxMeaning core op ⟨f, lost⟩ s) (hop : op ∈ vxIntOps) (hform : vxFormOk op f = true)
    (hlive : f.mreg = 0 ∨ op = 0x0C)
    (hlane : ∀ j, j < 128 → sext 32 (vxIntRes (directOp c op f) (c.mask f.mreg.toNat).toNat
      (laneNat (mapGet (fun _ => 0) c.v f.srca.toNat) j) (laneNat (mapGet (fun _ => 0) c.v f.srcb.toNat) j) j).1 = lane j) :
    CoreActs i core s fun t => ∃ row,
      t = { c.bankTick lost with issued := true, pendW := [⟨.vreg f.dst.toNat, row, c.seq⟩], tally := t.tally } ∧
        ∀ j, j < 128 → laneInt row j = lane j := by
  have hsound : c.sound = true := hc ▸ (State.atIssue_iff.mp ((Bool.and_eq_true _ _).mp hi).1).2.2.2
  obtain ⟨y, hrun⟩ := vxExec_int (s := s) (core := core) (c := { c.bankTick lost with issued := true }) (q := directOp c op f) hop hdir hty rfl
    hpend hsound fun j hj => by
      rw [vxLive_iff hj rfl]
      rcases hlive with h | h
      · rw [show (directOp c op f).f.mreg.toNat = 0 from congrArg BitVec.toNat h, bitAt_mask_zero _ (by omega), Bool.or_true]
      · rw [show (directOp c op f).op = 0x0C from h]
        rfl
  refine coreActs_of_eq ((hexec.trans (if_pos hform)).trans (congrArg ok ((vxOp_starts hc hi hpend hq hdir hpred).trans hrun)))
    ⟨_, rfl, fun j hj => ?_⟩
  rw [laneInt_eq_sext, laneNat_putLanes (v := _) _ _ hj ?_, sext_mod]
  · exact hlane j hj
  · simp only [vxIntVals, List.getElem?_map, List.getElem?_range hj]
    rfl

theorem vxFormOk_cmp_dst (h : vxFormOk 0x0B f = true) : f.dst.toNat < 8 := by
  simp only [vxFormOk, Bool.and_eq_true] at h
  obtain ⟨⟨⟨⟨-, hregs⟩, -⟩, -⟩, -⟩ := h
  simp only [bne_self_eq_false, Bool.false_or, Bool.and_eq_true, decide_eq_true_eq] at hregs
  exact hregs.1.1.1

/-- CMP on registers, from the condition of each lane. -/
theorem coreActs_of_cmp {cond : Nat → Bool} (hc : s.dev.core core = c) (hi : s.issues core = true) (hpend : c.pendW = [])
    (hq : c.vxQ = []) (hdir : vxAllDirect f = true) (hty : f.ty = 2) (hpred : (c.pred f.pred.toNat != f.pneg) = true)
    (hform : vxFormOk 0x0B f = true) (hm : f.mreg = 0)
    (hlane : ∀ j, j < 128 → vxCond 2 f.fn.toNat (laneNat (mapGet (fun _ => 0) c.v f.srca.toNat) j)
      (laneNat (mapGet (fun _ => 0) c.v f.srcb.toNat) j) = cond j) :
    CoreActs (.vxCmp core ⟨f, lost⟩) core s fun t => ∃ row,
      t = { c.bankTick lost with issued := true, pendW := [⟨.mreg f.dst.toNat, row, c.seq⟩], tally := t.tally } ∧
        ∀ j, j < 128 → row.getLsbD j = cond j := by
  have hsound : c.sound = true := hc ▸ (State.atIssue_iff.mp ((Bool.and_eq_true _ _).mp hi).1).2.2.2
  obtain ⟨y, hrun⟩ := vxExec_cmp (s := s) (core := core) (c := { c.bankTick lost with issued := true }) (q := directOp c 0x0B f) rfl hdir hty rfl
    hpend hsound
  have hdst : (directOp c 0x0B f).f.dst.toNat % 8 = f.dst.toNat := Nat.mod_eq_of_lt (vxFormOk_cmp_dst hform)
  rw [hdst] at hrun
  refine coreActs_of_eq ((if_pos hform).trans (congrArg ok ((vxOp_starts hc hi hpend hq hdir hpred).trans hrun))) ⟨_, rfl, fun j hj => ?_⟩
  have hlive : vxLive (directCtx (directOp c 0x0B f)) (c.mask f.mreg.toNat).toNat 0 j = true := by
    have hm0 : f.mreg.toNat = 0 := congrArg BitVec.toNat hm
    rw [vxLive_iff hj rfl, hm0, bitAt_mask_zero c (by omega), Bool.or_true]
  rw [BitVec.getLsbD_ofNat, decide_eq_true (by omega), Bool.true_and, ← hlane j hj]
  exact testBit_vxCmpBits hj hlive _

end

/-- The conditions of CMP on integers (R155). -/
def intCond (fn : Nat) (x y : Int) : Bool :=
  match fn with
  | 0 => decide (x = y)
  | 1 => decide (x ≠ y)
  | 2 => decide (x < y)
  | 3 => decide (x ≤ y)
  | 4 => decide (y < x)
  | _ => decide (y ≤ x)

theorem vxCond_int (fn a b : Nat) : vxCond 2 fn a b = intCond fn (sext 32 a) (sext 32 b) := by
  simp only [vxCond, intCond, if_true]
  generalize sext 32 a = x
  generalize sext 32 b = y
  have heq : (!decide (x < y) && !decide (y < x)) = decide (x = y) := by
    rw [Bool.eq_iff_iff]
    simp only [Bool.and_eq_true, Bool.not_eq_true', decide_eq_false_iff_not, decide_eq_true_eq]
    omega
  rw [heq]
  match fn with
  | 0 | 2 | 4 => rfl
  | 1 => exact decide_not.symm
  | 3 => exact (Bool.decide_or ..).symm.trans (decide_eq_decide.mpr le_iff_lt_or_eq.symm)
  | _ + 5 => exact (Bool.decide_or ..).symm.trans (decide_eq_decide.mpr (by omega))

theorem sext_min (a b : Nat) : sext 32 (if sext 32 a ≤ sext 32 b then (a, 0, 0) else (b, 0, 0) : LRes).1 = min (sext 32 a) (sext 32 b) := by
  rw [min_def]
  split <;> rfl

theorem sext_max (a b : Nat) : sext 32 (if sext 32 a ≤ sext 32 b then (b, 0, 0) else (a, 0, 0) : LRes).1 = max (sext 32 a) (sext 32 b) := by
  rw [max_def]
  split <;> rfl

theorem natAbs_eq_max (x : Int) : (x.natAbs : Int) = max x (-x) := by omega

/-- Settles O19: an integer operation on registers is one step; each lane's result, held to 32 bits, goes to the row of its
destination, and CMP's condition to the lane's bit. -/
theorem integerLanesSaturate : Obligations.IntegerLanesSaturate := by
  intro s core f lost c hc hi hpend hq hdir hty hpred a b gives
  have hgives {i : Instr} {op : Nat} {lane : Nat → Int} (hexec : exec i s = vxMeaning core op ⟨f, lost⟩ s) (hop : op ∈ vxIntOps)
      (hform : vxFormOk op f = true) (hlive : f.mreg = 0 ∨ op = 0x0C) (hlane : ∀ j, _) : gives i lane :=
    coreActs_of_int hc hi hpend hq hdir hty hpred hexec hop hform hlive hlane
  have ha (j : Nat) : a j = sext 32 (laneNat (mapGet (fun _ => 0) c.v f.srca.toNat) j) := laneInt_eq_sext _ j
  have hb (j : Nat) : b j = sext 32 (laneNat (mapGet (fun _ => 0) c.v f.srcb.toNat) j) := laneInt_eq_sext _ j
  simp only [ha, hb]
  refine ⟨fun hm hf => ⟨?_, ?_, ?_, ?_, ?_⟩, fun hm hf => ?_, fun hm hf => ?_, fun hm hf => ?_, fun hm hf => ?_⟩
  · exact hgives (op := 0x01) rfl (by decide) hf (.inl hm) fun j _ => sext_vxInt _
  · exact hgives (op := 0x02) rfl (by decide) hf (.inl hm) fun j _ => sext_vxInt _
  · exact hgives (op := 0x03) rfl (by decide) hf (.inl hm) fun j _ => sext_vxInt _
  · exact hgives (op := 0x05) rfl (by decide) hf (.inl hm) fun j _ => sext_min _ _
  · exact hgives (op := 0x06) rfl (by decide) hf (.inl hm) fun j _ => sext_max _ _
  · refine hgives (op := 0x07) rfl (by decide) hf (.inl hm) fun j _ => ?_
    rw [← natAbs_eq_max]
    exact sext_vxInt _
  · have hsrc : f.srca.toNat % 32 = f.srca.toNat := Nat.mod_eq_of_lt (vxAllDirect_iff.mp hdir).2.1
    refine hgives (op := 0x0D) rfl (by decide) hf (.inl hm) fun j _ => ?_
    simp only [vxIntRes, directOp, hsrc, sext_mod]
    exact (toInt_ofNat_eq_sext (by decide) _).symm
  · refine hgives (op := 0x0C) rfl (by decide) hf (.inr rfl) fun j _ => ?_
    have hsound : c.sound = true := hc ▸ (State.atIssue_iff.mp ((Bool.and_eq_true _ _).mp hi).1).2.2.2
    have hm0 : f.mreg.toNat ≠ 0 := fun h => hm (BitVec.eq_of_toNat_eq h)
    simp only [vxIntRes, directOp, CoreSt.mask_of_sound hsound hm0, bitAt, BitVec.testBit_toNat]
    split <;> rfl
  · exact coreActs_of_cmp hc hi hpend hq hdir hty hpred hf hm fun j _ => vxCond_int ..

end Sys2Proof.Machine
end

section
/-! SUPPORT. One row of memory replaced, and the HEAD of a ring moved on (05 R177, R178). -/

namespace Sys2Proof.Machine

/-- A row written changes no byte of another row. -/
theorem onlyRow_writeRow {m : List Host.Cell} (g : Nat) (r : RowData) (hm : memWf m = true) : OnlyRow m (writeRow m g r) g :=
  fun _ ha => memByte_writeRow_other r hm (by omega)

theorem bits_ofNat_row (n : Nat) {hi : Nat} (lo : Nat) (h : hi < 4096) : bits (BitVec.ofNat 4096 n).toNat hi lo = bits n hi lo := by
  rw [BitVec.toNat_ofNat]
  exact bits_mod n hi lo 4096 h

theorem ringDesc_eq_bits (s : State) (core k : Nat) : ringDesc s core k =
    bits (readRow s.mem (coreStateGra core (k / 16))).toNat (256 * (k % 16) + 255) (256 * (k % 16)) := by
  rw [ringDesc, bits, show 256 * (k % 16) + 255 + 1 - 256 * (k % 16) = 256 by omega]

/-- A ring descriptor put is read again. -/
theorem ringDesc_setRing_same {s : State} (core k v : Nat) (hm : memWf s.mem = true) :
    ringDesc (setRing s core k v) core k = v % 2 ^ 256 := by
  rw [ringDesc_eq_bits, setRing, State.putRow_mem, readRow_writeRow_same _ _ hm, bits_ofNat_row _ _ (by omega),
    bits_setBits_same _ _ _ _ (by omega), show 256 * (k % 16) + 255 + 1 - 256 * (k % 16) = 256 by omega]

/-- A ring whose HEAD is put keeps its TAIL. -/
theorem ring_setRing_head {s : State} (core k head : Nat) (hm : memWf s.mem = true) :
    ringHead (ringDesc (setRing s core k (setBits (ringDesc s core k) 159 144 head)) core k) = head % 65536 ∧
      ringTail (ringDesc (setRing s core k (setBits (ringDesc s core k) 159 144 head)) core k) = ringTail (ringDesc s core k) := by
  rw [ringDesc_setRing_same _ _ _ hm, ringHead, ringTail, bits_mod _ _ _ _ (by decide), bits_mod _ _ _ _ (by decide)]
  exact ⟨bits_setBits_same _ _ _ _ (by decide), bits_setBits_apart _ _ _ _ _ _ (by decide) (.inl (by decide))⟩

theorem onlyRow_setRing {s : State} (core k v : Nat) (hm : memWf s.mem = true) :
    OnlyRow s.mem (setRing s core k v).mem (coreStateGra core (k / 16)) := onlyRow_writeRow _ _ hm

end Sys2Proof.Machine
end

section
/-! SUPPORT. A short control packet that its cluster takes (07 R243, R248; 08 R297), and the latency of its way (07 R239). -/

namespace Sys2Proof.Machine

/-- A whole short packet on the mesh leaves it and is acted on. -/
theorem shortArrive_of_carries {s : State} {f : Flit} {sop : Nat} (h : s.carriesShort f sop = true) (act : ShortPkt → State → State) :
    shortArrive sop f s act = act (shortPkt f) (s.onDev fun d => d.take ⟨f, []⟩) := by
  obtain ⟨hpkt, hcrc⟩ := (Bool.and_eq_true _ _).mp h
  exact (if_pos hpkt).trans (if_pos hcrc)

theorem State.inOrder_of_arrives {s : State} {f : Flit} (t : State)
    (h : s.arrives ((shortPkt f).dcl * 8 + (shortPkt f).dcore) ⟨f, []⟩ = true) : s.inOrder f t = t := if_pos h

theorem Dev.accepts_iff {d : Dev} {cl slice gen : Nat} : d.accepts cl slice gen = true ↔
    cl < 72 ∧ d.fenced (clHalf cl) = false ∧ d.routerFailed cl = false ∧
      d.fld (fClState cl) = 1 ∧ d.fld (fClSlice cl) = slice ∧ d.fld (fClGen cl) = gen := by
  simp [Dev.accepts, and_assoc]

/-- A cluster takes a packet of its slice and generation that no failed router stops (08 Table 8.13). -/
theorem Dev.deliver_of_accepts {d : Dev} {cl slice gen : Nat} (h : d.accepts cl slice gen = true) : d.deliver false cl slice gen = (0, d) := by
  obtain ⟨-, hfence, hrouter, hstate, hslice, hgen⟩ := Dev.accepts_iff.mp h
  simp [Dev.deliver, hfence, hrouter, hstate, hslice, hgen]

theorem shortDeliver_of_accepts {s : State} {k : ShortPkt} (act : State → State) (ha : s.dev.accepts k.dcl k.slice k.gen = true)
    (hr : s.dev.reaches k.schip k.score k.dcl = true) : shortDeliver k s act = act s := by
  have hcl := (Dev.accepts_iff.mp ha).1
  have hopen : s.dev.blocked (s.dev.entryCl k.schip k.score k.dcl) k.dcl = false := by simpa [Dev.reaches] using hr
  rw [shortDeliver, if_neg (Nat.not_le.mpr hcl), hopen, Dev.deliver_of_accepts ha]
  rfl

/-- A short packet that its cluster takes leaves the mesh and is acted on there. -/
theorem shortArrive_of_taken {s : State} {f : Flit} {sop : Nat} (act : ShortPkt → State → State) (hc : s.carriesShort f sop = true)
    (ha : s.dev.accepts (shortPkt f).dcl (shortPkt f).slice (shortPkt f).gen = true)
    (hr : s.dev.reaches (shortPkt f).schip (shortPkt f).score (shortPkt f).dcl = true) :
    shortArrive sop f s (fun k s => shortDeliver k s (act k)) = act (shortPkt f) (s.onDev fun d => d.take ⟨f, []⟩) := by
  rw [shortArrive_of_carries hc]
  exact shortDeliver_of_accepts _ ha hr

theorem Dev.keeps_take (d : Dev) (p : Packet) : Keeps [.net] d (d.take p) := d.keeps_setNet _ (by decide)
theorem Dev.keepsRegs_take (l : List Nat) (d : Dev) (p : Packet) : KeepsRegs l d (d.take p) := .of_regs_eq l rfl

/-! ### The latency measured at an arrival -/

theorem Dev.keeps_measured (d : Dev) (schip score dcl n latency : Nat) : Keeps [.sessions] d (d.measured schip score dcl n latency) := by
  unfold Dev.measured
  exact .ite (.ite ((d.keeps_setReg _ _ _).trans (Dev.keeps_event _ _ _ _ (by decide))) (d.keeps_setReg _ _ _)) (.refl _ d)

theorem Dev.keepsRegs_measured (d : Dev) (schip score dcl n latency : Nat) : KeepsRegs arriveRegs d (d.measured schip score dcl n latency) := by
  unfold Dev.measured
  exact .ite (.ite ((d.keepsRegs_setReg _ (by decide)).trans (Dev.keepsRegs_event _ _ _ (by decide))) (d.keepsRegs_setReg _ (by decide)))
    (.refl _ d)

theorem clReg_notMem_arriveRegs {cl : Nat} (h : cl < 72) : regAddr 8 (0x200 + 4 * cl) ∉ arriveRegs := by
  simp only [arriveRegs, eventRegs, eventReg, regAddr, List.mem_cons, List.mem_append, List.not_mem_nil, or_false]
  omega

theorem Dev.routerFailed_of_arriveRegs {d e : Dev} (h : KeepsRegs arriveRegs d e) {cl : Nat} (hcl : cl < 72) :
    e.routerFailed cl = d.routerFailed cl := by
  have hrouter : regAddr 7 (4 * (cl / 32)) ∉ arriveRegs := by
    simp only [arriveRegs, eventRegs, eventReg, regAddr, List.mem_cons, List.mem_append, List.not_mem_nil, or_false]
    omega
  rw [Dev.routerFailed, Dev.routerFailed, h _ hrouter]

/-- The registers that arrivals may set decide no delivery. -/
theorem Dev.accepts_of_arriveRegs {d e : Dev} (h : KeepsRegs arriveRegs d e) (cl slice gen : Nat) :
    e.accepts cl slice gen = d.accepts cl slice gen := by
  by_cases hcl : cl < 72
  · have hcluster := clReg_notMem_arriveRegs hcl
    simp only [Dev.accepts, Dev.fenced, Dev.routerFailed_of_arriveRegs h hcl, h (regAddr 11 0) (by decide),
      h.fld (f := fClState cl) hcluster, h.fld (f := fClSlice cl) hcluster, h.fld (f := fClGen cl) hcluster]
  · simp [Dev.accepts, hcl]

theorem Dev.blocked_of_arriveRegs {d e : Dev} (h : KeepsRegs arriveRegs d e) (hn : e.net = d.net) (a b : Nat) :
    e.blocked a b = d.blocked a b := by
  have hfailed : e.failedRouters = d.failedRouters := by
    rw [Dev.failedRouters, Dev.failedRouters, h (regAddr 7 0) (by decide), h (regAddr 7 4) (by decide), h (regAddr 7 8) (by decide),
      List.filter_congr fun c hc => Dev.routerFailed_of_arriveRegs h (List.mem_range.mp hc)]
  have hpath : e.meshPath a b = d.meshPath a b := by
    simp only [Dev.meshPath, Dev.avoided, Dev.fenced, hn, h (regAddr 11 0) (by decide)]
  rw [Dev.blocked, Dev.blocked, hfailed, hpath]

theorem Dev.reaches_of_arriveRegs {d e : Dev} (h : KeepsRegs arriveRegs d e) (hn : e.net = d.net) (schip score cl : Nat) :
    e.reaches schip score cl = d.reaches schip score cl := by
  have hentry : e.entryCl schip score cl = d.entryCl schip score cl := by
    rw [Dev.entryCl, Dev.entryCl, Dev.coord, Dev.coord, h (regAddr 8 0) (by decide)]
  rw [Dev.reaches, Dev.reaches, hentry, Dev.blocked_of_arriveRegs h hn]

/-- A row that packets reach is a row of the cluster's slice, which arrivals leave. -/
theorem pktRowOk_of_arriveRegs {d e : Dev} (h : KeepsRegs arriveRegs d e) (hs : e.slices = d.slices) {cl : Nat} (hcl : cl < 72) (g : Nat) :
    pktRowOk e cl g = pktRowOk d cl g := by
  have hcluster := clReg_notMem_arriveRegs hcl
  have hslice : e.sliceOf cl = d.sliceOf cl := by
    simp only [Dev.sliceOf, Dev.slice?, hs, h.fld (f := fClState cl) hcluster, h.fld (f := fClSlice cl) hcluster]
  simp only [pktRowOk, hslice]

end Sys2Proof.Machine
end

section
/-! SUPPORT. An acknowledgement at its core (07 R244), and an increment at its semaphore row (06 R212, R213). -/

namespace Sys2Proof.Machine

/-- The packet found is the first one erased. -/
theorem eraseFirst_of_find? {α : Type} [BEq α] [LawfulBEq α] {p : α → Bool} {l : List α} {o : α} (h : l.find? p = some o) :
    eraseFirst (fun x => x == o) l = eraseFirst p l := by
  induction l with
  | nil => rfl
  | cons a l ih =>
    by_cases ha : p a = true
    · obtain rfl : a = o := by simpa [ha] using h
      simp [eraseFirst, ha]
    · have hne : a ≠ o := fun e => ha (e ▸ List.find?_some h)
      have hrest : l.find? p = some o := by simpa [ha] using h
      simp [eraseFirst, ha, hne, ih hrest]

theorem eraseFirst_of_find?_none {α : Type} {p : α → Bool} {l : List α} (h : l.find? p = none) : eraseFirst p l = l := by
  induction l with
  | nil => rfl
  | cons a l ih =>
    have hnot : ∀ x ∈ a :: l, ¬p x = true := List.find?_eq_none.mp h
    have ha : p a = false := by simpa using hnot a (List.mem_cons_self ..)
    simp [eraseFirst, ha, ih (List.find?_eq_none.mpr fun x hx => hnot x (List.mem_cons_of_mem a hx))]

/-- A packet that an acknowledgement with STATUS 0 answers: one of the destination device, with the SEQ and the gate, and no read (R243, R244). -/
def OutPkt.landed (k : ShortPkt) (o : OutPkt) : Bool :=
  o.seq == bits k.arg0 31 16 && o.gate == bits k.arg1 25 10 && !o.reply && o.chip == k.schip

theorem OutPkt.answers_eq_landed (k : ShortPkt) (o : OutPkt) :
    o.answers k.schip (bits k.arg0 31 16) (bits k.arg1 25 10) 0 = o.landed k := by
  simp [OutPkt.answers, OutPkt.landed, Bool.and_assoc]

/-- An acknowledgement with STATUS 0 that answers no read reply takes its packet from the outstanding ones. -/
theorem ackCore_of_landed {s : State} {k : ShortPkt} (hst : bits k.arg0 15 8 = 0)
    (hserved : ∀ x ∈ (s.dev.core (k.dcl * 8 + k.dcore)).served, x ≠ (k.schip, bits k.arg0 31 16, bits k.arg1 25 10)) :
    ∃ d, ackCore k s = { s with dev := d } ∧
      d.core (k.dcl * 8 + k.dcore) = { s.dev.core (k.dcl * 8 + k.dcore) with
        outst := eraseFirst (OutPkt.landed k) (s.dev.core (k.dcl * 8 + k.dcore)).outst } ∧
      (∀ j, j ≠ k.dcl * 8 + k.dcore → d.core j = s.dev.core j) ∧ Keeps [.cores] s.dev d ∧ KeepsRegs [] s.dev d := by
  have hnone : ((s.dev.core (k.dcl * 8 + k.dcore)).served.any fun x =>
      x.2.1 == bits k.arg0 31 16 && x.2.2 == bits k.arg1 25 10 && ((0 : Nat) != 0 || x.1 == k.schip)) = false := by
    refine List.any_eq_false.mpr fun x hx hc => hserved x hx ?_
    obtain ⟨a, b, c⟩ := x
    simp only [Bool.and_eq_true, beq_iff_eq, bne_self_eq_false, Bool.false_or] at hc
    rw [hc.1.1, hc.1.2, hc.2]
  have hanswers : (fun o : OutPkt => o.answers k.schip (bits k.arg0 31 16) (bits k.arg1 25 10) 0) = OutPkt.landed k :=
    funext fun o => o.answers_eq_landed k
  simp only [ackCore, hst, hnone, hanswers, statusBit, Bool.false_eq_true, if_false]
  cases hfind : (s.dev.core (k.dcl * 8 + k.dcore)).outst.find? (OutPkt.landed k) with
  | none =>
    refine ⟨s.dev, rfl, ?_, fun _ _ => rfl, .refl _ _, .refl _ _⟩
    rw [eraseFirst_of_find?_none hfind]
  | some o =>
    have hwrite : o.reply = false := by
      have := List.find?_some hfind
      simp only [OutPkt.landed, Bool.and_eq_true, Bool.not_eq_true'] at this
      exact this.1.2
    simp only [hwrite, Bool.false_eq_true, if_false]
    refine ⟨_, rfl, ?_, fun j hj => ?_, Dev.keeps_updCore _ _ _ (by decide), Dev.keepsRegs_updCore _ _ _ _⟩
    · rw [Dev.core_updCore, if_pos rfl, eraseFirst_of_find? hfind]
    · rw [Dev.core_updCore, if_neg hj]

/-! ### Semaphores -/

/-- COUNT and RELEASES rise by 1, and the rest of the row stays (R212). -/
theorem semIncrement_fields (r : RowData) :
    bits (semIncrement r).toNat 15 0 = (bits r.toNat 15 0 + 1) % 2 ^ 16 ∧ bits (semIncrement r).toNat 63 32 = (bits r.toNat 63 32 + 1) % 2 ^ 32 ∧
      bits (semIncrement r).toNat 31 16 = bits r.toNat 31 16 ∧ bits (semIncrement r).toNat 4095 64 = bits r.toNat 4095 64 := by
  have hreleases : bits (setBits r.toNat 15 0 (bits r.toNat 15 0 + 1)) 63 32 = bits r.toNat 63 32 :=
    bits_setBits_apart _ _ _ _ _ _ (by decide) (.inr (by decide))
  simp only [semIncrement, hreleases]
  refine ⟨?_, ?_, ?_, ?_⟩
  · rw [bits_ofNat_row _ _ (by decide), bits_setBits_apart _ _ _ _ _ _ (by decide) (.inl (by decide)), bits_setBits_same _ _ _ _ (by decide)]
  · rw [bits_ofNat_row _ _ (by decide), bits_setBits_same _ _ _ _ (by decide)]
  · rw [bits_ofNat_row _ _ (by decide), bits_setBits_apart _ _ _ _ _ _ (by decide) (.inl (by decide)),
      bits_setBits_apart _ _ _ _ _ _ (by decide) (.inr (by decide))]
  · rw [bits_ofNat_row _ _ (by decide), bits_setBits_apart _ _ _ _ _ _ (by decide) (.inr (by decide)),
      bits_setBits_apart _ _ _ _ _ _ (by decide) (.inr (by decide))]

/-- A core of the store's cluster whose ACQUIRE waits for the row is satisfied by the count (R213). -/
def CoreSt.metBy (g count : Nat) (c : CoreSt) : CoreSt :=
  match c.wait with
  | .acquire g' want _ => if g' = g ∧ semOk count want.toNat then { c with wait := .acquire g' want true } else c
  | _ => c

theorem CoreSt.metBy_of_acquire {c : CoreSt} {g : Nat} {want : BitVec 16} {met : Bool} (count : Nat) (h : c.wait = .acquire g want met) :
    c.metBy g count = { c with wait := .acquire g want (met || semOk count want.toNat) } := by
  unfold CoreSt.metBy
  rw [h]
  by_cases hok : semOk count want.toNat = true
  · simp [hok]
  · simp [hok, ← h]

theorem CoreSt.metBy_of_other {c : CoreSt} {g : Nat} (count : Nat) (h : ∀ want met, c.wait ≠ .acquire g want met) : c.metBy g count = c := by
  unfold CoreSt.metBy
  split
  next g' want met hw => exact if_neg fun (hg : g' = g ∧ _) => h want met (hg.1 ▸ hw)
  next => rfl

/-- The same change of distinct cores of a cluster. -/
theorem core_foldl_onCore {ks : List Nat} (hks : ks.Nodup) (s : State) (cl : Nat) (f : CoreSt → CoreSt) (j : Nat) :
    (ks.foldl (fun s k => s.onCore (cl * 8 + k) f) s).dev.core j = if ∃ k ∈ ks, j = cl * 8 + k then f (s.dev.core j) else s.dev.core j := by
  induction ks generalizing s with
  | nil => simp
  | cons k ks ih =>
    obtain ⟨hk, hrest⟩ := List.nodup_cons.mp hks
    rw [List.foldl_cons, ih hrest, State.onCore_dev, Dev.core_updCore]
    by_cases h : j = cl * 8 + k
    · have hother : ¬∃ k' ∈ ks, j = cl * 8 + k' := fun ⟨k', hk', he⟩ => hk (by rwa [show k = k' by omega])
      rw [if_neg hother, if_pos h, if_pos ⟨k, List.mem_cons_self .., h⟩]
    · simp [h]

theorem foldl_onCore_frame (ks : List Nat) (s : State) (cl : Nat) (f : CoreSt → CoreSt) :
    ∃ d, ks.foldl (fun s k => s.onCore (cl * 8 + k) f) s = { s with dev := d } ∧ Keeps [.cores] s.dev d ∧ KeepsRegs [] s.dev d := by
  induction ks generalizing s with
  | nil => exact ⟨s.dev, rfl, .refl _ _, .refl _ _⟩
  | cons k ks ih =>
    obtain ⟨d, hd, hkeeps, hregs⟩ := ih (s.onCore (cl * 8 + k) f)
    exact ⟨d, hd, (Dev.keeps_updCore _ _ _ (by decide)).trans hkeeps, (Dev.keepsRegs_updCore _ _ _ _).trans hregs⟩

/-- An increment re-evaluates the ACQUIREs of its cluster's cores, and no other. -/
theorem semMeet_spec (cl g count : Nat) (s : State) :
    ∃ d, semMeet cl g count s = { s with dev := d } ∧
      (∀ j, d.core j = if j / 8 = cl then (s.dev.core j).metBy g count else s.dev.core j) ∧ Keeps [.cores] s.dev d ∧ KeepsRegs [] s.dev d := by
  obtain ⟨d, hd, hkeeps, hregs⟩ := foldl_onCore_frame (List.range 8) s cl (CoreSt.metBy g count)
  refine ⟨d, hd, fun j => ?_, hkeeps, hregs⟩
  have hiff : (∃ k ∈ List.range 8, j = cl * 8 + k) ↔ j / 8 = cl :=
    ⟨fun ⟨k, hk, hj⟩ => by have := List.mem_range.mp hk; omega, fun h => ⟨j % 8, List.mem_range.mpr (by omega), by omega⟩⟩
  have hcore := core_foldl_onCore (List.nodup_range (n := 8)) s cl (CoreSt.metBy g count) j
  rw [hd] at hcore
  simp only [hiff] at hcore
  exact hcore

end Sys2Proof.Machine
end

section
/-! O24. -/

namespace Sys2Proof.Machine

theorem exec_packetAcknowledgement_of_taken {s : State} {f : Flit} (hc : s.carriesShort f 0 = true) (hcl : (shortPkt f).dcl < 72)
    (ha : s.dev.accepts (shortPkt f).dcl (shortPkt f).slice (shortPkt f).gen = true)
    (hr : s.dev.reaches (shortPkt f).schip (shortPkt f).score (shortPkt f).dcl = true) :
    exec (.packetAcknowledgement f) s = ok (ackCore (shortPkt f) (s.onDev fun d => d.take ⟨f, []⟩)) := by
  refine congrArg ok ((shortArrive_of_carries hc _).trans ((if_pos hcl).trans ?_))
  exact shortDeliver_of_accepts _ ha hr

/-- An increment whose row is without error writes the row's next count, and meets the ACQUIREs that wait for it. -/
theorem semArrive_of_clean {s : State} {k : ShortPkt} (hspace : graSpace k.arg0 = 1) (hrow : pktRowOk s.dev k.dcl k.arg0 = true)
    (hclean : s.clean k.arg0 = true) : semArrive k s =
      semMeet k.dcl k.arg0 (semCount (semIncrement (readRow s.mem k.arg0))) (s.putRow k.arg0 (semIncrement (readRow s.mem k.arg0))) := by
  simp only [semArrive, hspace, hrow, and_self, if_true, State.engRead_of_clean _ hclean]

/-- An increment on its way measures its latency, and leaves the mesh as its cluster takes it. -/
theorem exec_semaphoreIncrement_of_taken {s : State} {f : Flit} {k : ShortPkt} (latency : Nat) (hk : k = shortPkt f)
    (hc : s.carriesShort f 1 = true) (harr : s.arrives (k.dcl * 8 + k.dcore) ⟨f, []⟩ = true)
    (ha : s.dev.accepts k.dcl k.slice k.gen = true) (hr : s.dev.reaches k.schip k.score k.dcl = true) :
    exec (.semaphoreIncrement ⟨f, latency⟩) s =
      ok (semArrive k { s with dev := (s.dev.measured k.schip k.score k.dcl 1 latency).take ⟨f, []⟩ }) := by
  subst hk
  have hregs := s.dev.keepsRegs_measured (shortPkt f).schip (shortPkt f).score (shortPkt f).dcl 1 latency
  have hnet : (s.dev.measured (shortPkt f).schip (shortPkt f).score (shortPkt f).dcl 1 latency).net = s.dev.net :=
    s.dev.keeps_measured _ _ _ _ _ .net (by decide)
  refine congrArg ok ((State.inOrder_of_arrives _ harr).trans (shortArrive_of_taken semArrive ?_ ?_ ?_))
  · simpa only [State.carriesShort, State.inFlight, State.onDev_dev, hnet] using hc
  · rw [State.onDev_dev, Dev.accepts_of_arriveRegs hregs]
    exact ha
  · rw [State.onDev_dev, Dev.reaches_of_arriveRegs hregs hnet]
    exact hr

theorem exec_ringCredit_of_taken {s : State} {f : Flit} {k : ShortPkt} (hk : k = shortPkt f) (hc : s.carriesShort f 2 = true)
    (harr : s.arrives (k.dcl * 8 + k.dcore) ⟨f, []⟩ = true) (ha : s.dev.accepts k.dcl k.slice k.gen = true)
    (hr : s.dev.reaches k.schip k.score k.dcl = true) {core ring : Nat} (hcore : core = k.dcl * 8 + k.dcore) (hring : ring = bits k.arg0 31 27) :
    exec (.ringCredit f) s = ok (setRing (s.onDev fun d => d.take ⟨f, []⟩) core ring
      (setBits (ringDesc s core ring) 159 144 (ringHead (ringDesc s core ring) + bits k.arg0 15 0))) := by
  subst hk hcore hring
  exact congrArg ok ((State.inOrder_of_arrives _ harr).trans (shortArrive_of_taken _ hc ha hr))

/-- An increment that its cluster takes writes the row's next count, and meets the ACQUIREs of the cluster's cores that wait for it. -/
theorem exec_semaphoreIncrement_spec {s : State} {f : Flit} {k : ShortPkt} (latency : Nat) (hk : k = shortPkt f)
    (hc : s.carriesShort f 1 = true) (harr : s.arrives (k.dcl * 8 + k.dcore) ⟨f, []⟩ = true)
    (hr : s.dev.reaches k.schip k.score k.dcl = true) (hclean : s.clean k.arg0 = true) (ha : s.dev.accepts k.dcl k.slice k.gen = true)
    (hspace : graSpace k.arg0 = 1) (hrow : pktRowOk s.dev k.dcl k.arg0 = true) :
    ∃ d, exec (.semaphoreIncrement ⟨f, latency⟩) s =
        ok { s with mem := writeRow s.mem k.arg0 (semIncrement (readRow s.mem k.arg0)), dev := d } ∧
      (∀ j, d.core j = if j / 8 = k.dcl then (s.dev.core j).metBy k.arg0 (semCount (semIncrement (readRow s.mem k.arg0))) else s.dev.core j) ∧
      d.net = { s.dev.net with flight := s.dev.without ⟨f, []⟩ } ∧ Keeps [.net, .cores, .sessions] s.dev d ∧ KeepsRegs arriveRegs s.dev d := by
  have hregs := s.dev.keepsRegs_measured k.schip k.score k.dcl 1 latency
  have hkeeps := s.dev.keeps_measured k.schip k.score k.dcl 1 latency
  have hexec := exec_semaphoreIncrement_of_taken latency hk hc harr ha hr
  generalize s.dev.measured k.schip k.score k.dcl 1 latency = m at hregs hkeeps hexec
  have hrow' : pktRowOk (m.take ⟨f, []⟩) k.dcl k.arg0 = true :=
    (pktRowOk_of_arriveRegs hregs (hkeeps .slices (by decide)) (Dev.accepts_iff.mp ha).1 _).trans hrow
  have hclean' : ({ s with dev := m.take ⟨f, []⟩ } : State).clean k.arg0 = true := by
    have hhlth : m.hlth = s.dev.hlth := hkeeps .hlth (by decide)
    simpa only [State.clean, Dev.take, hhlth] using hclean
  have hcore (j : Nat) : (m.take ⟨f, []⟩).core j = s.dev.core j := hkeeps.core (by decide) j
  have hnet : (m.take ⟨f, []⟩).net = { s.dev.net with flight := s.dev.without ⟨f, []⟩ } := by
    have hnet : m.net = s.dev.net := hkeeps .net (by decide)
    rw [Dev.take, Dev.without, hnet]
  obtain ⟨d, hd, hcores, hkd, hrd⟩ := semMeet_spec k.dcl k.arg0 (semCount (semIncrement (readRow s.mem k.arg0)))
    ({ s with dev := m.take ⟨f, []⟩ }.putRow k.arg0 (semIncrement (readRow s.mem k.arg0)))
  simp only [State.putRow_dev, hcore] at hcores
  have hsem : semArrive k { s with dev := m.take ⟨f, []⟩ } =
      semMeet k.dcl k.arg0 (semCount (semIncrement (readRow s.mem k.arg0)))
        ({ s with dev := m.take ⟨f, []⟩ }.putRow k.arg0 (semIncrement (readRow s.mem k.arg0))) := semArrive_of_clean hspace hrow' hclean'
  refine ⟨d, hexec.trans (congrArg ok (hsem.trans hd)), hcores, (hkd .net (by decide)).trans hnet,
    ((hkeeps.weaken (by decide)).trans ((Dev.keeps_take m _).weaken (by decide))).trans (hkd.weaken (by decide)),
    (hregs.trans (Dev.keepsRegs_take _ m _)).trans (hrd.weaken (by simp))⟩

/-- Settles O24: a short packet that its cluster takes leaves the mesh; then the acknowledgement erases its packet, the increment
writes its row and meets the ACQUIREs, the credit puts HEAD. -/
theorem controlPacketsTakeEffect : Obligations.ControlPacketsTakeEffect := by
  refine ⟨fun s f k hk hc hcl hr ha hst hserved => ?_, fun s f k old latency hk hm hc harr hr hclean ha hspace hrow hold => ?_,
    fun s f k core ring hk hm hc harr hr ha hcore hring => ?_⟩
  · subst hk
    obtain ⟨d, hd, hself, hother, hkeeps, hregs⟩ := ackCore_of_landed (s := s.onDev fun d => d.take ⟨f, []⟩) hst hserved
    refine ⟨d, (exec_packetAcknowledgement_of_taken hc hcl ha hr).trans (congrArg ok hd), hkeeps .net (by decide), hself, hother, ?_, ?_⟩
    · exact ((Dev.keeps_take _ _).weaken (by decide)).trans (hkeeps.weaken (by decide))
    · exact (Dev.keepsRegs_take _ _ _).trans hregs
  · obtain ⟨d, hexec, hcores, hnet, hkeeps, hregs⟩ := exec_semaphoreIncrement_spec latency hk hc harr hr hclean ha hspace hrow
    refine ⟨_, hexec, rfl, ?_⟩
    subst hold
    dsimp only
    rw [readRow_writeRow_same _ _ hm]
    obtain ⟨hcount, hreleases, hmid, hrest⟩ := semIncrement_fields (readRow s.mem k.arg0)
    refine ⟨hcount, hreleases, hmid, hrest, onlyRow_writeRow _ _ hm, hnet, fun j want met hj hw => ?_, fun j hw => ?_, hkeeps, hregs⟩
    · rw [hcores, if_pos hj, CoreSt.metBy_of_acquire _ hw, semCount]
    · rw [hcores, CoreSt.metBy_of_other _ hw, ite_self]
  · refine ⟨_, exec_ringCredit_of_taken hk hc harr ha hr hcore hring, rfl, ?_⟩
    obtain ⟨hhead, htail⟩ := ring_setRing_head (s := s.onDev fun d => d.take ⟨f, []⟩) core ring
      (ringHead (ringDesc s core ring) + bits k.arg0 15 0) hm
    exact ⟨hhead, htail, onlyRow_setRing (s := s.onDev fun d => d.take ⟨f, []⟩) core ring _ hm, rfl⟩

end Sys2Proof.Machine
end

section
/-! SUPPORT. Numbers made of lanes of equal width, lowest first: a row filled with a pattern (05 R186). -/

namespace Sys2Proof.Machine

/-- Lanes of w bits, lowest first. -/
def lanes (w n : Nat) (f : Nat → Nat) : Nat := (List.range n).foldl (fun a k => a + f k <<< (w * k)) 0

theorem lanes_succ (w n : Nat) (f : Nat → Nat) : lanes w (n + 1) f = lanes w n f + f n <<< (w * n) := by
  rw [lanes, List.range_succ, List.foldl_append, List.foldl_cons, List.foldl_nil, lanes]

theorem lanes_lt {w : Nat} {f : Nat → Nat} (hf : ∀ k, f k < 2 ^ w) (n : Nat) : lanes w n f < 2 ^ (w * n) := by
  induction n with
  | zero => exact Nat.two_pow_pos _
  | succ n ih =>
    have hlane : f n * 2 ^ (w * n) ≤ (2 ^ w - 1) * 2 ^ (w * n) := Nat.mul_le_mul_right _ (Nat.le_sub_one_of_lt (hf n))
    have hone : 2 ^ (w * n) ≤ 2 ^ w * 2 ^ (w * n) := Nat.le_mul_of_pos_left _ (Nat.two_pow_pos w)
    rw [Nat.sub_mul, Nat.one_mul] at hlane
    rw [lanes_succ, Nat.shiftLeft_eq, Nat.mul_succ, Nat.add_comm (w * n), Nat.pow_add]
    omega

/-- A bit of a number made of lanes is a bit of its lane. -/
theorem testBit_lanes {w : Nat} {f : Nat → Nat} (hf : ∀ k, f k < 2 ^ w) (n i : Nat) :
    (lanes w n f).testBit i = (decide (i < w * n) && (f (i / w)).testBit (i % w)) := by
  induction n with
  | zero => simp [lanes]
  | succ n ih =>
    rw [lanes_succ, Nat.shiftLeft_eq, Nat.add_comm, Nat.mul_comm, Nat.testBit_two_pow_mul_add _ (lanes_lt hf n), ih, Nat.mul_succ]
    by_cases hlow : i < w * n
    · simp [hlow, Nat.lt_add_right w hlow]
    · by_cases hhigh : i < w * n + w
      · have hdiv : i / w = n := by
          rw [Nat.div_eq_iff (by omega)]
          constructor
          · rw [Nat.mul_comm]; omega
          · rw [Nat.mul_comm]; omega
        have hmod : i % w = i - w * n := by rw [Nat.mod_def, hdiv]
        simp [hlow, hhigh, hdiv, hmod]
      · have hzero : (f n).testBit (i - w * n) = false :=
          Nat.testBit_lt_two_pow (Nat.lt_of_lt_of_le (hf n) (Nat.pow_le_pow_right (by decide) (by omega)))
        simp [hlow, hhigh, hzero]

/-- Each lane reads back. -/
theorem bits_lanes {w n j : Nat} {f : Nat → Nat} (hw : 0 < w) (hf : ∀ k, f k < 2 ^ w) (hj : j < n) :
    bits (lanes w n f) (w * j + w - 1) (w * j) = f j := by
  refine Nat.eq_of_testBit_eq fun i => ?_
  rw [testBit_bits, testBit_lanes hf, show w * j + w - 1 + 1 - w * j = w by omega]
  by_cases hi : i < w
  · have hlt : w * j + i < w * n := by
      have := Nat.mul_le_mul_left w hj
      rw [Nat.mul_succ] at this
      omega
    rw [Nat.mul_add_div hw, Nat.div_eq_of_lt hi, Nat.add_zero, Nat.mul_add_mod, Nat.mod_eq_of_lt hi]
    simp [hi, hlt]
  · rw [Nat.testBit_lt_two_pow (Nat.lt_of_lt_of_le (hf j) (Nat.pow_le_pow_right (by decide) (Nat.le_of_not_lt hi)))]
    simp [hi]

/-- The lanes of a number make it up. -/
theorem lanes_shifts {w n r : Nat} (hw : 0 < w) (hr : r < 2 ^ (w * n)) : lanes w n (fun k => (r >>> (w * k)) % 2 ^ w) = r := by
  refine Nat.eq_of_testBit_eq fun i => ?_
  rw [testBit_lanes fun _ => Nat.mod_lt _ (Nat.two_pow_pos w), Nat.testBit_mod_two_pow, Nat.testBit_shiftRight, Nat.div_add_mod]
  by_cases hi : i < w * n
  · simp [hi, Nat.mod_lt i hw]
  · simp [hi, Nat.testBit_lt_two_pow (Nat.lt_of_lt_of_le hr (Nat.pow_le_pow_right (by decide) (Nat.le_of_not_lt hi)))]

end Sys2Proof.Machine
end

section
/-! SUPPORT. The progress of a queue of the DMA engine and its counters, apart from the rest of its core (05 R172, R183). -/

namespace Sys2Proof.Machine

@[simp] theorem CoreSt.run_setRun (c : CoreSt) (q : Nat) (r : DmaRun) : (c.setRun q r).run q = r := by
  match q with
  | 0 | 1 | 2 | _ + 3 => rfl

@[simp] theorem CoreSt.setRun_setRun (c : CoreSt) (q : Nat) (r r' : DmaRun) : (c.setRun q r).setRun q r' = c.setRun q r' := by
  match q with
  | 0 | 1 | 2 | _ + 3 => rfl

theorem CoreSt.setRun_run (c : CoreSt) (q : Nat) : c.setRun q (c.run q) = c := by
  match q with
  | 0 | 1 | 2 | _ + 3 => rfl

/-- A core with the progress of one queue and the DMA counters replaced. -/
def CoreSt.withDma (c : CoreSt) (q : Nat) (r : DmaRun) (k : DmaCtr) : CoreSt := { c.setRun q r with dctr := k }

theorem CoreSt.withDma_self (c : CoreSt) (q : Nat) : c.withDma q (c.run q) c.dctr = c := by
  rw [CoreSt.withDma, CoreSt.setRun_run]

@[simp] theorem CoreSt.withDma_dctr (c : CoreSt) (q : Nat) (r : DmaRun) (k : DmaCtr) : (c.withDma q r k).dctr = k := rfl

@[simp] theorem CoreSt.withDma_run (c : CoreSt) (q : Nat) (r : DmaRun) (k : DmaCtr) : (c.withDma q r k).run q = r := by
  match q with
  | 0 | 1 | 2 | _ + 3 => rfl

@[simp] theorem CoreSt.setRun_queue (c : CoreSt) (q j : Nat) (r : DmaRun) : (c.setRun q r).queue j = c.queue j := by
  match q with
  | 0 | 1 | 2 | _ + 3 =>
    match j with
    | 0 | 1 | 2 | _ + 3 => rfl

@[simp] theorem CoreSt.setRun_dctr (c : CoreSt) (q : Nat) (r : DmaRun) : (c.setRun q r).dctr = c.dctr := by
  match q with
  | 0 | 1 | 2 | _ + 3 => rfl

@[simp] theorem CoreSt.setRun_deferred (c : CoreSt) (q : Nat) (r : DmaRun) : (c.setRun q r).deferred = c.deferred := by
  match q with
  | 0 | 1 | 2 | _ + 3 => rfl

@[simp] theorem CoreSt.withDma_deferred (c : CoreSt) (q : Nat) (r : DmaRun) (k : DmaCtr) : (c.withDma q r k).deferred = c.deferred := c.setRun_deferred q r

@[simp] theorem CoreSt.setRun_outst (c : CoreSt) (q : Nat) (r : DmaRun) : (c.setRun q r).outst = c.outst := by
  match q with
  | 0 | 1 | 2 | _ + 3 => rfl

@[simp] theorem CoreSt.setRun_pktSeq (c : CoreSt) (q : Nat) (r : DmaRun) : (c.setRun q r).pktSeq = c.pktSeq := by
  match q with
  | 0 | 1 | 2 | _ + 3 => rfl

@[simp] theorem CoreSt.setRun_quotaReq (c : CoreSt) (q : Nat) (r : DmaRun) : (c.setRun q r).quotaReq = c.quotaReq := by
  match q with
  | 0 | 1 | 2 | _ + 3 => rfl

@[simp] theorem CoreSt.withDma_outst (c : CoreSt) (q : Nat) (r : DmaRun) (k : DmaCtr) : (c.withDma q r k).outst = c.outst := c.setRun_outst q r

@[simp] theorem CoreSt.withDma_pktSeq (c : CoreSt) (q : Nat) (r : DmaRun) (k : DmaCtr) : (c.withDma q r k).pktSeq = c.pktSeq := c.setRun_pktSeq q r

@[simp] theorem CoreSt.withDma_quotaReq (c : CoreSt) (q : Nat) (r : DmaRun) (k : DmaCtr) : (c.withDma q r k).quotaReq = c.quotaReq :=
  c.setRun_quotaReq q r

@[simp] theorem CoreSt.withDma_setRun (c : CoreSt) (q : Nat) (r r' : DmaRun) (k : DmaCtr) :
    (c.withDma q r k).setRun q r' = c.withDma q r' k := by
  match q with
  | 0 | 1 | 2 | _ + 3 => rfl

theorem CoreSt.withDma_movedRows (c : CoreSt) (q : Nat) (r : DmaRun) (k : DmaCtr) (n : Nat) :
    (c.withDma q r k).movedRows n = c.withDma q r { k with rowsMoved := k.rowsMoved + BitVec.ofNat 64 n } := rfl

/-- A core with its deferred writes replaced. -/
def CoreSt.withDeferred (c : CoreSt) (l : List Deferred) : CoreSt := { c with deferred := l }

/-- A queue that has lost cycles: they count, and it waits (R172). -/
def CoreSt.dmaLost (c : CoreSt) (q lost : Nat) : CoreSt :=
  c.withDma q { c.run q with wait := if lost = 0 then (c.run q).wait else 2 } { c.dctr with bankLoss := c.dctr.bankLoss + BitVec.ofNat 64 lost }

theorem CoreSt.dmaLost_zero (c : CoreSt) (q : Nat) : c.dmaLost q 0 = c := by
  have hzero : c.dctr.bankLoss + BitVec.ofNat 64 0 = c.dctr.bankLoss := BitVec.add_zero _
  rw [CoreSt.dmaLost, if_pos rfl, hzero]
  exact c.withDma_self q

/-! ### States that differ in one core -/

/-- A state is another but for one core, which is as given. -/
structure State.IsWith (s : State) (core : Nat) (c : CoreSt) (t : State) : Prop where
  core_eq : t.dev.core core = c
  same : ∀ x, t.withCore core x = s.withCore core x

namespace State.IsWith

variable {s t : State} {core : Nat} {c : CoreSt}

theorem self (s : State) (core : Nat) : s.IsWith core (s.dev.core core) s := ⟨rfl, fun _ => rfl⟩

theorem withCore (s : State) (core : Nat) (c : CoreSt) : s.IsWith core c (s.withCore core c) :=
  ⟨s.withCore_core core c, fun x => State.withCore_onCore s core c fun _ => x⟩

theorem onCore (h : s.IsWith core c t) (f : CoreSt → CoreSt) : t.onCore core f = s.withCore core (f c) := by
  rw [State.onCore_eq_withCore, h.core_eq, h.same]

theorem mem_eq (h : s.IsWith core c t) : t.mem = s.mem :=
  show (t.withCore core c).mem = (s.withCore core c).mem by rw [h.same]

theorem dev_eq (h : s.IsWith core c t) : t.dev = { s.dev with cores := t.dev.cores } := by
  have hdev : t.dev.setCore core c = s.dev.setCore core c := congrArg State.dev (h.same c)
  calc t.dev
    _ = { t.dev.setCore core c with cores := t.dev.cores } := rfl
    _ = { s.dev.setCore core c with cores := t.dev.cores } := by rw [hdev]
    _ = _ := rfl

theorem clean_eq (h : s.IsWith core c t) (g : Nat) : t.clean g = s.clean g := by
  rw [State.clean, h.dev_eq]
  rfl

end State.IsWith

/-- Cycles lost to a bank change the queue's progress and BANK_LOSS of its core. -/
theorem dmaLose_isWith (s : State) (core q lost : Nat) : s.IsWith core ((s.dev.core core).dmaLost q lost) (dmaLose core q lost s) := by
  unfold dmaLose
  split
  next h =>
    rw [h, CoreSt.dmaLost_zero]
    exact .self s core
  next h =>
    rw [State.onRun, State.onCore_eq_withCore s, State.withCore_onCore, CoreSt.dmaLost, if_neg h]
    refine cast (congrArg (fun x => s.IsWith core x _) ?_) (.withCore s core _)
    match q with
    | 0 | 1 | 2 | _ + 3 => rfl

end Sys2Proof.Machine
end

section
/-! SUPPORT. One row of a COPY or FILL without rings or skew (05 R174, R186). -/

namespace Sys2Proof.Machine

/-- A descriptor of an operation without rings or skew. -/
structure DmaEntry.Plain (e : DmaEntry) : Prop where
  sre : ddSre e = false
  dre : ddDre e = false
  skew : ddSkew e = 0

/-- The rows that a descriptor's strides name, of its source and of its destination (R186). -/
def DmaEntry.srcAt (e : DmaEntry) (i : Nat) : Nat := strideRow (ddSrc e) i (ddSstr e)
def DmaEntry.dstAt (e : DmaEntry) (i : Nat) : Nat := strideRow (ddDst e) i (ddDstr e)

theorem plainMove.plain {s : State} {core : CoreId} {q : Fin 4} {opc : Nat} {e : DmaEntry} (h : plainMove s core q opc e) : e.Plain := by
  obtain ⟨-, -, -, hsre, hdre, hskew, -⟩ := h
  exact ⟨hsre, hdre, hskew⟩

theorem plainMove.head {s : State} {core : CoreId} {q : Fin 4} {opc : Nat} {e : DmaEntry} (h : plainMove s core q opc e) :
    dmaHead s core q opc = some e := by
  obtain ⟨hruns, hhead, hopc, -⟩ := h
  obtain ⟨rest, hqueue⟩ := List.head?_eq_some_iff.mp hhead
  simp [dmaHead, hruns, hqueue, hopc]

theorem plainMove.opc {s : State} {core : CoreId} {q : Fin 4} {opc : Nat} {e : DmaEntry} (h : plainMove s core q opc e) : ddOpc e = opc := h.2.2.1

theorem plainMove.rows {s : State} {core : CoreId} {q : Fin 4} {opc : Nat} {e : DmaEntry} (h : plainMove s core q opc e) :
    ((s.dev.core core).run q).done < ddTotal e := by
  obtain ⟨-, -, -, -, -, hskew, hdone, -⟩ := h
  rw [ddTotal, if_neg (by omega), hskew]
  exact hdone

theorem plainMove.noDeferred {s : State} {core : CoreId} {q : Fin 4} {opc : Nat} {e : DmaEntry} (h : plainMove s core q opc e) :
    (s.dev.core core).deferred.any (fun d => d.queue == some q.val) = false := by
  obtain ⟨-, -, -, -, -, -, -, hdeferred⟩ := h
  exact List.any_eq_false.mpr fun d hd => by simpa using hdeferred d hd

variable {e : DmaEntry}

theorem srcReady_of_plain (h : e.Plain) (s : State) (core q : Nat) : srcReady s core q e = true := by
  simp [srcReady, h.sre]

theorem dstReady_of_plain (h : e.Plain) (s : State) (core q : Nat) : dstReady s core q e = true := by
  simp [dstReady, h.dre]

theorem dstRow_of_plain (h : e.Plain) (s : State) (core q : Nat) :
    dstRow s core q e = (e.dstAt ((s.dev.core core).run q).done, none) := by
  simp [dstRow, h.dre, h.skew, DmaEntry.dstAt]

theorem dmaRead_of_clean {s : State} {core g : Nat} (hown : ownRow core g = true) (hclean : s.clean g = true) :
    dmaRead s core g = (readRow s.mem g, s) := (if_pos hown).trans (State.engRead_of_clean core hclean)

/-- A row of the core's own memories is read, and the read changes nothing where the row is without error. -/
theorem srcRow_of_plain (h : e.Plain) {s : State} {core q : Nat} (hopc : ddOpc e ≠ 2)
    (hown : ownRow core (e.srcAt ((s.dev.core core).run q).done) = true) (hclean : s.clean (e.srcAt ((s.dev.core core).run q).done) = true) :
    srcRow s core q e = (readRow s.mem (e.srcAt ((s.dev.core core).run q).done), s) := by
  simp only [srcRow, hopc, if_false, h.skew, h.sre, ne_eq, not_true_eq_false, Bool.false_eq_true]
  exact dmaRead_of_clean hown hclean

/-- FILL makes its row of its pattern. -/
theorem srcRow_of_fill (h : e.Plain) (s : State) (core q : Nat) (hopc : ddOpc e = 2) :
    srcRow s core q e = (BitVec.ofNat 4096 (lanes 32 128 fun _ => ddPattern e), s) := by
  simp only [srcRow, hopc, if_true, h.sre, Bool.false_and, Bool.false_eq_true, if_false]
  rfl

theorem dmaPut_of_own {core g : Nat} (s : State) (r : RowData) (h : ownRow core g = true) :
    dmaPut s core g r = (s.onCore core fun c => c.movedRows 1).putRow g r := if_pos h

/-- A row with nothing to wait for is moved, and its queue waits no more. -/
theorem localRow_of_plain (h : e.Plain) {s : State} {core q : Nat} {r : RowData} (hsrc : srcRow s core q e = (r, s)) :
    localRow s core q e false = dmaPut (s.onRun core q fun x => { x with done := x.done + 1, wait := 0, forcedSrc := false, forcedDst := false })
      core (e.dstAt ((s.dev.core core).run q).done) r := by
  simp only [localRow, srcReady_of_plain h, dstReady_of_plain h, dstRow_of_plain h, hsrc, Bool.not_true, Bool.false_eq_true, if_false]

/-- A row whose write meets a read of it is deferred, and a cycle counts as lost. -/
theorem localRow_of_meets (h : e.Plain) {s : State} {core q : Nat} {r : RowData} (hsrc : srcRow s core q e = (r, s)) :
    localRow s core q e true =
      (s.onRun core q fun x => { x with done := x.done + 1, wait := 2, forcedSrc := false, forcedDst := false }).onCore core fun c =>
        { c with
          deferred := c.deferred ++ [⟨e.dstAt ((s.dev.core core).run q).done, r, some q, none, none⟩]
          dctr := { c.dctr with bankLoss := c.dctr.bankLoss + 1 } } := by
  simp only [localRow, srcReady_of_plain h, dstReady_of_plain h, dstRow_of_plain h, hsrc, Bool.not_true, Bool.false_eq_true, if_false, if_true]

/-- One row of a descriptor with rows left and no write deferred. -/
theorem localLoop_one {s : State} {core q : Nat} (meets : Bool) (hrows : ((s.dev.core core).run q).done < ddTotal e)
    (hdeferred : (s.dev.core core).deferred.any (fun d => d.queue == some q) = false) :
    localLoop core q e meets 1 s = localRow s core q e meets := by
  have hgo : ¬(ddTotal e ≤ ((s.dev.core core).run q).done ∨ (s.dev.core core).deferred.any (fun d => d.queue == some q) = true) := by
    rw [hdeferred]
    simpa using hrows
  simp only [localLoop, if_neg hgo, ite_self]

end Sys2Proof.Machine
end

section
/-! O20. -/

namespace Sys2Proof.Machine

/-! ### DX.RUN and the end of a descriptor -/

/-- The descriptor that DX.RUN puts into its queue, with both offsets as its bundle reads them (R183, R184). -/
def dxEntry (s : State) (core : Nat) (f : DxFields) : DmaEntry :=
  let c := s.dev.core core
  let word := stateWord s core 4 f.desc.toNat
  ⟨f.desc.toNat, BitVec.ofNat 256 word, if bits word 255 252 = 2 then 0 else (c.sreg f.sreg.toNat).toNat % 2 ^ 32,
    (c.sreg f.dreg.toNat).toNat % 2 ^ 32, c.seq⟩

theorem dxEntry_d (s : State) (core : Nat) (f : DxFields) : (dxEntry s core f).d =
    BitVec.ofNat 256 ((readRow s.mem (coreStateGra core (4 + f.desc.toNat / 16))).toNat / 2 ^ (256 * (f.desc.toNat % 16))) := by
  refine BitVec.eq_of_toNat_eq ?_
  rw [BitVec.toNat_ofNat, ← Nat.shiftRight_eq_div_pow]
  exact (BitVec.toNat_ofNat ..).trans (Nat.mod_mod _ _)

/-- A FILL has no source offset (R184). -/
theorem dxEntry_src {s : State} {core : Nat} {f : DxFields} (h : ddOpc (dxEntry s core f) ≠ 2) :
    (dxEntry s core f).src = ((s.dev.core core).sreg f.sreg.toNat).toNat % 2 ^ 32 := by
  refine if_neg fun hopc => h ?_
  rw [ddOpc, dxEntry, BitVec.toNat_ofNat, bits_mod _ _ _ _ (by decide)]
  exact hopc

theorem exec_dxRun_of_room {s : State} {core : CoreId} {f : DxFields} (hi : s.issues core = true)
    (hroom : ((s.dev.core core).queue f.queue).length < 8) : exec (.dxRun core f) s = ok (s.withCore core
      (({ s.dev.core core with issued := true } : CoreSt).setQueue f.queue ((s.dev.core core).queue f.queue ++ [dxEntry s core f]))) := by
  obtain ⟨ha, hb⟩ := (Bool.and_eq_true _ _).mp hi
  refine congrArg ok ((State.slotOr_of_issues _ _ ha hb (decide_eq_true hroom)).trans ?_)
  simp only [dxRun, State.withCore_onCore, State.withCore_core]
  rfl

theorem exec_dxRun_of_full {s : State} {core : CoreId} {f : DxFields} (ha : s.atIssue core = true)
    (hfull : 8 ≤ ((s.dev.core core).queue f.queue).length) : exec (.dxRun core f) s = ok (s.withCore core
      { s.dev.core core with dctr := { (s.dev.core core).dctr with dxWait := (s.dev.core core).dctr.dxWait + 1 } }) :=
  congrArg ok (State.slotOr_of_not_fits _ _ ha (decide_eq_false (Nat.not_lt.mpr hfull)))

theorem exec_dmaDescriptorDone_of_moved {s : State} {core : CoreId} {q : Fin 4} {e : DmaEntry} {rest : List DmaEntry}
    (hqueue : (s.dev.core core).queue q = e :: rest) (hmoved : ddTotal e ≤ ((s.dev.core core).run q).done)
    (hdeferred : ∀ d ∈ (s.dev.core core).deferred, d.queue ≠ some q.val)
    (hreplies : ∀ o ∈ (s.dev.core core).outst, o.reply = true → o.queue ≠ q.val) :
    exec (.dmaDescriptorDone core q) s = ok (s.withCore core (((s.dev.core core).setQueue q rest).setRun q {})) := by
  have hlanded : (s.dev.core core).outst.all (fun o => !(o.reply && o.queue == q.val)) = true :=
    List.all_eq_true.mpr fun o ho => by simpa [imp_iff_not_or] using hreplies o ho
  have hall : (s.dev.core core).deferred.all (fun d => d.queue ≠ some q.val) = true :=
    List.all_eq_true.mpr fun d hd => by simpa using hdeferred d hd
  refine congrArg ok ((State.onCore_eq_withCore ..).trans (congrArg (s.withCore core) ?_))
  simp only [hqueue]
  exact if_pos ⟨hmoved, hall, hlanded⟩

/-! ### Rows moved -/

/-- A core whose queue has moved one row. -/
def CoreSt.rowDone (c : CoreSt) (q lost : Nat) : CoreSt :=
  c.withDma q { c.run q with done := (c.run q).done + 1, wait := 0, forcedSrc := false, forcedDst := false }
    { c.dctr with rowsMoved := c.dctr.rowsMoved + 1, bankLoss := c.dctr.bankLoss + BitVec.ofNat 64 lost }

theorem CoreSt.rowDone_eq (c : CoreSt) (q lost : Nat) : ((c.dmaLost q lost).setRun q { (c.dmaLost q lost).run q with
    done := ((c.dmaLost q lost).run q).done + 1, wait := 0, forcedSrc := false, forcedDst := false }).movedRows 1 = c.rowDone q lost := by
  simp only [CoreSt.dmaLost, CoreSt.withDma_run, CoreSt.withDma_setRun, CoreSt.withDma_movedRows]
  rfl

/-- A row that its queue can move at once is written, and nothing else of memory changes (R186). -/
theorem dmaLose_localRow {s : State} {core q lost : Nat} {e : DmaEntry} {r : RowData} (hplain : e.Plain)
    (hown : ownRow core (e.dstAt ((s.dev.core core).run q).done) = true)
    (hsrc : srcRow (dmaLose core q lost s) core q e = (r, dmaLose core q lost s)) :
    localRow (dmaLose core q lost s) core q e false =
      (s.withCore core ((s.dev.core core).rowDone q lost)).putRow (e.dstAt ((s.dev.core core).run q).done) r := by
  have hlose := dmaLose_isWith s core q lost
  have hdone : (((dmaLose core q lost s).dev.core core).run q).done = ((s.dev.core core).run q).done := by
    rw [hlose.core_eq, CoreSt.dmaLost, CoreSt.withDma_run]
  rw [localRow_of_plain hplain hsrc, hdone, dmaPut_of_own _ _ hown, State.onRun, hlose.onCore, State.withCore_onCore, CoreSt.rowDone_eq]

/-- The first row of a COPY or FILL, after the cycles that the queue lost. -/
theorem localLoop_dmaLose {s : State} {core : CoreId} {q : Fin 4} {opc lost : Nat} {e : DmaEntry} (meets : Bool)
    (h : plainMove s core q opc e) : localLoop core q e meets 1 (dmaLose core q lost s) = localRow (dmaLose core q lost s) core q e meets := by
  have hlose := dmaLose_isWith s core q lost
  refine localLoop_one meets ?_ ?_
  · rw [hlose.core_eq, CoreSt.dmaLost, CoreSt.withDma_run]
    exact h.rows
  · rw [hlose.core_eq, CoreSt.dmaLost, CoreSt.withDma_deferred]
    exact h.noDeferred

/-- The source row of a COPY is read as it stands. -/
theorem srcRow_dmaLose {s : State} {core : CoreId} {q : Fin 4} {opc lost : Nat} {e : DmaEntry} (h : plainMove s core q opc e) (hopc : opc ≠ 2)
    (hown : ownRow core (e.srcAt ((s.dev.core core).run q).done) = true) (hclean : s.clean (e.srcAt ((s.dev.core core).run q).done) = true) :
    srcRow (dmaLose core q lost s) core q e = (readRow s.mem (e.srcAt ((s.dev.core core).run q).done), dmaLose core q lost s) := by
  have hlose := dmaLose_isWith s core q lost
  have hdone : (((dmaLose core q lost s).dev.core core).run q).done = ((s.dev.core core).run q).done := by
    rw [hlose.core_eq, CoreSt.dmaLost, CoreSt.withDma_run]
  rw [srcRow_of_plain h.plain (h.opc ▸ hopc) (hdone ▸ hown) (by rw [hdone, hlose.clean_eq]; exact hclean), hdone, hlose.mem_eq]

theorem exec_dmaCopy_of_head {s : State} {core : CoreId} {q : Fin 4} {e : DmaEntry} (n : Nat) (meets : WithLost Bool)
    (h : dmaHead s core q 1 = some e) : exec (.dmaCopy core q n meets) s =
      ok (localLoop core q e meets.op (if meets.op then 1 else n) (dmaLose core q meets.lost s)) := by
  show ok (match dmaHead s core q 1 with
    | some e => localLoop core q e meets.op (if meets.op then 1 else n) (dmaLose core q meets.lost s)
    | none => s) = _
  rw [h]

theorem exec_dmaFill_of_head {s : State} {core : CoreId} {q : Fin 4} {e : DmaEntry} (n : Nat) (meets : WithLost Bool)
    (h : dmaHead s core q 2 = some e) : exec (.dmaFill core q n meets) s =
      ok (localLoop core q e meets.op (if meets.op then 1 else n) (dmaLose core q meets.lost s)) := by
  show ok (match dmaHead s core q 2 with
    | some e => localLoop core q e meets.op (if meets.op then 1 else n) (dmaLose core q meets.lost s)
    | none => s) = _
  rw [h]

theorem exec_dmaCopy_one {s : State} {core : CoreId} {q : Fin 4} {e : DmaEntry} (lost : Nat) (h : plainMove s core q 1 e)
    (hsrc : ownRow core (e.srcAt ((s.dev.core core).run q).done) = true) (hdst : ownRow core (e.dstAt ((s.dev.core core).run q).done) = true)
    (hclean : s.clean (e.srcAt ((s.dev.core core).run q).done) = true) : exec (.dmaCopy core q 1 ⟨false, lost⟩) s =
      ok ((s.withCore core ((s.dev.core core).rowDone q lost)).putRow (e.dstAt ((s.dev.core core).run q).done)
        (readRow s.mem (e.srcAt ((s.dev.core core).run q).done))) :=
  (exec_dmaCopy_of_head 1 ⟨false, lost⟩ h.head).trans (congrArg ok ((localLoop_dmaLose false h).trans
    (dmaLose_localRow h.plain hdst (srcRow_dmaLose h (by decide) hsrc hclean))))

theorem exec_dmaFill_one {s : State} {core : CoreId} {q : Fin 4} {e : DmaEntry} (lost : Nat) (h : plainMove s core q 2 e)
    (hdst : ownRow core (e.dstAt ((s.dev.core core).run q).done) = true) : exec (.dmaFill core q 1 ⟨false, lost⟩) s =
      ok ((s.withCore core ((s.dev.core core).rowDone q lost)).putRow (e.dstAt ((s.dev.core core).run q).done)
        (BitVec.ofNat 4096 (lanes 32 128 fun _ => ddPattern e))) :=
  (exec_dmaFill_of_head 1 ⟨false, lost⟩ h.head).trans (congrArg ok ((localLoop_dmaLose false h).trans
    (dmaLose_localRow h.plain hdst (srcRow_of_fill h.plain _ core q h.opc))))

/-- A COPY whose write meets a read of its row leaves memory as it is, and its row waits (R174). -/
theorem exec_dmaCopy_meets {s : State} {core : CoreId} {q : Fin 4} {e : DmaEntry} (n lost : Nat) (h : plainMove s core q 1 e)
    (hsrc : ownRow core (e.srcAt ((s.dev.core core).run q).done) = true) (hclean : s.clean (e.srcAt ((s.dev.core core).run q).done) = true) :
    ∃ k : CoreSt, exec (.dmaCopy core q n ⟨true, lost⟩) s = ok (s.withCore core k) ∧
      k.deferred = (s.dev.core core).deferred ++ [⟨e.dstAt ((s.dev.core core).run q).done, readRow s.mem (e.srcAt ((s.dev.core core).run q).done),
        some q.val, none, none⟩] ∧
      k.dctr.bankLoss = (s.dev.core core).dctr.bankLoss + BitVec.ofNat 64 lost + 1 ∧ k.dctr.rowsMoved = (s.dev.core core).dctr.rowsMoved := by
  have hlose := dmaLose_isWith s core q lost
  have hexec := (exec_dmaCopy_of_head n ⟨true, lost⟩ h.head).trans (congrArg ok ((localLoop_dmaLose true h).trans
    (localRow_of_meets h.plain (srcRow_dmaLose h (by decide) hsrc hclean))))
  rw [State.onRun, hlose.onCore, State.withCore_onCore, hlose.core_eq] at hexec
  simp only [CoreSt.dmaLost, CoreSt.withDma_run, CoreSt.withDma_setRun, CoreSt.withDma_deferred, CoreSt.withDma_dctr] at hexec
  exact ⟨_, hexec, rfl, rfl, rfl⟩

/-- A core whose deferred row of a queue has been written. -/
def CoreSt.deferredDone (c : CoreSt) (q : Nat) (rest : List Deferred) : CoreSt :=
  (c.withDma q { c.run q with wait := 0 } { c.dctr with rowsMoved := c.dctr.rowsMoved + 1 }).withDeferred rest

theorem CoreSt.deferredDone_eq (c : CoreSt) (q : Nat) (rest : List Deferred) :
    ((c.withDeferred rest).movedRows 1).setRun q { ((c.withDeferred rest).movedRows 1).run q with wait := 0 } = c.deferredDone q rest := by
  match q with
  | 0 | 1 | 2 | _ + 3 => rfl

/-- A deferred row of a queue is written in its turn (R174). -/
theorem exec_deferredWrite_of_queue {s : State} {core : CoreId} {q : Fin 4} {gra : Nat} {row : RowData} {rest : List Deferred}
    (hdeferred : (s.dev.core core).deferred = ⟨gra, row, some q.val, none, none⟩ :: rest) (hown : ownRow core gra = true) :
    exec (.deferredWrite core) s = ok ((s.withCore core ((s.dev.core core).deferredDone q rest)).putRow gra row) := by
  have hput := dmaPut_of_own (s.onCore core fun c => c.withDeferred rest) row hown
  have hexec : exec (.deferredWrite core) s =
      ok (((s.onCore core fun c => c.withDeferred rest).onCore core fun c => c.movedRows 1).onRun core q
        (fun x => { x with wait := 0 }) |>.putRow gra row) := by
    show ok (match (s.dev.core core).deferred with | d :: t => _ | [] => s) = _
    rw [hdeferred]
    exact congrArg (fun t : State => ok (t.onRun core q fun x => { x with wait := 0 })) hput
  rw [hexec, State.onCore_eq_withCore s, State.withCore_onCore, State.onRun, State.withCore_onCore]
  exact congrArg (fun c => ok ((s.withCore core c).putRow gra row)) (CoreSt.deferredDone_eq ..)

/-- FILL's row holds its pattern in every 32-bit word. -/
theorem fillRow_word (e : DmaEntry) {j : Nat} (hj : j < 128) :
    ((BitVec.ofNat 4096 (lanes 32 128 fun _ => ddPattern e)).toNat / 2 ^ (32 * j)) % 2 ^ 32 = ddPattern e := by
  have hpattern : ddPattern e < 2 ^ 32 := Nat.mod_lt _ (Nat.two_pow_pos _)
  have hlane := bits_lanes (w := 32) (f := fun _ => ddPattern e) (by decide) (fun _ => hpattern) hj
  rw [← bits_ofNat_row _ _ (by omega), bits, Nat.shiftRight_eq_div_pow, show 32 * j + 32 - 1 + 1 - 32 * j = 32 by omega] at hlane
  exact hlane

/-- Settles O20: a COPY or FILL is one row read or made, and written at once or deferred, after the queue's lost cycles have counted. -/
theorem descriptorsMoveWholeRows : Obligations.DescriptorsMoveWholeRows := by
  refine ⟨⟨fun s core f c hc => ⟨fun hi hroom => ?_, fun ha hfull => ?_⟩, fun s core q c e rest hc hqueue hmoved hdeferred hreplies => ?_⟩,
    fun s core q e src dst hm h hsrc hdst hownSrc hownDst hclean lost => ?_, fun s core q e dst hm h hdst hownDst lost => ?_,
    fun s core q n e src dst h hsrc hdst hownSrc hclean lost => ?_, fun s core q gra row rest hm hdeferred hown => ?_⟩
  · subst hc
    exact coreActs_of_eq (exec_dxRun_of_room hi hroom) ⟨_, rfl, rfl, dxEntry_d .., rfl, dxEntry_src, rfl⟩
  · subst hc
    exact coreActs_of_eq (exec_dxRun_of_full ha hfull) rfl
  · subst hc
    exact coreActs_of_eq (exec_dmaDescriptorDone_of_moved hqueue hmoved hdeferred hreplies) rfl
  · obtain rfl : src = e.srcAt _ := hsrc
    obtain rfl : dst = e.dstAt _ := hdst
    refine ⟨_, exec_dmaCopy_one lost h hownSrc hownDst hclean, rfl, (s.dev.core core).rowDone q lost, rfl, ?_, rfl, rfl, ?_,
      readRow_writeRow_same _ _ hm, onlyRow_writeRow _ _ hm⟩
    · rw [CoreSt.rowDone, CoreSt.withDma_run]
    · rw [CoreSt.rowDone, CoreSt.withDma_run]
      rfl
  · obtain rfl : dst = e.dstAt _ := hdst
    refine ⟨_, exec_dmaFill_one lost h hownDst, rfl, (s.dev.core core).rowDone q lost, rfl, ?_, rfl, rfl, ?_, fun j hj => ?_,
      onlyRow_writeRow _ _ hm⟩
    · rw [CoreSt.rowDone, CoreSt.withDma_run]
    · rw [CoreSt.rowDone, CoreSt.withDma_run]
      rfl
    · rw [State.putRow_mem, State.withCore_mem, readRow_writeRow_same _ _ hm, fillRow_word e hj]
  · subst hsrc hdst
    obtain ⟨k, hexec, hk⟩ := exec_dmaCopy_meets n lost h hownSrc hclean
    exact coreActs_of_eq hexec hk
  · exact ⟨_, exec_deferredWrite_of_queue hdeferred hown, rfl, (s.dev.core core).deferredDone q rest, rfl, rfl, rfl,
      readRow_writeRow_same _ _ hm, onlyRow_writeRow _ _ hm⟩

end Sys2Proof.Machine
end

section
/-! SUPPORT. Long packets as their senders make them: header fields, CRC32C, rows (07 R241, R242; Tables 7.3 and 7.4). -/

namespace Sys2Proof.Machine

/-! ### Headers -/

/-- The fields of a header as wide as the flit holds them (07 Table 7.3). -/
def LongHdr.fit (h : LongHdr) : LongHdr :=
  { cls := h.cls % 8, op := h.op % 8, slice := h.slice % 4096, gen := h.gen % 256, dchip := h.dchip % 4096, dcl := h.dcl % 128,
    dcore := h.dcore % 8, gra := h.gra % 2 ^ 32, len := h.len % 128, seq := h.seq % 65536, oparg := h.oparg % 2 ^ 23,
    schip := h.schip % 4096, score := h.score % 1024, squeue := h.squeue % 4, gate := h.gate % 65536, sat := h.sat % 256,
    nan := h.nan % 256, reply := h.reply % 2 ^ 32, crc := h.crc % 2 ^ 32 }

/-- Fields with their widths, lowest first, as one number. -/
def pack : List (Nat × Nat) → Nat
  | [] => 0
  | (w, v) :: t => v % 2 ^ w + 2 ^ w * pack t

theorem bits_pack_head (w v : Nat) (t : List (Nat × Nat)) {hi : Nat} (h : hi + 1 = w) : bits (pack ((w, v) :: t)) hi 0 = v % 2 ^ w := by
  rw [bits, Nat.shiftRight_zero, Nat.sub_zero, h, pack, Nat.add_mul_mod_self_left, Nat.mod_mod]

/-- A field above the first is a field of the rest. -/
theorem bits_pack_tail (w v : Nat) (t : List (Nat × Nat)) {hi lo : Nat} (h : w ≤ lo) (hle : lo ≤ hi) :
    bits (pack ((w, v) :: t)) hi lo = bits (pack t) (hi - w) (lo - w) := by
  refine Nat.eq_of_testBit_eq fun k => ?_
  rw [testBit_bits, testBit_bits, pack, Nat.add_comm (v % 2 ^ w), Nat.testBit_two_pow_mul_add _ (Nat.mod_lt _ (Nat.two_pow_pos w)),
    if_neg (by omega), show lo + k - w = lo - w + k by omega]
  rw [show hi - w + 1 - (lo - w) = hi + 1 - lo by omega]

/-- The low fields of a number are those of its first list. -/
theorem pack_append_mod (l t : List (Nat × Nat)) :
    pack (l ++ t) % 2 ^ (l.map Prod.fst).sum = pack l % 2 ^ (l.map Prod.fst).sum := by
  have happend : pack (l ++ t) = pack l + 2 ^ (l.map Prod.fst).sum * pack t := by
    induction l with
    | nil => simp [pack]
    | cons x l ih =>
      obtain ⟨w, v⟩ := x
      rw [List.cons_append, pack, ih, pack, List.map_cons, List.sum_cons, Nat.pow_add]
      ring
  rw [happend, Nat.add_mul_mod_self_left]

/-- The fields of a header that its CRC covers, lowest first (07 Table 7.3). -/
def LongHdr.covered (h : LongHdr) : List (Nat × Nat) :=
  [(23, h.oparg), (16, h.seq), (7, h.len), (32, h.gra), (3, h.dcore), (7, h.dcl), (12, h.dchip), (8, h.gen), (12, h.slice), (3, h.op),
    (3, h.cls), (2, 2), (8, 0), (2, h.squeue), (10, h.score), (12, h.schip), (8, h.nan), (8, h.sat), (16, h.gate), (32, h.reply)]

theorem longFlit_toNat (h : LongHdr) : (longFlit h).toNat = pack (h.covered ++ [(32, h.crc)]) := by
  rw [longFlit, BitVec.toNat_ofNat]
  simp only [LongHdr.covered, pack, List.cons_append, List.nil_append, Nat.shiftLeft_eq]
  omega

/-- A header reads back, each field as wide as the flit holds it. -/
theorem longHdr_longFlit (h : LongHdr) : longHdr (longFlit h) = h.fit := by
  simp [longHdr, longFlit_toNat, LongHdr.covered, LongHdr.fit, bits_pack_head, bits_pack_tail]

theorem pktForm_longFlit (h : LongHdr) (pl : List Flit) : pktForm ⟨longFlit h, pl⟩ = 2 := by
  simp [pktForm, longFlit_toNat, LongHdr.covered, bits_pack_head, bits_pack_tail]

/-! ### CRC32C -/

theorem crcShift_lt (k : Nat) {c : Nat} (h : c < 2 ^ 32) : crcShift k c < 2 ^ 32 := by
  induction k generalizing c with
  | zero => exact h
  | succ k ih =>
    have hhalf : c >>> 1 < 2 ^ 32 := Nat.lt_of_le_of_lt (Nat.shiftRight_le c 1) h
    rw [crcShift]
    split
    · exact ih (Nat.xor_lt_two_pow hhalf (by decide))
    · exact ih hhalf

theorem crc32c_lt (l : List Nat) : crc32c l < 2 ^ 32 := by
  have hfold (c : Nat) (hc : c < 2 ^ 32) : l.foldl (fun c b => crcShift 8 (c ^^^ (b % 256))) c < 2 ^ 32 := by
    induction l generalizing c with
    | nil => exact hc
    | cons b l ih => exact ih _ (crcShift_lt 8 (Nat.xor_lt_two_pow hc (Nat.lt_trans (Nat.mod_lt b (by decide)) (by decide))))
  exact Nat.xor_lt_two_pow (hfold _ (by decide)) (by decide)

theorem toLe_mod (k : Nat) (n : Nat) : toLe k (n % 256 ^ k) = toLe k n := by
  induction k generalizing n with
  | zero => rfl
  | succ k ih =>
    have hlow : n % 256 ^ (k + 1) % 256 = n % 256 := Nat.mod_mod_of_dvd n (Dvd.intro_left (256 ^ k) rfl)
    have hhigh : n % 256 ^ (k + 1) / 256 = n / 256 % 256 ^ k := by rw [Nat.pow_succ, Nat.mul_comm, Nat.mod_mul_right_div_self]
    rw [toLe, toLe, hlow, hhigh, ih]

/-- The bytes that a packet's CRC covers do not hold it. -/
theorem toLe_of_mod_eq {n m : Nat} (h : n % 2 ^ 224 = m % 2 ^ 224) : toLe 28 n = toLe 28 m := by
  rw [← toLe_mod 28 n, ← toLe_mod 28 m, show (256 : Nat) ^ 28 = 2 ^ 224 by norm_num, h]

theorem setBits_mod (n : Nat) {hi lo w : Nat} (v : Nat) (h : lo ≤ hi) : setBits (n % 2 ^ w) hi lo v % 2 ^ w = setBits n hi lo v % 2 ^ w := by
  refine Nat.eq_of_testBit_eq fun k => ?_
  rw [Nat.testBit_mod_two_pow, Nat.testBit_mod_two_pow, testBit_setBits _ _ _ _ _ h, testBit_setBits _ _ _ _ _ h, Nat.testBit_mod_two_pow]
  by_cases hk : k < w <;> simp [hk]

/-- The CRC covers no bit of a header from 224 on. -/
theorem crcOf_of_mod_eq {f g : Flit} (pl : List Flit) (h : f.toNat % 2 ^ 224 = g.toNat % 2 ^ 224) : crcOf f pl = crcOf g pl := by
  have hop : bits f.toNat 122 120 = bits g.toNat 122 120 := by
    rw [← bits_mod f.toNat 122 120 224 (by decide), h, bits_mod _ _ _ _ (by decide)]
  have hset (v : Nat) (n m : Nat) {hi lo : Nat} (hle : lo ≤ hi) (hnm : n % 2 ^ 224 = m % 2 ^ 224) :
      setBits n hi lo v % 2 ^ 224 = setBits m hi lo v % 2 ^ 224 := by
    rw [← setBits_mod n v hle, hnm, setBits_mod m v hle]
  simp only [crcOf, hop]
  split
  · rw [toLe_of_mod_eq (hset 0 _ _ (by decide) (hset 0 _ _ (by decide) h))]
  · rw [toLe_of_mod_eq h]

/-- A packet's own CRC is the one that its sender puts into it. -/
theorem crcOf_longFlit_crc (h : LongHdr) (c : Nat) (pl : List Flit) : crcOf (longFlit { h with crc := c }) pl = longCrc h pl := by
  refine crcOf_of_mod_eq pl ?_
  have hcovered : ({ h with crc := c } : LongHdr).covered = h.covered := rfl
  have hwidth : (h.covered.map Prod.fst).sum = 224 := by simp [LongHdr.covered]
  have hmod (c : Nat) : pack (h.covered ++ [(32, c)]) % 2 ^ 224 = pack h.covered % 2 ^ 224 := by
    have := pack_append_mod h.covered [(32, c)]
    rwa [hwidth] at this
  rw [longFlit_toNat, longFlit_toNat, hcovered, hmod, hmod]

/-! ### Rows -/

theorem rowFlits_length (rows : List RowData) : (rowFlits rows).length = 8 * rows.length := by
  simp [rowFlits, Nat.mul_comm]

/-- A row made of its eight flits. -/
theorem row_of_flits (r : RowData) : BitVec.ofNat 4096 (lanes 512 8 fun k => (r.toNat >>> (512 * k)) % 2 ^ 512) = r := by
  rw [lanes_shifts (by decide) (show r.toNat < 2 ^ (512 * 8) from r.isLt)]
  exact BitVec.ofNat_toNat 4096 r |>.trans (BitVec.setWidth_eq r)

/-- The rows of a packet come out of its flits. -/
theorem flitRows_rowFlits (rows : List RowData) : flitRows rows.length (rowFlits rows) = rows := by
  induction rows with
  | nil => rfl
  | cons r rows ih =>
    have hrow : (List.range 8).map (fun k => (BitVec.ofNat 512 (r.toNat >>> (512 * k)) : Flit)) ++ rowFlits rows = rowFlits (r :: rows) := rfl
    have htake : (rowFlits (r :: rows)).take 8 = (List.range 8).map fun k => (BitVec.ofNat 512 (r.toNat >>> (512 * k)) : Flit) := by
      rw [← hrow, List.take_left' (by simp)]
    have hdrop : (rowFlits (r :: rows)).drop 8 = rowFlits rows := by rw [← hrow, List.drop_left' (by simp)]
    rw [List.length_cons, flitRows, htake, hdrop, ih]
    refine congrArg (· :: rows) (Eq.trans (congrArg (BitVec.ofNat 4096) ?_) (row_of_flits r))
    have hrange : (List.range 8).zipIdx = (List.range 8).map fun k => (k, k) := rfl
    rw [List.zipIdx_map, List.foldl_map, hrange, List.foldl_map]
    simp only [Prod.map, id, BitVec.toNat_ofNat]
    rfl

theorem pktForm_mkLong (h : LongHdr) (rows : List RowData) : pktForm (mkLong h rows) = 2 := pktForm_longFlit _ _

/-- A packet as its sender makes it is whole (R242). -/
theorem longOk_mkLong {h : LongHdr} {rows : List RowData} (hlen : h.len = 8 * rows.length) (hshort : h.len < 128) :
    longOk (mkLong h rows) = true := by
  simp only [longOk, mkLong, longHdr_longFlit, LongHdr.fit, rowFlits_length, crcOf_longFlit_crc, Nat.mod_eq_of_lt hshort, ← hlen, beq_self_eq_true,
    Bool.true_and]
  rw [longCrc, crcOf, Nat.mod_eq_of_lt (crc32c_lt _), beq_self_eq_true]

end Sys2Proof.Machine
end

section
/-! SUPPORT. A packet of a DMA queue leaves its core: what its class uses, and the late flits of its channel (05 R185, R189; 07 R233, R234). -/

namespace Sys2Proof.Machine

/-! ### Leaving the core -/

theorem Dev.send_updCore (d : Dev) (p : Packet) (k : Nat) (f : CoreSt → CoreSt) : (d.send p).updCore k f = (d.updCore k f).send p := by
  have hcoord : (d.updCore k f).coord = d.coord := rfl
  simp only [Dev.send, hcoord]
  split <;> rfl

theorem Dev.send_setReg {d : Dev} {a : Nat} (p : Packet) (v : Nat) (h : regAddr 8 0 ≠ a) : (d.setReg a v).send p = (d.send p).setReg a v := by
  have hcoord : (d.setReg a v).coord = d.coord := by rw [Dev.coord, Dev.coord, Dev.reg_setReg_other _ h]
  simp only [Dev.send, hcoord]
  split <;> rfl

theorem Dev.send_regs (d : Dev) (p : Packet) : (d.send p).regs = d.regs := by
  unfold Dev.send
  split <;> rfl

theorem Dev.send_cores (d : Dev) (p : Packet) : (d.send p).cores = d.cores := by
  unfold Dev.send
  split <;> rfl

/-- A long packet whose way to the edge is open is sent (R248, R263). -/
theorem Dev.sendFrom_of_open {d : Dev} {src : Nat} {p : Packet} (hform : pktForm p = 2) (h : d.blocked src (stopCl src) = false) :
    d.sendFrom src p = d.send p := by
  have hnot : ¬(2 = 1 ∧ (shortPkt p.hdr).score = 0x3FF ∧
      d.blocked src ((idCl ((shortPkt p.hdr).dcl * 8 + (shortPkt p.hdr).dcore)).getD src) = true) := fun hc => absurd hc.1 (by decide)
  simp only [Dev.sendFrom, hform, h, if_neg hnot, Bool.false_eq_true, if_false, ite_self]

/-- A state with one core and the slices replaced, whose device has then sent a packet. -/
def State.sending (s : State) (core : Nat) (c : CoreSt) (sls : List Slice) (p : Packet) : State :=
  { s with dev := ({ s.dev.setCore core c with slices := sls } : Dev).send p }

theorem State.sending_core (s : State) (core : Nat) (c : CoreSt) (sls : List Slice) (p : Packet) :
    (s.sending core c sls p).dev.core core = c := by
  rw [State.sending, Dev.core, Dev.send_cores]
  exact mapGet_mapPut_self ..

theorem State.sending_onCore (s : State) (core : Nat) (c : CoreSt) (sls : List Slice) (p : Packet) (f : CoreSt → CoreSt) :
    (s.sending core c sls p).onCore core f = s.sending core (f c) sls p := by
  have hcore : ({ s.dev.setCore core c with slices := sls } : Dev).core core = c := mapGet_mapPut_self ..
  have hput : ({ s.dev.setCore core c with slices := sls } : Dev).updCore core f = { s.dev.setCore core (f c) with slices := sls } := by
    rw [Dev.updCore, hcore]
    exact congrArg (fun l => ({ s.dev with cores := l, slices := sls } : Dev)) (mapPut_mapPut ..)
  calc (s.sending core c sls p).onCore core f
    _ = { s with dev := (({ s.dev.setCore core c with slices := sls } : Dev).send p).updCore core f } := rfl
    _ = _ := by
      rw [Dev.send_updCore, hput]
      rfl

/-! ### Quota and credit -/

/-- An injection uses its core's quota, or credit of its slice (R234, R236). -/
theorem injectUse_cases {s t : State} {core : Nat} {c : CoreSt} (ht : s.IsWith core c t) (sl : Slice) (e : DmaEntry) (dst rows flits : Nat) :
    ∃ (quota : Nat) (u : State) (sls : List Slice), s.IsWith core { c with quotaReq := quota } u ∧
      injectUse t core sl e dst rows flits = { u with dev := { u.dev with slices := sls } } := by
  unfold injectUse
  split
  · exact ⟨c.quotaReq + flits, s.withCore core { c with quotaReq := c.quotaReq + flits }, s.dev.slices, .withCore s core _, ht.onCore _⟩
  · split
    · split
      · exact ⟨c.quotaReq, t, _, ht, rfl⟩
      · exact ⟨c.quotaReq, t, t.dev.slices, ht, rfl⟩
    · exact ⟨c.quotaReq, t, t.dev.slices, ht, rfl⟩

/-- An injected packet leaves, and its core and its slice have changed. -/
theorem injectUse_sendFrom {s t : State} {core src : Nat} {c : CoreSt} (ht : s.IsWith core c t)
    (hopen : s.dev.blocked src (stopCl src) = false) (sl : Slice) (e : DmaEntry) (dst rows flits : Nat) :
    ∃ (quota : Nat) (sls : List Slice), ∀ (p : Packet) (f : CoreSt → CoreSt), pktForm p = 2 →
      ((injectUse t core sl e dst rows flits).onDev fun d => d.sendFrom src p).onCore core f =
        s.sending core (f { c with quotaReq := quota }) sls p := by
  obtain ⟨quota, u, sls, hu, huse⟩ := injectUse_cases ht sl e dst rows flits
  refine ⟨quota, sls, fun p f hform => ?_⟩
  have hopen' : ({ u.dev with slices := sls } : Dev).blocked src (stopCl src) = false := by
    rw [hu.dev_eq]
    exact hopen
  have hput : ({ u.dev with slices := sls } : Dev).updCore core f =
      { s.dev.setCore core (f { c with quotaReq := quota }) with slices := sls } := by
    have hsame : u.dev.setCore core (f { c with quotaReq := quota }) = s.dev.setCore core (f { c with quotaReq := quota }) :=
      congrArg State.dev (hu.same (f { c with quotaReq := quota }))
    rw [← hsame, ← hu.core_eq]
    rfl
  have hpending : u.pending = s.pending := show (u.withCore core c).pending = (s.withCore core c).pending by rw [hu.same]
  calc ((injectUse t core sl e dst rows flits).onDev fun d => d.sendFrom src p).onCore core f
    _ = { u with dev := (({ u.dev with slices := sls } : Dev).sendFrom src p).updCore core f } := by
      rw [huse]
      rfl
    _ = { u with dev := ({ s.dev.setCore core (f { c with quotaReq := quota }) with slices := sls } : Dev).send p } := by
      rw [Dev.sendFrom_of_open hform hopen', Dev.send_updCore, hput]
    _ = s.sending core (f { c with quotaReq := quota }) sls p := by
      rw [State.sending, ← hu.mem_eq, ← hpending]

/-! ### Late flits -/

/-- A device whose core has sent a packet, with the late flits of a slice channel counted in CHAN_DEFER (07 R233). -/
structure State.Departs (s : State) (core : Nat) (e : DmaEntry) (late : Nat) (k : CoreSt) (sls : List Slice) (p : Packet) (d : Dev) : Prop where
  dev : d = ({ s.dev.setCore core k with slices := sls, regs := d.regs } : Dev).send p
  regs : KeepsRegs [regAddr 7 0x30] s.dev d
  late : d.reg (regAddr 7 0x30) = if ddClass s e = 0 then (s.dev.reg (regAddr 7 0x30) + late) % 2 ^ 32 else s.dev.reg (regAddr 7 0x30)

/-- After a packet has left, the flits that left late count in CHAN_DEFER where it went on a slice channel (07 R233). -/
theorem chanLate_sending {s : State} {core q late : Nat} {e : DmaEntry} {k : CoreSt} {sls : List Slice} {p : Packet}
    (hdone : (k.run q).done ≠ ((s.dev.core core).run q).done) :
    ∃ d, chanLate core q late e s (s.sending core k sls p) = { s with dev := d } ∧ s.Departs core e late k sls p d := by
  have hregs (a : Nat) : (({ s.dev.setCore core k with slices := sls } : Dev).send p).reg a = s.dev.reg a := by
    rw [Dev.reg, Dev.send_regs]
    rfl
  by_cases hcls : ddClass s e = 0
  · refine ⟨(({ s.dev.setCore core k with slices := sls } : Dev).send p).bumpWrap (regAddr 7 0x30) late, ?_, ?_, ?_, ?_⟩
    · exact if_pos ⟨hcls, by rwa [State.sending_core]⟩
    · rw [Dev.bumpWrap, ← Dev.send_setReg _ _ (by decide), Dev.send_regs]
      rfl
    · exact fun a ha => ((Dev.keepsRegs_bumpWrap _ _ (by simp)) a ha).trans (hregs a)
    · rw [if_pos hcls, Dev.bumpWrap, Dev.reg_setReg_same, hregs, wrapAdd, Nat.mod_mod]
  · refine ⟨({ s.dev.setCore core k with slices := sls } : Dev).send p, if_neg fun h => hcls h.1, ?_, fun a _ => hregs a, ?_⟩
    · rw [Dev.send_regs]
    · rw [if_neg hcls, hregs]

end Sys2Proof.Machine
end

section
/-! SUPPORT. A packet of WRITE, SUMWRITE or MCAST, and a request of READ, of a descriptor without rings or skew (05 R185, R188, R189; 07 R246). -/

namespace Sys2Proof.Machine

variable {e : DmaEntry}

/-- The rows of the next packet: up to eight where the destination continues, else one (R188). -/
def DmaEntry.pktLen (e : DmaEntry) (done : Nat) : Nat := if ddDstr e = 1 then min 8 (ddRows e - done) else 1

theorem DmaEntry.pktLen_pos {done : Nat} (h : done < ddRows e) : 0 < e.pktLen done := by
  rw [DmaEntry.pktLen]
  split <;> omega

theorem DmaEntry.pktLen_le (e : DmaEntry) (done : Nat) : e.pktLen done ≤ 8 := by
  rw [DmaEntry.pktLen]
  split <;> omega

theorem DmaEntry.Plain.total (h : e.Plain) : ddTotal e = ddRows e := by
  rw [ddTotal, h.skew]
  split
  next hrows => exact hrows.symm
  next => rfl

theorem pktRows_of_plain (h : e.Plain) {s : State} {core q : Nat} (hrows : ((s.dev.core core).run q).done < ddRows e) :
    pktRows s core q e = e.pktLen ((s.dev.core core).run q).done := by
  simp only [pktRows, h.dre, h.sre, h.skew, h.total, Bool.false_eq_true, false_or, false_and, ne_eq, not_true_eq_false, if_false,
    DmaEntry.pktLen]
  split
  · rfl
  · omega

theorem readyRows_of_plain (h : e.Plain) (s : State) (core q n : Nat) : readyRows s core q e n = n := by
  simp [readyRows, h.sre]

/-- The rows of a descriptor's source from `done` on. -/
def DmaEntry.srcRows (e : DmaEntry) (m : List Host.Cell) (done n : Nat) : List RowData :=
  (List.range n).map fun i => readRow m (e.srcAt (done + i))

theorem DmaEntry.srcRows_succ (e : DmaEntry) (m : List Host.Cell) (done n : Nat) :
    e.srcRows m done (n + 1) = readRow m (e.srcAt done) :: e.srcRows m (done + 1) n := by
  simp only [DmaEntry.srcRows, List.range_succ_eq_map, List.map_cons, List.map_map, Nat.add_zero]
  refine congrArg _ (List.map_congr_left fun i _ => ?_)
  rw [Function.comp, Nat.succ_eq_add_one, Nat.add_comm i 1, Nat.add_assoc]

/-- Rows from `done` on are rows of the core's own memories, without error. -/
def DmaEntry.srcOwn (e : DmaEntry) (s : State) (core done n : Nat) : Prop :=
  ∀ i, i < n → ownRow core (e.srcAt (done + i)) = true ∧ s.clean (e.srcAt (done + i)) = true

theorem DmaEntry.srcOwn_succ {s : State} {core done n : Nat} (h : e.srcOwn s core done (n + 1)) :
    (ownRow core (e.srcAt done) = true ∧ s.clean (e.srcAt done) = true) ∧ e.srcOwn s core (done + 1) n :=
  ⟨h 0 (Nat.succ_pos n), fun i hi => by
    rw [Nat.add_assoc, Nat.add_comm 1]
    exact h (i + 1) (Nat.succ_lt_succ hi)⟩

/-- One row is gathered: it is read, and the queue goes on. -/
theorem gatherRows_succ (h : e.Plain) (hopc : ddOpc e ≠ 2) {s t : State} {core q : Nat} {c : CoreSt} (ht : s.IsWith core c t)
    (hown : ownRow core (e.srcAt (c.run q).done) = true) (hclean : s.clean (e.srcAt (c.run q).done) = true) {n : Nat} {l : List RowData} {u : State}
    (hrest : gatherRows core q e n (s.withCore core
      (c.setRun q { c.run q with done := (c.run q).done + 1, forcedSrc := false, forcedDst := false })) = (some l, u)) :
    gatherRows core q e (n + 1) t = (some (readRow s.mem (e.srcAt (c.run q).done) :: l), u) := by
  have hsrc : srcRow t core q e = (readRow s.mem (e.srcAt (c.run q).done), t) := by
    rw [srcRow_of_plain h hopc (by rwa [ht.core_eq]) (by rwa [ht.core_eq, ht.clean_eq]), ht.core_eq, ht.mem_eq]
  simp only [gatherRows, srcReady_of_plain h, hsrc, State.onRun, ht.onCore, hrest, Bool.not_true, Bool.false_eq_true, if_false]

/-- Rows without error are gathered with no effect but the queue's progress. -/
theorem gatherRows_withCore (h : e.Plain) (hopc : ddOpc e ≠ 2) (s : State) (core q n : Nat) (c : CoreSt)
    (hrows : e.srcOwn s core (c.run q).done n) :
    ∃ r : DmaRun, r.done = (c.run q).done + n ∧
      gatherRows core q e n (s.withCore core c) = (some (e.srcRows s.mem (c.run q).done n), s.withCore core (c.setRun q r)) := by
  induction n generalizing c with
  | zero => exact ⟨c.run q, rfl, by rw [CoreSt.setRun_run]; rfl⟩
  | succ n ih =>
    obtain ⟨⟨hown, hclean⟩, hrest⟩ := e.srcOwn_succ hrows
    obtain ⟨r, hdone, hgather⟩ := ih (c.setRun q { c.run q with done := (c.run q).done + 1, forcedSrc := false, forcedDst := false })
      (by rwa [CoreSt.run_setRun])
    rw [CoreSt.run_setRun] at hdone hgather
    rw [CoreSt.setRun_setRun] at hgather
    refine ⟨r, hdone.trans (by dsimp only; omega), ?_⟩
    rw [gatherRows_succ h hopc (.withCore s core c) hown hclean hgather, DmaEntry.srcRows_succ]

theorem gatherRows_isWith (h : e.Plain) (hopc : ddOpc e ≠ 2) {s t : State} {core q n : Nat} {c : CoreSt} (ht : s.IsWith core c t)
    (hn : 0 < n) (hrows : e.srcOwn s core (c.run q).done n) :
    ∃ r : DmaRun, r.done = (c.run q).done + n ∧
      gatherRows core q e n t = (some (e.srcRows s.mem (c.run q).done n), s.withCore core (c.setRun q r)) := by
  obtain ⟨n, rfl⟩ := Nat.exists_eq_succ_of_ne_zero (Nat.pos_iff_ne_zero.mp hn)
  obtain ⟨⟨hown, hclean⟩, hrest⟩ := e.srcOwn_succ hrows
  obtain ⟨r, hdone, hgather⟩ := gatherRows_withCore h hopc s core q n
    (c.setRun q { c.run q with done := (c.run q).done + 1, forcedSrc := false, forcedDst := false }) (by rwa [CoreSt.run_setRun])
  rw [CoreSt.run_setRun] at hdone hgather
  rw [CoreSt.setRun_setRun] at hgather
  refine ⟨r, hdone.trans (by dsimp only; omega), ?_⟩
  rw [gatherRows_succ h hopc ht hown hclean hgather, DmaEntry.srcRows_succ]

/-! ### What the state decides of an injection -/

theorem sliceOf_isWith {s t : State} {core : Nat} {c : CoreSt} (ht : s.IsWith core c t) (cl : Nat) : t.dev.sliceOf cl = s.dev.sliceOf cl := by
  rw [ht.dev_eq]
  rfl

theorem injectCheck_isWith {s t : State} {core : Nat} {c : CoreSt} (ht : s.IsWith core c t) (hq : c.quotaReq = (s.dev.core core).quotaReq)
    (sl : Slice) (e : DmaEntry) (dst rows : Nat) : injectCheck t core sl e dst rows = injectCheck s core sl e dst rows := by
  have hcoord : t.dev.coord = s.dev.coord := by
    rw [ht.dev_eq]
    rfl
  rw [injectCheck, injectCheck, ht.core_eq, hq, hcoord]

/-! ### A packet of rows -/

/-- The operation of a packet in its header, by the descriptor's (07 Table 7.3). -/
def DmaEntry.hdrOp (e : DmaEntry) : Nat := if ddOpc e = 5 then 3 else if ddOpc e = 6 then 4 else 0

/-- The header of a packet of rows of a queue (07 Table 7.3). -/
structure DmaEntry.RowHeader (e : DmaEntry) (sl : Slice) (core q seq done n : Nat) (hd : LongHdr) : Prop where
  op : hd.op = e.hdrOp
  slice : hd.slice = sl.id
  dchip : hd.dchip = ddChip e
  gra : hd.gra = e.dstAt done
  len : hd.len = 8 * n
  score : hd.score = core
  squeue : hd.squeue = q
  seq : hd.seq = seq

/-- The header of a request of a READ (07 R246). -/
structure DmaEntry.ReadHeader (e : DmaEntry) (done n : Nat) (hd : LongHdr) : Prop where
  op : hd.op = 1
  dchip : hd.dchip = ddChip e
  gra : hd.gra = e.srcAt done
  reply : hd.reply = e.dstAt done
  oparg : hd.oparg = n <<< 19 + toField 12 (ddSstr e) <<< 7
  len : hd.len = 0

/-- A core whose queue has sent a packet for `n` rows: it is outstanding, and the queue has gone on (R189). -/
structure CoreSt.HasSent (c : CoreSt) (q : Nat) (sl : Slice) (e : DmaEntry) (reply : Bool) (n : Nat) (k : CoreSt) : Prop where
  outst : k.outst = c.outst ++ [⟨q, mapGet (fun _ => 0) c.pktSeq q, reply, e.seq, none, none, ddChip e, gateLo sl, false⟩]
  done : (k.run q).done = (c.run q).done + n

/-- The next packet of a queue leaves with its rows, and is outstanding (R185, R188, R189). -/
theorem sendPkt_of_plain (h : e.Plain) (hopc : ddOpc e ≠ 2) {s t : State} {core q : Nat} {c : CoreSt} {sl : Slice} (ht : s.IsWith core c t)
    (hq : c.quotaReq = (s.dev.core core).quotaReq) (hslice : s.dev.sliceOf (core / 8) = some sl) (hroom : c.outst.length < 1024)
    (hopen : s.dev.blocked (core / 8) (stopCl (core / 8)) = false) (hleft : (c.run q).done < ddRows e)
    (hinject : injectCheck s core sl e (graCluster (e.dstAt (c.run q).done) * 8 + graCore (e.dstAt (c.run q).done)) (e.pktLen (c.run q).done) = .yes)
    (hrows : e.srcOwn s core (c.run q).done (e.pktLen (c.run q).done)) :
    ∃ (hd : LongHdr) (k : CoreSt) (sls : List Slice),
      sendPkt t core q e = s.sending core k sls (mkLong hd (e.srcRows s.mem (c.run q).done (e.pktLen (c.run q).done))) ∧
      e.RowHeader sl core q (mapGet (fun _ => 0) c.pktSeq q) (c.run q).done (e.pktLen (c.run q).done) hd ∧
      c.HasSent q sl e false (e.pktLen (c.run q).done) k ∧ k.dctr.rowsMoved = c.dctr.rowsMoved + BitVec.ofNat 64 (e.pktLen (c.run q).done) := by
  have hn := DmaEntry.pktLen_pos hleft
  have hrowsOf : readyRows t core q e (pktRows t core q e) = e.pktLen (c.run q).done := by
    rw [readyRows_of_plain h, pktRows_of_plain h (by rwa [ht.core_eq]), ht.core_eq]
  obtain ⟨r, hdone, hgather⟩ := gatherRows_isWith h hopc ht hn hrows
  simp only [sendPkt, sliceOf_isWith ht, hslice, ht.core_eq, Nat.not_le.mpr hroom, dstReady_of_plain h, hrowsOf, Nat.pos_iff_ne_zero.mp hn,
    dstRow_of_plain h, h.dre, Bool.not_true, Bool.false_eq_true, if_false, false_and, injectCheck_isWith ht hq, hinject, hgather,
    State.withCore_core, CoreSt.setRun_pktSeq]
  obtain ⟨quota, sls, huse⟩ := injectUse_sendFrom (.withCore s core (c.setRun q r)) hopen sl e
    (graCluster (e.dstAt (c.run q).done) * 8 + graCore (e.dstAt (c.run q).done)) (e.pktLen (c.run q).done) (8 * e.pktLen (c.run q).done + 1)
  rw [huse _ _ (pktForm_mkLong _ _), State.sending_onCore, State.onRun, State.sending_onCore]
  refine ⟨_, _, sls, rfl, ⟨rfl, rfl, rfl, rfl, rfl, rfl, rfl, rfl⟩, ⟨?_, ?_⟩, ?_⟩
  · simp only [CoreSt.setRun_outst, CoreSt.sent]
  · rw [CoreSt.run_setRun]
    exact (congrArg DmaRun.done (c.run_setRun q r)).trans hdone
  · simp only [CoreSt.setRun_dctr, CoreSt.sent]

/-! ### A read request -/

/-- The next request of a READ leaves, and is outstanding (R189; 07 R246). -/
theorem sendRead_of_plain (h : e.Plain) {s : State} {core q : Nat} {c : CoreSt} {sl : Slice} (hc : s.dev.core core = c)
    (hslice : s.dev.sliceOf (core / 8) = some sl) (hroom : c.outst.length < 1024)
    (hopen : s.dev.blocked (core / 8) (stopCl (core / 8)) = false) (hleft : (c.run q).done < ddRows e)
    (hinject : injectCheck s core sl e (graCluster (e.srcAt (c.run q).done) * 8 + graCore (e.srcAt (c.run q).done)) 0 = .yes) :
    ∃ (hd : LongHdr) (k : CoreSt) (sls : List Slice), sendRead s core q e = s.sending core k sls (mkLong hd []) ∧
      e.ReadHeader (c.run q).done (e.pktLen (c.run q).done) hd ∧ c.HasSent q sl e true (e.pktLen (c.run q).done) k := by
  have ht : s.IsWith core c s := hc ▸ .self s core
  have hlen : pktRows s core q e = e.pktLen (c.run q).done := by rw [pktRows_of_plain h (by rwa [hc]), hc]
  have hfrom : readFrom s core q e = e.srcAt (c.run q).done := by simp [readFrom, h.sre, hc, DmaEntry.srcAt]
  simp only [sendRead, hslice, hc, Nat.not_le.mpr hroom, srcReady_of_plain h, dstReady_of_plain h, hlen, hfrom, dstRow_of_plain h, hinject,
    h.sre, h.dre, slotEnd, Bool.not_true, Bool.false_eq_true, if_false, false_and, ite_self]
  obtain ⟨quota, sls, huse⟩ := injectUse_sendFrom ht hopen sl e
    (graCluster (e.srcAt (c.run q).done) * 8 + graCore (e.srcAt (c.run q).done)) 0 1
  rw [huse _ _ (pktForm_mkLong _ _), State.onRun, State.sending_onCore]
  refine ⟨_, _, sls, rfl, ⟨rfl, rfl, rfl, rfl, rfl, rfl⟩, ?_, ?_⟩
  · simp only [CoreSt.setRun_outst, CoreSt.sent]
  · rw [CoreSt.run_setRun]
    rfl

/-! ### One turn of a queue -/

theorem sendLoop_one {s : State} {core q : Nat} (h : ((s.dev.core core).run q).done < ddTotal e) : sendLoop core q e 1 s = sendPkt s core q e := by
  simp only [sendLoop, Nat.not_le.mpr h, if_false, ite_self]

theorem readLoop_one {s : State} {core q : Nat} (h : ((s.dev.core core).run q).done < ddTotal e) : readLoop core q e 1 s = sendRead s core q e := by
  simp only [readLoop, Nat.not_le.mpr h, if_false, ite_self]

theorem dmaSend_of_head {s : State} {core : CoreId} {q : Fin 4} {opc : Nat} (x : SendTurn) (h : dmaHead s core q opc = some e) :
    dmaSend core q opc x s = chanLate core q x.late e s (sendLoop core q e x.n (dmaLose core q x.lost s)) := by
  rw [dmaSend, h]

theorem exec_dmaRead_of_head {s : State} {core : CoreId} {q : Fin 4} (n : RequestTurn) (h : dmaHead s core q 4 = some e) :
    exec (.dmaRead core q n) s = ok (chanLate core q n.late e s (readLoop core q e n.n s)) := by
  show ok (match dmaHead s core q 4 with | some e => chanLate core q n.late e s (readLoop core q e n.n s) | none => s) = _
  rw [h]

/-! ### Fields of the packets -/

theorem strideRow_lt (base i : Nat) (str : Int) : strideRow base i str < 2 ^ 32 := by
  rw [strideRow]
  omega

theorem ddChip_lt (e : DmaEntry) : ddChip e < 4096 := Nat.mod_lt _ (by decide)

theorem longHdr_mkLong (h : LongHdr) (rows : List RowData) : longHdr (mkLong h rows).hdr = { h.fit with crc := (longHdr (mkLong h rows).hdr).crc } := by
  rw [mkLong, longHdr_longFlit]
  rfl

/-- The rows that a request asks for, in its header (07 R246). -/
theorem oparg_rows {n str : Nat} (hn : n ≤ 8) (hstr : str < 2 ^ 12) : bits ((n <<< 19 + str <<< 7) % 2 ^ 23) 22 19 = n := by
  rw [bits_mod _ _ _ _ (by decide), bits, Nat.shiftLeft_eq, Nat.shiftLeft_eq, Nat.shiftRight_eq_div_pow]
  omega

end Sys2Proof.Machine
end

section
/-! SUPPORT. The ends of ring waits: a slot that comes, and a wait of G cycles (03 R120; 05 R180 to R182). -/

namespace Sys2Proof.Machine

/-! ### Queues that wait at a ring -/

theorem clearRingWait_of_empty {s : State} {core q : Nat} (k : Nat) (h : (s.dev.core core).queue q = []) : clearRingWait core k s q = s := by
  rw [clearRingWait, h]

theorem foldl_clearRingWait_of_empty {s : State} {core : Nat} (k : Nat) {l : List Nat} (h : ∀ q ∈ l, (s.dev.core core).queue q = []) :
    l.foldl (clearRingWait core k) s = s := by
  induction l with
  | nil => rfl
  | cons q l ih =>
    rw [List.foldl_cons, clearRingWait_of_empty k (h q (List.mem_cons_self ..)), ih fun q hq => h q (List.mem_cons_of_mem _ hq)]

/-- Of the queues, the one whose descriptor waits for a published slot goes on (R181). -/
theorem foldl_clearRingWait_of_ready {s : State} {core k q : Nat} {e : DmaEntry} {rest : List DmaEntry} (hq : q < 4)
    (hqueue : (s.dev.core core).queue q = e :: rest) (hother : ∀ j, j < 4 → j ≠ q → (s.dev.core core).queue j = [])
    (hwait : ((s.dev.core core).run q).wait = 1) (hsre : ddSre e = true) (hring : ddSring e = k) (hdre : ddDre e = false)
    (hslot : slotsAsked (s.dev.core core) q < ringOcc (ringDesc s core k)) :
    (List.range 4).foldl (clearRingWait core k) s =
      s.withCore core ((s.dev.core core).setRun q { (s.dev.core core).run q with wait := 0 }) := by
  have hsrc : srcReady s core q e = true := by simp [srcReady, hsre, hring, hslot]
  have hdst : dstReady s core q e = true := by simp [dstReady, hdre]
  have hself : clearRingWait core k s q = s.withCore core ((s.dev.core core).setRun q { (s.dev.core core).run q with wait := 0 }) := by
    rw [clearRingWait, hqueue]
    exact if_pos ⟨hwait, .inl ⟨hsre, hring⟩, hsrc, hdst⟩
  obtain ⟨l, l', hsplit⟩ := List.append_of_mem (List.mem_range.mpr hq)
  have hnodup : (l ++ q :: l').Nodup := hsplit ▸ List.nodup_range
  obtain ⟨-, hright, hdisjoint⟩ := List.nodup_append.mp hnodup
  have hleftOther (j : Nat) (hj : j ∈ l) : j < 4 ∧ j ≠ q :=
    ⟨List.mem_range.mp (hsplit ▸ List.mem_append_left _ hj), hdisjoint j hj q (List.mem_cons_self ..)⟩
  have hrightOther (j : Nat) (hj : j ∈ l') : j < 4 ∧ j ≠ q :=
    ⟨List.mem_range.mp (hsplit ▸ List.mem_append_right _ (List.mem_cons_of_mem _ hj)), fun he => (List.nodup_cons.mp hright).1 (he ▸ hj)⟩
  rw [hsplit, List.foldl_append, List.foldl_cons, foldl_clearRingWait_of_empty k fun j hj => hother j (hleftOther j hj).1 (hleftOther j hj).2,
    hself, foldl_clearRingWait_of_empty k fun j hj => ?_]
  rw [State.withCore_core, CoreSt.setRun_queue]
  exact hother j (hrightOther j hj).1 (hrightOther j hj).2

theorem CoreSt.feedAt_setRun (c : CoreSt) (q : Nat) (r : DmaRun) (k : Nat) : (c.setRun q r).feedAt k = c.feedAt k := by
  match q with
  | 0 | 1 | 2 | _ + 3 => rfl

theorem CoreSt.loadAt_setRun (c : CoreSt) (q : Nat) (r : DmaRun) (k : Nat) : (c.setRun q r).loadAt k = c.loadAt k := by
  match q with
  | 0 | 1 | 2 | _ + 3 => rfl

/-- With no FEED or LOAD at the ring, the queues that wait there go on, and no more. -/
theorem exec_ringWaitResolved_of_queues {s t : State} {core : CoreId} {ring : RingId} (waited : Nat)
    (hfold : (List.range 4).foldl (clearRingWait core ring) s = t) (hfeed : (t.dev.core core).feedAt ring = false)
    (hload : (t.dev.core core).loadAt ring = false) : exec (.ringWaitResolved core ⟨ring, waited⟩) s = ok t := by
  simp only [exec, execRingWaitResolved, hfold, hfeed, hload, Bool.false_and, Bool.false_eq_true, if_false]

/-! ### A LOAD that waits at a ring -/

theorem Dev.leafRelease_of_none {d : Dev} (core k : Nat) (h : d.net.held = []) : d.leafRelease core k = d := by
  simp [Dev.leafRelease, h]

/-- A slot of a ring of the core's own is released: HEAD moves on, and nothing else (R180). -/
theorem ringRelease_of_own {s : State} {core k : Nat} (n : Nat) (hkind : ringKind (ringDesc s core k) ≠ 2)
    (hpull : isPullRing s.dev core k = false) (hheld : s.dev.net.held = []) :
    ringRelease s core k n = setRing s core k (setBits (ringDesc s core k) 159 144 (ringHead (ringDesc s core k) + n)) := by
  have hleaf (v : Nat) : (setRing s core k v).onDev (fun d => d.leafRelease core k) = setRing s core k v := by
    exact congrArg (fun d => { setRing s core k v with dev := d }) (Dev.leafRelease_of_none (d := s.dev) core k hheld)
  simp only [ringRelease, hkind, hpull, hleaf, false_and, if_false, Bool.false_eq_true]

/-- A core whose waiting LOAD has read its slot. -/
theorem loadProceed_of_slot {s : State} {core : Nat} {c : CoreSt} {r : LoadRun} (hrun : c.loadRun = some r)
    (hocc : ringOcc (ringDesc s core r.f.sreg.toNat) ≠ 0) (hkind : ringKind (ringDesc s core r.f.sreg.toNat) ≠ 2)
    (hpull : isPullRing s.dev core r.f.sreg.toNat = false) (hheld : s.dev.net.held = [])
    (himg : ∀ i, i < mxImageRows r.f.wfmt.toNat →
      s.ownClean core (ringRow (ringDesc s core r.f.sreg.toNat) (ringHead (ringDesc s core r.f.sreg.toNat)) i)) :
    ∃ k : CoreSt, loadProceed (s.withCore core c) core false =
        setRing (s.withCore core k) core r.f.sreg.toNat
          (setBits (ringDesc s core r.f.sreg.toNat) 159 144 (ringHead (ringDesc s core r.f.sreg.toNat) + 1)) ∧
      k.loadRun = none ∧ k.dctr = c.dctr ∧
      (if c.activeB then k.planeA else k.planeB) = ⟨(List.range (mxImageRows r.f.wfmt.toNat)).map fun i =>
        readRow s.mem (ringRow (ringDesc s core r.f.sreg.toNat) (ringHead (ringDesc s core r.f.sreg.toNat)) i), r.f.wfmt, r.f.afmt, r.f.trans⟩ := by
  have hdesc (c : CoreSt) : ringDesc (s.withCore core c) core r.f.sreg.toNat = ringDesc s core r.f.sreg.toNat := rfl
  obtain ⟨a, b, himage⟩ := loadImage_of_ownClean ((List.range (mxImageRows r.f.wfmt.toNat)).map fun i =>
    ringRow (ringDesc s core r.f.sreg.toNat) (ringHead (ringDesc s core r.f.sreg.toNat)) i) c (by simpa using himg)
  obtain ⟨y, hplane⟩ := loadPlane_withCore s core { c with loadStageA := a, loadStageB := b } r.f
    (((List.range (mxImageRows r.f.wfmt.toNat)).map fun i =>
      ringRow (ringDesc s core r.f.sreg.toNat) (ringHead (ringDesc s core r.f.sreg.toNat)) i).map (readRow s.mem))
    (inStore (ringBase (ringDesc s core r.f.sreg.toNat)))
  have hgo : ¬(ringOcc (ringDesc s core r.f.sreg.toNat) = 0 ∧ (!false) = true) := fun h => hocc h.1
  unfold loadProceed
  rw [State.withCore_core, hrun]
  dsimp only
  rw [hdesc, if_neg hgo, himage]
  dsimp only
  rw [hplane, State.withCore_onCore]
  rw [ringRelease_of_own 1 (by exact hkind) (by exact hpull) (by exact hheld), hdesc]
  refine ⟨_, rfl, rfl, rfl, ?_⟩
  dsimp only
  rw [List.map_map]
  split <;> rfl

/-! ### Underflow and overflow -/

theorem Dev.keeps_markCore (d : Dev) (core bit : Nat) : Keeps [.slices] d (d.markCore core bit) := by
  unfold Dev.markCore
  split
  · exact Dev.keeps_updSlice _ _ _ (by decide)
  · exact .refl _ d

theorem Dev.regs_markCore (d : Dev) (core bit : Nat) : (d.markCore core bit).regs = d.regs := by
  unfold Dev.markCore
  split <;> rfl

end Sys2Proof.Machine
end

section
/-! SUPPORT. A queue that has waited G cycles at a ring goes on, with its fault counted and its ledger marked (05 R182; 10 Table 10.10). -/

namespace Sys2Proof.Machine

/-- A core of a device counts a fault in `f`, the ledger of its slice marks it, and `g` follows. -/
def Dev.faultCore (d : Dev) (core bit : Nat) (f g : CoreSt → CoreSt) : Dev := ((d.updCore core f).markCore core bit).updCore core g

theorem Dev.core_faultCore (d : Dev) (core bit : Nat) (f g : CoreSt → CoreSt) (j : Nat) :
    (d.faultCore core bit f g).core j = if j = core then g (f (d.core j)) else d.core j := by
  rw [Dev.faultCore, Dev.core_updCore, (Dev.keeps_markCore _ core bit).core (by decide), Dev.core_updCore]
  split <;> rfl

theorem Dev.keeps_faultCore (d : Dev) (core bit : Nat) (f g : CoreSt → CoreSt) : Keeps [.cores, .slices] d (d.faultCore core bit f g) :=
  ((d.keeps_updCore core f (by decide)).trans ((Dev.keeps_markCore _ core bit).weaken (by decide))).trans (Dev.keeps_updCore _ core g (by decide))

theorem Dev.keepsRegs_faultCore (d : Dev) (core bit : Nat) (f g : CoreSt → CoreSt) : KeepsRegs [] d (d.faultCore core bit f g) :=
  .of_regs_eq [] (Dev.regs_markCore _ core bit)

/-- A core counts an underflow or an overflow of ring k. -/
def CoreSt.countUnderflow (k : Nat) (c : CoreSt) : CoreSt := { c with dctr := { c.dctr with
  underflows := BitVec.ofNat 32 (satAdd 32 c.dctr.underflows.toNat 1), underRings := c.dctr.underRings ||| (1 <<< k) } }
def CoreSt.countOverflow (k : Nat) (c : CoreSt) : CoreSt := { c with dctr := { c.dctr with
  overflows := BitVec.ofNat 32 (satAdd 32 c.dctr.overflows.toNat 1), overRings := c.dctr.overRings ||| (1 <<< k) } }

/-- A queue's wait ends: the slot is read, or written, as it stands. -/
def CoreSt.forceSrc (q : Nat) (c : CoreSt) : CoreSt := c.setRun q { c.run q with wait := 0, forcedSrc := true }
def CoreSt.forceDst (q : Nat) (c : CoreSt) : CoreSt := c.setRun q { c.run q with wait := 0, forcedDst := true }

theorem ringUnderflow_of_queue {s : State} {core k q : Nat} (hfeed : (s.dev.core core).feedAt k = false)
    (hload : (s.dev.core core).loadAt k = false) (hq : q < 4) (hwaits : waitsAsConsumer s core q k = true)
    (hfirst : ∀ j, j < q → waitsAsConsumer s core j k = false) :
    ringUnderflow s core k = s.onDev fun d => d.faultCore core lwMemFault (.countUnderflow k) (.forceSrc q) := by
  have hfind : (List.range 4).find? (fun q => waitsAsConsumer s core q k) = some q :=
    List.find?_range_eq_some.mpr ⟨hwaits, List.mem_range.mpr hq, fun j hj => by rw [hfirst j hj]; rfl⟩
  simp only [ringUnderflow, hfeed, hload, hfind, Bool.false_and, Bool.false_eq_true, if_false]
  rfl

theorem exec_ringOverflow_of_queue {s : State} {core : CoreId} {q : Fin 4} {k : Nat} (h : waitsAsProducer s core q = some k) :
    exec (.ringOverflow core q) s = ok (s.onDev fun d => d.faultCore core lwMemFault (.countOverflow k) (.forceDst q)) := by
  show ok (match waitsAsProducer s core q with
    | some k => (s.onDev fun d => d.overflow core k).onRun core q fun x => { x with wait := 0, forcedDst := true }
    | none => s) = _
  rw [h]
  rfl

/-- A ring's bit is set by what counts a fault of it (05 Table 5.12). -/
theorem getLsbD_or_ring (w : Word) {k : Nat} (hk : k < 32) : (w ||| (1 <<< k)).getLsbD k = true := by
  have hbit : (1 <<< k).testBit k = true := by simp [Nat.shiftLeft_eq]
  rw [BitVec.getLsbD_or]
  simp [BitVec.getLsbD_ofNat, hk, hbit]

theorem toNat_satAdd_word (w : Word) : (BitVec.ofNat 32 (satAdd 32 w.toNat 1)).toNat = satAdd 32 w.toNat 1 := by
  rw [BitVec.toNat_ofNat, Nat.mod_eq_of_lt (satAdd_lt 32 _ 1)]

end Sys2Proof.Machine
end

section
/-! O21. -/

namespace Sys2Proof.Machine

/-! ### A queue's turn -/

theorem CoreSt.dmaLost_outst (c : CoreSt) (q lost : Nat) : (c.dmaLost q lost).outst = c.outst := CoreSt.withDma_outst ..

theorem CoreSt.dmaLost_pktSeq (c : CoreSt) (q lost : Nat) : (c.dmaLost q lost).pktSeq = c.pktSeq := CoreSt.withDma_pktSeq ..

theorem CoreSt.dmaLost_quotaReq (c : CoreSt) (q lost : Nat) : (c.dmaLost q lost).quotaReq = c.quotaReq := CoreSt.withDma_quotaReq ..

theorem CoreSt.dmaLost_done (c : CoreSt) (q lost : Nat) : ((c.dmaLost q lost).run q).done = (c.run q).done := by
  rw [CoreSt.dmaLost, CoreSt.withDma_run]

/-- A packet counts as sent from a core whether or not its queue has just lost cycles. -/
theorem CoreSt.HasSent.of_dmaLost {c k : CoreSt} {q lost n : Nat} {sl : Slice} {e : DmaEntry} {reply : Bool}
    (h : (c.dmaLost q lost).HasSent q sl e reply n k) : c.HasSent q sl e reply n k :=
  ⟨by rw [h.outst, CoreSt.dmaLost_outst, CoreSt.dmaLost_pktSeq], by rw [h.done, CoreSt.dmaLost_done]⟩

theorem CoreSt.HasSent.done_ne {c k : CoreSt} {q n : Nat} {sl : Slice} {e : DmaEntry} {reply : Bool} (h : c.HasSent q sl e reply n k)
    (hn : 0 < n) : (k.run q).done ≠ (c.run q).done := by
  rw [h.done]
  omega

/-- A packet of WRITE, SUMWRITE or MCAST leaves, and its late flits count (R185, R188, R189; 07 R233). -/
theorem dmaSend_one {s : State} {core : CoreId} {q : Fin 4} {opc lost late done n : Nat} {e : DmaEntry} {sl : Slice} (h : plainMove s core q opc e)
    (hopc : opc ≠ 2) (hdone : done = ((s.dev.core core).run q).done) (hn : n = e.pktLen done) (hslice : s.dev.sliceOf (core.val / 8) = some sl)
    (hroom : (s.dev.core core).outst.length < 1024) (hopen : s.dev.blocked (core.val / 8) (stopCl (core.val / 8)) = false)
    (hinject : injectCheck s core sl e (graCluster (e.dstAt done) * 8 + graCore (e.dstAt done)) n = .yes) (hrows : e.srcOwn s core done n) :
    ∃ (hd : LongHdr) (k : CoreSt) (sls : List Slice) (d : Dev), dmaSend core q opc ⟨1, lost, late⟩ s = { s with dev := d } ∧
      s.Departs core e late k sls (mkLong hd (e.srcRows s.mem done n)) d ∧
      e.RowHeader sl core q (mapGet (fun _ => 0) (s.dev.core core).pktSeq q) done n hd ∧ (s.dev.core core).HasSent q sl e false n k ∧
      k.dctr.rowsMoved = (s.dev.core core).dctr.rowsMoved + BitVec.ofNat 64 n := by
  have hlose := dmaLose_isWith s core q lost
  have hleft : done < ddRows e := hdone ▸ h.plain.total ▸ h.rows
  have hlost : (((s.dev.core core).dmaLost q lost).run q).done = done := (CoreSt.dmaLost_done ..).trans hdone.symm
  subst hn
  obtain ⟨hd, k, sls, hsend, hhead, hsent, hmoved⟩ := sendPkt_of_plain h.plain (h.opc ▸ hopc) hlose (CoreSt.dmaLost_quotaReq ..) hslice
    (by rwa [CoreSt.dmaLost_outst]) hopen (by rwa [hlost]) (by rwa [hlost]) (by rwa [hlost])
  rw [hlost] at hsend hhead hsent hmoved
  rw [CoreSt.dmaLost_pktSeq] at hhead
  obtain ⟨d, hlate, hdeparts⟩ := chanLate_sending (hsent.of_dmaLost.done_ne (DmaEntry.pktLen_pos hleft))
  refine ⟨hd, k, sls, d, ?_, hdeparts, hhead, hsent.of_dmaLost, hmoved⟩
  rw [dmaSend_of_head _ h.head, sendLoop_one (by rw [hlose.core_eq, CoreSt.dmaLost_done]; exact h.rows), hsend, hlate]

/-- A request of READ leaves, and its late flits count (R189; 07 R233, R246). -/
theorem exec_dmaRead_one {s : State} {core : CoreId} {q : Fin 4} {late done n : Nat} {e : DmaEntry} {sl : Slice} (h : plainMove s core q 4 e)
    (hdone : done = ((s.dev.core core).run q).done) (hn : n = e.pktLen done) (hslice : s.dev.sliceOf (core.val / 8) = some sl)
    (hroom : (s.dev.core core).outst.length < 1024) (hopen : s.dev.blocked (core.val / 8) (stopCl (core.val / 8)) = false)
    (hinject : injectCheck s core sl e (graCluster (e.srcAt done) * 8 + graCore (e.srcAt done)) 0 = .yes) :
    ∃ (hd : LongHdr) (k : CoreSt) (sls : List Slice) (d : Dev), exec (.dmaRead core q ⟨1, late⟩) s = ok { s with dev := d } ∧
      s.Departs core e late k sls (mkLong hd []) d ∧ e.ReadHeader done n hd ∧ (s.dev.core core).HasSent q sl e true n k := by
  have hleft : done < ddRows e := hdone ▸ h.plain.total ▸ h.rows
  subst hn hdone
  obtain ⟨hd, k, sls, hsend, hhead, hsent⟩ := sendRead_of_plain h.plain rfl hslice hroom hopen hleft hinject
  obtain ⟨d, hlate, hdeparts⟩ := chanLate_sending (hsent.done_ne (DmaEntry.pktLen_pos hleft))
  refine ⟨hd, k, sls, d, ?_, hdeparts, hhead, hsent⟩
  rw [exec_dmaRead_of_head _ h.head, readLoop_one h.rows, hsend, hlate]

/-! ### What the packets carry -/

/-- A packet of rows is whole, and holds its header's fields and its rows. -/
theorem DmaEntry.RowHeader.sent {e : DmaEntry} {sl : Slice} {core : CoreId} {q : Fin 4} {seq done n : Nat} {hd : LongHdr} {m : List Host.Cell}
    (h : e.RowHeader sl core q seq done n hd) (hn : n ≤ 8) {p : Packet} (hp : p = mkLong hd (e.srcRows m done n)) :
    longOk p = true ∧ (longHdr p.hdr).op = e.hdrOp ∧ (longHdr p.hdr).slice = sl.id % 4096 ∧ (longHdr p.hdr).dchip = ddChip e ∧
      (longHdr p.hdr).gra = e.dstAt done ∧ (longHdr p.hdr).len = 8 * n ∧ (longHdr p.hdr).score = core.val ∧ (longHdr p.hdr).squeue = q.val ∧
      (longHdr p.hdr).seq = seq % 65536 ∧ flitRows n p.payload = e.srcRows m done n := by
  have hlength : (e.srcRows m done n).length = n := by simp [DmaEntry.srcRows]
  have hop : hd.op % 8 = e.hdrOp := by
    rw [h.op, DmaEntry.hdrOp]
    split
    · rfl
    · split <;> rfl
  subst hp
  rw [longHdr_mkLong]
  refine ⟨longOk_mkLong (by rw [h.len, hlength]) (by rw [h.len]; omega), hop, congrArg (· % 4096) h.slice, ?_, ?_, ?_, ?_, ?_, congrArg (· % 65536) h.seq, ?_⟩
  · exact (Nat.mod_eq_of_lt (h.dchip ▸ ddChip_lt e)).trans h.dchip
  · exact (Nat.mod_eq_of_lt (h.gra ▸ strideRow_lt ..)).trans h.gra
  · exact (Nat.mod_eq_of_lt (by rw [h.len]; omega)).trans h.len
  · exact (Nat.mod_eq_of_lt (by rw [h.score]; omega)).trans h.score
  · exact (Nat.mod_eq_of_lt (by rw [h.squeue]; omega)).trans h.squeue
  · have hpayload := flitRows_rowFlits (e.srcRows m done n)
    rwa [hlength] at hpayload

/-- A request is whole, and names the rows to read and the row to write. -/
theorem DmaEntry.ReadHeader.sent {e : DmaEntry} {done n : Nat} {hd : LongHdr} (h : e.ReadHeader done n hd) (hn : n ≤ 8) {p : Packet}
    (hp : p = mkLong hd []) :
    longOk p = true ∧ (longHdr p.hdr).op = 1 ∧ (longHdr p.hdr).dchip = ddChip e ∧ (longHdr p.hdr).gra = e.srcAt done ∧
      (longHdr p.hdr).reply = e.dstAt done ∧ bits (longHdr p.hdr).oparg 22 19 = n ∧ (longHdr p.hdr).len = 0 ∧ p.payload = [] := by
  subst hp
  rw [longHdr_mkLong]
  refine ⟨longOk_mkLong h.len (by rw [h.len]; decide), congrArg (· % 8) h.op, ?_, ?_, ?_, ?_, congrArg (· % 128) h.len, rfl⟩
  · exact (Nat.mod_eq_of_lt (h.dchip ▸ ddChip_lt e)).trans h.dchip
  · exact (Nat.mod_eq_of_lt (h.gra ▸ strideRow_lt ..)).trans h.gra
  · exact (Nat.mod_eq_of_lt (h.reply ▸ strideRow_lt ..)).trans h.reply
  · exact (congrArg (fun v => bits (v % 2 ^ 23) 22 19) h.oparg).trans (oparg_rows hn (toField_lt ..))

end Sys2Proof.Machine
end

section
/-! O21: the ends of waits, and the whole statement. -/

namespace Sys2Proof.Machine

/-- A ring's LOAD that has waited goes on once its slot is there, and each cycle of its wait has counted (03 R120). -/
theorem exec_ringWaitResolved_of_load {s : State} {core : CoreId} {ring : RingId} {r : LoadRun} (waited : Nat)
    (hqueues : ∀ j, j < 4 → (s.dev.core core).queue j = []) (hfeed : (s.dev.core core).feedRun = none) (hload : (s.dev.core core).loadRun = some r)
    (hring : r.f.sreg.toNat = ring.val) (hocc : ringOcc (ringDesc s core ring) ≠ 0) : exec (.ringWaitResolved core ⟨ring, waited⟩) s =
      ok (loadProceed (s.withCore core ((s.dev.core core).emptyTick ring (waited - 1))) core false) := by
  have hfold := foldl_clearRingWait_of_empty (s := s) (core := core) ring (l := List.range 4) fun j hj => hqueues j (List.mem_range.mp hj)
  have hfeedAt : (s.dev.core core).feedAt ring = false := by rw [CoreSt.feedAt, hfeed, Option.any_none]
  have hloadAt : (s.dev.core core).loadAt ring = true := by simp [CoreSt.loadAt, hload, hring]
  have hgo : decide (ringOcc (ringDesc s core ring) ≠ 0) = true := decide_eq_true hocc
  simp only [exec, execRingWaitResolved, hfold, hfeedAt, hloadAt, hgo, Bool.false_and, Bool.and_self, Bool.false_eq_true, if_false, if_true,
    State.onCore_eq_withCore]

/-- Settles O21: a turn of a queue is one packet made of its descriptor, and each end of a ring's wait is one change of its core. -/
theorem dmaSendsPacketsAndWaits : Obligations.DmaSendsPacketsAndWaits := by
  refine ⟨⟨fun s core q e sl n dst lost late hslice hroom hopen hdst x hx hmove hn hinject hrows => ?_,
      fun s core q e sl n src late hmove hslice hroom hopen hsrc hn hinject => ?_⟩,
    fun s core ring q e rest hqueue hother hwait hsre hring hdre hslot hfeed hload waited => ?_,
    fun s core ring c r waited hc hm hqueues hfeed hload hring hocc hkind hpull hheld himg => ?_,
    fun s core ring q hfeed hload hq hwaits hfirst => ?_, fun s core q ring hwaits => ?_⟩
  · obtain ⟨hexec, hop, hopc⟩ : exec x.2.1 s = ok (dmaSend core q x.1 ⟨1, lost, late⟩ s) ∧ x.2.2 = e.hdrOp ∧ x.1 ≠ 2 := by
      have hfields := hmove.opc
      simp only [List.mem_cons, List.not_mem_nil, or_false] at hx
      obtain rfl | rfl | rfl := hx <;> exact ⟨rfl, by rw [DmaEntry.hdrOp, hfields]; rfl, by simp⟩
    subst hdst
    obtain ⟨hd, k, sls, d, hsend, hdeparts, hhead, hsent, hmoved⟩ := dmaSend_one hmove hopc rfl hn hslice hroom hopen hinject hrows
    obtain ⟨hok, hpop, hpslice, hchip, hgra, hlen, hscore, hqueue, hseq, hpayload⟩ := hhead.sent (hn ▸ e.pktLen_le _) rfl
    exact ⟨d, hexec.trans (congrArg ok hsend), _, k, sls, hdeparts.dev, hdeparts.regs, hdeparts.late, hok, hop ▸ hpop, hpslice, hchip, hgra, hlen,
      hscore, hqueue, hseq, hpayload, hsent.outst, hsent.done, hmoved⟩
  · subst hsrc
    obtain ⟨hd, k, sls, d, hexec, hdeparts, hhead, hsent⟩ := exec_dmaRead_one hmove rfl hn hslice hroom hopen hinject
    obtain ⟨hok, hop, hchip, hgra, hreply, hlen, hnone, hpayload⟩ := hhead.sent (hn ▸ e.pktLen_le _) rfl
    exact ⟨d, hexec, _, k, sls, hdeparts.dev, hdeparts.regs, hdeparts.late, hok, hop, hchip, hgra, hreply, hlen, hnone, hpayload, hsent.outst,
      hsent.done⟩
  · refine coreActs_of_eq (exec_ringWaitResolved_of_queues waited
      (foldl_clearRingWait_of_ready q.isLt hqueue hother hwait hsre hring hdre hslot) ?_ ?_) rfl
    · rw [State.withCore_core, CoreSt.feedAt_setRun, hfeed]
    · rw [State.withCore_core, CoreSt.loadAt_setRun, hload]
  · subst hc
    obtain ⟨k, hproceed, hnone, hctr, hplane⟩ := loadProceed_of_slot (s := s) (core := core)
      (c := (s.dev.core core).emptyTick ring (waited - 1)) hload (by rwa [hring]) (by rw [hring, hkind]; decide) (by rwa [hring]) hheld
      (by rwa [hring])
    rw [hring] at hproceed hplane
    have hkcore : (s.dev.setCore core k).core core = k := by rw [Dev.core_setCore, if_pos rfl]
    refine ⟨_, (exec_ringWaitResolved_of_load waited hqueues hfeed hload hring hocc).trans (congrArg ok hproceed), rfl, ?_, ?_, ?_,
      (ring_setRing_head (s := s.withCore core k) core ring _ hm).1, onlyRow_setRing core ring _ hm, fun j hj => ?_,
      s.dev.keeps_setCore core k (by decide), s.dev.keepsRegs_setCore [] core k⟩
    · exact (congrArg CoreSt.loadRun hkcore).trans hnone
    · exact (congrArg (fun x : CoreSt => if (s.dev.core core).activeB then x.planeA else x.planeB) hkcore).trans hplane
    · refine (congrArg (fun x : CoreSt => mapGet (fun _ => 0) x.dctr.emptyWait ring) hkcore).trans ?_
      rw [hctr]
      exact mapGet_mapPut_self ..
    · exact (Dev.core_setCore ..).trans (if_neg hj)
  · have hcore := (Dev.core_faultCore s.dev core lwMemFault (.countUnderflow ring) (.forceSrc q) core).trans (if_pos rfl)
    refine Acts.of_onDev _ (congrArg ok (ringUnderflow_of_queue hfeed hload hq hwaits hfirst)) ⟨?_, ?_, ?_, ?_, fun j hj => ?_,
      s.dev.keeps_faultCore core _ _ _, s.dev.keepsRegs_faultCore core _ _ _⟩
    · rw [hcore, CoreSt.forceSrc, CoreSt.setRun_dctr]
      exact toNat_satAdd_word _
    · rw [hcore, CoreSt.forceSrc, CoreSt.setRun_dctr]
      exact getLsbD_or_ring _ ring.isLt
    · rw [hcore, CoreSt.forceSrc, CoreSt.run_setRun]
    · rw [hcore, CoreSt.forceSrc, CoreSt.run_setRun]
    · exact (Dev.core_faultCore ..).trans (if_neg hj)
  · have hcore := (Dev.core_faultCore s.dev core lwMemFault (.countOverflow ring) (.forceDst q) core).trans (if_pos rfl)
    refine Acts.of_onDev _ (exec_ringOverflow_of_queue hwaits) ⟨?_, ?_, ?_, ?_, fun j hj => ?_, s.dev.keeps_faultCore core _ _ _,
      s.dev.keepsRegs_faultCore core _ _ _⟩
    · rw [hcore, CoreSt.forceDst, CoreSt.setRun_dctr]
      exact toNat_satAdd_word _
    · rw [hcore, CoreSt.forceDst, CoreSt.setRun_dctr]
      exact getLsbD_or_ring _ ring.isLt
    · rw [hcore, CoreSt.forceDst, CoreSt.run_setRun]
    · rw [hcore, CoreSt.forceDst, CoreSt.run_setRun]
    · exact (Dev.core_faultCore ..).trans (if_neg hj)

end Sys2Proof.Machine
end

section
/-! SUPPORT. Memory through folds and branches: what leaves it, and what keeps its canonical form. -/

namespace Sys2Proof.Machine

@[simp] theorem State.foldl_mem {α : Type} {f : State → α → State} (h : ∀ s x, (f s x).mem = s.mem) (l : List α) (s : State) :
    (l.foldl f s).mem = s.mem := by
  induction l generalizing s with
  | nil => rfl
  | cons x l ih => rw [List.foldl_cons, ih, h]

theorem State.ite_mem {c : Prop} [Decidable c] {a b : State} {t : List Host.Cell} (ha : a.mem = t) (hb : b.mem = t) :
    (if c then a else b).mem = t := by split <;> assumption

theorem memWf_foldl {α : Type} {f : State → α → State} (hf : ∀ s x, memWf s.mem = true → memWf (f s x).mem = true) (l : List α) {s : State}
    (h : memWf s.mem = true) : memWf (l.foldl f s).mem = true := by
  induction l generalizing s with
  | nil => exact h
  | cons x l ih => exact ih (hf s x h)

theorem memWf_ite {c : Prop} [Decidable c] {a b : State} (ha : memWf a.mem = true) (hb : memWf b.mem = true) :
    memWf (if c then a else b).mem = true := by split <;> assumption

end Sys2Proof.Machine
end

section
/-! SUPPORT. The operations of Machine/Ops leave memory. -/

namespace Sys2Proof.Machine

@[simp] theorem State.engRead_mem (s : State) (core g : Nat) : (s.engRead core g).2.mem = s.mem := rfl

@[simp] theorem State.rewriteWait_mem (s : State) (core g : Nat) : (s.rewriteWait core g).mem = s.mem := rfl

@[simp] theorem State.readCells_mem (s : State) (core : Nat) : (s.readCells core).mem = s.mem := by
  unfold State.readCells
  split <;> simp

@[simp] theorem State.slotOr_mem (s : State) (core : CoreId) (gx : Bool) (fits : CoreSt → Bool) (f g : State → State)
    (hf : ∀ s', (f s').mem = s'.mem) (hg : ∀ s', (g s').mem = s'.mem) : (s.slotOr core gx fits f g).mem = s.mem := by
  obtain e | e | ⟨row, -, e⟩ | e | e := s.slotOr_cases core gx fits f g <;> simp [e, hf, hg]

@[simp] theorem State.slot_mem (s : State) (core : CoreId) (f : State → State) (hf : ∀ s', (f s').mem = s'.mem) :
    (s.slot core f).mem = s.mem := by simp [State.slot, hf]

@[simp] theorem State.gxSlot_mem (s : State) (core : CoreId) (f : State → State) (hf : ∀ s', (f s').mem = s'.mem) :
    (s.gxSlot core f).mem = s.mem := by simp [State.gxSlot, hf]

/-- A slot operation keeps the form where its effects do: its own, and what it counts where it has to wait. -/
theorem State.slotOr_wf {s : State} (core : CoreId) (gx : Bool) (fits : CoreSt → Bool) {f g : State → State}
    (hf : ∀ s, memWf s.mem = true → memWf (f s).mem = true) (hg : ∀ s, memWf s.mem = true → memWf (g s).mem = true)
    (h : memWf s.mem = true) : memWf (s.slotOr core gx fits f g).mem = true := by
  obtain e | e | ⟨row, -, e⟩ | e | e := s.slotOr_cases core gx fits f g <;> rw [e]
  · exact h
  · exact h
  · exact h
  · exact hg s h
  · exact hf _ (by rwa [State.onCore_mem, State.readCells_mem])

end Sys2Proof.Machine
end

section
/-! SUPPORT. The operations of Machine/Packets write whole rows. -/

namespace Sys2Proof.Machine

@[simp] theorem setRing_wf {s : State} (core k v : Nat) (h : memWf s.mem = true) : memWf (setRing s core k v).mem = true := writeRow_wf _ _ h

@[simp] theorem ringPublish_wf {s : State} (core k n : Nat) (h : memWf s.mem = true) : memWf (ringPublish s core k n).mem = true := setRing_wf _ _ _ h

theorem ringZero_wf {s : State} (r first n : Nat) (h : memWf s.mem = true) : memWf (ringZero s r first n).mem = true :=
  memWf_foldl (fun _ _ => memWf_foldl (fun _ _ => writeRow_wf _ _) _) _ h

@[simp] theorem ringRelease_wf {s : State} (core k n : Nat) (h : memWf s.mem = true) : memWf (ringRelease s core k n).mem = true := by
  have hset := setRing_wf core k (setBits (ringDesc s core k) 159 144 (ringHead (ringDesc s core k) + n)) h
  exact memWf_ite hset (memWf_ite (ringZero_wf _ _ _ hset) hset)

end Sys2Proof.Machine
end

section
/-! SUPPORT. The operations of Machine/Sync leave memory, or write a semaphore's row or a ring's. -/

namespace Sys2Proof.Machine

@[simp] theorem semMeet_mem (cl g count : Nat) (s : State) : (semMeet cl g count s).mem = s.mem :=
  State.foldl_mem (fun _ _ => State.onCore_mem ..) _ _

@[simp] theorem State.release_mem (s : State) (core : CoreId) (e : CoreSt → RelEntry) : (s.release core e).mem = s.mem :=
  State.slotOr_mem _ _ _ _ _ _ (fun _ => rfl) (fun _ => rfl)

@[simp] theorem retireRelease_mem (s : State) (core gra chip : Nat) : (retireRelease s core gra chip).mem = s.mem := by
  simp [retireRelease, apply_ite State.mem]

theorem acquireDone_wf {s : State} (core gra waited : Nat) (timeout : Bool) (h : memWf s.mem = true) :
    memWf (acquireDone s core gra waited timeout).mem = true := writeRow_wf _ _ h

theorem acquire_wf {s : State} (core : Nat) (sreg : BitVec 5) (soff : BitVec 12) (h : memWf s.mem = true) :
    memWf (acquire core sreg soff s).mem = true :=
  memWf_ite (memWf_ite (acquireDone_wf _ _ _ _ h) h) h

theorem retirePublish_wf {s : State} (core ring : Nat) (h : memWf s.mem = true) : memWf (retirePublish s core ring).mem = true :=
  memWf_ite h (ringPublish_wf _ _ _ h)

end Sys2Proof.Machine
end

section
/-! SUPPORT. The operations of Machine/Dma leave memory, or write the rows that a queue moves and the rings that it turns. -/

namespace Sys2Proof.Machine

@[simp] theorem State.onRun_mem (s : State) (core q : Nat) (f : DmaRun → DmaRun) : (s.onRun core q f).mem = s.mem := rfl

@[simp] theorem dmaRead_mem (s : State) (core g : Nat) : (dmaRead s core g).2.mem = s.mem := by
  unfold dmaRead
  split <;> simp

@[simp] theorem skewFill_mem (core q src key n : Nat) (s : State) : (skewFill core q src key n s).mem = s.mem := by
  induction n with
  | zero => rfl
  | succ n ih =>
    unfold skewFill
    dsimp only
    split <;> simp [ih]

@[simp] theorem skewRow_mem (s : State) (core q : Nat) (e : DmaEntry) (r : Nat) : (skewRow s core q e r).2.mem = s.mem := by
  unfold skewRow
  dsimp only
  repeat' split
  all_goals simp

@[simp] theorem dmaLose_mem (core q lost : Nat) (s : State) : (dmaLose core q lost s).mem = s.mem := by
  unfold dmaLose
  split <;> simp

@[simp] theorem dmaWait_mem (s : State) (core q why : Nat) : (dmaWait s core q why).mem = s.mem := rfl

@[simp] theorem injectUse_mem (s : State) (core : Nat) (sl : Slice) (e : DmaEntry) (dst rows flits : Nat) :
    (injectUse s core sl e dst rows flits).mem = s.mem := by
  unfold injectUse
  repeat' split
  all_goals simp

@[simp] theorem injectHeld_mem (s : State) (core q flits : Nat) (why : Inject) : (injectHeld s core q flits why).mem = s.mem := by
  unfold injectHeld
  repeat' split
  all_goals simp

@[simp] theorem chanLate_mem (core q late : Nat) (e : DmaEntry) (s s' : State) : (chanLate core q late e s s').mem = s'.mem := by
  unfold chanLate
  split <;> simp

@[simp] theorem sendRead_mem (s : State) (core q : Nat) (e : DmaEntry) : (sendRead s core q e).mem = s.mem := by
  unfold sendRead
  dsimp only
  repeat' split
  all_goals simp -implicitDefEqProofs

@[simp] theorem readLoop_mem (core q : Nat) (e : DmaEntry) (n : Nat) (s : State) : (readLoop core q e n s).mem = s.mem := by
  induction n generalizing s with
  | zero => rfl
  | succ n ih =>
    unfold readLoop
    dsimp only
    repeat' split
    all_goals simp [ih]

@[simp] theorem dxRun_mem (core : Nat) (f : DxFields) (s : State) : (dxRun core f s).mem = s.mem := rfl

@[simp] theorem clearRingWait_mem (core k : Nat) (s : State) (q : Nat) : (clearRingWait core k s q).mem = s.mem := by
  unfold clearRingWait
  repeat' split
  all_goals simp

theorem dmaPut_wf {s : State} (core g : Nat) (r : RowData) (h : memWf s.mem = true) : memWf (dmaPut s core g r).mem = true :=
  memWf_ite (writeRow_wf _ _ h) h

theorem srcRow_wf {s : State} (core q : Nat) (e : DmaEntry) (h : memWf s.mem = true) : memWf (srcRow s core q e).2.mem = true := by
  have read (g : Nat) : memWf (dmaRead s core g).2.mem = true := by rwa [dmaRead_mem]
  unfold srcRow
  dsimp only
  split
  · exact memWf_ite (ringRelease_wf _ _ _ h) h
  split
  · rwa [skewRow_mem]
  split
  · exact memWf_ite (ringRelease_wf _ _ _ (read _)) (read _)
  · exact read _

theorem localRow_wf {s : State} (core q : Nat) (e : DmaEntry) (meets : Bool) (h : memWf s.mem = true) :
    memWf (localRow s core q e meets).mem = true := by
  have hsrc := srcRow_wf core q e h
  unfold localRow
  dsimp only
  refine memWf_ite h (memWf_ite h (memWf_ite hsrc ?_))
  split
  · exact ringPublish_wf _ _ _ (dmaPut_wf _ _ _ hsrc)
  · exact dmaPut_wf _ _ _ hsrc

theorem localLoop_wf {s : State} (core q : Nat) (e : DmaEntry) (meets : Bool) (n : Nat) (h : memWf s.mem = true) :
    memWf (localLoop core q e meets n s).mem = true := by
  induction n generalizing s with
  | zero => exact h
  | succ n ih =>
    have hrow := localRow_wf core q e meets h
    exact memWf_ite h (memWf_ite hrow (ih hrow))

theorem gatherRows_wf {s : State} (core q : Nat) (e : DmaEntry) (n : Nat) (h : memWf s.mem = true) :
    memWf (gatherRows core q e n s).2.mem = true := by
  induction n generalizing s with
  | zero => exact h
  | succ n ih =>
    unfold gatherRows
    split
    · exact h
    · have rest := ih (s := (srcRow s core q e).2.onRun core q fun x => { x with done := x.done + 1, forcedSrc := false, forcedDst := false })
        (srcRow_wf core q e h)
      dsimp only
      split <;> simp_all

theorem sendPkt_wf {s : State} (core q : Nat) (e : DmaEntry) (h : memWf s.mem = true) : memWf (sendPkt s core q e).mem = true := by
  have gathered := gatherRows_wf core q e (readyRows s core q e (pktRows s core q e)) h
  unfold sendPkt
  dsimp only
  generalize gatherRows core q e (readyRows s core q e (pktRows s core q e)) s = taken at gathered ⊢
  split
  · exact h
  · refine memWf_ite h (memWf_ite h (memWf_ite h ?_))
    generalize injectCheck _ _ _ _ _ _ = verdict
    cases verdict with
    | yes =>
      obtain ⟨_ | rows, t⟩ := taken
      · exact gathered
      · refine memWf_ite (ringPublish_wf _ _ _ ?_) ?_ <;> simpa -implicitDefEqProofs using gathered
    | quota => rwa [injectHeld_mem]
    | credit => rwa [injectHeld_mem]

theorem sendLoop_wf {s : State} (core q : Nat) (e : DmaEntry) (n : Nat) (h : memWf s.mem = true) : memWf (sendLoop core q e n s).mem = true := by
  induction n generalizing s with
  | zero => exact h
  | succ n ih =>
    have hpkt := sendPkt_wf core q e h
    exact memWf_ite h (memWf_ite hpkt (ih hpkt))

theorem dmaSend_wf {s : State} (core : CoreId) (q : Fin 4) (opc : Nat) (x : SendTurn) (h : memWf s.mem = true) :
    memWf (dmaSend core q opc x s).mem = true := by
  unfold dmaSend
  split
  · rw [chanLate_mem]
    exact sendLoop_wf _ _ _ _ (by rwa [dmaLose_mem])
  · exact h

end Sys2Proof.Machine
end

section
/-! SUPPORT. The operations of Machine/Matrix leave memory, or write the accumulator file and the rings that a FEED or LOAD reads. -/

namespace Sys2Proof.Machine

@[simp] theorem feedRow_mem (s : State) (core g : Nat) : (feedRow s core g).2.mem = s.mem := by
  unfold feedRow
  split <;> simp

@[simp] theorem feedStaged_mem (s : State) (core g : Nat) : (feedStaged s core g).2.mem = s.mem := by
  unfold feedStaged
  dsimp only
  repeat' split
  all_goals simp

@[simp] theorem feedAheadOf_mem (s : State) (core g : Nat) : (feedAheadOf s core g).mem = s.mem := by
  unfold feedAheadOf
  split <;> simp

@[simp] theorem feedSide_mem (s : State) (core g : Nat) (held : Option Staged) : (feedSide s core g held).2.mem = s.mem := by
  unfold feedSide
  dsimp only
  repeat' split
  all_goals simp

@[simp] theorem loadRow_mem (s : State) (core g : Nat) : (loadRow s core g).2.mem = s.mem := by
  unfold loadRow
  split <;> simp

@[simp] theorem loadImage_mem (core : Nat) (l : List Nat) (s : State) : (loadImage core l s).2.mem = s.mem := by
  induction l generalizing s with
  | nil => rfl
  | cons g t ih => simp [loadImage, ih]

@[simp] theorem loadPlane_mem (s : State) (core : Nat) (f : MxLoadFields) (img : List RowData) (store : Bool) :
    (loadPlane s core f img store).mem = s.mem := rfl

@[simp] theorem mxEnqueue_mem (core : CoreId) (op : CoreSt → MxOp) (s : State) : (mxEnqueue core op s).mem = s.mem :=
  State.slotOr_mem _ _ _ _ _ _ (fun _ => rfl) (fun _ => rfl)

theorem accWrite_wf {s : State} (core acc : Nat) (half : Bool) (entry : Nat) (vals : List (Nat × Bool)) (h : memWf s.mem = true) :
    memWf (accWrite s core acc half entry vals).mem = true := by
  unfold accWrite
  dsimp only
  repeat' split
  all_goals simp [writeRow_wf, h]

theorem completePos_wf {s : State} (core : Nat) (vecs : List StreamVec) (h : memWf s.mem = true) : memWf (completePos s core vecs).mem = true := by
  unfold completePos
  split
  · exact h
  · exact memWf_ite (memWf_ite h (accWrite_wf _ _ _ _ _ h)) (memWf_foldl (fun _ _ => accWrite_wf _ _ _ _ _) _ h)

theorem pushVec_wf {s : State} (core : Nat) (v : StreamVec) (h : memWf s.mem = true) : memWf (pushVec s core v).mem = true :=
  memWf_ite h (completePos_wf _ _ h)

theorem ringVec_wf {s : State} (core k cls : Nat) (h : memWf s.mem = true) : memWf (ringVec s core k cls).2.mem = true := by
  unfold ringVec
  refine memWf_ite ?_ (ringRelease_wf _ _ _ ?_) <;> simp [apply_ite Prod.snd, apply_ite State.mem, h]

theorem feedPush_wf {s : State} (core : Nat) (f : MxFeedFields) (seq i : Nat) (raw : BitVec 2048) (side : DWord) (h : memWf s.mem = true) :
    memWf (feedPush s core f seq i raw side).mem = true :=
  pushVec_wf _ _ (memWf_ite h h)

theorem feedLoop_wf {s : State} (core : Nat) (f : MxFeedFields) (base seq : Nat) (side : Option Staged) (n i : Nat) (h : memWf s.mem = true) :
    memWf (feedLoop core f base seq side n i s).mem = true := by
  induction n generalizing side i s with
  | zero => exact h
  | succ k ih =>
    unfold feedLoop
    dsimp only
    split
    · exact memWf_ite (ih _ _ (feedPush_wf _ _ _ _ _ _ (ringVec_wf _ _ _ h))) h
    · have staged (g g' : Nat) : memWf (if k = 0 then (feedStaged s core g).2 else feedAheadOf (feedStaged s core g).2 core g').mem = true := by
        rwa [State.ite_mem (feedStaged_mem ..) ((feedAheadOf_mem ..).trans (feedStaged_mem ..))]
      refine memWf_ite (ih _ _ (feedPush_wf _ _ _ _ _ _ ?_)) (ih _ _ (feedPush_wf _ _ _ _ _ _ (staged ..)))
      rw [feedSide_mem]
      exact staged ..

theorem feedStart_wf {s : State} (core : Nat) (f : MxFeedFields) (base seq : Nat) (h : memWf s.mem = true) :
    memWf (feedStart s core f base seq).mem = true :=
  memWf_ite h (feedLoop_wf _ _ _ _ _ _ _ (memWf_ite h h))

theorem feedTryStart_wf {s : State} (core : Nat) (h : memWf s.mem = true) : memWf (feedTryStart s core).mem = true := by
  unfold feedTryStart
  dsimp only
  split
  · exact memWf_ite h (feedStart_wf _ _ _ _ h)
  · exact h

theorem loadProceed_wf {s : State} (core : Nat) (force : Bool) (h : memWf s.mem = true) : memWf (loadProceed s core force).mem = true := by
  unfold loadProceed
  split
  · exact h
  · exact memWf_ite h (ringRelease_wf _ _ _ (by simpa using h))

theorem loadTryStart_wf {s : State} (core : Nat) (h : memWf s.mem = true) : memWf (loadTryStart s core).mem = true := by
  unfold loadTryStart
  dsimp only
  split
  · exact memWf_ite (loadProceed_wf _ _ h) (by simpa using h)
  · exact h

end Sys2Proof.Machine
end

section
/-! SUPPORT. The operations of Machine/RingWaits leave memory, or write the rings that go on. -/

namespace Sys2Proof.Machine

@[simp] theorem replyLost_mem (s : State) (core queue seq : Nat) : (replyLost s core queue seq).mem = s.mem := by
  unfold replyLost
  dsimp only
  repeat' split
  all_goals simp

theorem feedResume_wf {s : State} (core : Nat) (h : memWf s.mem = true) : memWf (feedResume s core).mem = true := by
  unfold feedResume
  split
  · exact feedLoop_wf _ _ _ _ _ _ _ h
  · exact h

theorem ringUnderflow_wf {s : State} (core k : Nat) (h : memWf s.mem = true) : memWf (ringUnderflow s core k).mem = true := by
  refine memWf_ite (feedResume_wf _ h) (memWf_ite (loadProceed_wf _ _ h) ?_)
  split <;> exact h

theorem inboundPublish_wf {s : State} (core schip score gra n : Nat) (h : memWf s.mem = true) :
    memWf (inboundPublish s core schip score gra n).mem = true := by
  unfold inboundPublish
  split
  · exact ringPublish_wf _ _ _ h
  · exact h

theorem requestDone_wf {s : State} (core : Nat) (o : OutPkt) (landed : Bool) (h : memWf s.mem = true) :
    memWf (requestDone s core o landed).mem = true := by
  unfold requestDone
  dsimp only
  repeat' split
  all_goals simp [h]

theorem replyDone_wf {s : State} (core queue seq : Nat) (landed : Bool) (h : memWf s.mem = true) :
    memWf (replyDone s core queue seq landed).mem = true := by
  unfold replyDone
  split
  · exact requestDone_wf _ _ _ h
  · exact h

end Sys2Proof.Machine
end

section
/-! SUPPORT. The operations of Machine/Network leave memory, or write the rows that packets bring. -/

namespace Sys2Proof.Machine

@[simp] theorem readRows_mem (core : Nat) (l : List Nat) (s : State) : (readRows core l s).2.mem = s.mem := by
  induction l generalizing s with
  | nil => rfl
  | cons g t ih => simp [readRows, ih]

@[simp] theorem replyUse_mem (s : State) (h : LongHdr) (rows : Nat) : (replyUse s h rows).mem = s.mem := by
  simp [replyUse, apply_ite State.mem]

@[simp] theorem serveRead_mem (p : Packet) (s : State) : (serveRead p s).mem = s.mem := by
  unfold serveRead
  dsimp only
  repeat' split
  all_goals simp -implicitDefEqProofs

theorem landRows_wf {s : State} (mover : Bool) (cl core : Nat) (l : List RowData) (g : Nat) (h : memWf s.mem = true) :
    memWf (landRows mover cl core l g s).2.mem = true := by
  induction l generalizing g s with
  | nil => exact h
  | cons r t ih =>
    unfold landRows
    split
    · exact ih _ (writeRow_wf _ _ h)
    · exact ih _ h

/-- The last row of a write packet, taken apart where its write meets a read of its core. -/
theorem memWf_lastRow {meetsRead : Bool} {last : Option RowData} {a : RowData → State} {b : State} (ha : ∀ r, memWf (a r).mem = true)
    (hb : memWf b.mem = true) : memWf (match meetsRead, last with | true, some r => a r | _, _ => b).mem = true := by
  cases meetsRead <;> cases last
  case true.some r => exact ha r
  all_goals exact hb

theorem landWritePkt_wf {s : State} (p : Packet) (meetsRead : Bool) (h : memWf s.mem = true) : memWf (landWritePkt p meetsRead s).mem = true := by
  unfold landWritePkt
  dsimp only
  refine memWf_ite h (memWf_ite h (memWf_lastRow (fun r => memWf_ite ?_ ?_) (inboundPublish_wf _ _ _ _ _ ?_)))
  all_goals exact landRows_wf _ _ _ _ _ h

theorem landOwn_wf {s : State} (core : Nat) (l : List RowData) (g : Nat) (h : memWf s.mem = true) : memWf (landOwn core l g s).2.mem = true := by
  induction l generalizing g s with
  | nil => exact h
  | cons r t ih =>
    unfold landOwn
    split
    · exact ih _ (writeRow_wf _ _ h)
    · exact ih _ h

theorem landReply_wf {s : State} (p : Packet) (meetsRead : Bool) (h : memWf s.mem = true) : memWf (landReply p meetsRead s).mem = true := by
  have lost (core queue seq : Nat) : memWf (replyLost { s with dev := (s.dev.deliverLong (longHdr p.hdr)).2 } core queue seq).mem = true := by
    rwa [replyLost_mem]
  unfold landReply
  dsimp only
  refine memWf_ite (lost ..) (memWf_ite (lost ..) (memWf_ite ?_ (replyDone_wf _ _ _ _ ?_)))
  all_goals exact landOwn_wf _ _ _ h

theorem sumLand_wf {s : State} (p : Packet) (h : memWf s.mem = true) : memWf (sumLand p s).mem = true :=
  memWf_ite h (inboundPublish_wf _ _ _ _ _ (landRows_wf _ _ _ _ _ h))

theorem sumEmit_wf {s : State} (cl : Nat) (parts : List (Nat × Packet)) (out fmt : Nat) (h : memWf s.mem = true) :
    memWf (sumEmit cl parts out fmt s).mem = true := by
  unfold sumEmit
  split
  · exact h
  · exact memWf_ite (sumLand_wf _ h) h

theorem sumArrive_wf {s : State} (x : TreeHop) (trip : Trip) (h : memWf s.mem = true) : memWf (sumArrive x trip s).mem = true := by
  unfold sumArrive
  dsimp only
  split
  · exact h
  · exact memWf_ite h (memWf_ite h (memWf_ite h (memWf_ite (sumEmit_wf _ _ _ _ h) (memWf_ite h h))))

theorem leafRows_wf {s : State} (core ring : Nat) (l : List RowData) (h : memWf s.mem = true) : memWf (leafRows core ring l s).mem = true := by
  induction l generalizing s with
  | nil => exact h
  | cons r t ih => exact ih (memWf_ite (ringPublish_wf _ _ _ (writeRow_wf _ _ h)) (writeRow_wf _ _ h))

theorem leafLand_wf {s : State} (core ring : Nat) (p : Packet) (h : memWf s.mem = true) : memWf (leafLand core ring p s).2.mem = true := by
  unfold leafLand
  dsimp only
  split
  · exact h
  · split
    · exact leafRows_wf _ _ _ h
    · exact landRows_wf _ _ _ _ _ h

theorem mcastArrive_wf {s : State} (x : TreeHop) (trip : Trip) (h : memWf s.mem = true) : memWf (mcastArrive x trip s).mem = true := by
  refine memWf_ite h (memWf_ite h ?_)
  dsimp only
  split
  · exact h
  · refine memWf_ite h (memWf_foldl (fun _ l hs => leafLand_wf l.1 l.2 x.pkt hs) _ ?_)
    exact memWf_foldl (fun _ _ hs => by rwa [State.onDev_mem]) _ h

theorem shortArrive_wf {s : State} (sop : Nat) (f : Flit) {act : ShortPkt → State → State}
    (hact : ∀ k s, memWf s.mem = true → memWf (act k s).mem = true) (h : memWf s.mem = true) : memWf (shortArrive sop f s act).mem = true :=
  memWf_ite (memWf_ite (hact _ _ h) h) h

theorem shortDeliver_wf {s : State} (k : ShortPkt) {act : State → State} (hact : ∀ s, memWf s.mem = true → memWf (act s).mem = true)
    (h : memWf s.mem = true) : memWf (shortDeliver k s act).mem = true :=
  memWf_ite (memWf_ite h h) (memWf_ite (hact _ h) h)

theorem State.inOrder_wf {s t : State} (f : Flit) (hs : memWf s.mem = true) (ht : memWf t.mem = true) : memWf (s.inOrder f t).mem = true :=
  memWf_ite ht hs

theorem ackCore_wf {s : State} (k : ShortPkt) (h : memWf s.mem = true) : memWf (ackCore k s).mem = true := by
  unfold ackCore
  dsimp only
  repeat' split
  all_goals simp [requestDone_wf, h]

theorem semArrive_wf {s : State} (k : ShortPkt) (h : memWf s.mem = true) : memWf (semArrive k s).mem = true :=
  memWf_ite ((congrArg memWf (semMeet_mem ..)).trans (writeRow_wf _ _ h)) h

theorem atomicAdd_wf {s : State} (p : Packet) (h : memWf s.mem = true) : memWf (atomicAdd p s).mem = true := by
  have read (core : Nat) (l : List Nat) : memWf (readRows core l { s with dev := (s.dev.deliverLong (longHdr p.hdr)).2 }).2.mem = true := by
    rwa [readRows_mem]
  exact memWf_ite h (memWf_ite h (memWf_ite (read ..) (landRows_wf _ _ _ _ _ (read ..))))

end Sys2Proof.Machine
end

section
/-! SUPPORT. The operations of Machine/Fabric and Machine/Scalar leave memory. -/

namespace Sys2Proof.Machine

@[simp] theorem State.word_mem (s : State) (port : Nat) (w : CtrlWord) (type : Nat) (live : Bool) (f : Dev → Dev) :
    (s.word port w type live f).mem = s.mem := by
  unfold State.word
  split <;> rfl

@[simp] theorem sxAlu_mem (core : CoreId) (f : SxFields) (v : CoreSt → DWord) (s : State) :
    (sxAlu core f v s).mem = s.mem := by simp -implicitDefEqProofs [sxAlu]

@[simp] theorem sxLdp_mem (core : CoreId) (f : SxFields) (lost : Nat) (s : State) : (sxLdp core f lost s).mem = s.mem := by
  unfold sxLdp
  dsimp only
  repeat' split
  all_goals simp

@[simp] theorem sxVget_mem (core : CoreId) (f : SxFields) (s : State) : (sxVget core f s).mem = s.mem := by
  unfold sxVget
  dsimp only
  repeat' split
  all_goals simp

end Sys2Proof.Machine
end

section
/-! SUPPORT. The operations of Machine/Vector leave memory, but for a write that lands. -/

namespace Sys2Proof.Machine

@[simp] theorem vxReadOpd_mem (s : State) (core : Nat) (r : VxRun) (which loc row : Nat) : (vxReadOpd s core r which loc row).2.mem = s.mem := by
  unfold vxReadOpd
  dsimp only
  repeat' split
  all_goals simp

@[simp] theorem vxLanes_mem (s : State) (core : Nat) (r : VxRun) (which ct ec : Nat) (o : VxOpd) (i1 i2 i3 k : Nat) :
    (vxLanes s core r which ct ec o i1 i2 i3 k).2.mem = s.mem := by
  unfold vxLanes
  split <;> simp

@[simp] theorem vxFlush_mem (s : State) (core seq : Nat) (r : VxRun) : (vxFlush s core seq r).1.mem = s.mem := by
  unfold vxFlush
  dsimp only
  repeat' split
  all_goals simp

@[simp] theorem vxWrite_mem (s : State) (core seq : Nat) (dst : VxOpd) (w : Nat) (r : VxRun) (loc : WLoc) (row : Nat) (rowOk : Bool)
    (l0 : Nat) (codes : List (Option Nat)) :
    (vxWrite s core seq dst w r loc row rowOk l0 codes).1.mem = s.mem := by
  unfold vxWrite
  dsimp only
  repeat' split
  all_goals simp

@[simp] theorem vxStepOut_mem (s : State) (core : Nat) (x : VxCtx) (r : VxRun) (m i1 i2 i3 k : Nat) (vals : List LRes) :
    (vxStepOut s core x r m i1 i2 i3 k vals).1.mem = s.mem := by
  unfold vxStepOut
  split <;> simp [apply_ite State.mem]

@[simp] theorem vxOperand_mem (s : State) (core : Nat) (x : VxCtx) (r : VxRun) (which : Nat) (use : Bool) (o : VxOpd)
    (m i1 i2 i3 k : Nat) :
    (vxOperand s core x r which use o m i1 i2 i3 k).2.mem = s.mem := by
  unfold vxOperand
  split <;> simp

@[simp] theorem vxBlockScales_mem (s : State) (core : Nat) (x : VxCtx) (r : VxRun) (i1 i2 i3 k : Nat) :
    (vxBlockScales s core x r i1 i2 i3 k).2.mem = s.mem := by
  unfold vxBlockScales
  split <;> simp

@[simp] theorem vxElemStep_mem (core : Nat) (x : VxCtx) (i1 i2 i3 k : Nat) (sr : State × VxRun) :
    (vxElemStep core x i1 i2 i3 k sr).1.mem = sr.1.mem := by
  simp -implicitDefEqProofs [vxElemStep, apply_ite Prod.fst, apply_ite Prod.snd, apply_ite State.mem]

@[simp] theorem vxElemLoop_mem (core : Nat) (x : VxCtx) (n i : Nat) (sr : State × VxRun) : (vxElemLoop core x n i sr).1.mem = sr.1.mem := by
  induction n generalizing i sr with
  | zero => rfl
  | succ n ih =>
    unfold vxElemLoop
    exact (ih _ _).trans (vxElemStep_mem _ _ _ _ _ _ _)

@[simp] theorem vxPutElem_mem (s : State) (core : Nat) (x : VxCtx) (r : VxRun) (ty q : Nat) (code : Option Nat) :
    (vxPutElem s core x r ty q code).1.mem = s.mem := by
  unfold vxPutElem
  split <;> simp

@[simp] theorem vxPutResult_mem (s : State) (core : Nat) (x : VxCtx) (r : VxRun) (q v : Nat) : (vxPutResult s core x r q v).1.mem = s.mem := by
  simp [vxPutResult, apply_ite State.mem]

@[simp] theorem redStep_mem (core : Nat) (x : VxCtx) (i1 i2 i3 k : Nat) (s : State) (r : VxRun) : (redStep core x i1 i2 i3 k s r).2.mem = s.mem := by
  simp [redStep, apply_ite State.mem]

@[simp] theorem redRow_mem (core : Nat) (x : VxCtx) (i1 i2 i3 n k : Nat) (acc : Option Nat) (sr : State × VxRun) :
    (redRow core x i1 i2 i3 n k acc sr).2.1.mem = sr.1.mem := by
  induction n generalizing k acc sr with
  | zero => rfl
  | succ n ih =>
    unfold redRow
    refine (ih _ _ _).trans ?_
    exact State.ite_mem (redStep_mem _ _ _ _ _ _ _ _) (redStep_mem _ _ _ _ _ _ _ _)

@[simp] theorem redLoop_mem (core : Nat) (x : VxCtx) (n q : Nat) (sr : State × VxRun) : (redLoop core x n q sr).1.mem = sr.1.mem := by
  induction n generalizing q sr with
  | zero => rfl
  | succ n ih =>
    unfold redLoop
    exact (ih _ _).trans ((vxPutResult_mem _ _ _ _ _ _).trans (redRow_mem _ _ _ _ _ _ _ _ _))

@[simp] theorem vxPutCode_mem (s : State) (core : Nat) (x : VxCtx) (r : VxRun) (q code clip : Nat) :
    (vxPutCode s core x r q code clip).1.mem = s.mem := by
  simp [vxPutCode, apply_ite State.mem]

theorem foldl_run_mem {α : Type} {f : State × VxRun → α → State × VxRun} (h : ∀ sr x, (f sr x).1.mem = sr.1.mem)
    (l : List α) (sr : State × VxRun) : (l.foldl f sr).1.mem = sr.1.mem := by
  induction l generalizing sr with
  | nil => rfl
  | cons x l ih => rw [List.foldl_cons, ih, h]

@[simp] theorem bscaleStep_mem (core : Nat) (x : VxCtx) (i1 i2 i3 k q0 : Nat) (sr : State × VxRun) :
    (bscaleStep core x i1 i2 i3 k q0 sr).1.mem = sr.1.mem := by
  unfold bscaleStep
  exact (foldl_run_mem (fun _ _ => vxPutCode_mem _ _ _ _ _ _ _) _ _).trans (vxOperand_mem _ _ _ _ _ _ _ _ _ _ _ _)

@[simp] theorem bscaleLoop_mem (core : Nat) (x : VxCtx) (n i : Nat) (sr : State × VxRun) : (bscaleLoop core x n i sr).1.mem = sr.1.mem := by
  induction n generalizing i sr with
  | zero => rfl
  | succ n ih =>
    unfold bscaleLoop
    exact (ih _ _).trans (bscaleStep_mem _ _ _ _ _ _ _ _)

@[simp] theorem vxTailClear_mem (s : State) (core : Nat) (x : VxCtx) (n : Nat) (sr : VxRun) : (vxTailClear s core x n sr).1.mem = s.mem := by
  unfold vxTailClear
  dsimp only
  repeat' split
  all_goals simp

@[simp] theorem vxExec_mem (s : State) (core : Nat) (q : VxOp) : (vxExec s core q).mem = s.mem := by
  unfold vxExec
  dsimp only
  repeat' split
  all_goals simp

@[simp] theorem vxOp_mem (core : CoreId) (op : Nat) (f : VxFields) (lost : Nat) (s : State) : (vxOp core op f lost s).mem = s.mem := by
  simp -implicitDefEqProofs [vxOp, apply_ite State.mem]

theorem landWrite_wf {s : State} (core : Nat) (w : PendW) (h : memWf s.mem = true) : memWf (landWrite s core w).mem = true := by
  unfold landWrite
  split
  · exact writeRow_wf _ _ h
  · exact h
  · exact memWf_ite h h

end Sys2Proof.Machine
end

section
/-! SUPPORT. The operations of Machine/Streams leave memory, or write the slots of pull rings. -/

namespace Sys2Proof.Machine

@[simp] theorem State.pushFetch_mem (sid core : Nat) (rows : List Nat) (fuel k : Nat) (s : State) :
    (s.pushFetch sid core rows fuel k).2.mem = s.mem := by
  induction fuel generalizing k s with
  | zero => rfl
  | succ fuel ih =>
    unfold State.pushFetch
    dsimp only
    repeat' split
    case isFalse.isFalse => exact ih _ _
    all_goals rfl

theorem State.pullFlush_wf {s : State} (sid : Nat) (p : PullRun) (h : memWf s.mem = true) : memWf (s.pullFlush sid p).mem = true := by
  unfold State.pullFlush
  dsimp only
  repeat' split
  all_goals simp [h]

theorem State.zeroSlot_wf {s : State} (p : PullRun) (n : Nat) (h : memWf s.mem = true) : memWf (s.zeroSlot p n).mem = true :=
  memWf_foldl (fun _ _ => writeRow_wf _ _) _ h

theorem State.shardRows_wf {s : State} (sid : Nat) (p : PullRun) (n : Nat) (l : List Byte) (fuel k : Nat) (h : memWf s.mem = true) :
    memWf (s.shardRows sid p n l fuel k).2.mem = true := by
  induction fuel generalizing k s with
  | zero => exact h
  | succ fuel ih =>
    unfold State.shardRows
    dsimp only
    repeat' split
    case isFalse.isFalse => exact ih _ (memWf_foldl (fun _ _ => writeRow_wf _ _) _ h)
    all_goals exact h

theorem State.shardInto_wf {s : State} (sid : Nat) (p : PullRun) (h : memWf s.mem = true) : memWf (s.shardInto sid p).mem = true := by
  unfold State.shardInto
  split
  · dsimp only
    split
    · have written (fuel k0 k n : Nat) (l : List Byte) :
          memWf (State.shardRows sid p n l fuel k (if k0 = 0 then s.zeroSlot p n else s)).2.mem = true :=
        State.shardRows_wf _ _ _ _ _ _ (memWf_ite (State.zeroSlot_wf _ _ h) h)
      refine memWf_ite (written ..) (memWf_ite ?_ ?_)
      all_goals
        simp only [State.onDev_mem]
        exact State.pullFlush_wf _ _ (written ..)
    · exact h
  · exact h

theorem State.zeroInto_wf {s : State} (sid : Nat) (p : PullRun) (h : memWf s.mem = true) : memWf (s.zeroInto sid p).mem = true := by
  unfold State.zeroInto
  split
  · split
    · exact memWf_ite (State.pullFlush_wf _ _ (State.zeroSlot_wf _ _ h)) h
    · exact h
  · exact h

theorem State.pushRead_wf {s : State} (sl : Slice) (seq index core ring : Nat) (h : memWf s.mem = true) :
    memWf (s.pushRead sl seq index core ring).mem = true := by
  unfold State.pushRead
  dsimp only
  repeat' split
  all_goals simp [h]

end Sys2Proof.Machine
end

section
/-! SUPPORT. The operations of Machine/Gates write the rings of pull points. -/

namespace Sys2Proof.Machine

theorem State.skipFrames_wf {s : State} (sl : Slice) (n k : Nat) (h : memWf s.mem = true) : memWf (s.skipFrames sl n k).mem = true :=
  memWf_foldl (fun _ _ => State.pullFlush_wf _ _) _ h

theorem State.frameGate_wf {s : State} (sid g e : Nat) (h : memWf s.mem = true) : memWf (s.frameGate sid g e).mem = true := by
  unfold State.frameGate
  split
  · exact memWf_ite (memWf_ite h (State.skipFrames_wf _ _ _ h)) (memWf_ite h (State.skipFrames_wf _ _ _ h))
  · exact h

theorem State.passGate_wf {s : State} (sl : Slice) (e : Nat) (h : memWf s.mem = true) : memWf (s.passGate sl e).mem = true :=
  memWf_ite (State.frameGate_wf _ _ _ h) (memWf_ite h h)

theorem State.tryPass_wf {s : State} (sid : Nat) (h : memWf s.mem = true) : memWf (s.tryPass sid).mem = true := by
  unfold State.tryPass
  split
  · split
    · exact memWf_ite (State.passGate_wf _ _ h) h
    · exact h
  · exact h

end Sys2Proof.Machine
end

section
/-! SUPPORT. The operations of Machine/Inbox leave memory. -/

namespace Sys2Proof.Machine

@[simp] theorem State.act_mem (i : Instr) (s : State) : (s.act i).mem = s.mem := by
  unfold State.act
  split <;> rfl

@[simp] theorem State.turn_mem (s : State) (id seq : Nat) (m : Held) : (s.turn id seq m).mem = s.mem := by
  unfold State.turn
  split
  · exact State.ite_mem (State.act_mem ..) rfl
  · rfl
  · rfl

@[simp] theorem State.drain_mem (id n : Nat) (s : State) : (s.drain id n).mem = s.mem := by
  induction n generalizing s with
  | zero => rfl
  | succ n ih =>
    unfold State.drain
    split
    · exact (ih _).trans (State.turn_mem ..)
    · rfl

@[simp] theorem State.turns_mem (s : State) (id : Nat) : (s.turns id).mem = s.mem := by
  unfold State.turns
  split <;> simp

@[simp] theorem State.inOrderMsg_mem (s : State) (i : Held) (h : MsgHdr) : (s.inOrderMsg i h).mem = s.mem := by
  unfold State.inOrderMsg
  split
  · exact State.turns_mem ..
  · rfl

@[simp] theorem State.atOnceMsg_mem (s : State) (i : Held) (h : MsgHdr) : (s.atOnceMsg i h).mem = s.mem := by
  unfold State.atOnceMsg
  split
  · exact (State.turns_mem ..).trans (State.turn_mem ..)
  · rfl

@[simp] theorem State.depositMsg_mem (s : State) (i : Instr) (h : MsgHdr) : (s.depositMsg i h).mem = s.mem := by
  unfold State.depositMsg
  split <;> simp

@[simp] theorem State.drainAll_mem (s : State) : (s.drainAll).mem = s.mem := by simp [State.drainAll]

end Sys2Proof.Machine
end

section
/-! SUPPORT. The operations of Machine/Jtag leave memory, but for the write of the row window. -/

namespace Sys2Proof.Machine

@[simp] theorem State.onTap_mem (s : State) (f : State → State) (hf : ∀ s', (f s').mem = s'.mem) : (s.onTap f).mem = s.mem := by
  unfold State.onTap
  split <;> simp [hf]

@[simp] theorem State.jtagResult_mem (s : State) (code v : Nat) : (s.jtagResult code v).mem = s.mem := rfl

@[simp] theorem State.jtagRead_mem (s : State) (b off : Nat) : (s.jtagRead b off).mem = s.mem := by
  simp [State.jtagRead, apply_ite State.mem]

@[simp] theorem State.jtagCommit_mem (s : State) (b t : Nat) : (s.jtagCommit b t).mem = s.mem := by
  simp [State.jtagCommit, apply_ite State.mem]

theorem State.onTap_wf {s : State} {f : State → State} (hf : ∀ s, memWf s.mem = true → memWf (f s).mem = true) (h : memWf s.mem = true) :
    memWf (s.onTap f).mem = true := memWf_ite (hf _ h) h

theorem State.jtagWrite_wf {s : State} (b off v : Nat) (h : memWf s.mem = true) : memWf (s.jtagWrite b off v).mem = true :=
  memWf_ite h (memWf_ite (writeRow_wf _ _ h) h)

end Sys2Proof.Machine
end

section
/-! SUPPORT. The end of scrubs and a launch keep the canonical form (06 R215, R225). -/

namespace Sys2Proof.Machine

theorem scrubbed_wf {m : List Host.Cell} (cls : List Nat) (h : memWf m = true) : memWf (cls.foldl scrubMem m) = true := by
  induction cls generalizing m with
  | nil => exact h
  | cons c cls ih =>
    rw [List.foldl_cons]
    exact ih (scrubMem_wf c h)

theorem launchMem_wf {s : State} (sl : Slice) (h : memWf s.mem = true) : memWf (launchMem s sl).mem = true := (clears_launchMem s sl h).1

end Sys2Proof.Machine
end

section
/-! SUPPORT. How commands end: refused, or complete with memory in canonical form. -/

namespace Sys2Proof.Machine

/-- Whatever state a command ends in, its memory is in canonical form. -/
def EndsWf (r : Res) : Prop := ∀ t, r = .next t → memWf t.mem = true

theorem endsWf_ok {t : State} (h : memWf t.mem = true) : EndsWf (ok t) := fun _ he => Host.Outcome.next.inj he ▸ h

theorem endsWf_same {s t : State} (h : memWf s.mem = true) (ht : t.mem = s.mem) : EndsWf (ok t) := endsWf_ok (ht ▸ h)

theorem endsWf_refused {e : Refusal} : EndsWf (.refused e) := fun _ he => by cases he

theorem endsWf_guard {p : Prop} [Decidable p] {e : Refusal} {r : Res} (h : EndsWf r) : EndsWf (if p then .refused e else r) := by
  split
  exacts [endsWf_refused, h]

end Sys2Proof.Machine
end

section
/-! SUPPORT. Commands that act on what they find, and keep memory in canonical form. -/

namespace Sys2Proof.Machine

variable {s : State} (h : memWf s.mem = true)
include h

/-! ### Cores (03, 04, 06) -/

theorem execMxFeed_wf (core : CoreId) (f : MxFeedFields) : EndsWf (execMxFeed core f s) := by
  refine endsWf_guard ?_
  split
  exacts [endsWf_same h (State.slot_mem _ _ _ fun _ => rfl), endsWf_same h (mxEnqueue_mem ..)]

theorem execMxLoadComplete_wf (core : CoreId) (heldCycles : Nat) : EndsWf (execMxLoadComplete core heldCycles s) := by
  refine endsWf_ok (memWf_ite ?_ h)
  dsimp only
  split
  exacts [memWf_ite (feedTryStart_wf _ h) h, h]

theorem vxMeaning_wf (core : CoreId) (op : Nat) (f : WithLost VxFields) : EndsWf (vxMeaning core op f s) := by
  unfold vxMeaning
  split
  exacts [endsWf_same h (vxOp_mem ..), endsWf_refused]

theorem execVxStart_wf (core : WithLost CoreId) : EndsWf (execVxStart core s) := by
  refine endsWf_ok (memWf_ite ?_ h)
  split
  · rwa [vxExec_mem]
  · exact h

theorem execVxWriteLand_wf (core : CoreId) : EndsWf (execVxWriteLand core s) := by
  refine endsWf_ok ?_
  split
  exacts [landWrite_wf _ _ h, h]

theorem execGxGate_wf (core : CoreId) : EndsWf (execGxGate core s) := by
  refine endsWf_same h (State.gxSlot_mem _ _ _ fun s => ?_)
  split <;> rfl

theorem execGxAcquire_wf (core : CoreId) (sreg : BitVec 5) (soff : BitVec 12) : EndsWf (execGxAcquire core sreg soff s) :=
  endsWf_ok (State.slotOr_wf _ _ _ (fun _ => acquire_wf _ _ _) (fun _ hs => hs) h)

theorem execReleaseQueueRetire_wf (core : CoreId) : EndsWf (execReleaseQueueRetire core s) := by
  refine endsWf_ok ?_
  split
  · exact memWf_ite (retirePublish_wf _ _ h) h
  · exact memWf_ite h (memWf_ite h (by rwa [retireRelease_mem]))
  · exact h

theorem execAcquireSatisfied_wf (core : CoreId) (waited : BitVec 64) : EndsWf (execAcquireSatisfied core waited s) := by
  refine endsWf_ok ?_
  split
  exacts [acquireDone_wf _ _ _ _ h, h]

theorem execAcquireTimeout_wf (core : CoreId) : EndsWf (execAcquireTimeout core s) := by
  refine endsWf_ok ?_
  split
  · rw [State.onDev_mem]
    exact acquireDone_wf _ _ _ _ h
  · exact h

theorem execRowRewriteComplete_wf (core : CoreId) (row : RewrittenRow) : EndsWf (execRowRewriteComplete core row s) := by
  refine endsWf_ok (memWf_ite ?_ h)
  dsimp only
  split
  · split
    · split
      exacts [h, writeRow_wf _ _ h]
    · exact h
  · exact h

/-! ### Queues and rings (05) -/

theorem execDmaCopy_wf (core : CoreId) (q : Fin 4) (n : Nat) (meets : WithLost Bool) : EndsWf (execDmaCopy core q n meets s) := by
  refine endsWf_ok ?_
  split
  exacts [localLoop_wf _ _ _ _ _ (by rwa [dmaLose_mem]), h]

theorem execDmaFill_wf (core : CoreId) (q : Fin 4) (n : Nat) (meets : WithLost Bool) : EndsWf (execDmaFill core q n meets s) := by
  refine endsWf_ok ?_
  split
  exacts [localLoop_wf _ _ _ _ _ (by rwa [dmaLose_mem]), h]

theorem execDmaRead_wf (core : CoreId) (q : Fin 4) (n : RequestTurn) : EndsWf (execDmaRead core q n s) := by
  refine endsWf_ok ?_
  split
  · rwa [chanLate_mem, readLoop_mem]
  · exact h

theorem execDeferredWrite_wf (core : CoreId) : EndsWf (execDeferredWrite core s) := by
  refine endsWf_ok ?_
  split
  · dsimp only
    split
    · split
      exacts [ringPublish_wf _ _ _ (dmaPut_wf _ _ _ h), dmaPut_wf _ _ _ h]
    · split
      · exact memWf_ite (replyDone_wf _ _ _ _ (writeRow_wf _ _ h)) (inboundPublish_wf _ _ _ _ _ (writeRow_wf _ _ h))
      · exact writeRow_wf _ _ h
  · exact h

theorem execRingWaitResolved_wf (core : CoreId) (w : WaitedRing) : EndsWf (execRingWaitResolved core w s) := by
  refine endsWf_ok ?_
  extract_lets queues feed
  have hqueues : memWf queues.mem = true := memWf_foldl (fun _ _ hs => by rwa [clearRingWait_mem]) _ h
  have hfeed : memWf feed.mem = true := memWf_ite (feedResume_wf _ (by rwa [State.onCore_mem])) hqueues
  exact memWf_ite (loadProceed_wf _ _ (by rwa [State.onCore_mem])) hfeed

theorem execRingOverflow_wf (core : CoreId) (q : Fin 4) : EndsWf (execRingOverflow core q s) := by
  refine endsWf_ok ?_
  split <;> exact h

/-! ### Packets (07, 08) -/

theorem execQuotaWindow_wf (src : QuotaSrc) (net : Net) : EndsWf (execQuotaWindow src net s) := by
  refine endsWf_ok ?_
  repeat' split
  all_goals exact h

theorem execPacketReadRequest_wf (x : Request) : EndsWf (execPacketReadRequest x s) := by
  refine endsWf_ok (memWf_ite ?_ h)
  split
  · rwa [serveRead_mem]
  · exact h
  · exact memWf_ite h h

theorem execPacketSumWrite_wf (cl : Cl) (inPort : Fin 12) (p : OnMesh) : EndsWf (execPacketSumWrite cl inPort p s) := by
  refine endsWf_ok (memWf_ite ?_ h)
  split
  exacts [sumArrive_wf _ _ h, h]

theorem execSumTimeout_wf (cl : Cl) (slice : SliceId) (rtag : BitVec 12) : EndsWf (execSumTimeout cl slice rtag s) := by
  refine endsWf_ok ?_
  split
  exacts [sumEmit_wf _ _ _ _ h, h]

theorem execPacketMulticastWrite_wf (cl : Cl) (p : OnMesh) : EndsWf (execPacketMulticastWrite cl p s) := by
  refine endsWf_ok (memWf_ite ?_ h)
  split
  exacts [mcastArrive_wf _ _ h, h]

theorem execPacketAcknowledgement_wf (f : Flit) : EndsWf (execPacketAcknowledgement f s) :=
  endsWf_ok (shortArrive_wf _ _ (fun k _ hs => memWf_ite (shortDeliver_wf k (fun _ => ackCore_wf k) hs) hs) h)

theorem execSemaphoreIncrement_wf (x : OnMeshShort) : EndsWf (execSemaphoreIncrement x s) :=
  endsWf_ok (State.inOrder_wf _ h (shortArrive_wf _ _ (fun k _ => shortDeliver_wf k fun _ => semArrive_wf k) h))

theorem execRingCredit_wf (f : Flit) : EndsWf (execRingCredit f s) :=
  endsWf_ok (State.inOrder_wf _ h (shortArrive_wf _ _ (fun k _ => shortDeliver_wf k fun _ => setRing_wf _ _ _) h))

theorem execN4ShortWrite_wf (f : Flit) : EndsWf (execN4ShortWrite f s) :=
  endsWf_ok (shortArrive_wf _ _ (fun _ _ hs => by rwa [State.onDev_mem]) h)

theorem execHoldoverRelease_wf (f : Flit) : EndsWf (execHoldoverRelease f s) := by
  refine endsWf_ok (State.inOrder_wf _ h (shortArrive_wf _ _ (fun k s hs => ?_) h))
  split
  · refine memWf_ite hs ?_
    simp only [State.onDev_mem]
    exact leafLand_wf _ _ _ hs
  · exact hs

theorem execAlignComplete_wf (port : Port) (skewNs : Nat) : EndsWf (execAlignComplete port skewNs s) := by
  refine endsWf_ok ?_
  split <;> exact h

/-! ### Slices (06, 11, 12) -/

theorem execSliceLaunch_wf (slice : SliceId) : EndsWf (execSliceLaunch slice s) := by
  refine endsWf_ok ?_
  split
  exacts [memWf_ite (launchMem_wf _ h) h, h]

theorem execBarrierComplete_wf (slice : SliceId) : EndsWf (execBarrierComplete slice s) := by
  refine endsWf_ok ?_
  split
  exacts [memWf_ite (State.tryPass_wf _ h) h, h]

theorem execZeroSlotPublish_wf (slice : SliceId) (stream : BitVec 16) : EndsWf (execZeroSlotPublish slice stream s) := by
  refine endsWf_ok ?_
  split
  exacts [memWf_ite (memWf_foldl (fun _ _ => State.zeroInto_wf _ _) _ h) h, h]

theorem execShardWrite_wf (slice : SliceId) (stream : BitVec 16) : EndsWf (execShardWrite slice stream s) := by
  refine endsWf_ok ?_
  split
  exacts [memWf_ite (memWf_foldl (fun _ _ => State.shardInto_wf _ _) _ h) h, h]

theorem execPushSlotRead_wf (slice : SliceId) (stream : BitVec 16) : EndsWf (execPushSlotRead slice stream s) := by
  refine endsWf_ok ?_
  split
  · split
    exacts [memWf_ite (State.pushRead_wf _ _ _ _ _ h) h, h]
  · exact h

theorem execScrubComplete_wf (slice : SliceId) (failing : List (BitVec 32)) : EndsWf (execScrubComplete slice failing s) := by
  unfold execScrubComplete
  extract_lets
  split
  exacts [endsWf_ok h, endsWf_ok (scrubbed_wf _ h)]

/-! ### Messages and management accesses (12, 16) -/

theorem execDebugResponse_wf (via : DebugVia) (scope : BitVec 8) (reserved : BitVec 56) (expiry : BitVec 64) (sig : DebugSig) :
    EndsWf (execDebugResponse via scope reserved expiry sig s) := by
  cases via with
  | jtag => exact endsWf_same h (State.act_mem ..)
  | session hdr => exact endsWf_same h (State.inOrderMsg_mem ..)

theorem execProtocolViolation_wf (hdr : MsgHdr) (k : Violation) : EndsWf (execProtocolViolation hdr k s) := by
  refine endsWf_ok ?_
  dsimp only
  repeat' split
  all_goals simpa -implicitDefEqProofs using h

theorem execJtagMgmtAcc_wf (dr : BitVec 96) : EndsWf (execJtagMgmtAcc dr s) :=
  endsWf_ok (State.onTap_wf (fun s hs => memWf_ite (by rwa [State.jtagCommit_mem])
    (memWf_ite (State.jtagWrite_wf _ _ _ hs) (by rwa [State.jtagRead_mem]))) h)

end Sys2Proof.Machine
end

section
/-! O3. -/

namespace Sys2Proof.Machine

/-- Every command that starts on a memory in canonical form ends in one. A command without an arm of its own here only changes the device. -/
theorem exec_wf (c : Instr) {s : State} (h : memWf s.mem = true) : EndsWf (exec c s) := by
  cases c with
  -- slot operations
  | mxLoad core f => exact endsWf_guard (endsWf_same h (mxEnqueue_mem ..))
  | mxFeed core f => exact execMxFeed_wf h core f
  | sxCmp core f | sxCmpi core f => exact endsWf_guard (endsWf_same h (State.slot_mem _ _ _ fun _ => rfl))
  | sxMovlc core f => exact endsWf_guard (endsWf_same h (sxAlu_mem ..))
  | sxVget core f => exact endsWf_guard (endsWf_same h (State.slotOr_mem _ _ _ _ _ _ (fun _ => sxVget_mem ..) fun _ => rfl))
  | sxLoop core lc last count => exact endsWf_guard (endsWf_same h (State.slot_mem _ _ _ fun _ => rfl))
  | vxAdd core f | vxSub core f | vxMul core f | vxFma core f | vxMin core f | vxMax core f | vxAbs core f | vxDiv core f
  | vxCvt core f | vxFunc core f | vxCmp core f | vxSel core f | vxSplat core f | vxRed core f | vxBscale core f | vxDrain core f =>
    exact vxMeaning_wf h core _ f
  | mxNop core | sxNop core | vxNop core | dxNop core => exact endsWf_same h (State.slot_mem _ _ _ fun _ => rfl)
  | sxAdd core f | sxSub core f | sxAddi core f | sxMul core f | sxAnd core f | sxOr core f | sxXor core f | sxShli core f
  | sxShri core f | sxSari core f | sxMin core f | sxMax core f | sxMovi core f | sxMovhi core f => exact endsWf_same h (sxAlu_mem ..)
  | sxLdp core f => exact endsWf_same h (State.slot_mem _ _ _ fun _ => sxLdp_mem ..)
  | gxNop core | gxKbegin core | gxKend core | gxSettle core eng => exact endsWf_same h (State.gxSlot_mem _ _ _ fun _ => rfl)
  | gxGate core => exact execGxGate_wf h core
  | gxPublish core ring | gxRelease core sreg soff => exact endsWf_same h (State.release_mem ..)
  | gxAcquire core sreg soff => exact execGxAcquire_wf h core sreg soff
  | dxRun core f => exact endsWf_same h (State.slotOr_mem _ _ _ _ _ _ (fun _ => dxRun_mem ..) fun _ => rfl)
  -- what the engines of a core do
  | mxLoadStart core => exact endsWf_ok (memWf_ite (loadTryStart_wf _ h) h)
  | mxFeedStart core => exact endsWf_ok (memWf_ite (feedTryStart_wf _ h) h)
  | mxLoadComplete core heldCycles => exact execMxLoadComplete_wf h core heldCycles
  | vxStart core => exact execVxStart_wf h core
  | vxWriteLand core => exact execVxWriteLand_wf h core
  | releaseQueueRetire core => exact execReleaseQueueRetire_wf h core
  | acquireSatisfied core waited => exact execAcquireSatisfied_wf h core waited
  | acquireTimeout core => exact execAcquireTimeout_wf h core
  | rowRewriteComplete core row => exact execRowRewriteComplete_wf h core row
  | dmaCopy core q n meets => exact execDmaCopy_wf h core q n meets
  | dmaFill core q n meets => exact execDmaFill_wf h core q n meets
  | dmaWrite core q n | dmaSumwrite core q n | dmaMcast core q n => exact endsWf_ok (dmaSend_wf _ _ _ _ h)
  | dmaRead core q n => exact execDmaRead_wf h core q n
  | deferredWrite core => exact execDeferredWrite_wf h core
  | ringWaitResolved core ring => exact execRingWaitResolved_wf h core ring
  | ringUnderflow core ring => exact endsWf_ok (ringUnderflow_wf _ _ h)
  | ringOverflow core q => exact execRingOverflow_wf h core q
  -- packets and control words
  | quotaWindow src net => exact execQuotaWindow_wf h src net
  | packetWrite p meets trip => exact endsWf_ok (memWf_ite (landWritePkt_wf _ _ h) h)
  | packetReadRequest p => exact execPacketReadRequest_wf h p
  | packetReadReply p meets => exact endsWf_ok (memWf_ite (landReply_wf _ _ h) h)
  | packetSumWrite cl inPort p => exact execPacketSumWrite_wf h cl inPort p
  | sumTimeout cl slice rtag => exact execSumTimeout_wf h cl slice rtag
  | packetMulticastWrite cl p => exact execPacketMulticastWrite_wf h cl p
  | packetAcknowledgement f => exact execPacketAcknowledgement_wf h f
  | semaphoreIncrement f => exact execSemaphoreIncrement_wf h f
  | ringCredit f => exact execRingCredit_wf h f
  | n4ShortWrite f => exact execN4ShortWrite_wf h f
  | holdoverRelease f => exact execHoldoverRelease_wf h f
  | atomicAdd p => exact endsWf_ok (memWf_ite (atomicAdd_wf _ h) h)
  | alignComplete port skewNs => exact execAlignComplete_wf h port skewNs
  | timeWord port w t2 t3 => exact endsWf_same h (State.word_mem ..)
  | ackWord port w | laneControlWord port w | creditWord port w => exact endsWf_same h (State.word_mem ..)
  -- slices, their gates, streams and scrubs
  | sliceLaunch slice => exact execSliceLaunch_wf h slice
  | barrierComplete slice => exact execBarrierComplete_wf h slice
  | gateDue slice => exact endsWf_ok (State.tryPass_wf _ h)
  | zeroSlotPublish slice stream => exact execZeroSlotPublish_wf h slice stream
  | shardWrite slice stream => exact execShardWrite_wf h slice stream
  | pushSlotRead slice stream => exact execPushSlotRead_wf h slice stream
  | scrubComplete slice failing => exact execScrubComplete_wf h slice failing
  -- messages and management accesses
  | folioPutBegin hdr _ | folioPutPipe hdr _ _ _ | folioCommit hdr _ _ _ => exact endsWf_same h (State.depositMsg_mem ..)
  | folioPutData hdr key offset crc data => exact endsWf_same h (State.ite_mem (State.act_mem ..) (State.atOnceMsg_mem ..))
  | libraryDelete hdr _ | libraryPin hdr _ | libraryUnpin hdr _ | libraryList hdr _ | sessionClose hdr | sliceStart hdr _ | sliceStop hdr _
  | sliceKill hdr _ | streamOpen hdr _ _ _ _ _ | streamClose hdr _ | mgmtRead hdr _ _ _ | mgmtWrite hdr _ _ _ | mgmtCommit hdr _ _
  | recordStart hdr _ _ | recordStop hdr _ | arm hdr _ _ | disarm hdr _ _ | recordingDelete hdr _ | recordingList hdr | repairReq hdr _ =>
    exact endsWf_same h (State.inOrderMsg_mem ..)
  | stageWinWrite hdr _ _ | attNonceWrite hdr _ _ => exact endsWf_same h (State.ite_mem rfl (State.inOrderMsg_mem ..))
  | debugResponse via scope reserved expiry sig => exact execDebugResponse_wf h via scope reserved expiry sig
  | tellerAck hdr _ _ | ingressData hdr _ => exact endsWf_same h (State.turns_mem ..)
  | protocolViolation hdr k => exact execProtocolViolation_wf h hdr k
  | mcCoreFault _ | handoverResume => exact endsWf_same h (State.drainAll_mem _)
  | jtagMgmtAcc dr => exact execJtagMgmtAcc_wf h dr
  | rowWindowWrite v => exact endsWf_ok (State.onTap_wf (fun _ => State.jtagWrite_wf _ _ _) h)
  | jtagExtest | jtagIdcode | jtagSamplePreload | jtagDbgChal | jtagBypass | tapReset =>
    exact endsWf_same h (State.onTap_mem _ _ fun _ => rfl)
  -- memory is emptied
  | coldReset b => exact endsWf_ok (memWf_ite memWf_nil h)
  -- the device alone changes, and only in some states
  | referenceInvalid | referenceValid | syncTimeout | packetInvalidForm | trainingComplete | trainingTimeout | alignTimeout
  | discoverTimeout | controlFlitTimeout | controlFlitBad | frameReceive | generationBumpDeferred
  | sessionOpen | ledgerFlush => exact endsWf_same h (State.ite_mem (State.onDev_mem ..) rfl)
  | holdWord | discoveryWord => exact endsWf_same h (State.ite_mem rfl (State.onDev_mem ..))
  | useUpdate => exact endsWf_same h (State.onDev_mem ..)
  | _ => exact endsWf_same h rfl

/-- Settles O3: memory changes by whole rows written, by rows cleared at a scrub and by being emptied at a cold reset, and each keeps the form;
every command is made of these, and a step is a command on the rest of the queue or none. -/
theorem memoryStaysCanonical : Obligations.MemoryStaysCanonical := by
  intro s t hstep hs
  cases hqueue : s.pending with
  | nil => exact endsWf_ok hs t ((step_nil hqueue).symm.trans hstep)
  | cons c rest => exact exec_wf c (s := { s with pending := rest }) hs t ((step_cons hqueue).symm.trans hstep)

end Sys2Proof.Machine
end

section
/-! SUPPORT. A whole packet by its bytes: CRC32C taken byte by byte (07 R242). -/

namespace Sys2Proof.Machine

/-- A fold over numbers that reaches each value before it takes the next number, so that its evaluation nests no deeper than one step. -/
def strictFold (f : Nat → Nat → Nat) : List Nat → Nat → Nat
  | [], c => c
  | b :: l, 0 => strictFold f l (f 0 b)
  | b :: l, c + 1 => strictFold f l (f (c + 1) b)

theorem foldl_eq_strictFold (f : Nat → Nat → Nat) (l : List Nat) (c : Nat) : l.foldl f c = strictFold f l c := by
  induction l generalizing c with
  | nil => rfl
  | cons b l ih => cases c <;> exact ih _

theorem crc32c_eq_strictFold (l : List Nat) :
    crc32c l = strictFold (fun c b => crcShift 8 (c ^^^ (b % 256))) l 0xFFFFFFFF ^^^ 0xFFFFFFFF :=
  congrArg (· ^^^ 0xFFFFFFFF) (foldl_eq_strictFold _ _ _)

end Sys2Proof.Machine
end

section
/-! SUPPORT. A reply that lands (07 R246), and a multicast packet whose leaves refuse it (07 R258). -/

namespace Sys2Proof.Machine

/-- A whole reply that arrives in its turn lands. -/
theorem exec_packetReadReply_of_arrives {s : State} {p : Packet} {h : LongHdr} (trip : Trip) (hh : h = longHdr p.hdr) (hc : s.carries p 2 = true)
    (ha : s.arrives (h.dcl * 8 + h.dcore) p = true) (ht : replyTurn (s.dev.core (h.dcl * 8 + h.dcore)) h = true) :
    exec (.packetReadReply ⟨p, trip⟩ false) s = ok (landReply p false (s.onDev fun d => (d.take p).arrived h trip)) := by
  subst hh
  obtain ⟨-, hwhole⟩ := (Bool.and_eq_true _ _).mp hc
  simp only [wholePkt, Bool.and_eq_true] at hwhole
  obtain ⟨⟨⟨hform, hlong⟩, hop⟩, -⟩ := hwhole
  exact congrArg ok (if_pos (by simp only [ha, ht, hform, hlong, hop, Bool.false_and, Bool.not_false, Bool.and_self]))

theorem Dev.deliverLong_of_accepts {d : Dev} {h : LongHdr} (ha : d.accepts h.dcl h.slice h.gen = true) (hw : d.longBlocked h = false) :
    d.deliverLong h = (0, d) := by
  rw [Dev.deliverLong, if_neg (Nat.not_le.mpr (Dev.accepts_iff.mp ha).1), hw, Dev.deliver_of_accepts ha]

/-- A whole reply that its cluster takes writes its rows into its core's memories, and is answered. -/
theorem landReply_of_taken {s : State} {p : Packet} {h : LongHdr} {core : Nat} {rows : List RowData} (hh : h = longHdr p.hdr)
    (hcore : core = h.dcl * 8 + h.dcore) (hrows : rows = flitRows (h.len / 8) p.payload) (hd : s.dev.deliverLong h = (0, s.dev))
    (hok : longOk p = true) : landReply p false s =
      (replyDone ((landOwn core rows h.gra s).2.onCore core fun c => c.movedRows rows.length) core h.squeue h.seq
        !(landOwn core rows h.gra s).1).onDev fun d => d.ack h (if (landOwn core rows h.gra s).1 then 2 else 0) := by
  subst hh hcore hrows
  simp [landReply, hd, hok]

/-- A whole multicast packet arrives at the input of a router where it is the next of its tree. -/
theorem exec_packetMulticastWrite_of_treeAt {s : State} {cl : Cl} {p : Packet} {x : TreeHop} (trip : Trip) (hp : wholePkt p 4 = true)
    (hx : s.treeAt cl none p = some x) : exec (.packetMulticastWrite cl ⟨p, trip⟩) s = ok (mcastArrive x trip s) := by
  obtain ⟨hhead, -⟩ := (Bool.and_eq_true _ _).mp hp
  refine congrArg ok ((if_pos hhead).trans ?_)
  simp only [hx]

/-- Where every leaf of the router's entry refuses its copy, no row is written. -/
theorem mcastArrive_mem_of_shut {s : State} {x : TreeHop} {out leaf : Nat} {rings : List Nat} (trip : Trip)
    (he : treeEntry s.dev x.cl (longHdr x.pkt.hdr).slice (bits (longHdr x.pkt.hdr).oparg 22 18) = some (out, leaf, rings))
    (hshut : ∀ l ∈ leavesOf x.cl leaf rings, leafShut s l.1 l.2 = true) : (mcastArrive x trip s).mem = s.mem := by
  have hdry (ls : List (Nat × Nat)) (hls : ∀ l ∈ ls, l ∈ leavesOf x.cl leaf rings) : ls.filter (fun l => leafShut s l.1 l.2) = ls :=
    List.filter_eq_self.mpr fun l hl => hshut l (hls l hl)
  have hnone (ls : List (Nat × Nat)) : ls.filter (fun l => !ls.contains l) = [] := by
    simp [List.filter_eq_nil_iff]
  simp only [mcastArrive, he]
  rw [hdry _ fun l hl => List.mem_of_mem_filter hl, hnone, List.foldl_nil]
  refine State.ite_mem rfl (State.ite_mem rfl (State.ite_mem rfl ((State.foldl_mem ?_ _ _).trans rfl)))
  intros
  rfl

end Sys2Proof.Machine
end

section
/-! O22. A packet whose SCORE names a mover and that is answered with STATUS 0 marks the packet of a chain with its header as granted, so that
it may go on (09 R321): the vault changes, which the frame of the replies keeps. -/

namespace Sys2Proof.Machine

/-- A reply of one row to core 0 with SCORE 768, the first mover. -/
def moverReply : Packet :=
  ⟨longFlit {
    cls := 1, op := 2, slice := 0, gen := 0, dchip := 0, dcl := 0, dcore := 0, gra := 0, len := 8, seq := 0, oparg := 0, schip := 0, score := 768,
    squeue := 0, gate := 0, sat := 0, nan := 0, reply := 0, crc := 0xDEE536E6 }, rowFlits [0]⟩

theorem longOk_moverReply : longOk moverReply = true := by
  rw [longOk, crcOf, crc32c_eq_strictFold]
  decide +kernel

/-- Cluster 0 is assigned, and that reply is on the mesh; the vault holds it as the packet of a chain, not granted yet. -/
def moverReplyState : State :=
  { State.reset with dev := { State.reset.dev.put (fClState 0) 1 with
      net := { flight := [moverReply] }, vault := { chain := [{ slice := 0, ctab := 0, hop := 0, hops := 1, pkt := moverReply }] } } }

theorem carries_moverReply : moverReplyState.carries moverReply 2 = true := by
  rw [State.carries, wholePkt, longOk_moverReply]
  decide +kernel

/-- Which packets of chains have been granted, in the state that an outcome ends in. -/
def grantedAfter (r : Res) : Option (List Bool) := match r with | .next t => some (t.dev.vault.chain.map fun c => c.granted) | _ => none

/-- The answer to the reply grants the chain's packet. -/
theorem grantedAfter_packetReadReply_moverReplyState :
    grantedAfter (exec (.packetReadReply ⟨moverReply, ⟨0, []⟩⟩ false) moverReplyState) = some [true] := by
  rw [exec_packetReadReply_of_arrives _ rfl carries_moverReply (by decide +kernel) (by decide +kernel),
    landReply_of_taken rfl rfl rfl (Dev.deliverLong_of_accepts (by decide +kernel) (by decide +kernel)) longOk_moverReply]
  decide +kernel

/-- Refutes O22: a reply with the SCORE of a mover grants the chain's packet that equals it, in the vault, which the statement's frame keeps. -/
theorem not_deliveredRowsLand : ¬ Obligations.DeliveredRowsLand := by
  rintro ⟨⟨-, hreply, -⟩, -⟩
  obtain ⟨t, ht, -, -, -, -, -, -, hkeeps, -⟩ := hreply moverReplyState moverReply ⟨0, []⟩ 0 _ rfl (by decide +kernel) rfl carries_moverReply
    (by decide +kernel) (by decide +kernel) (by decide +kernel) (by decide +kernel) (by decide +kernel) (by decide +kernel) (by decide +kernel)
    (by decide +kernel) (by decide +kernel)
  have hvault : t.dev.vault = moverReplyState.dev.vault := hkeeps .vault (by decide)
  have hgranted := grantedAfter_packetReadReply_moverReplyState
  rw [ht, grantedAfter, hvault] at hgranted
  exact absurd hgranted (by decide)

end Sys2Proof.Machine
end

section
/-! O25. A leaf takes no copy while an earlier one for it is held (07 R258; 06 R202), also where its tree entry names no ring: the copy is held
too, and no row is written. Of a leaf without a ring the statement does not ask that no earlier copy is held for it. -/

namespace Sys2Proof.Machine

/-- A multicast packet of tree 0 with one row, not 0, from core 0. -/
def shutOutCopy : Packet :=
  ⟨longFlit {
    cls := 1, op := 4, slice := 0, gen := 0, dchip := 0, dcl := 0, dcore := 0, gra := 0, len := 8, seq := 0, oparg := 0, schip := 0, score := 0,
    squeue := 0, gate := 0, sat := 0, nan := 0, reply := 0, crc := 0x9FE11F1E }, rowFlits [1]⟩

theorem longOk_shutOutCopy : longOk shutOutCopy = true := by
  rw [longOk, crcOf, crc32c_eq_strictFold]
  decide +kernel

theorem wholePkt_shutOutCopy : wholePkt shutOutCopy 4 = true := by
  rw [wholePkt, longOk_shutOutCopy]
  decide +kernel

/-- The packet at an input of cluster 0's router. -/
def shutOutHop : TreeHop := { cl := 0, inPort := 1, pkt := shutOutCopy }

/-- The packet has come to cluster 0, whose leaf core 0 has no ring in the tree; cluster 3 holds an earlier copy for that leaf. -/
def shutOutState : State :=
  { State.reset with dev := { State.reset.dev.put (fClState 0) 1 with
      slices := [{ id := 0, fo := { clusters := [0], nets := [.tree 0 0 0 1 []] } }]
      net := { hops := [shutOutHop], held := [{ cl := 3, port := 4, core := 0, ring := 0xFF, pkt := ⟨0, []⟩ }] } } }

theorem treeAt_shutOutState : shutOutState.treeAt 0 none shutOutCopy = some shutOutHop := by decide +kernel

theorem treeEntry_shutOutState :
    treeEntry shutOutState.dev 0 (longHdr shutOutCopy.hdr).slice (bits (longHdr shutOutCopy.hdr).oparg 22 18) = some (0, 1, []) := by
  decide +kernel

/-- The copy is held, and no row is written. -/
theorem mem_mcastArrive_shutOutState : (mcastArrive shutOutHop ⟨0, []⟩ shutOutState).mem = [] :=
  mcastArrive_mem_of_shut _ treeEntry_shutOutState (by decide +kernel)

/-- Refutes O25: a copy for a leaf without a ring is held behind an earlier copy that is held for that leaf, and its row is not written. -/
theorem not_sumsAndMulticastsComplete : ¬ Obligations.SumsAndMulticastsComplete := by
  rintro ⟨-, -, hleaf, -⟩
  obtain ⟨hrow, -⟩ := hleaf shutOutState 0 shutOutCopy shutOutHop ⟨0, []⟩ _ 0 [] 0 rfl rfl wholePkt_shutOutCopy treeAt_shutOutState rfl
    (by decide +kernel) treeEntry_shutOutState (by decide +kernel) (by decide +kernel) (by decide +kernel) (by decide +kernel)
  obtain ⟨t, ht, -, hwritten, -⟩ := hrow rfl (by decide +kernel) (by decide +kernel) (by decide +kernel)
  rw [exec_packetMulticastWrite_of_treeAt (cl := 0) _ wholePkt_shutOutCopy treeAt_shutOutState] at ht
  obtain rfl : mcastArrive shutOutHop ⟨0, []⟩ shutOutState = t := Host.Outcome.next.inj ht
  rw [mem_mcastArrive_shutOutState] at hwritten
  exact absurd hwritten (by decide +kernel)

end Sys2Proof.Machine
end

section
/-! SUPPORT. Registers that a command keeps, in the state that it ends in. -/

namespace Sys2Proof.Machine

/-- A command that keeps every register but some leaves each other one as it was. -/
theorem KeepsRegs.regAfter {l : List Nat} {s : State} {d : Dev} {c : Instr} (h : KeepsRegs l s.dev d) (hexec : exec c s = .next { s with dev := d })
    {a : Nat} (ha : a ∉ l) : regAfter (exec c s) a = some (s.dev.reg a) := by
  rw [hexec]
  exact congrArg some (h a ha)

end Sys2Proof.Machine
end

section
/-! O32. A port that goes DOWN answers the packets that it held for replay (08 R301), and an answer whose way over the mesh leads through a
failed router is itself dropped and counted in MESH's register at 0x10 (07 R248): a register outside the frame that O32 states. -/

namespace Sys2Proof.Machine

/-- Port 0 is UP with a scheduled frame held for replay, and has heard no control flit for 1 µs; the routers of clusters 0 to 31 have failed. -/
def silentState : State := { lostState with dev := { lostState.dev with time := { lostState.dev.time with ticks := 1000 } } }

/-- The answer to the lost frame's packet is dropped at a failed router, and counted. -/
theorem regAfter_controlFlitTimeout_silentState : regAfter (exec (.controlFlitTimeout 0) silentState) (regAddr 7 0x10) = some 1 := by
  decide +kernel

/-- Refutes O32: a port that goes DOWN with a frame held for replay can count the answer to its packet as unreachable, in a register of block 7
that the statement's frame leaves out. -/
theorem not_lostPortsHoldAndLanesSwitch : ¬ Obligations.LostPortsHoldAndLanesSwitch := by
  rintro ⟨⟨htimeout, -⟩, -⟩
  obtain ⟨d, hd, -, -, -, -, -, -, -, -, hregs⟩ := htimeout silentState 0 (by decide +kernel) (by decide +kernel)
  have hkept := hregs.regAfter hd (a := regAddr 7 0x10) (by decide)
  rw [regAfter_controlFlitTimeout_silentState] at hkept
  exact absurd hkept (by decide +kernel)

end Sys2Proof.Machine
end

section
/-! O33. A frame in a slot that is not its owner's is discarded, and its long packet answered (08 R295); an answer whose way over the mesh leads
through a failed router is itself dropped and counted in MESH's register at 0x10 (07 R248): a register outside the frame that O33 states. -/

namespace Sys2Proof.Machine

/-- The packet of the lost frame, in a frame of slice 0 in slot 0, which no table gives to it. -/
def strayFrame : Frame :=
  mkFrame { ltype := 1, lclass := 0, net := 0, dline := 0, owner := 0, lseq := 0, body := 1, slot := 0, sendUs := 0 } lostFrame.fr.body

theorem expects_strayFrame : lostState.dev.expects 0 strayFrame = true := by decide +kernel

/-- The answer to the stray frame's packet is dropped at a failed router, and counted. -/
theorem regAfter_frameReceive_strayFrame : regAfter (exec (.frameReceive 0 ⟨strayFrame, 0⟩) lostState) (regAddr 7 0x10) = some 1 := by
  decide +kernel

/-- Refutes O33: the answer to a packet whose frame is discarded can be counted as unreachable, in a register of block 7 that the statement's
frame leaves out. -/
theorem not_framesCarryPackets : ¬ Obligations.FramesCarryPackets := by
  rintro ⟨⟨-, -, hstray, -⟩, -⟩
  obtain ⟨d, hd, -, -, -, -, hregs⟩ := hstray lostState 0 strayFrame 0 _ rfl expects_strayFrame (by decide +kernel)
  have hkept := hregs.regAfter hd (a := regAddr 7 0x10) (by decide)
  rw [regAfter_frameReceive_strayFrame] at hkept
  exact absurd hkept (by decide +kernel)

end Sys2Proof.Machine
end

section
/-! O31. A port that comes UP with SCHED_OK taken away drops the scheduled frames that it still holds (08 R291, R301), and an answer to their
packets whose way over the mesh leads through a failed router is counted in MESH's register at 0x10 (07 R248): a register outside the frame
that O31 states, which asks nothing of SCHED_OK and of the replay buffer in DISCOVER. -/

namespace Sys2Proof.Machine

/-- Port 0, enabled and planned to the device at z = 1, is in DISCOVER with SCHED_OK = 1 and the lost frame held for replay; the
routers of clusters 0 to 31 have failed. -/
def metState : State :=
  { lostState with dev := { ((lostState.dev.setReg (portReg 0) 0x60800000).setReg (regAddr 8 8) 1) with
      fab := { lostState.dev.fab with plan := [(0, ⟨1, 0, 0⟩)] } } }

/-- A discovery word by its number and its other bits. -/
def metWord (k rest : Nat) : CtrlWord := BitVec.ofNat 128 ((24 + k) <<< 122 + rest)
/-- The second word of that device's port 0. -/
def metWord1 : CtrlWord := metWord 1 (1 <<< 104 + 1 <<< 77)

theorem discWhy_metState : metState.dev.discWhy 0 (metWord 0 0) metWord1 (metWord 2 0) = none := by decide +kernel

/-- The answer to the dropped frame's packet is dropped at a failed router, and counted. -/
theorem regAfter_discoveryWord_metState :
    regAfter (exec (.discoveryWord 0 (metWord 0 0) metWord1 (metWord 2 0)) metState) (regAddr 7 0x10) = some 1 := by
  decide +kernel

/-- Refutes O31: a port that comes UP without the scheduled class can count the answer to a packet that it held as unreachable, in a register of
block 7 that the statement's frame leaves out. -/
theorem not_portsTrainAndComeUp : ¬ Obligations.PortsTrainAndComeUp := by
  rintro ⟨-, hwords, -⟩
  obtain ⟨hup, -⟩ := hwords metState 0 (metWord 0 0) metWord1 (metWord 2 0) (by decide +kernel) (by decide +kernel) (by decide +kernel)
    (by decide +kernel) (by decide +kernel)
  obtain ⟨d, hd, -, -, -, -, -, -, -, -, -, -, hregs⟩ := hup discWhy_metState
  have hkept := hregs.regAfter hd (a := regAddr 7 0x10) (by decide)
  rw [regAfter_discoveryWord_metState] at hkept
  exact absurd hkept (by decide +kernel)

end Sys2Proof.Machine
end

section
/-! O34. Of frames that are sent again, each takes slots behind those of the one before, and one that will be too old at its first slot is
discarded and counted in FAB's register at 0x20 (08 R282, R296): a register outside the frame that O34 states. The statement asks that no other
frame of the key waits, which lets the frame itself stand in the replay buffer twice, and bounds the age of the first alone. -/

namespace Sys2Proof.Machine

/-- A management frame of one short packet, sent from slot 0 on. -/
def agedFrame : SentFrame where
  fr := mkFrame { ltype := 2, lclass := 2, net := 0, dline := 0, owner := 0, lseq := 0, body := 1, slot := 0, sendUs := 0 } [0]
  first := 0
  last := 200

/-- Port 0 is UP and holds that frame twice for replay, 0.03 µs before it is 5 ms old. -/
def agedState : State :=
  { State.reset with dev := { (State.reset.dev.setReg (portReg 0) 0x80000000).updPort 0 (fun x => { x with replay := [agedFrame, agedFrame] }) with
      time := { State.reset.dev.time with ec := 5000160 } } }

/-- The frame takes its next slot, at which it is not yet too old; the same frame behind it is, and is counted. -/
theorem regAfter_replayTimeout_agedState : regAfter (exec (.replayTimeout 0 0 2 .req) agedState) (regAddr 8 0x20) = some 1 := by
  decide +kernel

theorem slotAfter_agedState : slotAfter (slotsOf (agedState.dev.entries true 0) (leadHdr agedFrame.fr.lead).use)
    (agedState.dev.freeFrom 0 (fun g => g == agedFrame) (leadHdr agedFrame.fr.lead).use) 0 = some 15625500 := by
  decide +kernel

/-- Refutes O34: of two copies of a frame sent again the second can be discarded for its age and counted, in a register that the statement's frame
leaves out. -/
theorem not_linksKeepTheirWordsAndQuotas : ¬ Obligations.LinksKeepTheirWordsAndQuotas := by
  rintro ⟨⟨-, htimeout, -⟩, -⟩
  obtain ⟨d, hd, -, -, -, -, hregs⟩ := htimeout agedState 0 0 2 .req agedFrame 15625500 (by decide +kernel) (by decide +kernel)
    (by decide +kernel) (by decide +kernel) (by decide +kernel) (by decide +kernel) slotAfter_agedState (by decide +kernel) (by decide +kernel)
  have hkept := hregs.regAfter hd (a := regAddr 8 0x20) (by decide)
  rw [regAfter_replayTimeout_agedState] at hkept
  exact absurd hkept (by decide +kernel)

end Sys2Proof.Machine
end

section
/-! SUPPORT. Short control packets as routers make them: fields and CRC32C (07 R243, Table 7.5), and the acknowledgement of a long packet (R244). -/

namespace Sys2Proof.Machine

/-! ### Fields -/

/-- The fields of a short packet as wide as the flit holds them (07 Table 7.5). -/
def ShortPkt.fit (k : ShortPkt) : ShortPkt :=
  { sop := k.sop % 16, slice := k.slice % 4096, gen := k.gen % 256, dchip := k.dchip % 4096, dcl := k.dcl % 128, dcore := k.dcore % 8,
    arg0 := k.arg0 % 2 ^ 32, schip := k.schip % 4096, score := k.score % 1024, arg1 := k.arg1 % 2 ^ 26 }

/-- The fields of a short packet that its CRC covers, lowest first (07 Table 7.5). -/
def ShortPkt.covered (k : ShortPkt) : List (Nat × Nat) :=
  [(26, k.arg1), (10, k.score), (12, k.schip), (32, k.arg0), (3, k.dcore), (7, k.dcl), (12, k.dchip), (8, k.gen), (12, k.slice), (4, k.sop),
    (2, 1), (96, 0)]

theorem shortFlit_toNat (k : ShortPkt) : (shortFlit k).toNat = pack (k.covered ++ [(32, crc32c (toLe 28 (pack k.covered)))]) := by
  have hcovered : 1 <<< 126 + (k.sop % 16) <<< 122 + (k.slice % 4096) <<< 110 + (k.gen % 256) <<< 102 + (k.dchip % 4096) <<< 90 +
      (k.dcl % 128) <<< 83 + (k.dcore % 8) <<< 80 + (k.arg0 % 2 ^ 32) <<< 48 + (k.schip % 4096) <<< 36 + (k.score % 1024) <<< 26 +
      k.arg1 % 2 ^ 26 = pack k.covered := by
    simp only [ShortPkt.covered, pack, Nat.shiftLeft_eq]
    omega
  simp only [shortFlit]
  rw [hcovered]
  have hcrc := crc32c_lt (toLe 28 (pack k.covered))
  generalize crc32c (toLe 28 (pack k.covered)) = c at hcrc
  rw [BitVec.toNat_ofNat]
  simp only [ShortPkt.covered, pack, List.cons_append, List.nil_append, Nat.shiftLeft_eq]
  omega

/-- A short packet reads back, each field as wide as the flit holds it. -/
theorem shortPkt_shortFlit (k : ShortPkt) : shortPkt (shortFlit k) = k.fit := by
  simp [shortPkt, shortFlit_toNat, ShortPkt.covered, ShortPkt.fit, bits_pack_head, bits_pack_tail]

theorem pktForm_shortFlit (k : ShortPkt) : pktForm ⟨shortFlit k, []⟩ = 1 := by
  simp [pktForm, shortFlit_toNat, ShortPkt.covered, bits_pack_head, bits_pack_tail]

/-- A short packet as a router makes it is whole (R243). -/
theorem shortCrcOk_shortFlit (k : ShortPkt) : shortCrcOk (shortFlit k) = true := by
  have hwidth : (k.covered.map Prod.fst).sum = 224 := by simp [ShortPkt.covered]
  have hlow : (shortFlit k).toNat % 2 ^ 224 = pack k.covered % 2 ^ 224 := by
    rw [shortFlit_toNat, ← hwidth, pack_append_mod]
  have hcrc : bits (shortFlit k).toNat 255 224 = crc32c (toLe 28 (pack k.covered)) := by
    simpa [shortFlit_toNat, ShortPkt.covered, bits_pack_head, bits_pack_tail] using crc32c_lt _
  rw [shortCrcOk, hcrc, hlow, show (2 : Nat) ^ 224 = 256 ^ 28 by norm_num, toLe_mod, beq_self_eq_true]

theorem longHdr_fit (f : Flit) : (longHdr f).fit = longHdr f := by
  simp [longHdr, LongHdr.fit, bits]

end Sys2Proof.Machine
end

section
/-! SUPPORT. The state that decides the way of a packet over the mesh (07 R247, R248), and an answer whose way is open (R244). -/

namespace Sys2Proof.Machine

/-! ### Ways over the mesh -/

/-- The registers that decide a way: the failed routers, the device's coordinate, the fences of the halves. -/
def wayRegs : List Nat := [regAddr 7 0, regAddr 7 4, regAddr 7 8, regAddr 8 0, regAddr 11 0]

/-- Two devices lead packets the same ways. -/
structure SameWays (d e : Dev) : Prop where
  regs : ∀ a ∈ wayRegs, e.reg a = d.reg a
  around : e.net.around = d.net.around

namespace SameWays

variable {d e k : Dev}

theorem trans (h : SameWays d e) (hk : SameWays e k) : SameWays d k :=
  ⟨fun a ha => (hk.regs a ha).trans (h.regs a ha), hk.around.trans h.around⟩

theorem of_keepsRegs {l : List Nat} (h : KeepsRegs l d e) (hl : ∀ a ∈ wayRegs, a ∉ l) (hn : e.net.around = d.net.around) : SameWays d e :=
  ⟨fun a ha => h a (hl a ha), hn⟩

theorem coord (h : SameWays d e) : e.coord = d.coord := by
  rw [Dev.coord, Dev.coord, h.regs (regAddr 8 0) (by decide)]

theorem fenced (h : SameWays d e) (half : Nat) : e.fenced half = d.fenced half := by
  rw [Dev.fenced, Dev.fenced, h.regs (regAddr 11 0) (by decide)]

theorem routerFailed (h : SameWays d e) {cl : Nat} (hcl : cl < 72) : e.routerFailed cl = d.routerFailed cl := by
  obtain hrow | hrow | hrow : cl / 32 = 0 ∨ cl / 32 = 1 ∨ cl / 32 = 2 := by omega
  all_goals rw [Dev.routerFailed, Dev.routerFailed, hrow, h.regs _ (by decide)]

theorem failedRouters (h : SameWays d e) : e.failedRouters = d.failedRouters := by
  rw [Dev.failedRouters, Dev.failedRouters, h.regs (regAddr 7 0) (by decide), h.regs (regAddr 7 4) (by decide), h.regs (regAddr 7 8) (by decide),
    List.filter_congr fun c hc => h.routerFailed (List.mem_range.mp hc)]

theorem meshPath (h : SameWays d e) (a b : Nat) : e.meshPath a b = d.meshPath a b := by
  simp only [Dev.meshPath, Dev.avoided, h.around, h.fenced]

theorem blocked (h : SameWays d e) (a b : Nat) : e.blocked a b = d.blocked a b := by
  rw [Dev.blocked, Dev.blocked, h.failedRouters, h.meshPath]

theorem entryCl (h : SameWays d e) (schip score dcl : Nat) : e.entryCl schip score dcl = d.entryCl schip score dcl := by
  rw [Dev.entryCl, Dev.entryCl, h.coord]

/-- The way of a slice channel is that of its slice's folio. -/
theorem longBlocked (h : SameWays d e) (hs : e.slices = d.slices) (x : LongHdr) : e.longBlocked x = d.longBlocked x := by
  have hslice : e.slice? x.slice = d.slice? x.slice := by rw [Dev.slice?, Dev.slice?, hs]
  simp only [Dev.longBlocked, h.failedRouters, hslice, h.entryCl, h.blocked]

theorem openWay (h : SameWays d e) (hs : e.slices = d.slices) (x : LongHdr) : e.openWay x = d.openWay x := by
  rw [Dev.openWay, Dev.openWay, h.longBlocked hs, h.blocked]

end SameWays

theorem Dev.openWay_iff {d : Dev} {h : LongHdr} :
    d.openWay h = true ↔ d.longBlocked h = false ∧ d.blocked h.dcl ((idCl h.score).getD h.dcl) = false := by
  simp [Dev.openWay]

/-! ### Sending -/

theorem Dev.send_home {d : Dev} {p : Packet} (h : pktChip p = d.coord) : d.send p = { d with net := { d.net with flight := d.net.flight ++ [p] } } :=
  if_pos h

/-- A short packet without a source that a router sends to a core of this device, over an open way, is put onto the mesh. -/
theorem Dev.sendFrom_home {d : Dev} {src : Nat} {k : ShortPkt} (hchip : k.fit.dchip = d.coord)
    (hopen : d.blocked src ((idCl (k.fit.dcl * 8 + k.fit.dcore)).getD src) = false) :
    d.sendFrom src ⟨shortFlit k, []⟩ = { d with net := { d.net with flight := d.net.flight ++ [⟨shortFlit k, []⟩] } } := by
  have hdest : pktChip ⟨shortFlit k, []⟩ = d.coord := by rw [pktChip, if_pos (pktForm_shortFlit k), shortPkt_shortFlit, hchip]
  rw [Dev.sendFrom, if_pos hdest]
  simp only [shortPkt_shortFlit, hopen, Bool.false_eq_true, and_false, if_false]
  exact Dev.send_home hdest

/-! ### The answer to a long packet -/

/-- The fields of an acknowledgement (R244). -/
def Dev.ackFields (d : Dev) (h : LongHdr) (status : Nat) : ShortPkt :=
  { sop := 0, slice := h.slice, gen := d.genFor h.slice h.schip (h.score / 8), dchip := h.schip, dcl := h.score / 8,
    dcore := h.score % 8, arg0 := h.seq <<< 16 + status <<< 8, schip := d.coord, score := 0x3FF, arg1 := h.gate <<< 10 }

theorem Dev.ackPkt_eq (d : Dev) (h : LongHdr) (status : Nat) : d.ackPkt h status = ⟨shortFlit (d.ackFields h status), []⟩ := rfl

/-- The fields of a long header fit into its acknowledgement. -/
theorem isAck_ackPkt (d : Dev) {h : LongHdr} {status : Nat} (hfit : h.fit = h) (hst : status < 256) : isAck (d.ackPkt h status) h status := by
  have hslice : h.slice % 4096 = h.slice := congrArg LongHdr.slice hfit
  have hschip : h.schip % 4096 = h.schip := congrArg LongHdr.schip hfit
  have hscore : h.score % 1024 = h.score := congrArg LongHdr.score hfit
  have hseq : h.seq % 65536 = h.seq := congrArg LongHdr.seq hfit
  have hgate : h.gate % 65536 = h.gate := congrArg LongHdr.gate hfit
  rw [Dev.ackPkt_eq]
  refine ⟨rfl, pktForm_shortFlit _, ?_, ?_, ?_, ?_, ?_, ?_, ?_, shortCrcOk_shortFlit _⟩ <;>
    simp only [shortPkt_shortFlit, ShortPkt.fit, Dev.ackFields, bits, Nat.shiftLeft_eq, Nat.shiftRight_eq_div_pow] <;> omega

/-- An acknowledgement is for the core or mover that sent the packet. -/
theorem Dev.ackFields_dest (d : Dev) {h : LongHdr} (status : Nat) (hfit : h.fit = h) :
    (d.ackFields h status).fit.dchip = h.schip ∧ (d.ackFields h status).fit.dcl * 8 + (d.ackFields h status).fit.dcore = h.score := by
  have hscore : h.score % 1024 = h.score := congrArg LongHdr.score hfit
  refine ⟨congrArg LongHdr.schip hfit, ?_⟩
  simp only [Dev.ackFields, ShortPkt.fit]
  omega

/-- The answer to a packet of this device, over an open way, is put onto the mesh. -/
theorem Dev.sendFrom_ackPkt {d : Dev} {h : LongHdr} (status : Nat) (hfit : h.fit = h) (hchip : h.schip = d.coord)
    (hopen : d.blocked h.dcl ((idCl h.score).getD h.dcl) = false) :
    d.send (d.ackPkt h status) = { d with net := { d.net with flight := d.net.flight ++ [d.ackPkt h status] } } ∧
      d.sendFrom h.dcl (d.ackPkt h status) = { d with net := { d.net with flight := d.net.flight ++ [d.ackPkt h status] } } := by
  obtain ⟨hdest, hcore⟩ := d.ackFields_dest status hfit
  have hhome : (d.ackFields h status).fit.dchip = d.coord := hdest.trans hchip
  refine ⟨Dev.send_home ?_, Dev.sendFrom_home (k := d.ackFields h status) hhome (by rw [hcore, hopen])⟩
  rw [d.ackPkt_eq, pktChip, if_pos (pktForm_shortFlit _), shortPkt_shortFlit, hhome]

theorem Dev.oweRows_eq (d : Dev) (h : LongHdr) (n : Nat) : ∃ sls, d.oweRows h n = { d with slices := sls } := by
  unfold Dev.oweRows
  split
  · exact ⟨_, rfl⟩
  · exact ⟨d.slices, rfl⟩

/-- Only STATUS 0 grants a chain's packet. -/
theorem Dev.chainGrant_of_ne (d : Dev) (h : LongHdr) {status : Nat} (hst : status ≠ 0) : d.chainGrant h status = d := if_neg fun hc => hst hc.1

/-- A long packet of this device with a nonzero STATUS, whose answer's way is open, is answered on the mesh; its rows' credit returns. -/
theorem Dev.ack_home {d : Dev} {h : LongHdr} {status : Nat} (hfit : h.fit = h) (hst : status ≠ 0) (hlt : status < 256) (hchip : h.schip = d.coord)
    (hopen : d.blocked h.dcl ((idCl h.score).getD h.dcl) = false) :
    ∃ a sls, isAck a h status ∧ d.ack h status = { d with slices := sls, net := { d.net with flight := d.net.flight ++ [a] } } := by
  obtain ⟨sls, howed⟩ := d.oweRows_eq h (h.len / 8)
  obtain ⟨hsend, hsendFrom⟩ := Dev.sendFrom_ackPkt (d := { d with slices := sls }) status hfit hchip hopen
  refine ⟨_, sls, isAck_ackPkt { d with slices := sls } hfit hlt, ?_⟩
  simp only [Dev.ack, Dev.ackRows, howed, Dev.chainGrant_of_ne _ _ hst, hsend, hsendFrom, ite_self]

end Sys2Proof.Machine
end

section
/-! SUPPORT. A long packet that arrives leaves the mesh, and its transit is measured (07 R239; 11 R368); where its cluster is not its slice's and
generation's, it writes nothing, is counted and answered (08 R297, Table 8.13). -/

namespace Sys2Proof.Machine

/-! ### Arrival -/

theorem Dev.keeps_crossLate (d : Dev) (h : LongHdr) (late : List (Fin 24)) : Keeps [.sessions] d (d.crossLate h late) := by
  have hevents (xs : List (Fin 24)) (e : Dev) : Keeps [.sessions] e (xs.foldl (fun d r => d.event 11 7 [r.val]) e) := by
    induction xs generalizing e with
    | nil => exact .refl _ e
    | cons r xs ih => exact (Dev.keeps_event e 11 7 [r.val] (by decide)).trans (ih _)
  exact .ite (((d.keeps_bump _ _ _).trans (Dev.keeps_bumpWrap _ _ _ _)).trans (hevents _ _)) (.refl _ d)

theorem Dev.keepsRegs_crossLate (d : Dev) (h : LongHdr) (late : List (Fin 24)) : KeepsRegs arriveRegs d (d.crossLate h late) := by
  have hevents (xs : List (Fin 24)) (e : Dev) : KeepsRegs arriveRegs e (xs.foldl (fun d r => d.event 11 7 [r.val]) e) := by
    induction xs generalizing e with
    | nil => exact .refl _ e
    | cons r xs ih => exact (Dev.keepsRegs_event e 7 [r.val] (by decide)).trans (ih _)
  exact .ite (((d.keepsRegs_bump _ (by decide)).trans (Dev.keepsRegs_bumpWrap _ _ (by decide))).trans (hevents _ _)) (.refl _ d)

theorem Dev.keeps_arrived (d : Dev) (h : LongHdr) (trip : Trip) : Keeps [.sessions] d (d.arrived h trip) :=
  (Keeps.ite (d.keeps_measured _ _ _ _ _) (.refl _ d)).trans (Dev.keeps_crossLate _ h _)

theorem Dev.keepsRegs_arrived (d : Dev) (h : LongHdr) (trip : Trip) : KeepsRegs arriveRegs d (d.arrived h trip) :=
  (KeepsRegs.ite (d.keepsRegs_measured _ _ _ _ _) (.refl _ d)).trans (Dev.keepsRegs_crossLate _ h _)

/-- A packet has left the mesh; beside that, the network's records that decide no way and what an arrival counts may differ. -/
structure LeftMesh (s d : Dev) (p : Packet) : Prop where
  keeps : Keeps [.net, .sessions] s d
  regs : KeepsRegs arriveRegs s d
  flight : d.net.flight = s.without p
  around : d.net.around = s.net.around

namespace LeftMesh

variable {s d : Dev} {p : Packet}

theorem take (s : Dev) (p : Packet) : LeftMesh s (s.take p) p :=
  ⟨(s.keeps_take p).weaken (by decide), s.keepsRegs_take _ p, rfl, rfl⟩

theorem of_keeps {e : Dev} (h : LeftMesh s d p) (hk : Keeps [.sessions] d e) (hr : KeepsRegs arriveRegs d e) : LeftMesh s e p := by
  have hnet : e.net = d.net := hk .net (by decide)
  exact ⟨h.keeps.trans (hk.weaken (by decide)), h.regs.trans hr, hnet ▸ h.flight, hnet ▸ h.around⟩

theorem arrived (h : LeftMesh s d p) (x : LongHdr) (trip : Trip) : LeftMesh s (d.arrived x trip) p :=
  h.of_keeps (d.keeps_arrived x trip) (d.keepsRegs_arrived x trip)

theorem deferred (h : LeftMesh s d p) (cls late : Nat) : LeftMesh s (d.deferred cls late) p :=
  h.of_keeps (.ite (d.keeps_bumpWrap _ _ _) (.refl _ d)) (.ite (d.keepsRegs_bumpWrap _ (by decide)) (.refl _ d))

theorem setNet (h : LeftMesh s d p) {n : NetSt} (hf : n.flight = d.net.flight) (ha : n.around = d.net.around) :
    LeftMesh s { d with net := n } p :=
  ⟨h.keeps.trans (d.keeps_setNet n (by decide)), h.regs, hf.trans h.flight, ha.trans h.around⟩

theorem sameWays (h : LeftMesh s d p) : SameWays s d := .of_keepsRegs h.regs (by decide) h.around

end LeftMesh

/-! ### Refusal -/

theorem Dev.keeps_setCores {l : List Component} (d : Dev) (cs : List (Nat × CoreSt)) (h : .cores ∈ l) : Keeps l d { d with cores := cs } :=
  fun p hp => by cases p <;> first | rfl | exact absurd h hp | exact ⟨rfl, rfl, rfl⟩

theorem Dev.keeps_setSlices {l : List Component} (d : Dev) (sls : List Slice) (h : .slices ∈ l) : Keeps l d { d with slices := sls } :=
  fun p hp => by cases p <;> first | rfl | exact absurd h hp | exact ⟨rfl, rfl, rfl⟩

/-- A packet from this device reaches a cluster that stands and is not assigned to its slice under its generation; its way there and the way of
its answer are open. -/
structure Dev.Misdirects (d : Dev) (h : LongHdr) : Prop where
  chip : h.schip = d.coord
  way : d.openWay h = true
  cluster : h.dcl < 72
  fence : d.fenced (clHalf h.dcl) = false
  router : d.routerFailed h.dcl = false
  assigned : d.fld (fClState h.dcl) ≠ 3
  other : ¬(d.fld (fClState h.dcl) = 1 ∧ d.fld (fClSlice h.dcl) = h.slice ∧ d.fld (fClGen h.dcl) = h.gen)

/-- Such a packet is counted, and its STATUS is 3. -/
theorem Dev.Misdirects.deliverLong {d : Dev} {h : LongHdr} (hm : d.Misdirects h) : d.deliverLong h = (3, d.bump (regAddr 8 0x14) 1) := by
  rw [Dev.deliverLong, if_neg (Nat.not_le.mpr hm.cluster), (Dev.openWay_iff.mp hm.way).1]
  simp only [Dev.deliver, hm.fence, hm.router, hm.assigned, if_neg hm.other, Bool.false_eq_true, or_self, if_false]

theorem LeftMesh.misdirects {s d : Dev} {p : Packet} {h : LongHdr} (hl : LeftMesh s d p) (hm : s.Misdirects h) : d.Misdirects h := by
  have hways := hl.sameWays
  have hcluster := clReg_notMem_arriveRegs hm.cluster
  have hstate := hl.regs.fld (f := fClState h.dcl) hcluster
  refine ⟨hm.chip.trans hways.coord.symm, (hways.openWay (hl.keeps .slices (by decide)) h).trans hm.way, hm.cluster,
    (hways.fenced _).trans hm.fence, (hways.routerFailed hm.cluster).trans hm.router, hstate ▸ hm.assigned, ?_⟩
  rw [hstate, hl.regs.fld (f := fClSlice h.dcl) hcluster, hl.regs.fld (f := fClGen h.dcl) hcluster]
  exact hm.other

/-- The registers of an arrival that is refused. -/
def refuseRegs : List Nat := regAddr 8 0x14 :: arriveRegs

/-- A packet has left the mesh and been counted as misdelivered, and is to be answered; of the cores, a read that it would have answered may be
marked as lost. -/
structure Refused (s d : Dev) (p : Packet) : Prop where
  keeps : Keeps [.net, .cores, .sessions] s d
  regs : KeepsRegs refuseRegs s d
  count : d.reg (regAddr 8 0x14) = satAdd 32 (s.reg (regAddr 8 0x14)) 1
  flight : d.net.flight = s.without p
  around : d.net.around = s.net.around

theorem Dev.reg_bump_same (d : Dev) (a n : Nat) : (d.bump a n).reg a = satAdd 32 (d.reg a) n := by
  rw [Dev.bump, Dev.reg_setReg_same, Nat.mod_eq_of_lt (satAdd_lt _ _ _)]

theorem LeftMesh.refused {s d : Dev} {p : Packet} (h : LeftMesh s d p) : Refused s (d.bump (regAddr 8 0x14) 1) p where
  keeps := (h.keeps.trans (d.keeps_bump _ _ _)).weaken (by decide)
  regs := (h.regs.weaken fun _ => List.mem_cons_of_mem _).trans (d.keepsRegs_bump _ List.mem_cons_self)
  count := by rw [Dev.reg_bump_same, h.regs _ (by decide)]
  flight := h.flight
  around := h.around

namespace Refused

variable {s d : Dev} {p : Packet}

theorem setCores (h : Refused s d p) (cs : List (Nat × CoreSt)) : Refused s { d with cores := cs } p :=
  ⟨h.keeps.trans (d.keeps_setCores cs (by decide)), h.regs, h.count, h.flight, h.around⟩

theorem sameWays (h : Refused s d p) : SameWays s d := .of_keepsRegs h.regs (by decide) h.around

end Refused

/-- What becomes of a packet that is refused with STATUS 3: its answer, and then what follows it, joins the mesh; no row is written. -/
def MisdeliveredTo (s : Dev) (p : Packet) (h : LongHdr) (next : List Packet) (d : Dev) : Prop :=
  (∃ a, isAck a h 3 ∧ d.net.flight = s.without p ++ a :: next) ∧
    d.reg (regAddr 8 0x14) = satAdd 32 (s.reg (regAddr 8 0x14)) 1 ∧
    Keeps [.net, .cores, .slices, .sessions, .fab] s d ∧ KeepsRegs refuseRegs s d

/-- A refused packet is answered over its open way. -/
theorem Refused.ack {s d : Dev} {p : Packet} {h : LongHdr} (hr : Refused s d p) (hm : s.Misdirects h) (hfit : h.fit = h) :
    MisdeliveredTo s p h [] (d.ack h 3) ∧ (d.ack h 3).fab = s.fab := by
  have hopen : d.blocked h.dcl ((idCl h.score).getD h.dcl) = false := by
    rw [hr.sameWays.blocked]
    exact (Dev.openWay_iff.mp hm.way).2
  obtain ⟨a, sls, hack, hd⟩ := Dev.ack_home (d := d) hfit (by decide : (3 : Nat) ≠ 0) (by decide) (hm.chip.trans hr.sameWays.coord.symm) hopen
  rw [hd]
  refine ⟨⟨⟨a, hack, by rw [hr.flight]⟩, hr.count, ?_, hr.regs⟩, hr.keeps .fab (by decide)⟩
  exact ((hr.keeps.weaken (by decide)).trans (d.keeps_setSlices sls (by decide))).trans (Dev.keeps_setNet _ _ (by decide))

/-- The add that waits for a stop joins the mesh; beside that, only the fabric changes. -/
theorem Dev.nextAdd_eq (d : Dev) (stop : Nat) :
    ∃ f, d.nextAdd stop = { d with fab := f, net := { d.net with flight := d.net.flight ++ d.addNext stop } } := by
  unfold Dev.nextAdd Dev.addNext
  cases d.fab.adds.find? fun w => addStop w.pkt == stop with
  | none => exact ⟨d.fab, by simp⟩
  | some w => exact ⟨_, rfl⟩

/-- An atomic add that has been answered makes room for the next at its stop (08 R278). -/
theorem MisdeliveredTo.nextAdd {s d : Dev} {p : Packet} {h : LongHdr} (hm : MisdeliveredTo s p h [] d) (hfab : d.fab = s.fab) (stop : Nat) :
    MisdeliveredTo s p h (s.addNext stop) (d.nextAdd stop) := by
  obtain ⟨⟨a, hack, hflight⟩, hcount, hkeeps, hregs⟩ := hm
  obtain ⟨f, hnext⟩ := d.nextAdd_eq stop
  have hadds : d.addNext stop = s.addNext stop := by rw [Dev.addNext, Dev.addNext, hfab]
  rw [hnext, hadds, hflight, List.append_assoc]
  exact ⟨⟨a, hack, rfl⟩, hcount, (hkeeps.trans (d.keeps_setFab f (by decide))).trans (Dev.keeps_setNet _ _ (by decide)), hregs⟩

end Sys2Proof.Machine
end

section
/-! SUPPORT. Long packets that arrive, operation by operation (07 R242, R246; 08 R278), and how each is refused with STATUS 3 (08 R297). -/

namespace Sys2Proof.Machine

theorem State.carries_iff {s : State} {p : Packet} {op : Nat} : s.carries p op = true ↔
    s.inFlight p = true ∧ badForm p = false ∧ pktForm p = 2 ∧ (longHdr p.hdr).op = op ∧ longOk p = true := by
  simp [State.carries, wholePkt, and_assoc]

/-! ### Writes -/

/-- A write that arrives leaves the mesh and lands. -/
theorem exec_packetWrite_of_arrives {s : State} {p : Packet} {h : LongHdr} (trip : Trip) (hh : h = longHdr p.hdr) (hc : s.carries p 0 = true)
    (ha : s.arrives (h.dcl * 8 + h.dcore) p = true) :
    exec (.packetWrite p false trip) s = ok (landWritePkt p false (s.onDev fun d => (d.take p).arrived h trip)) := by
  subst hh
  obtain ⟨-, hform, hlong, hop, -⟩ := State.carries_iff.mp hc
  exact congrArg ok (if_pos (by simp [ha, hform, hlong, hop]))

/-- A write with a nonzero STATUS lands no row. -/
theorem landWritePkt_of_refused {s : State} {p : Packet} {h : LongHdr} {st : Nat} {d : Dev} (hh : h = longHdr p.hdr)
    (hd : s.dev.deliverLong h = (st, d)) (hst : st ≠ 0) : landWritePkt p false s = { s with dev := d.ack h st } := by
  subst hh
  simp only [landWritePkt, hd, hst, ne_eq, not_false_eq_true, if_true]
  rfl

/-! ### Read requests -/

/-- A read request as it is taken from the mesh to be served. -/
def Dev.requested (d : Dev) (x : Request) : Dev :=
  let e := ((d.take x.pkt).arrived (longHdr x.pkt.hdr) x.trip).deferred (longHdr x.pkt.hdr).cls x.late
  { e with net := { e.net with replyHeld := eraseFirst (fun f => f == x.pkt.hdr) e.net.replyHeld } }

/-- A read request that arrives, and whose reply is admitted, is served. -/
theorem exec_packetReadRequest_of_arrives {s : State} {x : Request} {h : LongHdr} (hh : h = longHdr x.pkt.hdr) (hc : s.carries x.pkt 1 = true)
    (ha : s.arrives (h.dcl * 8 + h.dcore) x.pkt = true) (hq : replyCheck s h = .yes) :
    exec (.packetReadRequest x) s = ok (serveRead x.pkt (s.onDev fun d => d.requested x)) := by
  subst hh
  obtain ⟨-, hform, hlong, hop, -⟩ := State.carries_iff.mp hc
  refine congrArg ok ((if_pos (by simp [ha, hform, hlong, hop])).trans ?_)
  simp only [hq]
  rfl

theorem LeftMesh.requested (s : Dev) (x : Request) : LeftMesh s (s.requested x) x.pkt :=
  (((LeftMesh.take s x.pkt).arrived _ _).deferred _ _).setNet rfl rfl

/-- A read request with a nonzero STATUS reads no row. -/
theorem serveRead_of_refused {s : State} {p : Packet} {h : LongHdr} {st : Nat} {d : Dev} (hh : h = longHdr p.hdr)
    (hd : s.dev.deliverLong h = (st, d)) (hst : st ≠ 0) : serveRead p s = { s with dev := d.ack h st } := by
  subst hh
  simp only [serveRead, hd, hst, ne_eq, not_false_eq_true, if_true]
  rfl

/-! ### Read replies -/

/-- A reply that is dropped changes its core alone. -/
theorem replyLost_eq (s : State) (core queue seq : Nat) :
    ∃ cs, replyLost s core queue seq = { s with dev := { s.dev with cores := cs } } := by
  unfold replyLost
  dsimp only
  split
  · split <;> exact ⟨_, rfl⟩
  · exact ⟨s.dev.cores, rfl⟩

/-- A reply with a nonzero STATUS lands no row. -/
theorem landReply_of_refused {s : State} {p : Packet} {h : LongHdr} {st : Nat} {d : Dev} (hh : h = longHdr p.hdr)
    (hd : s.dev.deliverLong h = (st, d)) (hst : st ≠ 0) :
    ∃ cs, landReply p false s = { s with dev := ({ d with cores := cs } : Dev).ack h st } := by
  subst hh
  obtain ⟨cs, hcs⟩ := replyLost_eq { s with dev := d } ((longHdr p.hdr).dcl * 8 + (longHdr p.hdr).dcore) (longHdr p.hdr).squeue
    (longHdr p.hdr).seq
  refine ⟨cs, ?_⟩
  simp only [landReply, hd, hst, ne_eq, not_false_eq_true, if_true, hcs]
  rfl

/-! ### Atomic adds -/

/-- An atomic add as it is taken from its stop, with the flits that it sends into the mesh used of its slice's quota there. -/
def Dev.addTaken (d : Dev) (p : Packet) : Dev :=
  let e := d.take p
  match e.slice? (pktSlice p) with
  | some sl => e.setStopUse (addStop p) sl.id 0 (e.stopUse (addStop p) sl.id 0 + addFlits p)
  | none => e

/-- The first add of its rows that its stop admits is applied, and the next takes its place. -/
theorem exec_atomicAdd_of_first {s : State} {p : Packet} {h : LongHdr} (hh : h = longHdr p.hdr) (hc : s.carries p 3 = true) (hcls : h.cls = 3)
    (hadmits : s.dev.stopAdmits (ringStop h.dcl) p = true) (hfirst : s.dev.addFirst p = true) :
    exec (.atomicAdd p) s = ok ((atomicAdd p (s.onDev fun d => d.addTaken p)).onDev fun d => d.nextAdd (ringStop h.dcl)) := by
  subst hh
  obtain ⟨hflight, hform, hlong, hop, -⟩ := State.carries_iff.mp hc
  exact congrArg ok (if_pos (by simp [hflight, hform, isAdd, hlong, hop, hcls, hfirst, addStop, hadmits]))

theorem LeftMesh.addTaken (s : Dev) (p : Packet) : LeftMesh s (s.addTaken p) p := by
  unfold Dev.addTaken
  dsimp only
  split
  · exact (LeftMesh.take s p).setNet rfl rfl
  · exact .take s p

/-- An atomic add with a nonzero STATUS adds nothing. -/
theorem atomicAdd_of_refused {s : State} {p : Packet} {h : LongHdr} {st : Nat} {d : Dev} (hh : h = longHdr p.hdr)
    (hd : s.dev.deliverLong h = (st, d)) (hst : st ≠ 0) : atomicAdd p s = { s with dev := d.ack h st } := by
  subst hh
  simp only [atomicAdd, hd, hst, ne_eq, not_false_eq_true, if_true]
  rfl

end Sys2Proof.Machine
end

section
/-! SUPPORT. Packets for clusters 72 to 127, which lie in no allocation (02 R76; 10 R348), packets of an invalid form (07 R240), short writes of an
N4 (R245), and frames that transit this device (R264). -/

namespace Sys2Proof.Machine

/-! ### Rows outside every allocation -/

/-- The registers that rows outside an allocation may set (10 R352). -/
def ooaRegs : List Nat := regAddr 10 0x200 :: regAddr 10 0x204 :: regAddr 10 0x208 :: eventRegs 10

theorem Dev.keeps_ooa (d : Dev) (kind core gra : Nat) : Keeps [.sessions] d (d.ooa kind core gra) :=
  .ite (d.keeps_bump _ _ _)
    ((((d.keeps_bump _ _ _).trans (Dev.keeps_setReg _ _ _ _)).trans (Dev.keeps_setReg _ _ _ _)).trans (Dev.keeps_event _ _ _ _ (by decide)))

theorem Dev.keepsRegs_ooa (d : Dev) (kind core gra : Nat) : KeepsRegs ooaRegs d (d.ooa kind core gra) :=
  .ite (d.keepsRegs_bump _ (by decide))
    ((((d.keepsRegs_bump _ (by decide)).trans (Dev.keepsRegs_setReg _ _ (by decide))).trans (Dev.keepsRegs_setReg _ _ (by decide))).trans
      (Dev.keepsRegs_event _ _ _ (by decide)))

/-- What a row outside an allocation sets beside its count. -/
theorem Dev.reg_ooa (d : Dev) (kind core gra : Nat) : (d.ooa kind core gra).reg (regAddr 10 0x200) = satAdd 32 (d.reg (regAddr 10 0x200)) 1 := by
  unfold Dev.ooa
  dsimp only
  split
  · exact Dev.reg_bump_same _ _ _
  · rw [Dev.reg_event _ _ _ _ _ (by decide) (by decide), Dev.reg_setReg_other _ (by decide), Dev.reg_setReg_other _ (by decide), Dev.reg_bump_same]

theorem satAdd_satAdd_one (w a n : Nat) : satAdd w (satAdd w a 1) n = satAdd w a (n + 1) := by
  have hpos := Nat.two_pow_pos w
  unfold satAdd
  split <;> split <;> split <;> omega

theorem Dev.satAdd_reg_zero (d : Dev) (a : Nat) : satAdd 32 (d.reg a) 0 = d.reg a := if_pos (mapGet regReset d.regs a).isLt

/-- Every row of a packet outside an allocation is counted. -/
theorem Dev.foldl_ooa (kind core : Nat) (l : List Nat) (d : Dev) :
    Keeps [.sessions] d (l.foldl (fun d g => d.ooa kind core g) d) ∧ KeepsRegs ooaRegs d (l.foldl (fun d g => d.ooa kind core g) d) ∧
      (l.foldl (fun d g => d.ooa kind core g) d).reg (regAddr 10 0x200) = satAdd 32 (d.reg (regAddr 10 0x200)) l.length := by
  induction l generalizing d with
  | nil => exact ⟨.refl _ d, .refl _ d, (d.satAdd_reg_zero _).symm⟩
  | cons g l ih =>
    obtain ⟨hkeeps, hregs, hcount⟩ := ih (d.ooa kind core g)
    refine ⟨(d.keeps_ooa kind core g).trans hkeeps, (d.keepsRegs_ooa kind core g).trans hregs, ?_⟩
    rw [List.foldl_cons, hcount, d.reg_ooa, satAdd_satAdd_one, List.length_cons]

/-- A write for a cluster beyond the last has STATUS 2, and each of its rows is counted. -/
theorem Dev.deliverLong_beyond (d : Dev) {h : LongHdr} (hop : h.op = 0) (hcl : 72 ≤ h.dcl) :
    ∃ e, d.deliverLong h = (2, e) ∧ Keeps [.sessions] d e ∧ KeepsRegs ooaRegs d e ∧
      e.reg (regAddr 10 0x200) = satAdd 32 (d.reg (regAddr 10 0x200)) (h.len / 8) := by
  have hrows : (pktRowsOf h).length = h.len / 8 := by simp [pktRowsOf, hop]
  obtain ⟨hkeeps, hregs, hcount⟩ := Dev.foldl_ooa ooaPacket (h.dcl * 8 + h.dcore) (pktRowsOf h) d
  rw [hrows] at hcount
  exact ⟨_, if_pos hcl, hkeeps, hregs, hcount⟩

/-- The registers of a write for such a cluster. -/
def strayRegs : List Nat := regAddr 10 0x200 :: regAddr 10 0x204 :: regAddr 10 0x208 :: (eventRegs 10 ++ arriveRegs)

/-- A write for a cluster beyond the last writes nothing and is answered over its open way. -/
theorem acts_packetWrite_beyond {s : State} {p : Packet} {trip : Trip} {h : LongHdr} (hh : h = longHdr p.hdr) (hchip : h.schip = s.dev.coord)
    (hopen : s.dev.openWay h = true) (hcl : 72 ≤ h.dcl) (hc : s.carries p 0 = true) (ha : s.arrives (h.dcl * 8 + h.dcore) p = true) :
    Acts (.packetWrite p false trip) s fun d =>
      (∃ a, isAck a h 2 ∧ d.net.flight = s.dev.without p ++ [a]) ∧
      d.reg (regAddr 10 0x200) = satAdd 32 (s.dev.reg (regAddr 10 0x200)) (h.len / 8) ∧ Keeps [.net, .slices, .sessions] s.dev d ∧
      KeepsRegs strayRegs s.dev d := by
  obtain ⟨-, -, -, hop, -⟩ := State.carries_iff.mp hc
  have hleft := (LeftMesh.take s.dev p).arrived h trip
  obtain ⟨e, hd, hkeeps, hregs, hcount⟩ := ((s.dev.take p).arrived h trip).deliverLong_beyond (hh ▸ hop) hcl
  have hnet : e.net = ((s.dev.take p).arrived h trip).net := hkeeps .net (by decide)
  have hways : SameWays s.dev e := hleft.sameWays.trans (.of_keepsRegs hregs (by decide) (congrArg NetSt.around hnet))
  obtain ⟨a, sls, hack, he⟩ := Dev.ack_home (d := e) (hh ▸ longHdr_fit p.hdr) (by decide : (2 : Nat) ≠ 0) (by decide)
    (hchip.trans hways.coord.symm) ((hways.blocked _ _).trans (Dev.openWay_iff.mp hopen).2)
  have hland := landWritePkt_of_refused (s := s.onDev fun d => (d.take p).arrived h trip) hh hd (by decide)
  refine ⟨e.ack h 2, (exec_packetWrite_of_arrives trip hh hc ha).trans (congrArg ok hland), ?_⟩
  rw [he]
  refine ⟨⟨a, hack, by rw [hnet, hleft.flight]⟩, ?_, ?_, ?_⟩
  · exact hcount.trans (by rw [hleft.regs _ (by decide)])
  · exact (((hleft.keeps.weaken (by decide)).trans (hkeeps.weaken (by decide))).trans (e.keeps_setSlices sls (by decide))).trans
      (Dev.keeps_setNet _ _ (by decide))
  · exact (hleft.regs.weaken (by simp +contextual [strayRegs])).trans (hregs.weaken (by decide))

/-! ### Forms -/

/-- A packet of an invalid form leaves the mesh, counted. -/
theorem acts_packetInvalidForm {s : State} {p : Packet} (hp : s.inFlight p = true) (hbad : badForm p = true) : Acts (.packetInvalidForm p) s fun d =>
    d.net = { s.dev.net with flight := s.dev.without p } ∧ d.reg (regAddr 7 0x28) = satAdd 32 (s.dev.reg (regAddr 7 0x28)) 1 ∧
    Keeps [.net] s.dev d ∧ KeepsRegs [regAddr 7 0x28] s.dev d := by
  refine ⟨(s.dev.take p).bump (regAddr 7 0x28) 1, congrArg ok (if_pos (by rw [hp, hbad, Bool.and_self])), rfl, Dev.reg_bump_same _ _ _, ?_, ?_⟩
  · exact (s.dev.keeps_take p).trans (Dev.keeps_bump _ _ _ _)
  · exact (s.dev.keepsRegs_take _ p).trans (Dev.keepsRegs_bump _ _ List.mem_cons_self)

/-- The answer to an N4 short write (R245). -/
def Dev.n4Answer (d : Dev) (k : ShortPkt) : ShortPkt :=
  { sop := 0, slice := k.slice, gen := d.genFor k.slice k.schip (k.score / 8), dchip := k.schip, dcl := k.score / 8,
    dcore := k.score % 8, arg0 := (bits k.arg0 31 16) <<< 16 + 5 <<< 8, schip := d.coord, score := 0x3FF, arg1 := 0 }

/-- The answer is for the core that sent the write, with STATUS 5 and the SEQ of the write. -/
theorem Dev.n4Answer_fit (d : Dev) (f : Flit) :
    (d.n4Answer (shortPkt f)).fit.sop = 0 ∧ (d.n4Answer (shortPkt f)).fit.dchip = (shortPkt f).schip ∧
    (d.n4Answer (shortPkt f)).fit.dcl * 8 + (d.n4Answer (shortPkt f)).fit.dcore = (shortPkt f).score ∧
    bits (d.n4Answer (shortPkt f)).fit.arg0 15 8 = 5 ∧ bits (d.n4Answer (shortPkt f)).fit.arg0 31 16 = bits (shortPkt f).arg0 31 16 := by
  refine ⟨rfl, ?_, ?_, ?_, ?_⟩ <;>
    simp only [Dev.n4Answer, ShortPkt.fit, shortPkt, bits, Nat.shiftLeft_eq, Nat.shiftRight_eq_div_pow] <;> omega

/-- A short write taken from the mesh, and counted. -/
def Dev.n4Taken (d : Dev) (f : Flit) : Dev := (d.take ⟨f, []⟩).bump (regAddr 7 0x28) 1

theorem Dev.keepsRegs_n4Taken (d : Dev) (f : Flit) : KeepsRegs [regAddr 7 0x28] d (d.n4Taken f) :=
  (d.keepsRegs_take _ _).trans (Dev.keepsRegs_bump _ _ List.mem_cons_self)

theorem exec_n4ShortWrite {s : State} {f : Flit} (hc : s.carriesShort f 3 = true) : exec (.n4ShortWrite f) s =
    ok { s with dev := (s.dev.n4Taken f).sendFrom (shortPkt f).dcl ⟨shortFlit ((s.dev.take ⟨f, []⟩).n4Answer (shortPkt f)), []⟩ } :=
  congrArg ok (shortArrive_of_carries hc _)

/-- A short write leaves the mesh, counted, and is answered. -/
theorem acts_n4ShortWrite {s : State} {f : Flit} (hc : s.carriesShort f 3 = true) (hchip : (shortPkt f).schip = s.dev.coord)
    (hopen : s.dev.blocked (shortPkt f).dcl ((idCl (shortPkt f).score).getD (shortPkt f).dcl) = false) : Acts (.n4ShortWrite f) s fun d =>
    (∃ a : Packet, d.net = { s.dev.net with flight := s.dev.without ⟨f, []⟩ ++ [a] } ∧ (shortPkt a.hdr).sop = 0 ∧
      bits (shortPkt a.hdr).arg0 15 8 = 5 ∧ bits (shortPkt a.hdr).arg0 31 16 = bits (shortPkt f).arg0 31 16) ∧
    d.reg (regAddr 7 0x28) = satAdd 32 (s.dev.reg (regAddr 7 0x28)) 1 ∧ Keeps [.net] s.dev d ∧ KeepsRegs [regAddr 7 0x28] s.dev d := by
  have hways : SameWays s.dev (s.dev.n4Taken f) := .of_keepsRegs (s.dev.keepsRegs_n4Taken f) (by decide) rfl
  obtain ⟨hsop, hdchip, hcore, hst, hseq⟩ := (s.dev.take ⟨f, []⟩).n4Answer_fit f
  have hexec := exec_n4ShortWrite hc
  rw [Dev.sendFrom_home (hdchip.trans (hchip.trans hways.coord.symm)) (by rw [hcore, hways.blocked, hopen])] at hexec
  refine ⟨_, hexec, ⟨_, rfl, ?_⟩, Dev.reg_bump_same _ _ _, ?_, s.dev.keepsRegs_n4Taken f⟩
  · rw [shortPkt_shortFlit]
    exact ⟨hsop, hst, hseq⟩
  · exact ((s.dev.keeps_take _).trans (Dev.keeps_bump _ _ _ _)).trans (Dev.keeps_setNet _ _ (by decide))

/-! ### Transit -/

/-- The first frame by class that is due from one port to another takes its way on the ring; its flits are counted. -/
theorem acts_transitForward {s : State} {a b : Port} {w : WaitFrame} (hfirst : firstByRank (s.dev.fab.wait.filter (s.dev.transitDue a b)) = some w)
    (hfree : s.dev.ringTaken (portStop a) b (ringRank w) = false) : Acts (.transitForward a b 1) s fun d =>
      d.fab.wait = mapIf (fun x => x == w) (fun x => { x with way := some (ringClockwise (portStop a) (portStop b)) }) s.dev.fab.wait ∧
      d.fab = { s.dev.fab with wait := d.fab.wait } ∧ d.reg (regAddr 7 0x38) = (s.dev.reg (regAddr 7 0x38) + frameLen w.fr) % 2 ^ 32 ∧
      Keeps [.fab] s.dev d ∧ KeepsRegs [regAddr 7 0x38] s.dev d := by
  have hexec : exec (.transitForward a b 1) s = ok (s.onDev fun d => d.transit a b) := rfl
  simp only [Dev.transit, hfirst, hfree, Bool.false_eq_true, if_false, State.onDev] at hexec
  refine ⟨_, hexec, rfl, rfl, ?_, (s.dev.keeps_setFab _ (by decide)).trans (Dev.keeps_bumpWrap _ _ _ _), ?_⟩
  · exact (Dev.reg_setReg_same _ _ _).trans (Nat.mod_mod _ _)
  · exact Dev.keepsRegs_bumpWrap _ _ List.mem_cons_self

end Sys2Proof.Machine
end

section
/-! O23. -/

namespace Sys2Proof.Machine

section

variable {s : State} {p : Packet} {h : LongHdr}

/-- A packet that has left the mesh for a cluster that is not its slice's and generation's is counted there. -/
theorem LeftMesh.deliverLong {d : Dev} (hl : LeftMesh s.dev d p) (hm : s.dev.Misdirects h) : d.deliverLong h = (3, d.bump (regAddr 8 0x14) 1) :=
  (hl.misdirects hm).deliverLong

theorem acts_packetWrite_misdirected (trip : Trip) (hh : h = longHdr p.hdr) (hm : s.dev.Misdirects h) (hc : s.carries p 0 = true)
    (ha : s.arrives (h.dcl * 8 + h.dcore) p = true) : Acts (.packetWrite p false trip) s (MisdeliveredTo s.dev p h []) := by
  have hl := (LeftMesh.take s.dev p).arrived h trip
  have hland := landWritePkt_of_refused (s := s.onDev fun d => (d.take p).arrived h trip) hh (hl.deliverLong hm) (by decide)
  exact ⟨_, (exec_packetWrite_of_arrives trip hh hc ha).trans (congrArg ok hland), (hl.refused.ack hm (hh ▸ longHdr_fit p.hdr)).1⟩

theorem acts_packetReadRequest_misdirected (trip : Trip) (wait : Nat) (hh : h = longHdr p.hdr) (hm : s.dev.Misdirects h)
    (hc : s.carries p 1 = true) (ha : s.arrives (h.dcl * 8 + h.dcore) p = true) (hq : replyCheck s h = .yes) :
    Acts (.packetReadRequest ⟨p, trip, wait⟩) s (MisdeliveredTo s.dev p h []) := by
  have hl : LeftMesh s.dev (s.dev.requested ⟨p, trip, wait⟩) p := .requested s.dev ⟨p, trip, wait⟩
  have hserve := serveRead_of_refused (s := s.onDev fun d => d.requested ⟨p, trip, wait⟩) hh (hl.deliverLong hm) (by decide)
  exact ⟨_, (exec_packetReadRequest_of_arrives (x := ⟨p, trip, wait⟩) hh hc ha hq).trans (congrArg ok hserve),
    (hl.refused.ack hm (hh ▸ longHdr_fit p.hdr)).1⟩

theorem acts_packetReadReply_misdirected (trip : Trip) (hh : h = longHdr p.hdr) (hm : s.dev.Misdirects h) (hc : s.carries p 2 = true)
    (ha : s.arrives (h.dcl * 8 + h.dcore) p = true) (ht : replyTurn (s.dev.core (h.dcl * 8 + h.dcore)) h = true) :
    Acts (.packetReadReply ⟨p, trip⟩ false) s (MisdeliveredTo s.dev p h []) := by
  have hl := (LeftMesh.take s.dev p).arrived h trip
  obtain ⟨cs, hland⟩ := landReply_of_refused (s := s.onDev fun d => (d.take p).arrived h trip) hh (hl.deliverLong hm) (by decide)
  exact ⟨_, (exec_packetReadReply_of_arrives trip hh hc ha ht).trans (congrArg ok hland),
    ((hl.refused.setCores cs).ack hm (hh ▸ longHdr_fit p.hdr)).1⟩

theorem acts_atomicAdd_misdirected (hh : h = longHdr p.hdr) (hm : s.dev.Misdirects h) (hc : s.carries p 3 = true) (hcls : h.cls = 3)
    (hadmits : s.dev.stopAdmits (ringStop h.dcl) p = true) (hfirst : s.dev.addFirst p = true) :
    Acts (.atomicAdd p) s (MisdeliveredTo s.dev p h (s.dev.addNext (ringStop h.dcl))) := by
  have hl := LeftMesh.addTaken s.dev p
  have hadd := atomicAdd_of_refused (s := s.onDev fun d => d.addTaken p) hh (hl.deliverLong hm) (by decide)
  obtain ⟨hto, hfab⟩ := hl.refused.ack hm (hh ▸ longHdr_fit p.hdr)
  have hexec := exec_atomicAdd_of_first hh hc hcls hadmits hfirst
  rw [hadd] at hexec
  exact ⟨_, hexec, hto.nextAdd hfab (ringStop h.dcl)⟩

end

/-- Settles O23: a refused packet is taken from the mesh, counted and answered over its open way, whatever its operation. -/
theorem badPacketsWriteNothing : Obligations.BadPacketsWriteNothing := by
  refine ⟨fun s p trip wait h hh hchip _ hway hcl hfence hrouter hstate hother x hx hc harr hcheck hturn hadd => ?_,
    fun s p trip h hh hchip _ hway hcl hc ha => acts_packetWrite_beyond hh hchip hway hcl hc ha,
    fun s p => acts_packetInvalidForm, fun s f => acts_n4ShortWrite, fun s a b w => acts_transitForward⟩
  have hm : s.dev.Misdirects h := ⟨hchip, hway, hcl, hfence, hrouter, hstate, hother⟩
  simp only [List.mem_cons, List.not_mem_nil, or_false] at hx
  obtain rfl | rfl | rfl | rfl := hx
  · exact acts_packetWrite_misdirected trip hh hm hc (harr (Nat.zero_lt_succ 2))
  · exact acts_packetReadRequest_misdirected trip wait hh hm hc (harr (Nat.lt_add_of_pos_right Nat.two_pos)) (hcheck rfl)
  · exact acts_packetReadReply_misdirected trip hh hm hc (harr (Nat.lt_add_one 2)) (hturn rfl)
  · obtain ⟨hcls, hadmits, hfirst⟩ := hadd rfl
    exact acts_atomicAdd_misdirected hh hm hc hcls hadmits hfirst

end Sys2Proof.Machine
end
